-- ==== Sys2Proof/Word.lean ====
section
/-! DEFINITION. The word types of the device and their plainest arithmetic (R8, R9). -/

namespace Sys2Proof

/-- A byte (R9). -/
abbrev Byte := BitVec 8

/-- A 64-bit word: scalar registers, system registers, program addresses. -/
abbrev Word := BitVec 64

/-- A 10-bit logical core ID: die in [9:8], row in [7:4], column in [3:0] (R15). -/
abbrev CoreId := BitVec 10

/-- The bits [hi:lo] of a natural number, bit 0 the least significant (R8). -/
def bits (n lo len : Nat) : Nat := (n >>> lo) % 2 ^ len

/-- One bit of a natural number (R8). -/
def bit (n i : Nat) : Bool := n.testBit i

end Sys2Proof
end

