-- ==== Sys2Proof/Syntax.lean ====
section
/-! DEFINITION. The commands: one constructor of `Instr` per row of spec/opcode_table.json, with the
operands the row's rule gives it. A core row names the core only: the instruction's fields are those of
the word the core holds at its program counter (R60, R63). What comes from outside the package (a frame's
CRC verdict, a sensor, a host's stores, another device's answer) is an operand. -/

namespace Sys2Proof

/-- One error event of a transfer's accesses (R452, R453, R455, R460): the device address; whether a memory link or mesh bridge had
to send it again for its CRC; otherwise an ECC event, with the pseudo-channel, bank and row of HBM it lies in, and whether it could
not be corrected, in HBM by the second read. -/
structure EccEvent where
  addr : Nat
  resent : Bool
  pc : Nat
  bank : Nat
  row : Nat
  secondFails : Bool
deriving DecidableEq, Repr, Inhabited

/-- What befalls a transfer from outside the program's control (R452, R453): the first row, byte or
iteration a no-value error affects, the first element of a knife descriptor whose index read meets one (R165), and the ECC
events of its reads. -/
structure TransferEnv where
  noValue : Option Nat
  ecc : List EccEvent
  noIndex : Option Nat := none
deriving DecidableEq, Repr, Inhabited

/-- Another member's vector of an all-reduce: its fabric ID, its posted byte count and format, its bytes (R324). -/
structure PeerVector where
  id : Nat
  bytes : Nat
  rfmt : Nat
  data : List Byte
  poisoned : Bool
deriving DecidableEq, Repr, Inhabited

/-- How a fabric transfer ends for the far side (R320, R322): done; the target refused the range; a link failed; a
reset at the target absorbed it; a tag was invalid. -/
inductive PeerVerdict where
  | ok | refused | link | reset | badTag
deriving DecidableEq, Repr, Inhabited

/-- The far side's answer to a fabric transfer: how it ended, the bytes written at the target of a PUT, and what a GET
brought, with the poison mark of each 256-byte flit (R319, R322, R449). -/
structure PeerAnswer where
  verdict : PeerVerdict
  done : Nat
  data : List Byte
  flits : List Bool
deriving DecidableEq, Repr, Inhabited

/-- One link of a device's flooded port states (R315). `usable` is false for a port that is out or a gateway. -/
structure FloodLink where
  port : Nat
  neighbour : Nat
  width : Nat
  usable : Bool
deriving DecidableEq, Repr, Inhabited

/-- A device of the fabric domain as a join or a failover sees it (R313, R325). -/
structure DomainMember where
  id : Nat
  serial : Nat
  group : Nat
  candidate : Bool
  registrar : Bool
  reachable : Bool
deriving DecidableEq, Repr, Inhabited

/-- A device that a takeover replaces, as the head knows it (R270, R272, R325): its ID, its ring group, whether it has reported
device-fatal, the units it had present, its partner's feed, and the feed and FEED_OVERRIDE of each device that mirrors to
it. -/
structure FailedDevice where
  id : Nat
  group : Nat
  fatal : Bool
  presentPu : BitVec 16
  partnerFeed : Option Nat
  mirrorFeeds : List (Nat × Bool)
deriving DecidableEq, Repr, Inhabited

/-- A spare device as a takeover finds it (R272, R372), with the partitions its host has laid out, as number, CONF and TENANT, and
the devices its RTP has link sessions with. -/
structure SpareInfo where
  id : Nat
  isOn : Bool
  presentPu : BitVec 16
  feed : Nat
  feedOverride : Bool
  layout : List (Nat × Bool × BitVec 384)
  sessions : List Nat
deriving DecidableEq, Repr, Inhabited

/-- A slot at the partner as one partition's restore reads it (R266, R271): the commit record, the tensor table, the schedule
image and the tensors in manifest order. -/
structure SlotCopy where
  part : Nat
  record : List Byte
  table : List Byte
  image : List Byte
  tensors : List (List Byte)
deriving DecidableEq, Repr, Inhabited

/-- A BF16 working copy that a restore regenerates (R272): its partition, the manifest entry of its FP32 master, and where the
copy lies. -/
structure WorkingCopy where
  part : Nat
  tensor : Nat
  addr : Nat
deriving DecidableEq, Repr, Inhabited

/-- What a takeover learns from the group (R271–R273): the head's choice as another device is told it, the newest committed
generation of each other working device, what the partner's slots hold, and the working copies of this device's jobs. -/
structure GroupView where
  choice : Option Nat
  gens : List (Option Nat)
  slots : List SlotCopy
  copies : List WorkingCopy
deriving DecidableEq, Repr, Inhabited

/-- What admission and a commit learn of the partner device (R268, R372): its feed, the bytes of the mirror reservation
(0 when it is missing), its offset in the partner's HBM region, and whether it lies in a confidential partition. -/
structure PartnerInfo where
  feed : Nat
  mirrorBytes : Nat
  mirrorOffset : Nat
  confidential : Bool
deriving DecidableEq, Repr, Inhabited

/-- The owner's authentication of a mailbox command: the nonce it carries and whether its signature
verifies under the current owner key (R356, R357). -/
structure OwnerAuth where
  nonce : BitVec 384
  signatureOk : Bool
deriving DecidableEq, Repr, Inhabited

/-- What a bundle check finds by cryptography (R362, details 0x03, 0x04, 0x06): the SHA-384 of the key the bundle carries, whether
the signature verifies under that key, the first image whose digest differs; and, of a bundle that is accepted, the number of a
conditional test that the attestation key's making fails (R359). -/
structure BundleVerdict where
  keyHash : BitVec 384
  signatureOk : Bool
  badDigest : Option Nat
  testFailed : Option Nat
deriving DecidableEq, Repr, Inhabited

/-- The algorithms that an SPDM requester offers, of those the device negotiates (R375): signatures of ECDSA NIST P-384, SHA-384, DHE
of secp384r1, AES-256-GCM. -/
structure SpdmOffer where
  ecdsaP384 : Bool
  sha384 : Bool
  secp384r1 : Bool
  aes256Gcm : Bool
deriving DecidableEq, Repr, Inhabited

/-- An operator certificate as SESSION_OPEN carries it (R385, R389). -/
structure OperatorCert where
  issuerHash : BitVec 384
  serial : BitVec 160
  valid : Bool
deriving DecidableEq, Repr, Inhabited

/-- An OAP request as it arrives (R387, R388): the addresses of its datagram and its source port, the fields of its header, its
data, and whether its AES-GCM tag verifies. -/
structure OapRequest where
  source : BitVec 128
  dest : BitVec 128
  port : BitVec 16
  version : BitVec 8
  opcode : BitVec 8
  length : BitVec 16
  session : BitVec 32
  seq : BitVec 32
  index : BitVec 16
  sub : BitVec 8
  data : List Byte
  tagOk : Bool
deriving DecidableEq, Repr, Inhabited

/-- The management roles in rising order (R379). -/
inductive Role where
  | observer | operator | calibrator
deriving DecidableEq, Repr, Inhabited

/-- How a dictionary access reaches the engine (R385): over OAP with the session's role, over I3C with the
role I3C_ROLE gives it, or through the mailbox as owner or as anyone. -/
inductive Via where
  | oap (role : Role)
  | i3c
  | mailbox (owner : Bool)
deriving DecidableEq, Repr, Inhabited

/-- A new eye-map finding of a start step (R432). -/
structure Defect where
  kind : Nat
  unit : Nat
  location : Nat
  point : Nat
deriving DecidableEq, Repr, Inhabited

/-- The trained state of one Hjelis Link port as training leaves it (R310, R311). -/
structure PortTraining where
  lanes : BitVec 4
  neighbour : Nat
  conflict : Bool
  neighbourFec : Nat
deriving DecidableEq, Repr, Inhabited

/-- What a flash part reports through SFDP: its bytes, those of a page and of a sector, and the time of a page program in µs (R476). -/
structure FlashPart where
  bytes : Nat
  page : Nat
  sector : Nat
  programMicros : Nat
deriving DecidableEq, Repr, Inhabited

/-- What a start step finds (R359, R426, R435): a failed self-test number, the defects its tests found,
the copies of flash regions whose newest record is missing or fails its CRC, as region and whether copy B (R403), whether some
link fell back to full training, whether a bridge or hub logic could not be repaired, the ports' and stacks' training, what the flash
part reports, whether the saved settings name another device (R428), and the dies whose regulator does not answer AVSBus (R409). -/
structure StepOutcome where
  selfTestFailed : Option Nat
  defects : List Defect
  damaged : List (Nat × Bool)
  fallback : Bool
  bridgeLost : Bool
  hubLost : Bool
  stacksFailed : List Nat
  ports : List (Nat × PortTraining)
  flash : Option FlashPart
  settingsForeign : Bool
  calibrationOk : Bool
  silentRails : List Nat
deriving DecidableEq, Repr, Inhabited

/-- A temperature sensor: that of a logical core's island (R420), or one of a die or stack, by its sub of UNIT_TEMP, 1–21 (R397,
R459), or that of an engine's island: press units 0–31, the intake 32 (R418). -/
inductive Sensor where
  | core (c : CoreId)
  | unit (sub : Nat)
  | engine (n : Nat)
deriving DecidableEq, Repr, Inhabited

/-- What asserted the supply-sag guard (R404). -/
inductive GuardCause where
  | io18 (millivolt : Nat)
  | aon (millivolt : Nat)
  | pwrWarn
deriving DecidableEq, Repr, Inhabited

/-- What a PLCA beacon period shows (R387). -/
inductive Beacon where
  | none
  | seen (coordinatorCount : Nat) (opportunity : Bool)
deriving DecidableEq, Repr, Inhabited

/-- The commands of the device: one constructor per row of spec/opcode_table.json. -/
inductive Instr where
  -- scalar and control instructions of a core (03)
  | nop (core : CoreId)
  | add (core : CoreId)
  | sub (core : CoreId)
  | and (core : CoreId)
  | or (core : CoreId)
  | xor (core : CoreId)
  | shl (core : CoreId)
  | shr (core : CoreId)
  | sar (core : CoreId)
  | addi (core : CoreId)
  | movi (core : CoreId)
  | shli (core : CoreId)
  | ori (core : CoreId)
  | mul (core : CoreId)
  | mulh (core : CoreId)
  | div (core : CoreId)
  | rem (core : CoreId)
  | divu (core : CoreId)
  | remu (core : CoreId)
  | cmp (core : CoreId)
  | ld (core : CoreId)
  | st (core : CoreId)
  | movs (core : CoreId)
  | sets (core : CoreId)
  | b (core : CoreId)
  | beq (core : CoreId)
  | bne (core : CoreId)
  | blt (core : CoreId)
  | bge (core : CoreId)
  | loop (core : CoreId)
  | swapi (core : CoreId)
  | nopn (core : CoreId)
  | rett (core : CoreId)
  | stop (core : CoreId)
  | trapEntry (core : CoreId)
  -- vector instructions (05)
  | vadd (core : CoreId)
  | vsub (core : CoreId)
  | vmul (core : CoreId)
  | vmin (core : CoreId)
  | vmax (core : CoreId)
  | vand (core : CoreId)
  | vor (core : CoreId)
  | vxor (core : CoreId)
  | vshl (core : CoreId)
  | vshr (core : CoreId)
  | vmov (core : CoreId)
  | vdup (core : CoreId)
  | viota (core : CoreId)
  | vsize (core : CoreId)
  | vext (core : CoreId)
  | vcmp (core : CoreId)
  | vfadd (core : CoreId)
  | vfsub (core : CoreId)
  | vfmul (core : CoreId)
  | vfma (core : CoreId)
  | vfmin (core : CoreId)
  | vfmax (core : CoreId)
  | vfabs (core : CoreId)
  | vfneg (core : CoreId)
  | vmulw (core : CoreId)
  | vdot4 (core : CoreId)
  | vdot2 (core : CoreId)
  | vcvt (core : CoreId)
  | vcvtq (core : CoreId)
  | vrecip (core : CoreId)
  | vrsqrt (core : CoreId)
  | vexp (core : CoreId)
  | vredsum (core : CoreId)
  | vredmax (core : CoreId)
  | vredadd (core : CoreId)
  | vcult (core : CoreId)
  | vcultdrop (core : CoreId)
  | pgenLt (core : CoreId)
  | pgenLtu (core : CoreId)
  | psetall (core : CoreId)
  | pand (core : CoreId)
  | por (core : CoreId)
  | pxor (core : CoreId)
  | pnot (core : CoreId)
  | pcnt (core : CoreId)
  | ffget (core : CoreId)
  | ffput (core : CoreId)
  | ffidx (core : CoreId)
  | vld (core : CoreId)
  | vst (core : CoreId)
  | vlds (core : CoreId)
  | vsts (core : CoreId)
  | vld2 (core : CoreId)
  | vld3 (core : CoreId)
  | vld4 (core : CoreId)
  | vst2 (core : CoreId)
  | vst3 (core : CoreId)
  | vst4 (core : CoreId)
  | vldff (core : CoreId)
  | vgather (core : CoreId)
  | vgatherff (core : CoreId)
  | vscatter (core : CoreId)
  -- tile pipe and array (04)
  | tld (core : CoreId)
  | tst (core : CoreId)
  | wld (core : CoreId)
  | mmt (core : CoreId)
  | mms (core : CoreId)
  | poisonRowHalt (core : CoreId)
  -- sync unit and barriers (09)
  | signal (core : CoreId)
  | wait (core : CoreId)
  | waitRelease (core : CoreId) (elapsed : Nat)
  | semset (core : CoreId)
  | semrd (core : CoreId)
  | rsignalCore (core : CoreId)
  | rsignalPress (core : CoreId)
  | fenceL (core : CoreId)
  | fenceM (core : CoreId)
  | fenceF (core : CoreId)
  | fenceHeldRelease (core : CoreId)
  | semaphoreIncrement (sender target : CoreId) (sem : BitVec 5)
  | barWaitMode (core : CoreId)
  | barSignalMode (core : CoreId)
  | barrierArrival (core : CoreId)
  | barrierNodeReport (part bid die : Nat)
  | deviceReport (part bid device : Nat) (epoch : BitVec 16) (time : Nat)
  | barrierCompletion (part bid time : Nat)
  | barrierReleaseDelivery (core : CoreId) (bid elapsed : Nat)
  | ironVisit (part : Nat)
  -- stream engine (06)
  | snq (core : CoreId)
  | sresume (core : CoreId)
  | copy (core : CoreId) (queue : Nat) (env : TransferEnv)
  | fill (core : CoreId) (queue : Nat) (env : TransferEnv)
  | convert (core : CoreId) (queue : Nat) (env : TransferEnv)
  | streamCompletion (core : CoreId) (queue : Nat)
  -- knife engine (05)
  | knq (core : CoreId)
  | knresume (core : CoreId)
  | gather (core : CoreId) (env : TransferEnv)
  | scatter (core : CoreId) (env : TransferEnv)
  | scatterAdd (core : CoreId) (env : TransferEnv)
  | knifeCompletion (core : CoreId)
  | caveMigrationStart (part page : Nat)
  | caveMigrationComplete (part page : Nat) (ok : Bool)
  -- press units (08)
  | pressDescriptorTake (unit : Nat)
  | vsetl (unit : Nat)
  | pld (unit : Nat) (env : TransferEnv)
  | pst (unit : Nat)
  | padd (unit : Nat)
  | psub (unit : Nat)
  | pmul (unit : Nat)
  | pfma (unit : Nat)
  | pmin (unit : Nat)
  | pmax (unit : Nat)
  | psqrt (unit : Nat)
  | precip (unit : Nat)
  | psign (unit : Nat)
  | pabs (unit : Nat)
  | pneg (unit : Nat)
  | pend (unit : Nat)
  | pressCompletion (unit : Nat)
  -- fabric and Hjelis Link (10)
  | put (core : CoreId) (env : TransferEnv)
  | get (core : CoreId)
  | putSet (core : CoreId) (env : TransferEnv)
  | putGroup (core : CoreId) (env : TransferEnv)
  | allreduce (core : CoreId) (env : TransferEnv) (peers : List PeerVector)
  | fabricCompletion (core : CoreId) (answer : PeerAnswer)
  | peerPutReceive (sender tag target total : Nat) (first last : Bool) (data : List Byte) (flits : List Bool) (tagOk : Bool)
  | getRequestReceive (sender tag target total : Nat) (tagOk : Bool)
  | linkFrameReceive (port : Nat) (flits : List (BitVec 8)) (trailer : BitVec 256) (retry : Option (BitVec 16))
  | portDown (port : Nat)
  | portRetrainComplete (port : Nat) (training : PortTraining)
  | portStateFlood (device : Nat) (links : List FloodLink)
  | routeEpochAdopt (epoch : BitVec 32) (table : List (Nat × BitVec 32))
  | fabricJoin (members : List DomainMember)
  | linkSessionEstablish (part peer : Nat) (proofOk : Bool) (testFailed : Option Nat)
  | linkRekey (part peer : Nat) (outbound : Bool) (testFailed : Option Nat)
  -- checkpoints and spares (08)
  | checkpointCommit (part : Nat) (ok : Bool) (partner : PartnerInfo)
  | takeover (failed : FailedDevice) (spares : List SpareInfo) (group : GroupView)
  | takeoverResume
  | headFailover (members : List DomainMember)
  -- host attachment (11)
  | watchLineInvalidate (ring : Nat) (stores : List Host.Cell)
  | jobAdmit (ring : Nat) (partner : PartnerInfo)
  | jobStep (ring : Nat)
  | jobRelease (ring : Nat)
  | releaseComplete (ring : Nat)
  | segmentLoad (ring : Nat)
  | barrierLoad (ring : Nat)
  | groupLoad (ring : Nat)
  | multicastAllocate (ring : Nat)
  | multicastFree (ring : Nat)
  | peerGrant (ring : Nat)
  | peerRevoke (ring : Nat)
  | ringEnable (ring : Nat) (msix : Bool) (vector : BitVec 11)
  | ringDisable (ring : Nat)
  | hdmWrite (port addr : Nat) (data : List Byte) (poisoned : Bool)
  | hdmRead (port addr len : Nat)
  | caveMapWrite (port entry : Nat) (value : BitVec 256)
  | cxlLinkTrain (port rate width : Nat) (flit256 : Bool)
  -- core and row reset, core control (15, 03)
  | coreReset (part : Nat) (core : CoreId)
  | rowReset (part : Nat) (core : CoreId)
  | resetDrainComplete (part : Nat)
  | coreCtlStart (port : Nat) (core : CoreId) (half : Bool) (entry : BitVec 14) (dumpLs : Bool)
  | startFetchBegin (core : CoreId) (elapsed : Nat)
  | swapiResume (core : CoreId) (elapsed : Nat)
  | coreCtlStop (port : Nat) (core : CoreId)
  | coreCtlDump (port : Nat) (core : CoreId) (dumpLs : Bool)
  | dumpDone (core : CoreId)
  | coreCtlContinue (port : Nat) (core : CoreId)
  | rtcStop (core : CoreId)
  | imemLoadedSet (port : Nat) (core : CoreId) (half : Bool)
  | imemWrite (port : Nat) (core : CoreId) (half : Bool) (index : BitVec 14) (value : Word) (poisoned : Bool)
  | fltHeadWrite (port : Nat) (core : CoreId)
  | faultLogRead (port : Nat) (core : CoreId) (word : BitVec 6)
  | controlRegisterWrite (port bar offset : Nat) (value : Word)
  -- intake (07)
  | wheelOpen (ring : Nat)
  | feed (ring : Nat)
  | feedResume (ring : Nat)
  | close (ring : Nat)
  | closeAbort (ring : Nat)
  | query (ring : Nat)
  | queryClear (ring : Nat)
  | groupStart (wheel engine : Nat)
  | watchdogExpiry (wheel engine : Nat)
  | groupComplete (wheel engine : Nat) (destinationFails : Bool)
  | slotWrite (wheel : Nat)
  | consumedReread (wheel : Nat)
  | encodeGop (wheel engine : Nat) (destinationFails : Bool)
  -- root of trust (12)
  | getStatus
  | loadBundle (offset : Nat) (data : List Byte) (verdict : BundleVerdict)
  | getNonce (testFailed : Option Nat)
  | takeOwnership (keyHash : BitVec 384) (auth : OwnerAuth)
  | selfTest (failed : Option Nat)
  | setLayout (image : List Byte) (auth : OwnerAuth)
  | layoutApplyComplete (testFailed : Option Nat)
  | partitionReset (part : Nat) (auth : OwnerAuth)
  | partitionResetComplete (part : Nat)
  | advanceSvn (auth : OwnerAuth)
  | zeroize (auth : OwnerAuth)
  | getScrub
  | scrubComplete (unit : Nat) (ok : Bool)
  | dictAccessRead (index : BitVec 16) (sub : BitVec 8) (reserved : BitVec 23) (length : BitVec 16)
  | dictAccessWrite (index : BitVec 16) (sub : BitVec 8) (reserved : BitVec 23) (length : BitVec 16) (data : List Byte) (auth : OwnerAuth)
  | getVersion (version : Nat) (offer : SpdmOffer)
  | keyExchange (tenant : Option (BitVec 384)) (ok : Bool) (testFailed : Option Nat)
  | getMeasurements (block : Nat) (nonce : BitVec 256) (session : Option Nat)
  -- dictionary transports (13)
  | read (req : OapRequest)
  | write (req : OapRequest)
  | sessionOpen (req : OapRequest) (cert : OperatorCert)
  | sessionProve (req : OapRequest) (signatureOk : Bool)
  | sessionClose (req : OapRequest)
  | sessionTimeout (session : BitVec 32)
  | bundleChunk (req : OapRequest) (offset : Nat) (data : List Byte) (verdict : BundleVerdict)
  | i3cPrivateWrite (index : BitVec 16) (sub : BitVec 8) (isWrite : Bool) (data : List Byte)
  | i3cPrivateRead
  | setdasa (address : BitVec 7)
  | entdaa (address : BitVec 7)
  | i3cWake (address : BitVec 7)
  | dictWrite (via : Via) (index : BitVec 16) (sub : BitVec 8) (data : List Byte)
  | journalStored
  | restoreFactory (via : Via) (text : List Byte)
  | warmReset (via : Via) (text : List Byte)
  | deviceWarmReset
  | wheyExit (via : Via) (value : BitVec 8)
  | stateRequestOn (via : Via)
  | stateRequestDeepRest (via : Via)
  | powerMode (via : Via) (value : BitVec 8)
  | modeChangeComplete
  | avsbusAck (die millivolt : Nat)
  | hbmProtection (via : Via) (value : BitVec 8)
  | linkFec (via : Via) (value : BitVec 8)
  | waxEnable (via : Via) (value : BitVec 8)
  | auditMode (via : Via) (value : BitVec 8)
  | dozeEnable (via : Via) (value : BitVec 8)
  | errorLogClear (via : Via) (value : BitVec 8)
  | portRetrain (via : Via) (port : Nat) (value : BitVec 8)
  | provisionLock (via : Via) (value : BitVec 8)
  | overlay (via : Via) (index : BitVec 16) (value : BitVec 32)
  | supplyGuardActivate (cause : GuardCause) (copyADone : Bool)
  | supplyGuardClear
  -- power (14)
  | domainPowerGood (domain : Nat) (millivolts : List Nat)
  | domainPowerLoss (domain rail millivolt : Nat)
  | thermalSample (sensor : Sensor) (temp : Int)
  | powerLimitAdjust (core : CoreId) (lower railLimit : Bool) (load : Nat) (demand : List (Nat × Nat))
  | dozeEntry (domain : Nat)
  | dozeWake (domain : Nat) (elapsed : List (Nat × Nat))
  | deepRestWakeComplete (badDomains : List Nat) (narrowed : List (Nat × Nat × Nat))
  -- start, reset and errors (15, 16)
  | coldReset (strap : BitVec 4)
  | startSequence
  | startStepComplete (outcome : StepOutcome)
  | startSupplyTimeout (domain : Nat)
  | stewardTimeout
  | clockLockTimeout
  | memoryLinkRetrain (stack : Nat) (ok : Bool)
  | trainingSave (moved : Bool)
  | memoryLinkLost (stack : Nat)
  | meshFailure (die : Nat)
  | stewardSilent (unit : Nat)
  | plcaBeacon (beacon : Beacon)
  | sectorErase
  | cycleCountWrap (core : CoreId)
  | endSession (session : Nat)
deriving DecidableEq, Repr

end Sys2Proof
end

