-- ==== Sys2Proof/Config.lean ====
section
/-! DEFINITION. What one device fixes for itself and what the spec leaves open: constants without a body,
so that nothing in Lean can see their value. -/

namespace Sys2Proof.Config

/-- Device serial number, 0x1000 sub 3, set per device and fused (R2). -/
opaque serial : BitVec 128

/-- MAC_ADDRESS, 0x1000 sub 4, set per device and fused (R397). -/
opaque macAddress : BitVec 48

/-- FACTORY value of the calibration quantity at an index, set per device (R400). -/
opaque factory : Nat → BitVec 32

/-- The coarse OTP value that FACTORY reads when the factory record fails its check (R400). -/
opaque factoryCoarse : Nat → BitVec 32

/-- SHA-384 of the starter ROM, measurement block 1 (R376). -/
opaque starterDigest : BitVec 384

/-- The n-th 48-byte output of the CTR_DRBG (R354, R357): a free value. -/
opaque drbg : Nat → BitVec 384

/-- SHA-384 of a byte string (FIPS 180-4, R354): an outside standard, left uninterpreted. -/
opaque sha384 : List Byte → BitVec 384

/-- X.509 certificate and key material the RTP issues at the n-th firmware start, MGMT_CERT (R384). -/
opaque mgmtCert : Nat → List Byte

/-- The private content of a wheel's ENGINE_STATE, "contents not specified" (R221). -/
opaque engineState : Nat → BitVec 1024

/-- What a sequence header or parameter set that is activated says of the pictures after it (R215, R216, R222): its
profile, numbered from 0 in the order in which R215 lists those of the codec, any other number being none of them; its
level, ten times the level's number, or for MPEG-2 0 Low, 1 Main, 2 High 1440, 3 High; whether it uses a form that R215
rules out for every codec; whether it holds field, PAFF or MBAFF pictures; whether every picture is intra; chroma 0
monochrome, 1 4:2:0, 2 4:2:2; the bit depth; the picture's size after the stream's own cropping; the reference pictures
it declares; whether full range is signalled; the H.273 chroma location type; film grain. -/
structure StreamInfo where
  profile : Nat
  level : Nat
  ruledOut : Bool
  interlaced : Bool
  intraOnly : Bool
  chroma : Nat
  depth : Nat
  width : Nat
  height : Nat
  refs : Nat
  fullRange : Bool
  chromaLoc : Nat
  grain : Bool
deriving DecidableEq, Repr, Inhabited

/-- A coded picture of a group in output order: the bytes of the elementary stream that code it, 1 where its syntax breaks
the standard and 2 where a reference is missing or damaged, whether it is a field and then whether the top one, which
field comes first, how many coding blocks of 16 by 16 luma samples it decodes (R244), and its planes as rows of samples,
luma first. -/
structure SourcePicture where
  first : Nat
  past : Nat
  cause : Nat
  parity : Option Bool
  topFirst : Bool
  blocks : Nat
  planes : List (List (List Nat))
deriving DecidableEq, Repr, Inhabited

/-- A decoded random-access group: how many pictures it declares, if it does (R244), the activations with the number of its
pictures before each, and its pictures in output order. -/
structure DecodedGroup where
  declared : Option Nat
  activations : List (Nat × StreamInfo)
  pictures : List SourcePicture
deriving DecidableEq, Repr, Inhabited

/-- An access unit of an elementary stream (R227): the place of its first byte, its headers included; whether a sequence
or GOP header stands at its head; whether its picture is an I picture; whether it is an H.264 IDR, an H.264 recovery
point, an H.265 IRAP picture, or an AV1 key frame. -/
structure AccessUnit where
  first : Nat
  header : Bool
  intra : Bool
  idr : Bool
  recovery : Bool
  irap : Bool
  key : Bool
deriving DecidableEq, Repr, Inhabited

/-- The access units of an elementary stream, by the outside standards of R215. -/
opaque accessUnits : (codec : Nat) → (stream : List Byte) → List AccessUnit

/-- What an engine makes of a group, by the outside standards of R215: an uninterpreted function of the codec, the POLICY,
the bytes before the group that its pictures may reference (R228), the group's bytes, and the places, counted from the
first of all these bytes, at which bytes were lost or arrived poisoned, and at which a picture begins that the watchdog
ended (R243). -/
opaque decodeGroup : (codec policy : Nat) → (earlier stream : List Byte) → (bad ended : List Nat) → DecodedGroup

/-- A sample of a line that no field brought: a field with no partner, woven into a frame. -/
opaque absentSample : (line column : Nat) → Nat

/-- The pictures of one encoded GOP, by the outside standards of R215, from its input pictures as planes of rows of
samples, luma first: the same codec, parameters and input give the same bytes (R246). -/
opaque encodeGop : (codec : Nat) → (params : BitVec 512) → (input : List (List (List (List Nat)))) → List (List Byte)

/-- Byte `index` of an HBM sector whose bytes were written under one key and are read under another, by
AES-256-XTS (R197, an outside standard): key 0 is no encryption, `content` the 512 bytes written. -/
opaque xtsByte : (written read sector index content : Nat) → Byte

/-- Byte `index` of a wax tile whose decode check fails: delivered poisoned with no value stated (R196). -/
opaque waxDamaged : (stored index : Nat) → Byte

/-- Byte `index` of the first 64 bytes of a state dump: they hold core ID, stepping, STATE, active half, PC,
ISSUE_COUNT and CYCLE_COUNT at places the spec does not give (R103). The list is those values but stepping. -/
opaque dumpHead : (fields : List Nat) → (index : Nat) → Byte

/-- Where in the reserved region of its stack a partition's iron report lies, which the spec does not give (R297). -/
opaque ironPlace : (part : Nat) → Nat

/-- Where the second slot of a mirror reservation begins, which the spec does not give (R266). -/
opaque secondSlot : (mirrorBytes slotBytes : Nat) → Nat

/-- DETAIL of an HBM error event: its pseudo-channel and bank, at places the spec does not give (R459). -/
opaque eccDetail : (pc bank : Nat) → BitVec 32

/-- Byte `index` of data that never arrived: the knife engine writes such bytes as marked lines, with no value
stated (R166, R452). -/
opaque lostByte : (address : Nat) → Byte

/-- The production-lock fuse of measurement block 0x10 (R376). -/
opaque productionLock : Bool

/-- The payload of GET_STATUS after its status, whose layout the spec does not give (R358): RTP state, failed self-test,
bundle loaded, owner slots used. -/
opaque statusPayload : (fields : List Nat) → List Byte

/-- The payload of GET_SCRUB after its status, whose layout the spec does not give (R374): for each partition, the code of
its scrub state and its count. -/
opaque scrubPayload : (fields : List (Nat × Nat)) → List Byte

/-- The X.509 certificate of the Undiroth device root (R375). -/
opaque rootCert : List Byte

/-- The device identity certificate, whose subject serial number is the device's (R375). -/
opaque identityCert : (serial : BitVec 128) → List Byte

/-- The attestation certificate: issued by the identity key, for an attestation key, with the SHA-384 of the bundle header and
the measurements it certifies (R355, R375). -/
opaque attestCert : (issuer key : Nat) → (headerDigest : BitVec 384) → (measurements : List (BitVec 384)) → List Byte

/-- The signature of a key over a message, by ECDSA P-384 with SHA-384 (FIPS 186-5, an outside standard). -/
opaque ecdsaSign : (key : Nat) → (message : List Byte) → BitVec 768

/-- The low seven bits of the DMTF value type of a measurement block, which the spec does not give (R376). -/
opaque measurementType : (index : Nat) → BitVec 7

/-- An SPDM response message (DSP0274, an outside standard) that carries these values. -/
opaque spdmMessage : (fields : List Nat) → List Byte

/-- The value of a result the spec leaves open, drawn afresh for each use: a free value. -/
opaque freeValue : Nat → BitVec 64

/-- PLDs and measurements aside, what a DUMP, report or response holds in bytes that no rule fixes. -/
opaque freeByte : Nat → Byte

/-- The code of a rail, numbered in the order of R406, in DETAIL of a supply event; R459 names it and gives no codes. -/
opaque railCode : Nat → BitVec 32

end Sys2Proof.Config
end

