-- ==== Sys2Proof/Machine/State.lean ====
section
/-! DEFINITION. The state of the device as plain data, the reasons a step can stop, and the state after a
cold reset. Section numbers and rules R<n> are those of spec/. -/

namespace Sys2Proof.Machine

/-- A table with natural keys in rising order; a key that is not listed holds the table's default. -/
abbrev Tbl (α : Type) := List (Nat × α)

/-- Sparse memory: strictly rising device addresses, no entry equal to the unlisted value (06 R171). -/
abbrev Memory := List Host.Cell

/-! ## A core (03, 04, 05, 09) -/

/-- An address-increment register: base and four signed 48-bit increments (R61, R71). -/
structure AReg where
  base : Word
  inc : Vector (BitVec 48) 4
deriving DecidableEq, Repr

/-- A loop level: its L register (R71) and its END and body start (R74). -/
structure LoopLevel where
  active : Bool
  index : BitVec 21
  count : BitVec 21
  endAt : BitVec 14
  start : BitVec 14
deriving DecidableEq, Repr

/-- A clip counter register (R49). -/
structure ClipCtr where
  count : BitVec 48
  saturated : Bool
deriving DecidableEq, Repr

/-- A clip counter set (R49). -/
structure ClipSet where
  total : ClipCtr
  sat : ClipCtr
  unf : ClipCtr
deriving DecidableEq, Repr

/-- The multiplier slot classes (R37). -/
inductive SlotClass where
  | s16 | s8 | s4
deriving DecidableEq, Repr

/-- The quarters' weight latches (R112): the weight tiles' bytes as a load read them, W0 from byte 0 and W1
from byte 4096 on (R118), the twelve scale-tile rows, how the bytes are laid out (ORIENT), the format, the
slot class and the poison mark (R113). -/
structure Latches where
  weights : BitVec 65536
  scales : BitVec 12288
  rowForm : Bool
  wfmt : BitVec 4
  slot : SlotClass
  poison : Bool
deriving DecidableEq, Repr

/-- The fault classes (R96, R100). -/
inductive FaultClass where
  | trap | halt | log | audit
deriving DecidableEq, Repr

/-- A fault-log entry (R100). -/
structure FaultEntry where
  code : BitVec 8
  cls : FaultClass
  detail : BitVec 6
  index : BitVec 14
  half : Bool
  count : Word
  addr : Word
  aux : BitVec 32
deriving DecidableEq, Repr

/-- CORE_STAT STATE (R95). -/
inductive RunState where
  | stopped | running | waiting | halted | stoppedAtCount | dumping
deriving DecidableEq, Repr

/-- Why issue is held (R82): nothing, a WAIT, a wait-mode BAR, a SWAPI, a START, a trap entry, a dozing domain (R83). -/
inductive Hold where
  | none
  | wait (sem : BitVec 5) (count : BitVec 16)
  | bar (bid : BitVec 10) (epoch : BitVec 16) (dst : BitVec 6)
  | swapi (entry : BitVec 14)
  | start (half : Bool) (entry : BitVec 14)
  | trapEntry
  | doze (domain : Nat)
deriving DecidableEq, Repr

/-- One byte run a vector load brings to a register: register, byte position, local-store offset, bytes. -/
structure Move where
  reg : Nat
  pos : Nat
  addr : Nat
  len : Nat
deriving DecidableEq, Repr

/-- A TLD or TST in flight: the palette entry captured at issue, first row, rows, row bytes, local-store
offset, stride, and for a transposed TLD the element bytes (R129, R130). -/
structure TileMove where
  tpal : BitVec 13
  first : Nat
  rows : Nat
  rbytes : Nat
  addr : Nat
  stride : Nat
  esize : Option Nat
deriving DecidableEq, Repr

/-- A weight load in flight (R118, R119): palettes of W0, W1 and the scale tile, and what it will hold. -/
structure WLoad where
  w0 : BitVec 13
  w1 : BitVec 13
  wscl : Option (BitVec 13)
  q : Nat
  rowForm : Bool
  wfmt : BitVec 4
  slot : SlotClass
deriving DecidableEq, Repr

/-- An MMT in flight (R125). -/
structure MmtRun where
  d : List (BitVec 13)
  a : BitVec 13
  ascl : Option (BitVec 13)
  rows : Nat
  rbytes : Nat
  fmt : BitVec 4
  acc : Bool
deriving DecidableEq, Repr

/-- An MMS in flight (R126, R127): local-store offsets of input and output. -/
structure MmsRun where
  src : Nat
  out : Nat
  rows : Nat
  rbytes : Nat
  fmt : BitVec 4
  acc : Bool
  atr : Bool
  ofmt : Nat
  oblk : Bool
  conv : BitVec 8
  oscale : BitVec 32
deriving DecidableEq, Repr

/-- What happens in one scheduled core cycle: a result becoming available (R78), a local-store access in
its cycle (R180), a row of a tile or array instruction (R79, R128), a semaphore or clip update (R277, R51). -/
inductive Act where
  | wX (r : Nat) (v : Word) (mark : Bool)
  | wF (r : Nat) (v : Bool)
  | wV (r : Nat) (mask : BitVec 256) (v : BitVec 2048) (mark : Bool)
  | wP (r : Nat) (v : BitVec 256)
  | wFfr (v : BitVec 256)
  | wVstart (v : Word)
  | wSys (n : Nat) (v : Word)
  | ldRead (r : Nat) (addr : Nat)
  | lsWrite (runs : List (Nat × List Byte)) (mark : Bool)
  | vRead (now later : List Move) (got : List (Nat × BitVec 2048)) (masks : List (Nat × BitVec 256))
      (marked : List Nat) (avail : Nat)
  | tldRow (p : TileMove) (i : Nat)
  | wTile (tpal : BitVec 13) (row nbytes : Nat) (data : BitVec 1024) (mark : Bool)
  | tstRow (p : TileMove) (i : Nat)
  | wlRows (p : WLoad) (stage : Nat) (got : Latches)
  | wLatch (l : Latches)
  | mmtRow (p : MmtRun) (i : Nat)
  | mmtOut (p : MmtRun) (i : Nat) (groups : List (List Nat)) (mark : Bool)
  | mmsRow (p : MmsRun) (i : Nat)
  | mmsOut (p : MmsRun) (i : Nat) (groups : List (List Nat)) (mark : Bool)
  | mmsWrite (p : MmsRun) (i : Nat) (vals : List Nat) (mark : Bool)
  | semSet (r : Nat) (v : BitVec 16)
  | semInc (r : Nat) (n : Nat) (sender : Option CoreId)
  | clipInc (set total sat unf : Nat)
  | poisonRow (i : Nat)
deriving DecidableEq, Repr

/-- A scheduled act: its core cycle, its place within the cycle, the issue number of its instruction, and
the word index, half and count that a fault or audit event of it names (R100). -/
structure Sched where
  cycle : Nat
  phase : Nat
  seq : Nat
  index : BitVec 14
  half : Bool
  count : Word
  act : Act
deriving DecidableEq, Repr

/-- A bank access still to come: cycle, bank pair 0–31 (group and pair), true for the array's half (R132, R133). -/
structure BankUse where
  cycle : Nat
  pair : Nat
  array : Bool
deriving DecidableEq, Repr

/-- Local-store bytes a fixed-cycle access will move in a cycle (R180, R181). -/
structure PortUse where
  cycle : Nat
  bytes : Nat
  write : Bool
deriving DecidableEq, Repr

/-- The outcome of a descriptor awaiting its completion: STATUS, CAUSE, DONE, and the knife's FAULT_INDEX. -/
structure DescOutcome where
  status : BitVec 8
  cause : BitVec 8
  done : Nat
  faultIndex : Word
deriving DecidableEq, Repr

/-- What a descriptor has of the migrated cave pages it reads (R188): the pages already read for it, those it
waits for, and those whose migration met a no-value error (R452). -/
structure CaveUse where
  pages : Tbl (List Byte)
  waits : List Nat
  bad : List Nat
deriving DecidableEq, Repr

/-- A queued stream descriptor (R199–R205): the record as read, its local-store device address, the
segment descriptors it resolved (R177), its place in the core's order, its outcome and clip counts. -/
structure StreamJob where
  raw : BitVec 1024
  record : Nat
  srcSeg : BitVec 256
  dstSeg : BitVec 256
  id : Nat
  cave : CaveUse
  outcome : Option DescOutcome
  clips : Nat × Nat × Nat
deriving DecidableEq, Repr

/-- A stream queue (R198, R207). -/
structure StreamQ where
  jobs : List StreamJob
  skipping : Bool
  resume : Bool
deriving DecidableEq, Repr

/-- A queued knife descriptor (R162, R163). -/
structure KnifeJob where
  raw : BitVec 512
  record : Nat
  indexSeg : BitVec 256
  tableSeg : BitVec 256
  denseSeg : BitVec 256
  id : Nat
  cave : CaveUse
  outcome : Option DescOutcome
deriving DecidableEq, Repr

/-- The knife engine of a core (R161, R169). -/
structure Knife where
  jobs : List KnifeJob
  skipping : Bool
  resume : Bool
deriving DecidableEq, Repr

/-- The fence classes (R209). -/
inductive FenceClass where
  | l | m | f
deriving DecidableEq, Repr

/-- A fence mark in the core's order (R209), with PRODUCED of the fabric ring as it stood, for FENCE.F (R317). -/
structure FenceMark where
  cls : FenceClass
  seq : Nat
  produced : BitVec 32
deriving DecidableEq, Repr

/-- A core record of the schedule image (R265). -/
structure CoreImage where
  pc : BitVec 14
  half : Bool
  issueCount : Word
  loops : Vector LoopLevel 4
  sems : Vector (BitVec 16) 32
deriving DecidableEq, Repr

/-- An effect the sync unit sends or holds (R285): a local signal, a remote one by its target word
(R281), or a barrier arrival with the core record of R265 as the BAR's issue leaves it. -/
inductive SyncEffect where
  | signal (sem : BitVec 5) (count : BitVec 16)
  | rsignal (target : Word)
  | arrive (bid : BitVec 10) (epoch : BitVec 16) (waits : Bool) (sem : BitVec 5) (image : CoreImage)
deriving DecidableEq, Repr

/-- An effect that fence marks hold (R285): its place in the core's order, the instruction it is of (R100). -/
structure HeldEffect where
  seq : Nat
  index : BitVec 14
  half : Bool
  count : Word
  effect : SyncEffect
deriving DecidableEq, Repr

/-- A transfer of a fabric ring that its engine has taken (R316–R319): the entry as read, its destination as
resolved, the ports it chose, whether one of them went down under it (R309), the result that an all-reduce has yet to
write (R324), its outcome. -/
structure FabricJob where
  raw : BitVec 512
  dstSeg : BitVec 256
  ports : List Nat
  lost : Bool
  reduced : Option (List (BitVec 8))
  outcome : Option DescOutcome
deriving DecidableEq, Repr

/-- A core's fabric ring as its engine sees it (R317, R322): the entries completed (CONSUMED), the transfer
in progress, the skipping state, and the route tables under which entries below a count started, oldest first, where the
routes have changed since (R316). PRODUCED is the word the program keeps in the ring. -/
structure FabricRing where
  consumed : BitVec 32
  current : Option FabricJob
  skipping : Bool
  pinned : List (BitVec 32 × Tbl (BitVec 32))
deriving DecidableEq, Repr

/-- The register sets of a core (R61). -/
structure CoreRegs where
  x : Vector Word 32
  xMark : BitVec 32
  a : Vector AReg 16
  loops : Vector LoopLevel 4
  f : BitVec 8
  v : Vector (BitVec 2048) 32
  vMark : BitVec 32
  p : Vector (BitVec 256) 16
  ffr : BitVec 256
  vstart : Word
  sems : Vector (BitVec 16) 32
  /-- Tile file: bank b, entry e at key 64b + e (R105); an unlisted entry is zero. -/
  tiles : Tbl (BitVec 512)
  /-- Marked tile rows: pair of banks 2p, 2p+1, entry e at key 64p + e (R113). -/
  tileMark : List Nat
  tpal : Vector (BitVec 13) 64
  latches : Latches
deriving DecidableEq, Repr

/-- The system registers of a core that are not register sets of their own (R71). -/
structure CoreSys where
  cultLo : Word
  cultHi : Word
  cultStep : Word
  tvec : BitVec 14
  trapEnable : Bool
  epc : BitVec 15
  causeCode : BitVec 8
  causeDetail : BitVec 6
  issueCount : Word
  /-- The value of `now` at which CYCLE_COUNT was zero, and its sticky wrap bit. -/
  cycZero : Nat
  cycWrap : Bool
  staleReads : BitVec 32
  writeRaces : BitVec 32
  clip : Vector ClipSet 16
  perf : Vector Word 16
deriving DecidableEq, Repr

/-- The control block of a core and its instruction stream (R90, R95, R100, R101, R103). -/
structure CoreCtl where
  state : RunState
  hold : Hold
  pc : Nat
  half : Bool
  handler : Bool
  /-- Loop state as it stood at trap entry, for RETT (R98). -/
  savedLoops : Vector LoopLevel 4
  /-- RETT has just returned: the next instruction is a reissue under R156. -/
  reissue : Bool
  /-- The word that issue waits at while held (R297). -/
  heldAt : BitVec 14
  ctlHalf : Bool
  ctlEntry : BitVec 14
  ctlDumpLs : Bool
  loadedA : Bool
  loadedB : Bool
  lastFault : BitVec 8
  dumpDone : Bool
  /-- A DUMP in progress began from Stopped at count, and returns there (R95). -/
  dumpAtCount : Bool
  /-- DUMP_ADDR and DUMP_LS as the DUMP in progress took and checked them (R103). -/
  dumpTo : Word
  dumpLs : Bool
  rtcLimit : BitVec 48
  rtcEnable : Bool
  dumpAddr : Word
  log : Vector FaultEntry 16
  logRead : BitVec 16
  fltNext : BitVec 4
  fltOverwritten : BitVec 16
  /-- Instruction memory: half h, word i at key 16384h + i (R89); an unlisted word is zero. -/
  imem : Tbl Word
  imemMark : List Nat
  /-- AUDIT_MODE as selected at the last START (R398). -/
  audit : Nat
deriving DecidableEq, Repr

/-- What a core has in flight: its next issue cycle, its order number, its schedule, when each engine is
free again (scalar, vector, tile pipe, array, stream, knife, sync), accesses still to come, queues, marks. -/
structure CoreFlight where
  now : Nat
  seq : Nat
  sched : List Sched
  busy : Vector Nat 7
  banks : List BankUse
  ports : List PortUse
  streams : Vector StreamQ 4
  knife : Knife
  marks : List FenceMark
  held : List HeldEffect
  /-- The status of a refused wait-mode arrival on its way back to the core (R292). -/
  answer : Option (BitVec 3)
  /-- A descriptor of the core's queues has completed since its last instruction issued: the core's clock ran on while
  issue was held (R412). -/
  fed : Bool
  fabric : FabricRing
  /-- A core reset of this core is draining (R443). -/
  resetting : Bool
deriving DecidableEq, Repr

/-- A core (R59, R61). -/
structure Core where
  regs : CoreRegs
  sys : CoreSys
  ctl : CoreCtl
  flight : CoreFlight
deriving DecidableEq, Repr

/-! ## Partitions, barriers and jobs (09, 11, 12) -/

/-- A barrier arrival: the core, whether it waits, and its semaphore (R290). -/
structure Arrival where
  core : CoreId
  waits : Bool
  sem : BitVec 5
deriving DecidableEq, Repr

/-- A rennet node of one die (R288, R293): its open epoch, the arrivals counted and held early, whether
it has reported, and the arrivals its current release has still to reach. -/
structure BarNode where
  openEpoch : BitVec 16
  counted : List Arrival
  early : List Arrival
  reported : Bool
  releasing : List Arrival
deriving DecidableEq, Repr

/-- A barrier of a partition: its loaded entry (R286), its members as resolved at load, its four die
nodes, the dies whose report the root holds, the device reports the head holds with their arrival times
(the open epoch's, and those of the next held early), the times of the two last releases, and each device's run of straggling steps (R270). -/
structure Barrier where
  entry : BitVec 256
  members : List CoreId
  nodes : Vector BarNode 4
  rootEpoch : BitVec 16
  rootReports : List Nat
  deviceReported : Bool
  devices : List (Nat × Nat)
  earlyDevices : List (Nat × Nat)
  /-- The place of its last release among those its root has sent (R300, R303). -/
  releaseNo : Nat
  lastRelease : Option Nat
  prevRelease : Option Nat
  straggles : Tbl Nat
  completing : Bool
deriving DecidableEq, Repr

/-- The state of a generation buffer (R260). -/
inductive BufState where
  | writing | stable | draining
deriving DecidableEq, Repr

/-- The sequencer's record of one generation buffer (R260). -/
structure BufRec where
  gen : BitVec 32
  state : BufState
deriving DecidableEq, Repr

/-- A migrated cave page: its cave device address, its slot, the order it migrated in (R188, R189). -/
structure CavePage where
  page : Nat
  slot : Nat
  age : Nat
  ready : Bool
deriving DecidableEq, Repr

/-- A peer grant (R320, R344): sender fabric ID, unit, tag, bytes and device address. -/
structure PeerGrant where
  sender : Nat
  unit : Nat
  tag : BitVec 32
  bytes : Nat
  base : Nat
deriving DecidableEq, Repr

/-- The schedule image as captured (R264): generation, step number, fabric ID, units, rings (consumer
index, completion index, last sequence number), barrier epochs, core records, press units, wheels. -/
structure SchedImage where
  gen : BitVec 32
  step : Word
  fabricId : BitVec 16
  units : BitVec 16
  rings : Tbl (BitVec 32 × BitVec 32 × BitVec 32)
  epochs : Tbl (BitVec 16)
  cores : Tbl CoreImage
  press : Tbl (BitVec 32 × BitVec 32)
  wheels : List (Nat × BitVec 1024)
deriving DecidableEq, Repr

/-- An admitted job (R340). -/
structure Job where
  tag : BitVec 32
  ring : Nat
  hbmBytes : Nat
  caveSlots : Nat
  lsBytes : Nat
  stepBarrier : Nat
  interval : Nat
  partner : BitVec 16
  mirrorTag : BitVec 32
  manifest : List (BitVec 256)
  mailboxOfs : Nat
  mailboxSem : BitVec 5
  fabricOfs : Nat
  fabricEntries : Nat
  pressOfs : Nat
  pressEntries : Nat
  stagingPu : Nat
  stagingGib : Nat
  hdmSlot : Nat
  stagingOfs : Nat
  bases : Tbl Nat
  caveWindow : Nat
  cavePages : List CavePage
  /-- Pages of RES = 1 segments that an access waits for (R188). -/
  caveWaits : List Nat
  migrated : Nat
  gen : BitVec 32
  bufs : Vector BufRec 2
  stepNo : Word
  /-- The ring whose STEP has not completed (R342). -/
  stepRing : Option Nat
  /-- Step-barrier arrivals not yet released, (core, epoch), the epochs whose boundary is already unstable
  (R261), and the core records at arrival by 65536 × core + epoch (R264). -/
  arrived : List (Nat × Nat)
  unstable : List Nat
  arrivalImages : Tbl CoreImage
  image : Option SchedImage
  draining : Option (BitVec 32)
  /-- The image of the generation being drained (R263). -/
  drainImage : Option SchedImage
  /-- The commit record of the drain in progress, once it has sent what goes before it (R266). -/
  drainSent : Option (List (BitVec 8))
  /-- Generations that wait for the drain in progress, with their images (R262, R263). -/
  queued : List (BitVec 32 × SchedImage)
  /-- The mirror reservation at the partner: its bytes and its offset in the partner's HBM region (R266, R268). -/
  mirrorBytes : Nat
  mirrorOffset : Nat
  /-- The committed generation of each slot of the mirror reservation, and the slot of the newest (R266). -/
  slots : Vector (Option (BitVec 32)) 2
  newest : Nat
  independence : Nat
deriving DecidableEq, Repr

/-- A range granted by the layout: base, tier and length (R366). -/
structure GrantRange where
  base : Nat
  tier : Nat
  length : Nat
deriving DecidableEq, Repr

/-- A partition record of the layout (R366). -/
structure PartRec where
  valid : Bool
  conf : Bool
  port : Nat
  engines : BitVec 32
  rings : BitVec 64
  tenant : BitVec 384
  grants : List GrantRange
deriving DecidableEq, Repr

/-- The iron sweep of a partition (R296): the core visited next, each core's ISSUE_COUNT at its last
visit, what the running sweep has found, whether the sweep before it met every condition, the count of
sweeps, and the report of a deadlock (R297). -/
structure Iron where
  next : Nat
  visits : Tbl Word
  /-- The report's record of each core that was blocked at its last visit, by its place in the report (R297). -/
  records : Tbl (BitVec 128)
  blocked : Nat
  allBlocked : Bool
  disturbed : Bool
  prevOk : Bool
  sweeps : BitVec 32
  report : Option (List (Nat × BitVec 128))
  reportBlocked : BitVec 16
deriving DecidableEq, Repr

/-- What a RESET_CTL page holds (R442). -/
structure ResetCtl where
  core : BitVec 10
  kind : BitVec 2
  busy : Bool
  result : BitVec 2
  count : BitVec 32
deriving DecidableEq, Repr

/-- Where a scrub of a partition or unit stands: pending while its cores drain, running, complete, or failed, which every report
calls pending (R373, R374, R456). -/
inductive ScrubState where
  | none | pending | running | complete | failed
deriving DecidableEq, Repr

/-- A partition (12): its layout record, segment table (R174), barrier table (R286), job, iron sweep,
reset page, scrub, keys and errors. -/
structure Part where
  layout : PartRec
  segs : Tbl (BitVec 256)
  barriers : Tbl Barrier
  job : Option Job
  grants : List PeerGrant
  iron : Iron
  resetCtl : ResetCtl
  resetting : Bool
  releasing : Option Nat
  scrub : ScrubState
  scrubs : BitVec 32
  xtsKey : Option Nat
  fatal : Bool
  held : Bool
  /-- Barrier releases its root has sent. -/
  releases : Nat
deriving DecidableEq, Repr

/-! ## Intake (07) -/

/-- A clip-list entry as fed (R225, R246). -/
structure Clip where
  start : Word
  groups : BitVec 16
  skip : BitVec 32
  frames : BitVec 32
  tag : BitVec 32
  dest : Word
deriving DecidableEq, Repr

/-- A tubelet formed and not yet written: its index in the clip, whether it is drawn from a concealed picture, its bytes. -/
structure Tubelet where
  index : Nat
  affected : Bool
  bytes : List Byte
deriving DecidableEq, Repr

/-- A kept picture converted (R232): its element codes by row, column and channel, and whether it was concealed. -/
structure KeptPicture where
  codes : List (List (List Nat))
  affected : Bool
deriving DecidableEq, Repr

/-- The clip in progress of a wheel (R229, R241): its entry and CLIP_SEQ, groups done and started, where in its elementary
stream the next group starts, pictures decoded, output (j) and kept, its damage events, its tubelets formed and written,
its clip counts, the pictures of the step being formed with their counts, the last output picture, tubelets that wait,
the places of its stream at which a picture begins that the watchdog ended, and the status with which it has ended. -/
structure ClipRun where
  clip : Clip
  seq : BitVec 32
  groupsDone : Nat
  started : Nat
  nextAt : Nat
  pictures : Nat
  outputs : Nat
  kept : Nat
  events : Nat
  tubelets : Nat
  written : Nat
  sat : Nat
  unf : Nat
  degraded : Bool
  grain : Bool
  step : List KeptPicture
  stepClips : Nat × Nat
  last : Option (Config.StreamInfo × List (List (List Nat)))
  ready : List Tubelet
  ended : List Nat
  status : Option Nat
deriving DecidableEq, Repr

/-- A group on an engine (R227): the clip it is of, with its number and its START, the group's place and size in the
elementary stream, whether the engine has finished it, whether its destination failed, and the pictures the watchdog has
ended (R244). -/
structure GroupRun where
  engine : Nat
  seq : BitVec 32
  start : Nat
  pos : Nat
  size : Nat
  finished : Bool
  fails : Bool
  expiries : List Nat
deriving DecidableEq, Repr

/-- A wheel (R221): the fields of its context, its recipe or encode parameters as read at OPEN, the addresses of the
clip-list entries of its pending clips (R225), the clip in progress, its ring counts. -/
structure Wheel where
  state : Nat
  codec : BitVec 4
  input : Bool
  srcRes : Bool
  srcClosed : Bool
  pid : BitVec 13
  policy : BitVec 2
  par : BitVec 3
  engine : BitVec 8
  puMask : BitVec 16
  part : Nat
  srcBase : Word
  srcSize : Word
  pos : Word
  rapPos : Word
  dpbBase : Word
  dpbSize : BitVec 32
  job : BitVec 32
  cplBase : Word
  cplCount : BitVec 16
  cplIndex : BitVec 32
  clipSeq : BitVec 32
  pendingCount : BitVec 32
  phase : BitVec 32
  /-- The ten event counters of R221, ERR_SYNTAX first. -/
  counters : Vector (BitVec 16) 10
  recipe : BitVec 1024
  clips : List Nat
  run : Option ClipRun
  cave : CaveUse
  produced : BitVec 32
  /-- CONSUMED of its ring as the intake last read it (R239). -/
  consumed : BitVec 32
  /-- Groups on engines, oldest first (R228). -/
  running : List GroupRun
  /-- A CLOSE was accepted, with its ABORT (R226). -/
  closing : Option Bool
  stateNo : Nat
deriving DecidableEq, Repr

/-- The intake (07): the wheel table and, per engine, whether it is present, the partition it is granted
to, and the wheels whose contexts it keeps resident, most recently used first (R227). -/
structure Intake where
  wheels : Tbl Wheel
  enginesPresent : BitVec 32
  resident : Tbl (List Nat)
  busyCycles : Tbl Word
deriving DecidableEq, Repr

/-! ## Press units (08) -/

/-- A press unit (R248, R253, R257): registers, the descriptor in progress and its program, its ring
indexes, entries made available, and the stores of the running iteration. -/
structure Press where
  pv : Vector (BitVec 16384) 16
  pk : Vector (BitVec 32) 16
  vl : Nat
  pos : Nat
  desc : Option (BitVec 3072)
  prog : List (BitVec 32)
  pc : Nat
  readIndex : BitVec 32
  available : Nat
  skipping : Bool
  outcome : Option DescOutcome
  clips : Nat × Nat × Nat
  lastGen : BitVec 32
  heldOnce : Bool
  /-- Stores of the iteration in progress, which take effect at its PEND (R251, R258). -/
  stores : List (Nat × List Byte)
  /-- Clip counts of those stores (R50). -/
  pendClips : Nat × Nat × Nat
deriving DecidableEq, Repr

/-! ## Fabric and links (10) -/

/-- Whose flits a link frame carries: a transfer of a core, a drain of a partition, an answer to a peer, or control (R309). -/
inductive FrameOwner where
  | core (c : CoreId)
  | drain (part : Nat)
  | answer
  | control
deriving DecidableEq, Repr

/-- A frame sent and not yet acknowledged (R307, R309): SEQ, ACK, the channel of each flit (VCMAP), the flits of buffer it returns
on the request and the response channel (CREDITS), whose it is, and how often it has been replayed. -/
structure LinkFrame where
  seq : BitVec 16
  ack : BitVec 16
  vcmap : List Nat
  credits : Nat × Nat
  owner : FrameOwner
  replays : Nat
deriving DecidableEq, Repr

/-- A Hjelis Link port (R305–R312, R326). -/
structure Port where
  width : Nat
  retraining : Bool
  neighbour : BitVec 12
  retrains : Nat
  isDown : Bool
  fecMode : Nat
  gateway : Bool
  /-- The operator asked for a retrain that has not begun (R312). -/
  wanted : Bool
  /-- A takeover has cut off the device at the other end (R272). -/
  fenced : Bool
  /-- Link-layer state: last SEQ accepted, next SEQ to send, frames sent or to be sent and not yet acknowledged, of which 64
  may be outstanding. -/
  rxSeq : BitVec 16
  txSeq : BitVec 16
  unacked : List LinkFrame
  /-- Flits of buffer the other end has returned, and flits received whose buffer is still to be returned, on the request and
  the response channel (R307). -/
  credits : Nat × Nat
  due : Nat × Nat
  framesReplayed : Word
  retryAsked : Option (BitVec 16)
deriving DecidableEq, Repr

/-- What a control packet carries: a device's port states, or a member's route table with its epoch (R315). -/
inductive Control where
  | none
  | portStates (device : Nat) (links : List FloodLink)
  | routes (epoch : BitVec 32) (table : Tbl (BitVec 32))
deriving DecidableEq, Repr

/-- A packet this device has handed to its links (R308): kind, source, destination, target, tag, TOTAL, FIRST, LAST, ENC, data,
the poison mark of each flit, for a transfer answer the status and cause it carries, and for a control packet what it says. -/
structure OutPacket where
  kind : Nat
  src : Nat
  dst : Nat
  target : Nat
  tag : Nat
  total : Nat
  first : Bool
  last : Bool
  enc : Bool
  data : List Byte
  flits : List Bool
  answer : Nat
  control : Control
deriving DecidableEq, Repr

/-- An incoming transfer under way (R320): its sender and tag, the device address it starts at, its bytes, how many
have come, whether the target accepted it, and the partition of its grant. -/
structure Incoming where
  sender : Nat
  tag : Nat
  base : Nat
  total : Nat
  next : Nat
  accepted : Bool
  part : Nat
deriving DecidableEq, Repr

/-- A link session of a confidential partition with a peer (R371): key numbers and packet counters. -/
structure LinkSession where
  part : Nat
  peer : Nat
  keyOut : Nat
  keyIn : Nat
  countOut : Nat
  countIn : Nat
deriving DecidableEq, Repr

/-- What goes on in a takeover (R272, R273): 0 none, 3 holding, 4 a spare that has taken its identity and waits for its jobs, 1
restored and held, 2 stopped with a reason; the devices whose traffic is dropped, and those that straggled at the last step
boundary (R270). -/
structure Takeover where
  phase : Nat
  failed : Nat
  spare : Option Nat
  reason : Nat
  dropped : List Nat
  stragglers : List Nat
deriving DecidableEq, Repr

/-- The fabric state of the device (10). -/
structure Fabric where
  ports : Tbl Port
  routes : Tbl (BitVec 32)
  routeEpoch : BitVec 32
  assignedId : BitVec 16
  joinStatus : Nat
  groupState : Nat
  headId : BitVec 16
  topology : Tbl (List FloodLink)
  members : List DomainMember
  /-- Group tables: die d, entry e at key 256d + e (R302). -/
  groups : Tbl (BitVec 256)
  /-- Multicast groups with the partition that allocated each (R323). -/
  mcast : Tbl (Nat × BitVec 512)
  sent : List OutPacket
  incoming : List Incoming
  /-- GET requests of peers whose answers wait for a rekey: partition, sender, tag, device address, bytes (R371). -/
  getsWaiting : List (Nat × Nat × Nat × Nat × Nat)
  sessions : List LinkSession
  takeover : Takeover
  /-- Serial numbers of devices that takeovers have replaced: they are members no more (R273). -/
  replaced : List Nat
deriving DecidableEq, Repr

/-! ## Host attachment (11) -/

/-- A job ring: its configuration block (R332), its sequence rule (R335), PRODUCED as last fetched, the
record in progress (R334). -/
structure Ring where
  enable : Bool
  msix : Bool
  vector : BitVec 11
  stopped : Bool
  ringBase : Word
  prodLine : Word
  cplBase : Word
  ringLog2 : BitVec 4
  cplLog2 : BitVec 4
  consumed : BitVec 32
  cplNext : BitVec 32
  produced : BitVec 32
  /-- SEQ of the last record taken since ENABLE (R335) and of the last one completed (R264). -/
  lastSeq : Option (BitVec 32)
  lastDone : BitVec 32
  current : Option (BitVec 2048)
  disabling : Bool
deriving DecidableEq, Repr

/-- The host attachment (11). -/
structure HostIf where
  rings : Tbl Ring
  /-- HOST_LINK of each port: width 0 unlinked, 4, 8, 16; rate code (R329). -/
  linkWidth : Vector Nat 2
  linkRate : Vector Nat 2
  /-- Rate and width of each port's link when Deep Rest was entered (R417). -/
  restLink : Vector (Nat × Nat) 2
  /-- CAVE_MAP of each port: port p, entry e at index 8p + e (R330, R351). -/
  caveMap : Vector (BitVec 256) 16
  /-- Words of a port's CXL configuration space and HDM decoders, as the host has written them: port p, word w at key
  0x20000p + w (R327, R447). -/
  config : Tbl Word
  /-- HDM slots: port p, slot n at key 1024p + n, holding the device address of its GiB (R347). -/
  hdm : Tbl Nat
  /-- MSI-X messages sent, (port, vector), newest first (R338). -/
  msix : List (Nat × Nat)
  /-- The MSI-X table and pending bits: port p, word w at key 0x20000p + w. -/
  msixTable : Tbl Word
  hdmData : List Byte
  hdmMarked : Bool
  lastRead : Word
deriving DecidableEq, Repr

/-! ## Root of trust (12) -/

/-- Which transport owns a bundle load (R360). -/
inductive LoadOwner where
  | mailbox | oap
deriving DecidableEq, Repr

/-- An SPDM session (R355, R356, R375): the hash of its requester's public key, if it has authenticated, and its key. -/
structure SpdmSession where
  id : Nat
  tenant : Option (BitVec 384)
  key : Nat
deriving DecidableEq, Repr

/-- What a background operation of the mailbox is (R358). -/
inductive Background where
  | none
  /-- Once the rings of the changed partitions are disabled, the scrubs of what leaves have begun (R368). -/
  | layout (image : List Byte) (begun : Bool)
  | reset (part : Nat)
  | zeroize
deriving DecidableEq, Repr

/-- The RTP (12). Keys are numbered by the DRBG output that made them; no key bits are held. -/
structure Rtp where
  error : Bool
  selfTestFailed : BitVec 16
  errorSinceStart : Bool
  owner : Option LoadOwner
  chunks : List (Nat × List Byte)
  bundleLoaded : Bool
  digests : Vector (BitVec 384) 5
  headerDigest : BitVec 384
  svn : BitVec 8
  minSvn : BitVec 6
  /-- The Undiroth signing-key fuses: slots filled in [3:0], slots revoked in [7:4] (R355, R376). -/
  signing : BitVec 8
  /-- The Undiroth signing-key hashes of the four slots (R355). -/
  signingHash : Vector (BitVec 384) 4
  /-- The number of the device identity key, which its fuses hold (R355). -/
  identityKey : Nat
  ownerSlots : List (BitVec 384)
  nonce : Option (BitVec 384)
  /-- Outputs drawn from the DRBG, requests since it was seeded, and seedings (R355). -/
  drbgCount : Nat
  drbgSince : Nat
  drbgSeeds : Nat
  background : Background
  lastCode : Nat
  output : List Byte
  attestKey : Option Nat
  spdm : List SpdmSession
  spdmNext : Nat
  /-- Version 1.2 and the device's algorithms have been negotiated (R375). -/
  spdmVersion : Bool
  spdmOutput : List Byte
  unitScrub : Tbl ScrubState
  scrubRecords : List Nat
  layoutImage : List Byte
  puMap : Vector (BitVec 8) 16
deriving DecidableEq, Repr

/-! ## Dictionary and transports (13) -/

/-- A response of a dictionary transport: status, DETAIL and data (R382, R405). -/
structure DictResult where
  status : BitVec 8
  detail : BitVec 8
  data : List Byte
deriving DecidableEq, Repr

/-- What a response repeats of its OAP request, and where it goes (R387, R388). -/
structure OapHeader where
  peer : BitVec 128
  port : BitVec 16
  opcode : BitVec 8
  session : BitVec 32
  seq : BitVec 32
  index : BitVec 16
  sub : BitVec 8
deriving DecidableEq, Repr

/-- An OAP response (R388); a tag protects it within a session (R389, R392). -/
structure OapResponse where
  header : OapHeader
  result : DictResult
  tagged : Bool
deriving DecidableEq, Repr

/-- An OAP session (R389, R390). -/
structure OapSession where
  id : BitVec 32
  role : Role
  proven : Bool
  lastSeq : BitVec 32
  response : Option DictResult
deriving DecidableEq, Repr

/-- Which access a result goes back to (R381): a command of its own, an OAP session, the I3C target, the mailbox; an
I3C access that a later private write has replaced has its result lost (R393). -/
inductive Origin where
  | command
  | oap (header : OapHeader)
  | i3c
  | i3cLost
  | mailbox
deriving DecidableEq, Repr

/-- A dictionary access over I3C (R393). -/
structure I3cAccess where
  index : BitVec 16
  sub : BitVec 8
  isWrite : Bool
  data : List Byte
deriving DecidableEq, Repr

/-- What a flash record sets (R401, R403, R438): one entry, the factory settings, the record of WHEY_EXIT. -/
inductive JournalRecord where
  | entry (index sub : Nat) (data : List Byte)
  | factory
  | wheyExit
deriving DecidableEq, Repr

/-- A write that waits on the flash (R381, R403). -/
structure JournalWrite where
  rcd : JournalRecord
  origin : Origin
deriving DecidableEq, Repr

/-- A boot-history entry (R440). -/
structure BootEntry where
  number : BitVec 32
  kind : Nat
  outcome : Nat
  step : Nat
  reason : BitVec 16
  eyeAdded : Nat
  present : BitVec 16
  duration : Nat
deriving DecidableEq, Repr

/-- An error-log entry (R459). -/
structure ErrEntry where
  source : BitVec 8
  cls : BitVec 2
  part : Option (BitVec 4)
  redacted : Bool
  unit : BitVec 8
  core : BitVec 10
  address : Word
  count : BitVec 32
  detail : BitVec 32
  number : BitVec 32
deriving DecidableEq, Repr

/-- What a copy of the flash store's regions holds (R402, R403): in the eye-map region the eye map; in the settings region the saved
settings; in the journal Persistent and Retained entries, with the settings' mark of invalidity; in the history region the boot
history, refused bundles and scrub records. -/
structure FlashStore where
  entries : Tbl (List Byte)
  eyeMap : List (BitVec 128)
  saved : Option (BitVec 384 × Nat)
  savedInvalid : Bool
  history : List BootEntry
  refusals : List (BitVec 16)
  failedStarts : BitVec 8
  failReason : BitVec 16
  failStep : Nat
  interrupted : Option BootEntry
  scrubRecords : List Nat
  number : BitVec 32
  lastFatal : Option ErrEntry
  rowWatchAdded : BitVec 32
  guardEvents : BitVec 32
  interruptedWrites : BitVec 32
  restoreCount : BitVec 32
deriving DecidableEq, Repr

/-- Copy B of a flash region that lies behind copy A: the sequence number of its newest valid record, and its contents (R403,
R405). -/
structure FlashCopy where
  seq : BitVec 32
  store : FlashStore
deriving DecidableEq, Repr

/-- The dictionary engine and its transports (13). Entries that no other part of the state holds are kept by key
256·index + sub; an unlisted one has its table's default (R397). -/
structure Dict where
  entries : Tbl (List Byte)
  /-- Writes that wait on the flash, oldest first (R381). -/
  queue : List JournalWrite
  /-- The sequence number of the newest record of each region in two copies, eye map, settings, journal, history (R403). -/
  flashSeq : Vector (BitVec 32) 4
  /-- Copy B of the regions whose newest record did not complete there (R405). -/
  behind : Tbl FlashCopy
  /-- Regions whose copy A ends in a record that did not complete (R405). -/
  spoiled : List Nat
  /-- The flash has been programmed or erased since the reset. -/
  flashUsed : Bool
  flashAbsent : Bool
  flashRepaired : Bool
  stash : Option FlashStore
  calInvalid : Bool
  guardIo18 : Bool
  guardAon : Bool
  guardWarn : Bool
  guardEvents : BitVec 32
  interruptedWrites : BitVec 32
  restoreCount : BitVec 32
  sessions : List OapSession
  nextSession : BitVec 32
  /-- The last OAP response sent. -/
  oap : Option OapResponse
  i3cDynamic : Option (BitVec 7)
  i3cStrap : BitVec 4
  /-- The I3C result that waits for its private read, and what the last private read returned: none is a NACK. -/
  i3c : Option DictResult
  i3cRead : Option DictResult
  /-- I3C accesses that wait for one that waits on the flash, oldest first (R393). -/
  i3cNext : List I3cAccess
  /-- The result of the last write that came as a command of its own. -/
  last : DictResult
  plcaState : Nat
  /-- The coordinator's node count leaves this node out (R387). -/
  plcaMuted : Bool
  /-- The number of the management certificate issued at the last firmware start (R384). -/
  cert : Option Nat
  /-- The saved training settings: digest of the training image and HBM_PROTECTION they name (R428, R431). -/
  saved : Option (BitVec 384 × Nat)
  savedInvalid : Bool
  /-- A write of the training settings is due: once after On, or again after a refusal (R431). -/
  saveDue : Bool
deriving DecidableEq, Repr

/-! ## Power, start and errors (14, 15, 16) -/

/-- The state of a power domain (R411), and held in reset (R407). -/
inductive DomState where
  | on | idle | doze | deepRest | off | inReset
deriving DecidableEq, Repr

/-- The step limits of a core island (R420) and its sensor (in 0.125 °C) as last sampled,
and a neighbour hold (R419). -/
structure Island where
  thermal : Nat
  power : Nat
  rail : Nat
  temp : Option Int
  held : Bool
deriving DecidableEq, Repr

/-- Power (14). -/
structure Power where
  domains : Tbl DomState
  islands : Tbl Island
  /-- The islands of the press units, 0–31, and of the intake, 32 (R418). -/
  engineIslands : Tbl Island
  /-- The power mode in effect, the mode a change in progress goes to, and the values written since (R422). -/
  mode : Nat
  target : Option Nat
  pendingModes : List Nat
  /-- Per die, the rail voltage last requested over AVSBus and the one last acknowledged, in mV; 0 is none (R409). -/
  railRequest : Vector Nat 4
  railMv : Vector Nat 4
  /-- Dies whose regulator has still to acknowledge the request, and those whose regulator does not answer AVSBus (R409, R423). -/
  ackWaiting : List Nat
  railSilent : List Nat
  /-- The sensors of dies and stacks as last sampled, by sub of UNIT_TEMP, in 0.125 °C (R397). -/
  unitTemps : Tbl Int
  tripped : Bool
  thermtripAsserted : Bool
  dozeOffUntilWrite : Bool
  dozeWakes : Word
  deepRest : Bool
  oscillatorStopped : Bool
deriving DecidableEq, Repr

/-- Start, repair and reset (15). -/
structure Start where
  step : Nat
  isOn : Bool
  whey : Bool
  lastStart : Nat
  fast : Bool
  fellBack : Bool
  savedValid : Bool
  number : BitVec 32
  failedStarts : BitVec 8
  wheyReason : BitVec 16
  wheyStep : Nat
  failReason : BitVec 16
  failStep : Nat
  history : List BootEntry
  /-- The entry of a start that a reset ended, which the next start writes (R440). -/
  interrupted : Option BootEntry
  /-- The attempt is counted in FAILED_STARTS (R436), and the start's outcome is recorded (R440). -/
  counted : Bool
  ended : Bool
  /-- Step 5 has made its flash records; the reason of a failed start whose record waits for the guard to clear (R404). -/
  entered : Bool
  failing : Option (BitVec 16)
  /-- The saved-settings record passes its CRC in a copy, and names this device's serial number and stepping (R428). -/
  savedCrc : Bool
  savedOwn : Bool
  eyeMap : List (BitVec 128)
  /-- Defects of this start that a full eye map does not hold (R433), and stacks whose training failed (R435). -/
  unrecorded : List (BitVec 128)
  failedStacks : List Nat
  eyeAdded : Nat
  present : BitVec 16
  mappedPcs : Tbl Nat
  badCores : List (Nat × Nat × Nat)
  refusal : BitVec 16
  /-- The details of refused bundles that the boot-failure history records, newest first (R362). -/
  refusals : List (BitVec 16)
  warmPending : Bool
  refclkLocked : Bool
  strongEcc : Bool
  bifurcated : Bool
deriving DecidableEq, Repr

/-- Errors (16). -/
structure Errors where
  counts : Vector Word 4
  log : List ErrEntry
  lastFatal : Option ErrEntry
  rowCorrected : Tbl Nat
  rowWatchAdded : BitVec 32
  eccCorrected : Tbl Word
  security : Word
  hostRefused : Word
  notResident : Word
  pressDiscarded : Word
  pressHolds : Word
  stacksLost : List Nat
  intakeTotals : Vector Word 10
  healthEvents : List (Nat × Nat)
deriving DecidableEq, Repr

/-- A remote signal on its way (R281, R283). -/
structure Flying where
  sender : CoreId
  target : CoreId
  sem : BitVec 5
  count : BitVec 16
deriving DecidableEq, Repr

/-- A barrier arrival on its way to its die node (R288). -/
structure FlyingArrival where
  core : CoreId
  bid : BitVec 10
  epoch : BitVec 16
  waits : Bool
  sem : BitVec 5
  index : BitVec 14
  half : Bool
  count : Word
  image : CoreImage
deriving DecidableEq, Repr

/-- The state of the device, and the queue of commands that wait, first in, first out. -/
structure State where
  pending : List Instr
  /-- Counts the free values drawn: the model's own field, no state of the device. -/
  free : Nat
  mem : Memory
  /-- Marked 64-byte lines, by device address divided by 64, rising (R449). -/
  marks : List Nat
  /-- The key under which an HBM sector of 512 bytes was last written, by sector number; an unlisted sector
  holds its bytes as they are (R197, R370). -/
  sealed : Tbl Nat
  cores : Tbl Core
  signals : List Flying
  arrivals : List FlyingArrival
  parts : Tbl Part
  intake : Intake
  press : Tbl Press
  fabric : Fabric
  host : HostIf
  rtp : Rtp
  dict : Dict
  power : Power
  start : Start
  errors : Errors
deriving DecidableEq, Repr

/-! ## Why a step can stop -/

/-- Reasons a step ends with the machine stopped. No command of this device ends so: the spec gives every
command an effect, and its errors are effects on the state (16 R448). -/
inductive Fault where
  /-- Raised by nothing in this model; safe. -/
  | none
deriving DecidableEq, Repr

/-- Reasons a command has no meaning. -/
inductive Refusal where
  /-- Raised by the dispatcher for a row whose meaning is not written yet; safe. -/
  | notModelled (mnemonic : String)
deriving DecidableEq, Repr

/-! ## Reset values -/

/-- An address-increment register after a core reset (R447). -/
def AReg.reset : AReg := { base := 0, inc := Vector.replicate 4 0 }

/-- A loop level that is not active (R447). -/
def LoopLevel.reset : LoopLevel := { active := false, index := 0, count := 0, endAt := 0, start := 0 }

/-- A clip counter at zero (R49). -/
def ClipCtr.reset : ClipCtr := { count := 0, saturated := false }

/-- A clip set at zero (R49). -/
def ClipSet.reset : ClipSet := { total := .reset, sat := .reset, unf := .reset }

/-- The weight latches after a core reset: every weight +0, BF16, the 16-bit slot, no scales (R112). -/
def Latches.reset : Latches :=
  { weights := 0, scales := 0, rowForm := false, wfmt := 1, slot := .s16, poison := false }

/-- An unused fault-log entry (R100). -/
def FaultEntry.reset : FaultEntry :=
  { code := 0, cls := .trap, detail := 0, index := 0, half := false, count := 0, addr := 0, aux := 0 }

/-- The default palette (R107, R108): GROUP n mod 8, IL 0b10, PAIR 0, BASE 8⌊n/8⌋. -/
def defaultPalette : Vector (BitVec 13) 64 :=
  Vector.ofFn fun n => BitVec.ofNat 13 (n.val % 8 + 2 * 8 + 0 * 32 + 8 * (n.val / 8) * 128)

/-- No cave page read or waited for. -/
def CaveUse.reset : CaveUse := { pages := [], waits := [], bad := [] }

/-- An empty stream queue (R198). -/
def StreamQ.reset : StreamQ := { jobs := [], skipping := false, resume := false }

/-- An idle knife engine (R161). -/
def Knife.reset : Knife := { jobs := [], skipping := false, resume := false }

/-- A fabric ring with nothing started (R317). -/
def FabricRing.reset : FabricRing := { consumed := 0, current := none, skipping := false, pinned := [] }

/-- The registers after a core reset (R108, R112, R275, R447); F0 reads true (R61). -/
def CoreRegs.reset : CoreRegs :=
  { x := Vector.replicate 32 0, xMark := 0, a := Vector.replicate 16 .reset, loops := Vector.replicate 4 .reset,
    f := 1, v := Vector.replicate 32 0, vMark := 0, p := Vector.replicate 16 0, ffr := 0, vstart := 0,
    sems := Vector.replicate 32 0, tiles := [], tileMark := [], tpal := defaultPalette, latches := .reset }

/-- The system registers after a core reset (R447). -/
def CoreSys.reset : CoreSys :=
  { cultLo := 0, cultHi := 0, cultStep := 0, tvec := 0, trapEnable := false, epc := 0, causeCode := 0,
    causeDetail := 0, issueCount := 0, cycZero := 0, cycWrap := false, staleReads := 0, writeRaces := 0,
    clip := Vector.replicate 16 .reset, perf := Vector.replicate 16 0 }

/-- The control block after a core reset of a core whose memories are clear (R95, R447). -/
def CoreCtl.reset : CoreCtl :=
  { state := .stopped, hold := .none, pc := 0, half := false, handler := false,
    savedLoops := Vector.replicate 4 .reset, reissue := false, heldAt := 0, ctlHalf := false,
    ctlEntry := 0, ctlDumpLs := false, loadedA := false, loadedB := false, lastFault := 0, dumpDone := false, dumpAtCount := false, dumpTo := 0, dumpLs := false,
    rtcLimit := 0, rtcEnable := false, dumpAddr := 0, log := Vector.replicate 16 .reset, logRead := 0, fltNext := 0,
    fltOverwritten := 0, imem := [], imemMark := [], audit := 0 }

/-- Nothing in flight. -/
def CoreFlight.reset : CoreFlight :=
  { now := 0, seq := 0, sched := [], busy := Vector.replicate 7 0, banks := [], ports := [],
    streams := Vector.replicate 4 .reset, knife := .reset, marks := [], held := [], answer := none, fed := false, fabric := .reset, resetting := false }

/-- A core after a device reset (R447). -/
def Core.reset : Core := { regs := .reset, sys := .reset, ctl := .reset, flight := .reset }

/-- A barrier node at epoch 0 with nothing arrived. -/
def BarNode.reset : BarNode := { openEpoch := 0, counted := [], early := [], reported := false, releasing := [] }

/-- An unused barrier entry (R286). -/
def Barrier.reset : Barrier :=
  { entry := 0, members := [], nodes := Vector.replicate 4 .reset, rootEpoch := 0, rootReports := [],
    deviceReported := false, devices := [], earlyDevices := [], releaseNo := 0, lastRelease := none, prevRelease := none, straggles := [], completing := false }

/-- An empty partition record (R368). -/
def PartRec.reset : PartRec :=
  { valid := false, conf := false, port := 0, engines := 0, rings := 0, tenant := 0, grants := [] }

/-- The iron sweep before its first visit (R296). -/
def Iron.reset : Iron :=
  { next := 0, visits := [], records := [], blocked := 0, allBlocked := true, disturbed := false, prevOk := false, sweeps := 0,
    report := none, reportBlocked := 0 }

/-- An idle RESET_CTL page (R442). -/
def ResetCtl.reset : ResetCtl := { core := 0, kind := 0, busy := false, result := 0, count := 0 }

/-- A partition that does not exist (R368). -/
def Part.reset : Part :=
  { layout := .reset, segs := [], barriers := [], job := none, grants := [], iron := .reset, resetCtl := .reset,
    resetting := false, releasing := none, scrub := .none, scrubs := 0, xtsKey := none, fatal := false, held := false, releases := 0 }

/-- A free wheel (R221). -/
def Wheel.reset : Wheel :=
  { state := 0, codec := 0, input := false, srcRes := false, srcClosed := false, pid := 0, policy := 0, par := 0,
    engine := 0xFF, puMask := 0, part := 0, srcBase := 0, srcSize := 0, pos := 0, rapPos := 0, dpbBase := 0,
    dpbSize := 0, job := 0, cplBase := 0, cplCount := 0, cplIndex := 0, clipSeq := 0, pendingCount := 0, phase := 0,
    counters := Vector.replicate 10 0, recipe := 0, clips := [], run := none, cave := .reset, produced := 0, consumed := 0, running := [],
    closing := none, stateNo := 0 }

/-- The intake with no wheel and no engine reported (R397, R427). -/
def Intake.reset : Intake := { wheels := [], enginesPresent := 0, resident := [], busyCycles := [] }

/-- A press unit with clear registers and ring (R248, R253). -/
def Press.reset : Press :=
  { pv := Vector.replicate 16 0, pk := Vector.replicate 16 0, vl := 0, pos := 0, desc := none, prog := [], pc := 0,
    readIndex := 0, available := 0, skipping := false, outcome := none, clips := (0, 0, 0), lastGen := 0,
    heldOnce := false, stores := [], pendClips := (0, 0, 0) }

/-- A port that has not trained: out (R326). -/
def Port.reset : Port :=
  { width := 0, retraining := false, neighbour := 0, retrains := 0, isDown := false, fecMode := 0, gateway := false, wanted := false, fenced := false,
    rxSeq := 0xFFFF, txSeq := 0, unacked := [], credits := (0, 0), due := (0, 0), framesReplayed := 0, retryAsked := none }

/-- A route entry with no alternative (R315). -/
def routeNone : BitVec 32 := 0x1F1F1F1F

/-- The fabric before a join (R326). -/
def Fabric.reset : Fabric :=
  { ports := [], routes := [], routeEpoch := 0, assignedId := 0xFFFF, joinStatus := 0, groupState := 0,
    headId := 0xFFFF, topology := [], members := [], groups := [], mcast := [], sent := [], incoming := [],
    getsWaiting := [], sessions := [], takeover := { phase := 0, failed := 0, spare := none, reason := 0, dropped := [], stragglers := [] }, replaced := [] }

/-- A ring configuration at its reset value (R332). -/
def Ring.reset : Ring :=
  { enable := false, msix := false, vector := 0, stopped := false, ringBase := 0, prodLine := 0, cplBase := 0,
    ringLog2 := 0, cplLog2 := 0, consumed := 0, cplNext := 0, produced := 0, lastSeq := none, lastDone := 0, current := none,
    disabling := false }

/-- The host attachment before any link trains (R329, R332). -/
def HostIf.reset : HostIf :=
  { rings := [], linkWidth := Vector.replicate 2 0, linkRate := Vector.replicate 2 0, restLink := Vector.replicate 2 (0, 0),
    caveMap := Vector.replicate 16 0, config := [], hdm := [], msix := [], msixTable := [], hdmData := [], hdmMarked := false,
    lastRead := 0 }

/-- The RTP before any bundle (R355, R368, R397). -/
def Rtp.reset : Rtp :=
  { error := false, selfTestFailed := 0, errorSinceStart := false, owner := none, chunks := [], bundleLoaded := false,
    digests := Vector.replicate 5 0, headerDigest := 0, svn := 0xFF, minSvn := 0, signing := 1, signingHash := Vector.replicate 4 0, identityKey := 0, ownerSlots := [], nonce := none,
    drbgCount := 1, drbgSince := 0, drbgSeeds := 0, background := .none, lastCode := 0, output := [], attestKey := none, spdm := [], spdmNext := 1, spdmVersion := false,
    spdmOutput := [], unitScrub := [], scrubRecords := [], layoutImage := [], puMap := Vector.replicate 16 0xFF }

/-- The dictionary with every entry at its default (R397). -/
def Dict.reset : Dict :=
  { entries := [], queue := [], flashSeq := Vector.replicate 4 0, behind := [], spoiled := [], flashUsed := false, flashAbsent := false, flashRepaired := false, stash := none,
    calInvalid := false, guardIo18 := false, guardAon := false, guardWarn := false, guardEvents := 0, interruptedWrites := 0,
    restoreCount := 0, sessions := [], nextSession := 1, oap := none, i3cDynamic := none,
    i3cStrap := 0, i3c := none, i3cRead := none, i3cNext := [], last := { status := 0, detail := 0, data := [] }, plcaState := 3, plcaMuted := false,
    cert := none, saved := none, savedInvalid := false, saveDue := false }

/-- An island at its lowest step, cold (R426 step 6). -/
def Island.reset : Island := { thermal := 4, power := 16, rail := 16, temp := none, held := false }

/-- Power after a cold reset: Balanced mode, every domain in reset (R397, R407, R473). -/
def Power.reset : Power :=
  { domains := [], islands := [], engineIslands := [], mode := 1, target := none, pendingModes := [], railRequest := Vector.replicate 4 0,
    railMv := Vector.replicate 4 0, ackWaiting := [], railSilent := [], unitTemps := [], tripped := false, thermtripAsserted := false, dozeOffUntilWrite := false, dozeWakes := 0,
    deepRest := false, oscillatorStopped := false }

/-- The start sequence as a cold reset leaves it: step 2 is next (R426, R441). -/
def Start.reset : Start :=
  { step := 0, isOn := false, whey := false, lastStart := 0, fast := false, fellBack := false, savedValid := false,
    number := 0, failedStarts := 0, wheyReason := 0, wheyStep := 0, failReason := 0, failStep := 0, history := [],
    interrupted := none, counted := false, ended := false, entered := false, failing := none, savedCrc := false, savedOwn := false, eyeMap := [], unrecorded := [], failedStacks := [], eyeAdded := 0, present := 0, mappedPcs := [], badCores := [], refusal := 0, refusals := [],
    warmPending := false, refclkLocked := false, strongEcc := false, bifurcated := false }

/-- No errors (R397, R460). -/
def Errors.reset : Errors :=
  { counts := Vector.replicate 4 0, log := [], lastFatal := none, rowCorrected := [], rowWatchAdded := 0,
    eccCorrected := [], security := 0, hostRefused := 0, notResident := 0, pressDiscarded := 0, pressHolds := 0,
    stacksLost := [], intakeTotals := Vector.replicate 10 0, healthEvents := [] }

/-- The device right after a cold reset that follows manufacture: nothing in memory, every core at its
core-reset value, no layout, the start sequence not yet begun (R441, R447). -/
def State.reset : State :=
  { pending := [], free := 0, mem := [], marks := [], sealed := [], cores := [], signals := [], arrivals := [], parts := [],
    intake := .reset, press := [], fabric := .reset, host := .reset, rtp := .reset, dict := .reset, power := .reset,
    start := .reset, errors := .reset }

end Sys2Proof.Machine
end

