-- ==== Sys2Proof/Machine/Ops.lean ====
section
/-! DEFINITION. The named operations every command shares: tables, memory and its poison marks, cores and
partitions by name, bytes and words, error log and messages. -/

namespace Sys2Proof.Machine

/-- Every command's answer: the spec gives each command an effect, so it is a next state. -/
abbrev Out := Host.Outcome State Fault Refusal

/-! ## Tables -/

/-- The entry at a key of a table, if one is listed. -/
def Tbl.get? {α : Type} : Tbl α → Nat → Option α
  | [], _ => none
  | (k, v) :: t, n => if k = n then some v else Tbl.get? t n

/-- The entry at a key, or the table's default. -/
def Tbl.getD {α : Type} (t : Tbl α) (k : Nat) (d : α) : α := (Tbl.get? t k).getD d

/-- The table with an entry put at a key; keys stay in rising order. -/
def Tbl.put {α : Type} : Tbl α → Nat → α → Tbl α
  | [], n, x => [(n, x)]
  | (k, v) :: t, n, x =>
    if n < k then (n, x) :: (k, v) :: t else if k = n then (n, x) :: t else (k, v) :: Tbl.put t n x

/-- The table without the entry at a key. -/
def Tbl.del {α : Type} (t : Tbl α) (n : Nat) : Tbl α := t.filter fun e => e.1 != n

/-- A rising list with a number added. -/
def insertNum : List Nat → Nat → List Nat
  | [], n => [n]
  | k :: t, n => if n < k then n :: k :: t else if k = n then k :: t else k :: insertNum t n

/-- The elements of a list with the one at an index replaced. -/
def setAt {α : Type} (l : List α) (i : Nat) (x : α) : List α := l.set i x

/-! ## Bytes and numbers (R8, R9: little-endian) -/

/-- The number that bytes hold, lowest first. -/
def leNat : List Byte → Nat
  | [] => 0
  | b :: t => b.toNat + 256 * leNat t

/-- The n low bytes of a number, lowest first. -/
def leBytes : Nat → Nat → List Byte
  | 0, _ => []
  | n + 1, v => BitVec.ofNat 8 v :: leBytes n (v / 256)

/-- The number that n bytes at an offset of a byte string hold. -/
def bytesNat (l : List Byte) (ofs n : Nat) : Nat := leNat ((l.drop ofs).take n)

/-- A number of w bits read as two's complement. -/
def signed (w n : Nat) : Int := if n < 2 ^ (w - 1) then n else (n : Int) - 2 ^ w

/-- An integer as w bits, two's complement. -/
def wrapInt (w : Nat) (i : Int) : Nat := (i % (2 ^ w : Nat)).toNat

/-- A number limited to a largest value. -/
def saturate (top n : Nat) : Nat := min top n

/-- 64-byte lines that the n bytes at an address touch. -/
def linesOf (a n : Nat) : List Nat :=
  if n = 0 then [] else List.range' (a / 64) ((a + n - 1) / 64 + 1 - a / 64)

/-! ## Memory (R171) -/

/-- What a byte that nothing has written reads as: zero (R427 for the device's own tiers; a design choice
for the cave tier and host memory, log 3). -/
def Memory.blank : Byte := 0

/-- The byte at a device address. -/
def Memory.read : Memory → Nat → Byte
  | [], _ => Memory.blank
  | (k, v) :: t, a => if k = a then v else if a < k then Memory.blank else Memory.read t a

/-- Puts a listed byte before the cells above it, or leaves it out where it equals the blank. -/
def Memory.consCell (a : Nat) (b : Byte) (t : Memory) : Memory := if b = Memory.blank then t else (a, b) :: t

/-- The memory with one byte written, canonical form kept. -/
def Memory.write : Memory → Nat → Byte → Memory
  | [], a, b => Memory.consCell a b []
  | (k, v) :: t, a, b =>
    if a < k then Memory.consCell a b ((k, v) :: t)
    else if k = a then Memory.consCell a b t
    else (k, v) :: Memory.write t a b

/-- The n bytes from a device address on. -/
def Memory.readBytes (m : Memory) (a : Nat) : Nat → List Byte
  | 0 => []
  | n + 1 => Memory.read m a :: Memory.readBytes m (a + 1) n

/-- The memory with bytes written from a device address on. -/
def Memory.writeBytes (m : Memory) (a : Nat) : List Byte → Memory
  | [] => m
  | b :: t => Memory.writeBytes (Memory.write m a b) (a + 1) t

/-- Every address from `a` up to but not including `b` reads blank. -/
def Memory.clearRange (m : Memory) (a b : Nat) : Memory := m.filter fun c => c.1 < a || b ≤ c.1

/-- The canonical form: addresses strictly rising, no blank byte listed. -/
def Memory.wfFrom : Nat → Memory → Bool
  | _, [] => true
  | lo, (k, v) :: t => decide (lo ≤ k) && decide (v ≠ Memory.blank) && Memory.wfFrom (k + 1) t

/-- The canonical form of a whole memory. -/
def Memory.wf (m : Memory) : Bool := Memory.wfFrom 0 m

/-- Does any 64-byte line that the bytes touch carry a poison mark (R449)? -/
def State.marked (s : State) (a n : Nat) : Bool := (linesOf a n).any fun l => s.marks.contains l

/-- The marks after a write of n bytes at an address: marked data marks every line it touches; unmarked
data clears the lines it covers whole (R449, R450). -/
def marksAfter (marks : List Nat) (a n : Nat) (mark : Bool) : List Nat :=
  if mark then (linesOf a n).foldl insertNum marks
  else marks.filter fun l => !(decide (a ≤ 64 * l) && decide (64 * l + 64 ≤ a + n))

/-- The number that n bytes at a device address hold. -/
def State.readNat (s : State) (a n : Nat) : Nat := leNat (Memory.readBytes s.mem a n)

/-- Bytes written at a device address, with or without a poison mark. -/
def State.store (s : State) (a : Nat) (data : List Byte) (mark : Bool) : State :=
  { s with mem := Memory.writeBytes s.mem a data, marks := marksAfter s.marks a data.length mark }

/-- A free value: fresh at each use, known to nothing in Lean. -/
def State.fresh (s : State) : Word × State := (Config.freeValue s.free, { s with free := s.free + 1 })

/-! ## Device addresses (R171) -/

/-- The first byte of a core's local store. -/
def lsBase (c : CoreId) : Nat := c.toNat * 0x800000

/-- The first byte of a core's control window. -/
def windowBase (c : CoreId) : Nat := 0x01000000000000 + c.toNat * 0x100000

/-- The first byte of a stack's window. -/
def hbmBase (stack : Nat) : Nat := 0x02000000000000 + stack * 0x1000000000

/-- The regions of R171. -/
inductive Region where
  | localStore | window | hbm | cave | host | peer | hole
deriving DecidableEq, Repr

/-- The region a device address lies in; a core ID with ROW 12–15 names nothing (R172). -/
def regionOf (a : Nat) : Region :=
  if a < 0x0200000000 then (if bits a 27 4 < 12 then .localStore else .hole)
  else if 0x01000000000000 ≤ a ∧ a < 0x01000040000000 then (if bits a 24 4 < 12 then .window else .hole)
  else if 0x02000000000000 ≤ a ∧ a < 0x02010000000000 then .hbm
  else if 0x03000000000000 ≤ a ∧ a < 0x03400000000000 then .cave
  else if 0x04000000000000 ≤ a ∧ a < 0x05000000000000 then .host
  else if 0x80000000000000 ≤ a ∧ a < 0x90000000000000 then .peer
  else .hole

/-- The TIER code of a region (R175). -/
def tierOf (r : Region) : Option Nat :=
  match r with
  | .localStore => some 0
  | .window => some 1
  | .hbm => some 2
  | .cave => some 3
  | .host => some 4
  | .peer => some 5
  | .hole => none

/-- The core whose local store or control window holds an address. -/
def coreAt (a : Nat) : CoreId :=
  if a < 0x0200000000 then BitVec.ofNat 10 (a / 0x800000) else BitVec.ofNat 10 ((a - 0x01000000000000) / 0x100000)

/-! ## Cores, units and partitions (R15, R18, R19) -/

/-- Does an ID name a core of the grid (R15)? -/
def coreExists (c : CoreId) : Bool := decide (bits c.toNat 4 4 < 12)

/-- The partition unit of a core (R18). -/
def unitOf (c : CoreId) : Nat := 4 * bits c.toNat 8 2 + bits c.toNat 4 4 / 3

/-- The 768 logical core IDs in rising order. -/
def allCores : List CoreId :=
  (List.range 4).flatMap fun d => (List.range 12).flatMap fun r => (List.range 16).map fun k => BitVec.ofNat 10 (256 * d + 16 * r + k)

/-- A core's state; a core not listed is as a core reset leaves it. -/
def State.core (s : State) (c : CoreId) : Core := Tbl.getD s.cores c.toNat Core.reset

/-- The state with a core put in place. -/
def State.setCore (s : State) (c : CoreId) (k : Core) : State := { s with cores := Tbl.put s.cores c.toNat k }

/-- The state with a core changed. -/
def State.modCore (s : State) (c : CoreId) (f : Core → Core) : State := s.setCore c (f (s.core c))

/-- A partition's state. -/
def State.part (s : State) (p : Nat) : Part := Tbl.getD s.parts p Part.reset

/-- The state with a partition put in place. -/
def State.setPart (s : State) (p : Nat) (v : Part) : State := { s with parts := Tbl.put s.parts p v }

/-- The state with a partition changed. -/
def State.modPart (s : State) (p : Nat) (f : Part → Part) : State := s.setPart p (f (s.part p))

/-- The partition that holds a unit, if one does: the unit map of the layout (R366, R368). -/
def State.unitPart (s : State) (u : Nat) : Option Nat :=
  match s.rtp.puMap[u]? with
  | some v => if v.toNat < 16 then some v.toNat else none
  | none => none

/-- The partition of a core (R19). -/
def State.corePart (s : State) (c : CoreId) : Option Nat := if coreExists c then s.unitPart (unitOf c) else none

/-- Is a unit present (R21)? -/
def State.unitPresent (s : State) (u : Nat) : Bool := s.start.present.toNat.testBit u

/-- Is a partition confidential (R364, R366)? -/
def State.confidential (s : State) (p : Option Nat) : Bool :=
  match p with
  | some n => (s.part n).layout.conf
  | none => false

/-- The units of a partition in rising order. -/
def State.unitsOf (s : State) (p : Nat) : List Nat := (List.range 16).filter fun u => s.unitPart u = some p

/-- The cores of a partition in ascending logical ID. -/
def State.coresOf (s : State) (p : Nat) : List CoreId := allCores.filter fun c => s.corePart c = some p

/-! ## Register access -/

/-- X[r]; X0 reads zero (R61). -/
def CoreRegs.readX (g : CoreRegs) (r : Nat) : Word := if r = 0 then 0 else (g.x[r]?).getD 0

/-- X[r] ← v with its poison mark; a write to X0 is discarded (R62). -/
def CoreRegs.writeX (g : CoreRegs) (r : Nat) (v : Word) (mark : Bool) : CoreRegs :=
  if r = 0 ∨ 32 ≤ r then g
  else { g with x := g.x.setIfInBounds r v,
                xMark := if mark then g.xMark ||| (1#32 <<< r) else g.xMark &&& ~~~(1#32 <<< r) }

/-- Does X[r] carry a poison mark (R449)? -/
def CoreRegs.markX (g : CoreRegs) (r : Nat) : Bool := r != 0 && g.xMark.toNat.testBit r

/-- F[r]; F0 reads true (R61). -/
def CoreRegs.readF (g : CoreRegs) (r : Nat) : Bool := r == 0 || g.f.toNat.testBit r

/-- F[r] ← v; a write to F0 is discarded (R62). -/
def CoreRegs.writeF (g : CoreRegs) (r : Nat) (v : Bool) : CoreRegs :=
  if r = 0 then g
  else { g with f := if v then g.f ||| (1#8 <<< r) else g.f &&& ~~~(1#8 <<< r) }

/-- V[r]. -/
def CoreRegs.readV (g : CoreRegs) (r : Nat) : BitVec 2048 := (g.v[r]?).getD 0

/-- Does V[r] carry a poison mark (R159)? -/
def CoreRegs.markV (g : CoreRegs) (r : Nat) : Bool := g.vMark.toNat.testBit r

/-- P[r]. -/
def CoreRegs.readP (g : CoreRegs) (r : Nat) : BitVec 256 := (g.p[r]?).getD 0

/-- S[r]. -/
def CoreRegs.readS (g : CoreRegs) (r : Nat) : BitVec 16 := (g.sems[r]?).getD 0

/-! ## The fault log of a core (R100) -/

/-- The 256 bits of a fault-log entry (R100). -/
def FaultEntry.word (e : FaultEntry) : Nat :=
  e.code.toNat + (match e.cls with | .trap => 0 | .halt => 1 | .log => 2 | .audit => 3) * 2 ^ 8
    + e.detail.toNat * 2 ^ 10 + e.index.toNat * 2 ^ 16 + (if e.half then 2 ^ 30 else 0)
    + e.count.toNat * 2 ^ 64 + e.addr.toNat * 2 ^ 128 + e.aux.toNat * 2 ^ 192

/-- A fault entered at the head of the log: an entry overwritten unread counts, up to 0xFFFF (R100). A
full log overwrites its oldest entry, which is the one at the head. `unread` bit i says entry i has been
written and not read. -/
def CoreCtl.logFault (k : CoreCtl) (e : FaultEntry) : CoreCtl :=
  let i := k.fltNext.toNat
  let written := (k.log[i]?).getD .reset
  let lost := written.code != 0 && !k.logRead.toNat.testBit i
  { k with
    log := k.log.setIfInBounds i e
    logRead := k.logRead &&& ~~~(1#16 <<< i)
    fltNext := k.fltNext + 1
    fltOverwritten := if lost && k.fltOverwritten != 0xFFFF then k.fltOverwritten + 1 else k.fltOverwritten
    lastFault := e.code }

/-- A fault of a core entered in its log; a confidential partition's entry holds no ADDR and no AUX, and keeps DETAIL, which
R104 names neither among the recorded nor among the zeroed fields (R104; DEDUCED, log 23). -/
def State.logFault (s : State) (c : CoreId) (e : FaultEntry) : State :=
  let e := if s.confidential (s.corePart c) then { e with addr := 0, aux := 0 } else e
  s.modCore c fun k => { k with ctl := k.ctl.logFault e }

/-! ## Messages to the host (R338) -/

/-- Is a CXL port linked (R329)? -/
def State.linked (s : State) (port : Nat) : Bool := (s.host.linkWidth[port]?).getD 0 != 0

/-- Has the device a CXL port: two when bifurcated, but in whey mode port 0 alone (R329, R437)? -/
def State.hasPort (s : State) (port : Nat) : Bool := port == 0 || (port == 1 && s.start.bifurcated && !s.start.whey)

/-- Does the host reach the device through a port: an unlinked port leaves only the management transports (R328)? -/
def State.reachable (s : State) (port : Nat) : Bool := s.hasPort port && s.linked port

/-- The key of a BAR0 word of a port that the MSI-X structures hold: 0x20000 × port + offset / 8. -/
def msixKey (port word : Nat) : Nat := 0x20000 * port + word

/-- The word of BAR0 that holds a vector's data and mask bit (R330). -/
def msixControlWord (vector : Nat) : Nat := 0x8000 + 2 * vector + 1

/-- A word of the MSI-X table or pending array. A vector that nothing has written is masked, as PCIe resets it (log 10). -/
def State.msixWord (s : State) (port word : Nat) : Word :=
  Tbl.getD s.host.msixTable (msixKey port word) (if word < 0xA000 ∧ word % 2 = 1 then 0x100000000 else 0)

/-- Is a vector masked? -/
def State.msixMasked (s : State) (port vector : Nat) : Bool := (s.msixWord port (msixControlWord vector)).getLsbD 32

/-- An MSI-X message of a vector on a port; a masked vector becomes pending (R338). -/
def State.sendMsix (s : State) (port vector : Nat) : State :=
  if s.msixMasked port vector then
    let w := 0xA000 + vector / 64
    { s with host := { s.host with msixTable := Tbl.put s.host.msixTable (msixKey port w) (s.msixWord port w ||| (1#64 <<< (vector % 64))) } }
  else { s with host := { s.host with msix := (port, vector) :: s.host.msix } }

/-! ## The error log (R455–R459) -/

/-- The class of an error source (R455). -/
def sourceClass (src : Nat) : Nat :=
  if src ∈ [0x01, 0x03, 0x07, 0x0A, 0x0C, 0x13, 0x14] then 0
  else if src ∈ [0x02, 0x04, 0x06, 0x0B, 0x0D, 0x0E, 0x0F, 0x10, 0x11, 0x15] then 1
  else if src ∈ [0x05, 0x08, 0x12] then 2
  else 3

/-- What an error event records (R459): 0x3FF is the CORE of none. -/
structure ErrorEvent where
  source : Nat
  part : Option Nat
  unit : Nat
  core : Nat
  address : Nat
  detail : Nat
deriving DecidableEq, Repr

/-- The entry an event would make, redacted for a confidential partition (R459, R365). -/
def State.errorEntry (s : State) (e : ErrorEvent) : ErrEntry :=
  let hide := s.confidential e.part
  { source := BitVec.ofNat 8 e.source
    cls := BitVec.ofNat 2 (sourceClass e.source)
    part := e.part.map (BitVec.ofNat 4)
    redacted := hide
    unit := BitVec.ofNat 8 e.unit
    core := if hide then 0 else BitVec.ofNat 10 e.core
    address := if hide then 0 else BitVec.ofNat 64 e.address
    count := 1
    detail := if hide then 0 else BitVec.ofNat 32 e.detail
    number := s.start.number }

/-- Do two entries merge (R459)? -/
def ErrEntry.sameEvent (a b : ErrEntry) : Bool :=
  a.source == b.source && a.unit == b.unit && a.address == b.address && a.part == b.part

/-- The list without its last element that satisfies a test; the list is newest first. -/
def dropOldest {α : Type} (test : α → Bool) (l : List α) : List α := (l.reverse.eraseP test).reverse

/-- The log, newest first, with an entry added: merged into the newest, or put in front, overwriting in a
full log the oldest corrected entry, or the oldest (R459). -/
def errLogAdd (log : List ErrEntry) (e : ErrEntry) : List ErrEntry :=
  match log with
  | [] => [e]
  | n :: t =>
    if n.sameEvent e then { n with count := if n.count = 0xFFFFFFFF then n.count else n.count + 1 } :: t
    else if log.length < 64 then e :: log
    else e :: (if log.any (·.cls == 0) then dropOldest (·.cls == 0) log else log.dropLast)

/-- Vector 64 on the partition's port, or on every linked port when the event belongs to none or is
device-fatal (R455). -/
def State.sendErrorMsix (s : State) (cls : Nat) (part : Option Nat) : State :=
  if cls = 0 then s
  else match part with
    | some p => if cls = 3 then (List.range 2).foldl (fun s q => if s.linked q then s.sendMsix q 64 else s) s
                else s.sendMsix (s.part p).layout.port 64
    | none => (List.range 2).foldl (fun s q => if s.linked q then s.sendMsix q 64 else s) s

/-- An error event counted, logged and reported (R455, R459). Its effect on partitions and the device is
the caller's. -/
def State.logError (s : State) (e : ErrorEvent) : State :=
  let cls := sourceClass e.source
  let s := { s with errors := { s.errors with
    counts := s.errors.counts.setIfInBounds cls ((s.errors.counts[cls]?).getD 0 + 1)
    log := errLogAdd s.errors.log (s.errorEntry e) } }
  s.sendErrorMsix cls e.part

/-- The UNIT code of a core's error: compute die of the core (R432). -/
def dieUnit (c : CoreId) : Nat := bits c.toNat 8 2

/-! ## Dictionary entries that other parts read (13 R378) -/

/-- The value of an unsigned entry of the dictionary, with its default (R397). -/
def State.dictNat (s : State) (index sub default : Nat) : Nat :=
  match Tbl.get? s.dict.entries (256 * index + sub) with
  | some b => leNat b
  | none => default

/-! ## The supply-sag guard and the flash (R403, R404) -/

/-- Is the guard active? -/
def State.guardActive (s : State) : Bool := s.dict.guardIo18 || s.dict.guardAon || s.dict.guardWarn

/-- May a flash program or erase start: the store is there, and the guard is not active? -/
def State.flashReady (s : State) : Bool := !s.guardActive && !s.dict.flashAbsent

/-- Does the guard hold back a write that the flash store would take? -/
def State.flashHeld (s : State) : Bool := s.guardActive && !s.dict.flashAbsent

/-- The regions of the flash store that hold two copies (R402): the eye map, the training settings, the journal, the history. -/
def regionEyeMap : Nat := 0
/-- Saved link and memory training settings. -/
def regionSettings : Nat := 1
/-- The journal of Persistent and Retained entries. -/
def regionJournal : Nat := 2
/-- The boot-failure history and scrub records. -/
def regionHistory : Nat := 3

/-- Offset and bytes of a region in the flash; the signed factory record takes the first MiB (R402). -/
def flashRegion (region : Nat) : Nat × Nat :=
  match region with
  | 0 => (0x00100000, 2 * 2 ^ 20)
  | 1 => (0x00300000, 8 * 2 ^ 20)
  | 2 => (0x00B00000, 4 * 2 ^ 20)
  | _ => (0x00F00000, 2 ^ 20)

/-- Bytes of the flash, of a page and of a sector of it (R402). -/
def flashBytes : Nat := 64 * 2 ^ 20
/-- A page is what one program writes. -/
def flashPage : Nat := 256
/-- A sector is what one erase clears. -/
def flashSector : Nat := 65536

/-- A record of a region stored in both copies: its sequence number is the next, and neither copy is behind (R403). -/
def State.flashWrote (s : State) (region : Nat) : State :=
  { s with dict := if s.dict.flashAbsent then s.dict else { s.dict with
    flashSeq := s.dict.flashSeq.setIfInBounds region ((s.dict.flashSeq[region]?).getD 0 + 1)
    behind := Tbl.del s.dict.behind region, spoiled := s.dict.spoiled.filter (· != region) } }

/-- A health event the spec names without a code of R455, kept as (kind, value): 1 a straggler (R270), 2 a
discarded device report (R288), 3 a takeover's reason (R273), 4 BAD_CORE of RESET_CTL (R442), 5 a domain that a wake left in
reset (R417). -/
def State.healthEvent (s : State) (kind value : Nat) : State :=
  { s with errors := { s.errors with healthEvents := (kind, value) :: s.errors.healthEvents } }

/-! ## Bits of a record -/

/-- A field of a record held as a number. -/
def field {w : Nat} (r : BitVec w) (lo len : Nat) : Nat := bits r.toNat lo len

/-- A signed field of a record. -/
def sfield {w : Nat} (r : BitVec w) (lo len : Nat) : Int := signed len (field r lo len)

/-- A number with a field put at a place: the bits there are replaced. -/
def putField (n lo len v : Nat) : Nat := n - bits n lo len * 2 ^ lo + (v % 2 ^ len) * 2 ^ lo

/-- Serial comparison of running numbers, at or after within half the range (R463, R464, R289). -/
def serialGe (w : Nat) (a b : Nat) : Bool := decide ((a + 2 ^ w - b) % 2 ^ w < 2 ^ (w - 1))

end Sys2Proof.Machine
end

