-- ==== Sys2Proof/Machine/Operands.lean ====
section
/-! DEFINITION. Operand forms: the fields of an instruction word, the address operand, and the resolution of
a program address through the segment table. -/

namespace Sys2Proof.Machine

/-! ## Instruction words (R63, R65, R66) -/

/-- PRED of an instruction word. -/
def wPred (w : Nat) : Nat := bits w 0 4
/-- ENG of an instruction word. -/
def wEng (w : Nat) : Nat := bits w 4 3
/-- LONG of an instruction word. -/
def wLong (w : Nat) : Bool := bit w 7
/-- OPC of an instruction word. -/
def wOpc (w : Nat) : Nat := bits w 8 8
/-- DST of an instruction word. -/
def wDst (w : Nat) : Nat := bits w 16 6
/-- SRC1 of an instruction word. -/
def wSrc1 (w : Nat) : Nat := bits w 22 6
/-- SRC2 of an instruction word. -/
def wSrc2 (w : Nat) : Nat := bits w 28 6
/-- SRC3 of an instruction word. -/
def wSrc3 (w : Nat) : Nat := bits w 34 6
/-- IMM of an instruction word, zero-extended. -/
def wImm (w : Nat) : Nat := bits w 40 24
/-- IMM of an instruction word, sign-extended. -/
def wSimm (w : Nat) : Int := signed 24 (wImm w)

/-- An integer as a 64-bit word. -/
def toWord (i : Int) : Word := BitVec.ofInt 64 i

/-- A program address plus a signed offset: offset bits [47:0] modulo 2^48, bits [63:48] unchanged (R66, R77). -/
def addOffset (a : Word) (ofs : Int) : Word :=
  BitVec.ofNat 64 (a.toNat / 2 ^ 48 * 2 ^ 48 + wrapInt 48 ((bits a.toNat 0 48 : Int) + ofs))

/-- A 32-bit address operand (R66): its base register's value plus OFS, and whether a marked X register
supplied it (R451). -/
def addressOperand (g : CoreRegs) (op : Nat) : Word × Bool :=
  let x := bits op 5 5
  if bit op 4 then (addOffset ((g.a[bits op 0 4]?).getD .reset).base (signed 22 (bits op 10 22)), false)
  else (addOffset (g.readX x) (signed 22 (bits op 10 22)), g.markX x)

/-! ## Segment descriptors (R175) -/

/-- BASE. -/
def segBase (d : BitVec 256) : Nat := field d 0 56
/-- LIMIT. -/
def segLimit (d : BitVec 256) : Nat := field d 64 48
/-- VALID. -/
def segValid (d : BitVec 256) : Bool := d.toNat.testBit 128
/-- RD. -/
def segRd (d : BitVec 256) : Bool := d.toNat.testBit 129
/-- WR. -/
def segWr (d : BitVec 256) : Bool := d.toNat.testBit 130
/-- EXEC. -/
def segExec (d : BitVec 256) : Bool := d.toNat.testBit 131
/-- TIER. -/
def segTier (d : BitVec 256) : Nat := field d 132 3
/-- WAX. -/
def segWax (d : BitVec 256) : Bool := d.toNat.testBit 135
/-- PACKED. -/
def segPacked (d : BitVec 256) : Bool := d.toNat.testBit 136
/-- ENC. -/
def segEnc (d : BitVec 256) : Bool := d.toNat.testBit 137
/-- RES. -/
def segRes (d : BitVec 256) : Bool := d.toNat.testBit 138
/-- META. -/
def segMeta (d : BitVec 256) : Nat := field d 192 56

/-- The descriptor a program address names in a partition's table; an unlisted one is all zero (R174). -/
def State.segOf (s : State) (p : Option Nat) (a : Word) : BitVec 256 :=
  match p with
  | some n => Tbl.getD (s.part n).segs (bits a.toNat 56 8) 0
  | none => 0

/-- The OFFSET of a program address (R170). -/
def offsetOf (a : Word) : Nat := bits a.toNat 0 48

/-- Is the reserved field [55:48] of a program address zero (R170)? -/
def reservedZero (a : Word) : Bool := bits a.toNat 48 8 == 0

/-- The subcodes of R178 in the order of their checks. -/
inductive AccessFault where
  | scope | limit | rights | align
deriving DecidableEq, Repr

/-- The number of a subcode (R178). -/
def AccessFault.code : AccessFault → Nat
  | .scope => 1
  | .limit => 2
  | .rights => 3
  | .align => 4

/-- The rights an access needs (R178). -/
inductive Right where
  | rd | wr | rdExec
deriving DecidableEq, Repr

/-- Does a descriptor grant a right? A cave segment is never written (R187). -/
def segGrants (d : BitVec 256) (r : Right) : Bool :=
  match r with
  | .rd => segRd d
  | .wr => segWr d && segTier d != 3
  | .rdExec => segRd d && segExec d

/-- The checks of R178 on a span of n ≥ 1 bytes at program address `a` under descriptor `d`, in order:
limit when the descriptor is not valid or reserved bits are set, then scope of every byte's device address
by the given test, limit, rights, alignment of the device address. Answers the device address. -/
def checkSpan (d : BitVec 256) (a : Word) (n : Nat) (inScope : Nat → Nat → Bool) (r : Right) (align : Nat) :
    Except AccessFault Nat :=
  if !segValid d || !reservedZero a then .error .limit
  else
    let dev := segBase d + offsetOf a
    if !inScope dev n then .error .scope
    else if segLimit d < offsetOf a + n - 1 then .error .limit
    else if !segGrants d r then .error .rights
    else if dev % align ≠ 0 then .error .align
    else .ok dev

/-- Do n bytes at a device address lie in a core's own local store (R69, R179)? -/
def inOwnStore (c : CoreId) (dev n : Nat) : Bool := decide (lsBase c ≤ dev) && decide (dev + n ≤ lsBase c + 0x800000)

/-- An access of n bytes by a core instruction (R69, R178): the device address, or the failed check. -/
def State.ownAccess (s : State) (c : CoreId) (a : Word) (n : Nat) (r : Right) (align : Nat) : Except AccessFault Nat :=
  checkSpan (s.segOf (s.corePart c) a) a n (inOwnStore c) r align

end Sys2Proof.Machine
end

