-- ==== Sys2Proof/Machine/Access.lean ====
section
/-! DEFINITION. Accesses by device address on the paths of the engines and the host: HBM sectors and their keys
(R197, R370), marks (R449, R450), the scope of an engine's access (R176, R179), CRC-32. -/

namespace Sys2Proof.Machine

/-- The stack that holds an HBM device address. -/
def stackOf (a : Nat) : Nat := (a - 0x02000000000000) / 0x1000000000

/-- Is an address in HBM? -/
def isHbm (a : Nat) : Bool := decide (0x02000000000000 ≤ a) && decide (a < 0x02010000000000)

/-! ## Job reservations (R191, R340) -/

/-- Do n ≥ 1 bytes at an address lie in a job's reservation on a stack? -/
def Job.holdsHbm (j : Job) (stack a n : Nat) : Bool :=
  match Tbl.get? j.bases stack with
  | some b => decide (b ≤ a) && decide (a + n ≤ b + j.hbmBytes)
  | none => false

/-- Does a peer grant of a partition hold n bytes at an address (R344)? -/
def Part.grantHolds (p : Part) (a n : Nat) : Bool := p.grants.any fun g => decide (g.base ≤ a) && decide (a + n ≤ g.base + g.bytes)

/-! ## Inline encryption (R197, R370) -/

/-- The number of a partition's key, counted from 1; 0 before one is installed. -/
def Part.keyNo (p : Part) : Nat :=
  match p.xtsKey with
  | some k => k + 1
  | none => 0

/-- The key a sector was last written under. -/
def State.sealOf (s : State) (sector : Nat) : Nat := Tbl.getD s.sealed sector 0

/-- The 512 bytes of an HBM sector as a read under a key finds them. -/
def State.sectorUnder (s : State) (r sector : Nat) : List Byte :=
  let raw := Memory.readBytes s.mem (512 * sector) 512
  let w := s.sealOf sector
  if w = r then raw else (List.range 512).map fun i => Config.xtsByte w r sector i (leNat raw)

/-- The 512-byte sectors that n bytes at an address touch. -/
def sectorsOf (a n : Nat) : List Nat := if n = 0 then [] else List.range' (a / 512) ((a + n - 1) / 512 + 1 - a / 512)

/-- The tiles of a wax segment. -/
def waxTiles (d : BitVec 256) : Nat := segLimit d / 4096 + 1

/-- The bytes of a wax segment's metadata, or of a packed one's index (R195). -/
def waxInfoBytes (d : BitVec 256) : Nat := if segPacked d then 8 * waxTiles d else waxTiles d

/-- The index entry of tile t of a packed segment, read under a key. -/
def State.packedEntry (s : State) (r : Nat) (d : BitVec 256) (t : Nat) : Nat :=
  let a := segMeta d + 8 * t
  leNat ((((sectorsOf a 8).flatMap (s.sectorUnder r)).drop (a % 512)).take 8)

/-- Do the sectors of an index entry of a packed segment include one (R195)? -/
def entryHolds (d : BitVec 256) (e sector : Nat) : Bool :=
  let first := segBase d / 512 + bits e 0 32
  !bit e 36 && decide (first ≤ sector) && decide (sector < first + if bit e 35 then 8 else bits e 32 3 + 1)

/-- Does a valid encrypting HBM descriptor cover a sector: by its range, by its wax metadata or index bytes, or, packed, by the
sectors its index names (R195, R197)? -/
def State.encCovers (s : State) (r : Nat) (d : BitVec 256) (sector : Nat) : Bool :=
  let a := 512 * sector
  segValid d && segEnc d && segTier d == 2
    && ((decide (segBase d ≤ a) && decide (a ≤ segBase d + segLimit d))
      || (segWax d && decide (a < segMeta d + waxInfoBytes d) && decide (segMeta d < a + 512))
      || (segPacked d && (List.range (waxTiles d)).any fun t => entryHolds d (s.packedEntry r d t) sector))

/-- Zero bytes. -/
def zeroBytes (n : Nat) : List Byte := List.replicate n 0

/-- The device address of a wheel's context in the wheel table of its stack (R20, R220). -/
def wheelAddr (w : Nat) : Nat := hbmBase (w / 16384) + 0xFF0000000 + 256 * (w % 16384)

/-- Does a sector hold a wheel context of a partition (R370)? -/
def State.holdsWheel (s : State) (p sector : Nat) : Bool :=
  s.intake.wheels.any fun w => w.2.part == p && wheelAddr w.1 / 512 == sector

/-- The key an HBM sector is read and written under: that of the partition of its stack, for a confidential
partition inside its reservation, grants and wheel contexts, for another where a segment with ENC = 1 covers it; 0 is none
(R197, R370). -/
def State.sectorKey (s : State) (sector : Nat) : Nat :=
  let a := 512 * sector
  match s.unitPart (stackOf a) with
  | none => 0
  | some p =>
    let q := s.part p
    let inside := match q.job with
      | some j => j.holdsHbm (stackOf a) a 1
      | none => false
    if q.layout.conf then (if inside || q.grantHolds a 1 || s.holdsWheel p sector then q.keyNo else 0)
    else if q.segs.any (fun d => s.encCovers q.keyNo d.2 sector) then q.keyNo else 0

/-- The 512 bytes of an HBM sector as a read finds them. -/
def State.sectorBytes (s : State) (sector : Nat) : List Byte := s.sectorUnder (s.sectorKey sector) sector

/-- Is every sector of a span read under the key it was written under? -/
def State.sealedRight (s : State) (a n : Nat) : Bool := (sectorsOf a n).all fun k => s.sealOf k == s.sectorKey k

/-! ## The cave tier through CAVE_MAP (R351) -/

/-- The device address of a host physical address (R171). -/
def hostAddr (h : Nat) : Nat := 0x04000000000000 + h

/-- The first byte of the cave tier. -/
def caveBase : Nat := 0x03000000000000

/-- Is an address in the cave tier? -/
def isCave (a : Nat) : Bool := decide (caveBase ≤ a) && decide (a < 0x03400000000000)

/-- The cave device address at which an entry of CAVE_MAP begins, and the bytes it covers. -/
def caveSpan (e : BitVec 256) : Nat × Nat := (caveBase + field e 0 48, field e 128 48 * 2 ^ 30)

/-- The entries of CAVE_MAP of a port. -/
def State.caveEntries (s : State) (port : Nat) : List (BitVec 256) := (s.host.caveMap.toList.drop (8 * port)).take 8

/-- The state as the cave tier is read through a port: that port's CAVE_MAP stands where a map is looked up (R351). -/
def State.seenFrom (s : State) (port : Nat) : State :=
  if port = 0 then s
  else { s with host := { s.host with caveMap := Vector.ofFn fun i => (s.host.caveMap[i.val % 8 + 8]?).getD 0 } }

/-- The state as a partition reads the cave tier: through its own port (R351). -/
def State.seenBy (s : State) (p : Option Nat) : State :=
  match p with
  | some q => s.seenFrom (s.part q).layout.port
  | none => s

/-- The entry of CAVE_MAP that covers a cave address: port 0's, or in a partition's view its own port's. -/
def State.caveEntry (s : State) (a : Nat) : Option (BitVec 256) :=
  (s.caveEntries 0).find? fun e => e.getLsbD 176 && decide ((caveSpan e).1 ≤ a) && decide (a < (caveSpan e).1 + (caveSpan e).2)

/-- Where the expander's byte at a cave address lies in the host's physical address space. -/
def State.caveAddr (s : State) (a : Nat) : Nat :=
  match s.caveEntry a with
  | some e => hostAddr (field e 64 48 + (a - (caveSpan e).1))
  | none => a

/-- Do entries of CAVE_MAP cover n bytes from a cave address on? `fuel` bounds the entries. -/
def State.caveCovers (s : State) : Nat → Nat → Nat → Bool
  | 0, _, n => n == 0
  | fuel + 1, a, n =>
    if n = 0 then true
    else match s.caveEntry a with
      | some e => let len := (caveSpan e).1 + (caveSpan e).2 - a
                  if n ≤ len then true else s.caveCovers fuel (a + len) (n - len)
      | none => false

/-- Bytes at a device address as every engine and the host find them. -/
def State.peek (s : State) (a n : Nat) : List Byte :=
  if isCave a then (List.range n).map fun i => Memory.read s.mem (s.caveAddr (a + i))
  else if !isHbm a || s.sealedRight a n then Memory.readBytes s.mem a n
  else (((sectorsOf a n).flatMap s.sectorBytes).drop (a % 512)).take n

/-- Bytes at a device address, with whether a line of them is marked (R449). -/
def State.fetch (s : State) (a n : Nat) : List Byte × Bool := (s.peek a n, s.marked a n)

/-- The number that n bytes at a device address hold, as an engine reads them. -/
def State.peekNat (s : State) (a n : Nat) : Nat := leNat (s.peek a n)

/-- A sector put under the key that its next write uses: bytes the write leaves are what a read finds now. -/
def State.reseal (s : State) (sector : Nat) : State :=
  let r := s.sectorKey sector
  if s.sealOf sector = r then s
  else { s with
    mem := Memory.writeBytes s.mem (512 * sector) (s.sectorBytes sector)
    sealed := if r = 0 then Tbl.del s.sealed sector else Tbl.put s.sealed sector r }

/-- Do marks exist at an address: local stores and HBM carry them (R449)? -/
def carriesMarks (a : Nat) : Bool := decide (a < 0x0200000000) || isHbm a

/-- Bytes written at a device address by an engine or the host (R197, R449, R450). -/
def State.put (s : State) (a : Nat) (data : List Byte) (mark : Bool) : State :=
  let s := if isHbm a then (sectorsOf a data.length).foldl State.reseal s else s
  s.store a data (mark && carriesMarks a)

/-- A span of HBM zeroed with raw zeros, which bypass encryption and clear marks (R373, R426). -/
def State.zeroSpan (s : State) (a n : Nat) : State :=
  { s with
    mem := Memory.clearRange s.mem a (a + n)
    marks := s.marks.filter fun l => !(decide (a ≤ 64 * l) && decide (64 * l + 64 ≤ a + n))
    sealed := if isHbm a then s.sealed.filter fun k => !(decide (a ≤ 512 * k.1) && decide (512 * k.1 + 512 ≤ a + n)) else s.sealed }

/-! ## Scope of an engine's access (R171, R172, R179) -/

/-- Does a range of the layout's grants of a tier hold n bytes at an address (R366)? -/
def PartRec.grantsSpan (r : PartRec) (tier a n : Nat) : Bool :=
  r.grants.any fun g => g.tier == tier && decide (g.base ≤ a) && decide (a + n ≤ g.base + g.length)

/-- The region and resource that n bytes at a device address lie in as a whole (R171, R172): regions are
contiguous, but core IDs with ROW 12–15 lie between cores. -/
def spanRegion (a n : Nat) : Region :=
  let r := regionOf a
  if r == regionOf (a + n - 1) then r else .hole

/-- The cores a span of local stores or windows touches. -/
def spanCores (a n : Nat) : List CoreId :=
  let w := if a < 0x0200000000 then 0x800000 else 0x100000
  let b := if a < 0x0200000000 then 0 else 0x01000000000000
  (List.range' ((a - b) / w) ((a + n - 1 - b) / w + 1 - (a - b) / w)).map (BitVec.ofNat 10 ·)

/-- Do all cores of a span belong to a partition? -/
def State.spanOfPart (s : State) (p : Option Nat) (a n : Nat) : Bool :=
  p.isSome && (spanCores a n).all fun c => s.corePart c == p

/-! ## The iron sweep's evidence -/

/-- What disturbs a sweep: a transfer of the partition completed, or a host write reached one of its windows
(R296, conditions 2 and 3). -/
def State.disturb (s : State) (p : Option Nat) : State :=
  match p with
  | none => s
  | some n => s.modPart n fun q => { q with iron := { q.iron with disturbed := true } }

/-! ## CRC-32 (IEEE 802.3), used by R194, R264, R266 -/

/-- One bit step of the reflected CRC-32. -/
def crcBit (c : BitVec 32) : BitVec 32 := if c.getLsbD 0 then (c >>> 1) ^^^ 0xEDB88320 else c >>> 1

/-- One byte added to a CRC-32. -/
def crcByte (c : BitVec 32) (b : Byte) : BitVec 32 :=
  crcBit (crcBit (crcBit (crcBit (crcBit (crcBit (crcBit (crcBit (c ^^^ b.setWidth 32))))))))

/-- CRC-32 of a byte string. -/
def crc32 (l : List Byte) : BitVec 32 := ~~~(l.foldl crcByte 0xFFFFFFFF)

end Sys2Proof.Machine
end

