-- ==== Sys2Proof/Machine/Rings.lean ====
section
/-! DEFINITION. Job rings: taking records and writing completions (R332–R339). -/

namespace Sys2Proof.Machine

/-- A ring's state. -/
def State.ring (s : State) (r : Nat) : Ring := Tbl.getD s.host.rings r .reset

/-- The state with a ring changed. -/
def State.modRing (s : State) (r : Nat) (f : Ring → Ring) : State :=
  { s with host := { s.host with rings := Tbl.put s.host.rings r (f (s.ring r)) } }

/-- The partition the layout assigns a ring to (R366). -/
def State.ringPart (s : State) (r : Nat) : Option Nat :=
  (List.range 16).find? fun p => (s.part p).layout.valid && (s.part p).layout.rings.toNat.testBit r

/-- The CXL port that owns a ring (R329). -/
def State.ringPort (s : State) (r : Nat) : Nat := if s.start.bifurcated && decide (32 ≤ r) then 1 else 0

/-- Entries of a ring (R332). -/
def Ring.entries (q : Ring) : Nat := 2 ^ (q.ringLog2.toNat + 4)
/-- Completion slots of a ring (R332). -/
def Ring.slots (q : Ring) : Nat := 2 ^ (q.cplLog2.toNat + 4)

/-! ## Fields of a record (R336) -/

/-- KIND. -/
def recKind (r : BitVec 2048) : Nat := field r 0 8
/-- SEQ. -/
def recSeq (r : BitVec 2048) : BitVec 32 := BitVec.ofNat 32 (field r 32 32)
/-- JOB. -/
def recJob (r : BitVec 2048) : Nat := field r 64 32
/-- CONTROL subcommand (R344). -/
def recSub (r : BitVec 2048) : Nat := field r 128 8
/-- CMD of an INTAKE body (R343, R223). -/
def recCmd (r : BitVec 2048) : Nat := field r 128 8

/-- A completion's outcome (R337): STATUS, DETAIL, GEN, STABLE, RESULT. -/
structure Completion where
  status : Nat
  detail : Nat
  gen : Nat
  stable : Bool
  result : Nat
deriving DecidableEq, Repr

/-- OK with nothing more. -/
def cplOk : Completion := { status := 0, detail := 0, gen := 0, stable := false, result := 0 }
/-- A status with a detail. -/
def cplStatus (status detail : Nat) : Completion := { cplOk with status := status, detail := detail }

/-- A status whose DETAIL the table of R339 states no value for: a free value (log 11). -/
def State.openStatus (s : State) (status : Nat) : State × Completion :=
  let v := s.fresh
  (v.2, cplStatus status (v.1.toNat % 65536))

/-- The 32 bytes of a completion record (R337). -/
def completionBytes (q : Ring) (rcd : BitVec 2048) (c : Completion) : List Byte :=
  let n := q.cplNext.toNat
  leBytes 32 ((recSeq rcd).toNat + c.status * 2 ^ 32 + recKind rcd * 2 ^ 40 + c.detail % 65536 * 2 ^ 48
    + c.gen % 2 ^ 32 * 2 ^ 64 + (if c.stable then 2 ^ 96 else 0) + c.result % 2 ^ 64 * 2 ^ 128
    + (n / q.slots + 1) % 2 * 2 ^ 255)

/-- A completion written, the ring's vector sent after it, and the record done (R337, R338); a ring being
disabled is now disabled (R332). -/
def writeCompletion (r : Nat) (rcd : BitVec 2048) (c : Completion) (s : State) : State :=
  let q := s.ring r
  let s := s.put (hostAddr (q.cplBase.toNat + 32 * (q.cplNext.toNat % q.slots))) (completionBytes q rcd c) false
  let s := s.modRing r fun q => { q with
    cplNext := q.cplNext + 1, lastDone := recSeq rcd, current := none, enable := q.enable && !q.disabling, disabling := false }
  if q.msix then s.sendMsix (s.ringPort r) q.vector.toNat else s

/-- May a ring take a record now (R333–R335, R346, R457)? -/
def canTake (r : Nat) (s : State) : Bool :=
  let q := s.ring r
  q.enable && !q.stopped && !q.disabling && q.current.isNone
    && decide (0 < (q.produced - q.consumed).toNat) && decide ((q.produced - q.consumed).toNat < 2 ^ 31)
    && (match s.ringPart r with
      | none => false
      | some p => let t := s.part p; !t.resetting && !t.fatal && !t.held)

/-- A header field or kind that makes a record BAD_RECORD as soon as it is taken (R336, R339, R344). -/
def badHeader (rcd : BitVec 2048) : Bool :=
  field rcd 8 24 != 0 || field rcd 96 32 != 0 || recKind rcd == 0 || decide (5 < recKind rcd)
    || (recKind rcd == 4 && (recSub rcd == 0 || decide (7 < recSub rcd)))

/-- Does a record name no job of its partition (R336, R339)? -/
def badJob (s : State) (r : Nat) (rcd : BitVec 2048) : Bool :=
  match s.ringPart r with
  | none => true
  | some p => match (s.part p).job with
    | none => true
    | some j => j.tag.toNat != recJob rcd

/-- The next record of a ring read and checked (R334–R336): one that breaks the SEQ rule stops the ring; one
with a reserved kind, subcommand or command completes at once; any other is in progress. The flag says
whether the ring may go on to the next. -/
def takeOne (r : Nat) (s : State) : State × Bool :=
  let q := s.ring r
  let rcd := BitVec.ofNat 2048 (s.peekNat (hostAddr (q.ringBase.toNat + 256 * (q.consumed.toNat % q.entries))) 256)
  let taken := s.modRing r fun q => { q with consumed := q.consumed + 1 }
  if q.lastSeq.any (fun l => recSeq rcd != l + 1) then
    ((writeCompletion r rcd (cplStatus 0x02 0) taken).modRing r fun q => { q with stopped := true }, false)
  else
    let taken := taken.modRing r fun q => { q with lastSeq := some (recSeq rcd) }
    if badHeader rcd then
      let o := taken.openStatus 0x01
      (writeCompletion r rcd o.2 o.1, true)
    else if recKind rcd = 3 ∧ (recCmd rcd = 0 ∨ 4 < recCmd rcd) then
      if badJob taken r rcd then
        let o := taken.openStatus 0x03
        (writeCompletion r rcd o.2 o.1, true)
      else (writeCompletion r rcd (cplStatus 0x10 0x01) taken, true)
    else (taken.modRing r fun q => { q with current := some rcd }, false)

/-- Records taken from a ring until one is in progress; `fuel` bounds their number. -/
def takeRecords (r : Nat) : Nat → State → State
  | 0, s => s
  | n + 1, s =>
    if canTake r s then
      let t := takeOne r s
      if t.2 then takeRecords r n t.1 else t.1
    else s

/-- A ring's next records taken (R333, R334). -/
def pumpRing (r : Nat) (s : State) : State := takeRecords r ((s.ring r).produced - (s.ring r).consumed).toNat s

/-- The record in progress of a ring completes, and the ring takes its next (R334, R337). -/
def completeRecord (r : Nat) (c : Completion) (s : State) : State :=
  match (s.ring r).current with
  | none => s
  | some rcd => pumpRing r (writeCompletion r rcd c s)

/-- The same with a status whose DETAIL is open. -/
def completeOpen (r status : Nat) (s : State) : State :=
  let o := s.openStatus status
  completeRecord r o.2 o.1

/-- Rings of a partition in rising order. -/
def State.ringsOf (s : State) (p : Nat) : List Nat := (List.range 64).filter fun r => s.ringPart r == some p

/-- A job address that must lie in the port's host grants (R339 ACCESS): n bytes at a host physical address, in
a host range of the partition's layout record. -/
def State.hostGranted (s : State) (p a n : Nat) : Bool := decide (a + n ≤ 2 ^ 48) && (s.part p).layout.grantsSpan 4 (hostAddr a) n

end Sys2Proof.Machine
end

