-- ==== Sys2Proof/Machine/Flags.lean ====
section
/-! DEFINITION. Conditions and predicates: the comparisons of CMP and the branches, and the flag that
decides whether an instruction issues with effect. -/

namespace Sys2Proof.Machine

/-- The comparison a condition code names; codes 6 and 7 are reserved (R68). -/
def condition? (cc : Nat) (a b : Word) : Option Bool :=
  match cc with
  | 0 => some (a == b)
  | 1 => some (a != b)
  | 2 => some (a.slt b)
  | 3 => some (!a.slt b)
  | 4 => some (a.ult b)
  | 5 => some (!a.ult b)
  | _ => none

/-- Does an instruction of this PRED issue with effect (R63, R67)? Polarity 1 issues when the flag is false. -/
def predHolds (g : CoreRegs) (pred : Nat) : Bool := g.readF (pred % 8) != bit pred 3

/-- Signed comparison of the conditional branches, by OPC 0x31–0x34 (R68). -/
def branchHolds (opc : Nat) (a b : Word) : Bool :=
  match opc with
  | 0x31 => a == b
  | 0x32 => a != b
  | 0x33 => a.slt b
  | _ => !a.slt b

end Sys2Proof.Machine
end

