-- ==== Sys2Proof/Machine/Float.lean ====
section
/-! DEFINITION. Number formats, rounding, conversion, the matrix unit's group value and the counter-based
generator (02), all by exact arithmetic on natural numbers and integers. -/

namespace Sys2Proof.Machine

/-- An exact value of a float format: (−1)^neg × m × 2^e when finite; the sign of a zero is kept. -/
inductive FVal where
  | nan
  | inf (neg : Bool)
  | fin (neg : Bool) (m : Nat) (e : Int)
deriving DecidableEq, Repr, Inhabited

/-- A float format (R27, R29, R31, R32, R33): field widths, bias, the pattern of the largest finite
magnitude, the patterns of +∞ (if it has one) and of its NaN, its storage width in bits. -/
structure FloatFmt where
  fbits : Nat
  ebits : Nat
  bias : Nat
  maxPat : Nat
  infPat : Option Nat
  nanPat : Nat
  width : Nat
deriving DecidableEq, Repr

/-- How a result is rounded: to nearest even, or stochastically with 16 random bits (R43, R47). -/
inductive Rounding where
  | near
  | stochastic (r : Nat)
deriving DecidableEq, Repr

/-- FP32 (R29). -/
def fp32 : FloatFmt := { fbits := 23, ebits := 8, bias := 127, maxPat := 0x7F7FFFFF, infPat := some 0x7F800000, nanPat := 0x7FC00000, width := 32 }

/-- BF16 (R29). -/
def bf16 : FloatFmt := { fbits := 7, ebits := 8, bias := 127, maxPat := 0x7F7F, infPat := some 0x7F80, nanPat := 0x7FC0, width := 16 }

/-- FP16 (R29). -/
def fp16 : FloatFmt := { fbits := 10, ebits := 5, bias := 15, maxPat := 0x7BFF, infPat := some 0x7C00, nanPat := 0x7E00, width := 16 }

/-- E4M3 (R31): no infinity, no negative zero, NaN only 0x80. -/
def e4m3 : FloatFmt := { fbits := 3, ebits := 4, bias := 7, maxPat := 0x7F, infPat := none, nanPat := 0x80, width := 8 }

/-- E5M2 (R32). -/
def e5m2 : FloatFmt := { fbits := 2, ebits := 5, bias := 15, maxPat := 0x7B, infPat := some 0x7C, nanPat := 0x7E, width := 8 }

/-- E2M1 (R33): no infinity, no NaN. -/
def e2m1 : FloatFmt := { fbits := 1, ebits := 2, bias := 1, maxPat := 7, infPat := none, nanPat := 0, width := 4 }

/-- The float format of an FMT code 0x0–0x4 (R27). -/
def floatFmt? (code : Nat) : Option FloatFmt :=
  match code with
  | 0 => some fp32
  | 1 => some bf16
  | 2 => some fp16
  | 3 => some e4m3
  | 4 => some e5m2
  | _ => none

/-- The float format of an FMT code, FP32 beyond 0x4. -/
def floatFmt (code : Nat) : FloatFmt := (floatFmt? code).getD fp32

/-- The exponent of a format's smallest subnormal. -/
def FloatFmt.gridMin (f : FloatFmt) : Int := 1 - (f.bias : Int) - (f.fbits : Int)

/-- The value of a code (R29, R31, R32, R33). -/
def FloatFmt.decode (f : FloatFmt) (n : Nat) : FVal :=
  let neg := n.testBit (f.width - 1)
  let mag := n % 2 ^ (f.width - 1)
  let ex := mag / 2 ^ f.fbits
  let fr := mag % 2 ^ f.fbits
  if f = e4m3 ∧ n % 256 = 0x80 then .nan
  else match f.infPat with
    | some p => if mag = p then .inf neg else if p < mag then .nan
      else if ex = 0 then .fin neg fr f.gridMin else .fin neg (fr + 2 ^ f.fbits) (f.gridMin + ex - 1)
    | none => if ex = 0 then .fin neg fr f.gridMin else .fin neg (fr + 2 ^ f.fbits) (f.gridMin + ex - 1)

/-- n × 2^i for a nonnegative i, floor of it for a negative one. -/
def shiftInt (n : Nat) (i : Int) : Nat := if 0 ≤ i then n * 2 ^ i.toNat else n / 2 ^ (-i).toNat

/-- floor(log2 (p / q)) for positive p and q. -/
def ratioLog2 (p q : Nat) : Int :=
  let k : Int := (Nat.log2 p : Int) - Nat.log2 q
  if q * 2 ^ k.toNat ≤ p * 2 ^ (-k).toNat then k else k - 1

/-- p/q × 2^e (p, q positive) rounded once onto a format's grid (R45, R47): the pattern of the magnitude,
the exponent range taken as unbounded above. -/
def roundMag (f : FloatFmt) (mode : Rounding) (p q : Nat) (e : Int) : Nat :=
  let g := max (ratioLog2 p q + e - f.fbits) f.gridMin
  let num := if 0 ≤ e - g then p * 2 ^ (e - g).toNat else p
  let den := if 0 ≤ e - g then q else q * 2 ^ (g - e).toNat
  let units := num / den
  let rest := num % den
  let up := match mode with
    | .near => decide (den < 2 * rest) || (decide (2 * rest = den) && decide (units % 2 = 1))
    | .stochastic r => decide (65536 ≤ rest * 65536 / den + r)
  (g - f.gridMin).toNat * 2 ^ f.fbits + units + (if up then 1 else 0)

/-- A sign put on a magnitude pattern; E4M3 has no negative zero (R46). -/
def FloatFmt.withSign (f : FloatFmt) (neg : Bool) (mag : Nat) : Nat :=
  if neg && !(f = e4m3 && mag = 0) then mag + 2 ^ (f.width - 1) else mag

/-- The code of an overflow or an infinity: ∞ where the format has it, otherwise NaN (R43, R45). -/
def FloatFmt.infCode (f : FloatFmt) (neg : Bool) : Nat :=
  match f.infPat with
  | some p => f.withSign neg p
  | none => f.nanPat

/-- A value rounded to nearest even under IEEE 754: overflow gives ∞ (R29, R55). -/
def FloatFmt.encode (f : FloatFmt) (v : FVal) : Nat :=
  match v with
  | .nan => f.nanPat
  | .inf neg => f.infCode neg
  | .fin neg m e =>
    if m = 0 then f.withSign neg 0
    else
      let mag := roundMag f .near m 1 e
      if f.maxPat < mag then f.infCode neg else f.withSign neg mag

/-! ## Exact arithmetic with the special cases of IEEE 754 -/

/-- The sign of a value. -/
def FVal.isNeg (v : FVal) : Bool :=
  match v with
  | .nan => false
  | .inf n => n
  | .fin n _ _ => n

/-- The value with its sign reversed. -/
def FVal.negate (v : FVal) : FVal :=
  match v with
  | .nan => .nan
  | .inf n => .inf (!n)
  | .fin n m e => .fin (!n) m e

/-- The magnitude of a value. -/
def FVal.abs (v : FVal) : FVal :=
  match v with
  | .nan => .nan
  | .inf _ => .inf false
  | .fin _ m e => .fin false m e

/-- An integer multiple of 2^e as a value; zero is +0. -/
def FVal.ofInt (i : Int) (e : Int) : FVal := .fin (decide (i < 0)) i.natAbs e

/-- The integer that a finite value is, in units of 2^g with g at most its exponent. -/
def FVal.inUnits (neg : Bool) (m : Nat) (e g : Int) : Int :=
  let k : Int := m * 2 ^ (e - g).toNat
  if neg then -k else k

/-- The exact sum; an exact zero of unlike signs is +0. -/
def FVal.add (a b : FVal) : FVal :=
  match a, b with
  | .nan, _ => .nan
  | _, .nan => .nan
  | .inf n, .inf k => if n = k then .inf n else .nan
  | .inf n, _ => .inf n
  | _, .inf n => .inf n
  | .fin n m e, .fin k l d =>
    if m = 0 ∧ l = 0 then .fin (n && k) 0 0
    else
      let g := min e d
      FVal.ofInt (FVal.inUnits n m e g + FVal.inUnits k l d g) g

/-- The exact product; zero times infinity is NaN. -/
def FVal.mul (a b : FVal) : FVal :=
  match a, b with
  | .nan, _ => .nan
  | _, .nan => .nan
  | .inf n, .inf k => .inf (n != k)
  | .inf n, .fin k l _ => if l = 0 then .nan else .inf (n != k)
  | .fin k l _, .inf n => if l = 0 then .nan else .inf (n != k)
  | .fin n m e, .fin k l d => .fin (n != k) (m * l) (e + d)

/-- a < b of values that are not NaN; the zeros are equal. -/
def FVal.lt (a b : FVal) : Bool :=
  match a, b with
  | .nan, _ => false
  | _, .nan => false
  | .inf n, .inf k => n && !k
  | .inf n, .fin _ _ _ => n
  | .fin _ _ _, .inf n => !n
  | .fin n m e, .fin k l d => decide (FVal.inUnits n m e (min e d) < FVal.inUnits k l d (min e d))

/-- a = b as numbers; NaN equals nothing. -/
def FVal.numEq (a b : FVal) : Bool :=
  match a, b with
  | .nan, _ => false
  | _, .nan => false
  | _, _ => !(FVal.lt a b) && !(FVal.lt b a)

/-- Is a value a zero of either sign? -/
def FVal.isZero (v : FVal) : Bool :=
  match v with
  | .fin _ m _ => decide (m = 0)
  | _ => false

/-- FP32 sum of two FP32 codes (R55). -/
def addF32 (a b : Nat) : Nat := fp32.encode ((fp32.decode a).add (fp32.decode b))

/-- FP32 difference of two FP32 codes (R55). -/
def subF32 (a b : Nat) : Nat := fp32.encode ((fp32.decode a).add (fp32.decode b).negate)

/-- FP32 product of two FP32 codes (R55). -/
def mulF32 (a b : Nat) : Nat := fp32.encode ((fp32.decode a).mul (fp32.decode b))

/-- FP32 fused a × b + c, rounded once (R55). -/
def fmaF32 (a b c : Nat) : Nat := fp32.encode (((fp32.decode a).mul (fp32.decode b)).add (fp32.decode c))

/-- The smaller of two values under IEEE 754-2019 minimum: NaN wins, −0 is below +0. -/
def FVal.minimum (a b : FVal) : FVal :=
  match a, b with
  | .nan, _ => .nan
  | _, .nan => .nan
  | _, _ => if a.isZero && b.isZero then (if a.isNeg then a else b) else if FVal.lt b a then b else a

/-- The larger of two values: NaN wins, +0 is above −0 (R56, R142). -/
def FVal.maximum (a b : FVal) : FVal :=
  match a, b with
  | .nan, _ => .nan
  | _, .nan => .nan
  | _, _ => if a.isZero && b.isZero then (if a.isNeg then b else a) else if FVal.lt a b then b else a

/-! ## The function units (R145, R252) -/

/-- The integer square root, bit by bit from bit k − 1. -/
def isqrtFrom (n : Nat) : Nat → Nat → Nat
  | 0, r => r
  | k + 1, r => isqrtFrom n k (if (r + 2 ^ k) * (r + 2 ^ k) ≤ n then r + 2 ^ k else r)

/-- floor(√n). -/
def isqrt (n : Nat) : Nat := isqrtFrom n (Nat.log2 n / 2 + 1) 0

/-- The correctly rounded code of a positive p/q × 2^e. -/
def FloatFmt.encodeRatio (f : FloatFmt) (neg : Bool) (p q : Nat) (e : Int) : Nat :=
  let mag := roundMag f .near p q e
  if f.maxPat < mag then f.infCode neg else f.withSign neg mag

/-- 1/x in FP32, correctly rounded (R145). -/
def recipF32 (x : Nat) : Nat :=
  match fp32.decode x with
  | .nan => fp32.nanPat
  | .inf n => fp32.withSign n 0
  | .fin n m e => if m = 0 then fp32.infCode n else fp32.encodeRatio n 1 m (-e)

/-- √x of a positive m × 2^e as p × 2^k with a last bit that is 1 exactly when the root is inexact. -/
def sqrtSticky (m : Nat) (e : Int) : Nat × Int :=
  let odd := e % 2 = 1
  let m' := if odd then 2 * m else m
  let e' := if odd then e - 1 else e
  let big := m' * 2 ^ 128
  let r := isqrt big
  (2 * r + (if r * r = big then 0 else 1), e' / 2 - 65)

/-- √x in FP32, correctly rounded (R252): √−0 is −0, of a negative value NaN. -/
def sqrtF32 (x : Nat) : Nat :=
  match fp32.decode x with
  | .nan => fp32.nanPat
  | .inf n => if n then fp32.nanPat else fp32.infCode false
  | .fin n m e =>
    if m = 0 then fp32.withSign n 0
    else if n then fp32.nanPat
    else fp32.encodeRatio false (sqrtSticky m e).1 1 (sqrtSticky m e).2

/-- 1/√x in FP32, correctly rounded (R145): floor(√(2^192 / m)) with a sticky last bit. -/
def rsqrtF32 (x : Nat) : Nat :=
  match fp32.decode x with
  | .nan => fp32.nanPat
  | .inf n => if n then fp32.nanPat else 0
  | .fin n m e =>
    if m = 0 then fp32.infCode n
    else if n then fp32.nanPat
    else
      let odd := e % 2 = 1
      let m' := if odd then 2 * m else m
      let e' := if odd then e - 1 else e
      let r := isqrt (2 ^ 192 / m')
      fp32.encodeRatio false (2 * r + (if r * r * m' = 2 ^ 192 then 0 else 1)) 1 (-97 - e' / 2)

/-- 1 + r(1 + r/2(1 + r/3( … ))) in units of 2^-400: the exponential series, innermost term first. -/
def expSeries (r : Nat) : Nat → Nat → Nat
  | 0, acc => acc
  | k + 1, acc => expSeries r k (2 ^ 400 + acc * r / (k + 1) / 2 ^ 400)

/-- A number in units of 2^-400 squared k times. -/
def squareTimes : Nat → Nat → Nat
  | 0, v => v
  | k + 1, v => squareTimes k (v * v / 2 ^ 400)

/-- e^|x| in units of 2^-400 for |x| = m × 2^e below 256: the series of |x|/2^8, squared eight times. The
error is below 2^-300 of the value, far inside the distance of any FP32 result from a rounding boundary. -/
def expFixed (m : Nat) (e : Int) : Nat := squareTimes 8 (expSeries (shiftInt m (e + 392)) 90 (2 ^ 400))

/-- e^x in FP32, correctly rounded (R145). -/
def expF32 (x : Nat) : Nat :=
  match fp32.decode x with
  | .nan => fp32.nanPat
  | .inf n => if n then 0 else fp32.infCode false
  | .fin n m e =>
    if m = 0 then 0x3F800000
    else if (FVal.fin false m e).lt (.fin false 128 0) then
      (if n then fp32.encodeRatio false (2 ^ 400) (expFixed m e) 0 else fp32.encodeRatio false (expFixed m e) 1 (-400))
    else if n then 0 else fp32.infCode false

/-! ## Conversions (R43–R50) -/

/-- What a conversion writes and counts: the code, and whether it counts as saturated or underflowed (R50). -/
structure Converted where
  code : Nat
  sat : Bool
  unf : Bool
deriving DecidableEq, Repr

/-- A float conversion under its conversion control (R45, R46, R50). -/
def convertFloat (f : FloatFmt) (ovf : Bool) (mode : Rounding) (v : FVal) : Converted :=
  match v with
  | .nan => { code := f.nanPat, sat := false, unf := false }
  | .inf neg =>
    if ovf then { code := f.infCode neg, sat := false, unf := false }
    else { code := f.withSign neg f.maxPat, sat := true, unf := false }
  | .fin neg m e =>
    if m = 0 then { code := f.withSign neg 0, sat := false, unf := false }
    else
      let mag := roundMag f mode m 1 e
      if f.maxPat < mag then { code := if ovf then f.infCode neg else f.withSign neg f.maxPat, sat := true, unf := false }
      else { code := f.withSign neg mag, sat := false, unf := decide (mag = 0) }

/-- A float conversion that scales its input: the exact product of input and scale rounded once (R45). R50 judges the
input, not the product: a nonzero finite input that a zero scale makes zero underflows, and a finite one that an infinite
scale takes past the range overflows in either OVF setting. -/
def convertScaled (f : FloatFmt) (ovf : Bool) (x s : FVal) : Converted :=
  let c := convertFloat f ovf .near (x.mul s)
  match x, x.mul s with
  | .fin _ m _, .fin _ k _ => { c with unf := c.unf || (decide (m ≠ 0) && decide (k = 0)) }
  | .fin _ _ _, .inf _ => { c with sat := true }
  | _, _ => c

/-- The exact quotient of R46 as a special value, or its sign and the ratio p/q × 2^e. -/
inductive Quotient where
  | nan
  | inf (neg : Bool)
  | ratio (neg : Bool) (p q : Nat) (e : Int)
deriving DecidableEq, Repr

/-- x / scale, exactly (R45). -/
def divExact (x s : FVal) : Quotient :=
  match x, s with
  | .nan, _ => .nan
  | _, .nan => .nan
  | .inf _, .inf _ => .nan
  | .inf n, .fin k _ _ => .inf (n != k)
  | .fin n _ _, .inf k => .ratio (n != k) 0 1 0
  | .fin n m e, .fin k l d => if l = 0 then (if m = 0 then .nan else .inf (n != k)) else .ratio (n != k) m l (e - d)

/-- A conversion to an E2M1 code of B4 (R45, R46, R480); a NaN quotient gives code 0, and counts nothing. -/
def convertE2M1 (ovf : Bool) (mode : Rounding) (x s : FVal) : Converted :=
  match divExact x s with
  | .nan => { code := 0, sat := false, unf := false }
  | .inf neg => { code := e2m1.withSign neg 7, sat := !ovf, unf := false }
  | .ratio neg p q e =>
    if p = 0 then { code := e2m1.withSign neg 0, sat := false, unf := false }
    else
      let mag := roundMag e2m1 mode p q e
      if 7 < mag then { code := e2m1.withSign neg 7, sat := true, unf := false }
      else { code := e2m1.withSign neg mag, sat := false, unf := decide (mag = 0) }

/-- p/q × 2^e rounded to a whole number. -/
def roundWhole (mode : Rounding) (p q : Nat) (e : Int) : Nat :=
  let num := p * 2 ^ e.toNat
  let den := q * 2 ^ (-e).toNat
  let units := num / den
  let rest := num % den
  let up := match mode with
    | .near => decide (den < 2 * rest) || (decide (2 * rest = den) && decide (units % 2 = 1))
    | .stochastic r => decide (65536 ≤ rest * 65536 / den + r)
  units + (if up then 1 else 0)

/-- A conversion to an integer code of the given width, signedness and zero point (R45, R46, R50). A result
of zero value is one whose code equals the zero point, so an element limited to it counts under both counters
(log 5). -/
def convertInt (width : Nat) (isSigned : Bool) (zero : Int) (ovf : Bool) (mode : Rounding) (x s : FVal) : Converted :=
  let lo : Int := if isSigned then -2 ^ (width - 1) else 0
  let hi : Int := if isSigned then 2 ^ (width - 1) - 1 else 2 ^ width - 1
  match divExact x s with
  | .nan => { code := wrapInt width zero, sat := true, unf := false }
  | .inf neg => { code := wrapInt width (if neg then lo else hi), sat := !ovf, unf := false }
  | .ratio neg p q e =>
    let k : Int := if p = 0 then 0 else roundWhole mode p q e
    let v := (if neg then -k else k) + zero
    let lim := max lo (min hi v)
    { code := wrapInt width lim, sat := decide (lim ≠ v), unf := decide (p ≠ 0) && decide (lim = zero) }

/-! ## The matrix unit's group value (R39, R40) -/

/-- floor(log2 |p|) of a nonzero finite product. -/
def productLog2 (v : FVal) : Option Int :=
  match v with
  | .fin _ m e => if m = 0 then none else some (Nat.log2 m + e)
  | _ => none

/-- A product truncated to a multiple of q = 2^(top − 27), with its sticky half-unit, in units of q/2. -/
def stickyUnits (top : Int) (v : FVal) : Int :=
  match v with
  | .fin neg m e =>
    let d := e - (top - 27)
    let t := shiftInt m d
    let k : Int := 2 * t + (if 0 ≤ d ∨ m % 2 ^ (-d).toNat = 0 then 0 else 1)
    if neg then -k else k
  | _ => 0

/-- Step 2 of R39: the special value of a group of products, if it has one. -/
def groupSpecial (ps : List FVal) : Option FVal :=
  let pos := ps.contains (.inf false)
  let neg := ps.contains (.inf true)
  if ps.contains .nan || (pos && neg) then some .nan
  else if pos then some (.inf false)
  else if neg then some (.inf true)
  else none

/-- The group value of R39 as an FP32 code, from the exact products and the block scales. -/
def groupValue (ps : List FVal) (scaleA scaleB : FVal) : Nat :=
  let s := match groupSpecial ps with
    | some v => v
    | none =>
      match (ps.filterMap productLog2).max? with
      | none => .fin false 0 0
      | some top => FVal.ofInt ((ps.map (stickyUnits top)).foldl (· + ·) 0) (top - 28)
  match (s.mul scaleA).mul scaleB with
  | .fin neg m e => if m = 0 then 0 else fp32.encode (.fin neg m e)
  | v => fp32.encode v

/-- The accumulator takes its groups in ascending K order (R40). -/
def accumulate (acc : Nat) (groups : List Nat) : Nat := groups.foldl addF32 acc

/-! ## The counter-based generator (R52) -/

/-- A left rotation of a 32-bit word. -/
def rotl32 (x r : Nat) : Nat := (x * 2 ^ r + x / 2 ^ (32 - r)) % 2 ^ 32

/-- The state of the generator's rounds. -/
structure GenState where
  x0 : Nat
  x1 : Nat
  x2 : Nat
  x3 : Nat
deriving DecidableEq, Repr

/-- One round of R52 with its number, its two keys and its two rotations. -/
def genRound (g : GenState) (r ka kb ra rb : Nat) : GenState :=
  let x0 := (g.x0 + g.x1 + ka) % 2 ^ 32
  let x1 := rotl32 g.x1 ra ^^^ x0
  let x2 := (g.x2 + g.x3 + kb + r) % 2 ^ 32
  let x3 := rotl32 g.x3 rb ^^^ x2
  { x0 := x0, x1 := x3, x2 := x2, x3 := x1 }

/-- y0, y1, y2, y3 of the generator for a seed, step, tensor ID and element index (R52). -/
def generator (seed step tensor index : Nat) : GenState :=
  let k0 := bits seed 0 32
  let k1 := bits seed 32 32
  let k2 := bits seed 64 32 ^^^ (tensor % 2 ^ 32)
  let k3 := bits seed 96 32
  let key (i : Nat) : Nat := match i % 4 with | 0 => k0 | 1 => k1 | 2 => k2 | _ => k3
  let start : GenState := { x0 := bits index 0 32, x1 := bits index 32 8, x2 := bits step 0 32, x3 := bits step 32 32 }
  let rot : List (Nat × Nat) := [(13, 16), (17, 9), (7, 21), (25, 12), (11, 27), (19, 6), (5, 14), (29, 31), (3, 8), (23, 20)]
  let g := (rot.zipIdx).foldl (fun g p => genRound g p.2 (key p.2) (key (p.2 + 2)) p.1.1 p.1.2) start
  { x0 := (g.x0 + k0) % 2 ^ 32, x1 := (g.x1 + k1) % 2 ^ 32, x2 := (g.x2 + k2) % 2 ^ 32, x3 := (g.x3 + k3) % 2 ^ 32 }

/-! ## Clip counters (R49) -/

/-- A counter with increments added, saturating at 2^48 − 1. -/
def ClipCtr.add (k : ClipCtr) (n : Nat) : ClipCtr :=
  if 2 ^ 48 ≤ k.count.toNat + n then { count := BitVec.allOnes 48, saturated := true }
  else { k with count := k.count + BitVec.ofNat 48 n }

/-- The register's 64 bits. -/
def ClipCtr.word (k : ClipCtr) : Word := BitVec.ofNat 64 (k.count.toNat + if k.saturated then 2 ^ 63 else 0)

/-- The conversion control's fields (R43). -/
def convOvf (conv : BitVec 8) : Bool := conv.toNat.testBit 0
/-- RND of a conversion control (R43). -/
def convRnd (conv : BitVec 8) : Bool := conv.toNat.testBit 1
/-- CLIPSEL of a conversion control (R43). -/
def convSet (conv : BitVec 8) : Nat := field conv 2 4

/-- TOTAL, SAT and UNF increments of a list of conversions (R50). -/
def clipCount (l : List Converted) : Nat × Nat × Nat :=
  (l.length, (l.filter (·.sat)).length, (l.filter (·.unf)).length)

end Sys2Proof.Machine
end

