-- ==== Sys2Proof/Machine/Tiles.lean ====
section
/-! DEFINITION. The tile register file, the operand formats of the matrix unit and the products of one input
row (04, with the arithmetic of 02). -/

namespace Sys2Proof.Machine

/-! ## Palette and tile file (R105–R107) -/

/-- GROUP of a palette entry. -/
def palGroup (p : BitVec 13) : Nat := field p 0 3
/-- IL of a palette entry. -/
def palIl (p : BitVec 13) : Nat := field p 3 2
/-- PAIR of a palette entry. -/
def palPair (p : BitVec 13) : Nat := field p 5 2
/-- BASE of a palette entry. -/
def palBase (p : BitVec 13) : Nat := field p 7 6
/-- The pair count w of a palette entry. -/
def palWidth (p : BitVec 13) : Nat := 2 ^ palIl p

/-- The first check of R109: IL is not reserved and PAIR is a multiple of w. -/
def palOk (p : BitVec 13) : Bool := palIl p != 3 && palPair p % palWidth p == 0

/-- The second check of R109 for the highest row touched. -/
def palFits (p : BitVec 13) (h : Nat) : Bool := decide (palBase p + h / palWidth p ≤ 63)

/-- The pair of the file (4 × group + pair) that holds a row of a tile (R106). -/
def rowPair (p : BitVec 13) (r : Nat) : Nat := 4 * palGroup p + (palPair p + r % palWidth p) % 4

/-- The entry that holds a row of a tile (R106). -/
def rowEntry (p : BitVec 13) (r : Nat) : Nat := palBase p + r / palWidth p

/-- The key of a row's poison mark, 64 × pair + entry (R113). -/
def rowKey (p : BitVec 13) (r : Nat) : Nat := 64 * rowPair p r + rowEntry p r

/-- The even bank of a pair of the file. -/
def evenBank (pair : Nat) : Nat := 8 * (pair / 4) + 2 * (pair % 4)

/-- A tile's row as 1,024 bits: the even bank's entry low, the odd bank's high (R106). -/
def CoreRegs.tileRow (g : CoreRegs) (p : BitVec 13) (r : Nat) : Nat :=
  let b := evenBank (rowPair p r)
  (Tbl.getD g.tiles (64 * b + rowEntry p r) 0).toNat + (Tbl.getD g.tiles (64 * (b + 1) + rowEntry p r) 0).toNat * 2 ^ 512

/-- Does a tile's row carry a poison mark (R113)? -/
def CoreRegs.tileMarked (g : CoreRegs) (p : BitVec 13) (r : Nat) : Bool := g.tileMark.contains (rowKey p r)

/-- A tile's row with its low bytes written; a short row leaves the rest of its entry (R106), and sets the
mark but does not clear it (R113). -/
def CoreRegs.writeTileRow (g : CoreRegs) (p : BitVec 13) (r nbytes : Nat) (data : Nat) (mark : Bool) : CoreRegs :=
  let b := evenBank (rowPair p r)
  let old := g.tileRow p r
  let v := putField old 0 (8 * nbytes) data
  let k := rowKey p r
  { g with
    tiles := Tbl.put (Tbl.put g.tiles (64 * b + rowEntry p r) (BitVec.ofNat 512 v)) (64 * (b + 1) + rowEntry p r) (BitVec.ofNat 512 (v / 2 ^ 512))
    tileMark := if mark then insertNum g.tileMark k else if nbytes = 128 then g.tileMark.filter (· ≠ k) else g.tileMark }

/-! ## Operand formats (R27, R34, R35, R37, R114) -/

/-- Bits that one element of a format takes; 0 for a reserved code. -/
def storageBits (fmt : Nat) : Nat :=
  match fmt with
  | 0 => 32
  | 1 | 2 => 16
  | 3 | 4 | 8 | 9 | 12 | 13 => 8
  | 5 | 6 | 7 | 10 | 11 => 4
  | _ => 0

/-- Is a format blocked (R36)? -/
def isBlocked (fmt : Nat) : Bool := decide (5 ≤ fmt) && decide (fmt ≤ 13)

/-- Does a format have a zero point (R35)? -/
def hasZeroPoint (fmt : Nat) : Bool := decide (10 ≤ fmt) && decide (fmt ≤ 13)

/-- Are a format's integer codes signed (R27)? -/
def signedCodes (fmt : Nat) : Bool := fmt == 7 || fmt == 9 || fmt == 11 || fmt == 13

/-- The group bytes of a format (R27). -/
def groupBytes (fmt : Nat) : Nat :=
  match fmt with
  | 0 => 4
  | 1 | 2 => 2
  | 3 | 4 => 1
  | 5 | 6 | 7 | 10 | 11 => 16
  | _ => 32

/-- The slot class of an operand format (R37); FP32 and reserved codes have none. -/
def slotOf? (fmt : Nat) : Option SlotClass :=
  match fmt with
  | 1 | 2 | 12 | 13 => some .s16
  | 3 | 4 | 8 | 9 | 10 | 11 => some .s8
  | 5 | 6 | 7 => some .s4
  | _ => none

/-- The widest of two slot classes (R37). -/
def widest (a b : SlotClass) : SlotClass :=
  match a, b with
  | .s16, _ => .s16
  | _, .s16 => .s16
  | .s8, _ => .s8
  | _, .s8 => .s8
  | .s4, .s4 => .s4

/-- K of a slot class: the elements of an input row (R37, R114). -/
def slotK (c : SlotClass) : Nat :=
  match c with
  | .s16 => 32
  | .s8 => 64
  | .s4 => 128

/-- The activation row bytes of a slot and format (R114). -/
def actRowBytes (c : SlotClass) (fmt : Nat) : Nat := slotK c * storageBits fmt / 8

/-- The weight bytes per quarter (R114). -/
def quarterBytes (c : SlotClass) (wfmt : Nat) : Nat := 32 * slotK c * storageBits wfmt / 8

/-- The integer of a code in an integer format, given its width. -/
def intCode (fmt width code : Nat) : Int := if signedCodes fmt then signed width (code % 2 ^ width) else (code % 2 ^ width : Nat)

/-- The exact multiplier input of an element before its block scale: (code − zero point) or the float value
(R34, R35, R37). -/
def elementValue (fmt code zp : Nat) : FVal :=
  match floatFmt? fmt with
  | some f => f.decode code
  | none =>
    if fmt = 5 then e2m1.decode code
    else FVal.ofInt (intCode fmt (storageBits fmt) code - (if hasZeroPoint fmt then intCode fmt (storageBits fmt) zp else 0)) 0

/-- The value of a UE8 scale byte (R34). -/
def ue8 (u : Nat) : FVal := if u = 255 then .nan else .fin false 1 ((u : Int) - 127)

/-- The block scale of a format from its raw scale (R34, R35); 1 for a format without one. -/
def scaleValue (fmt raw : Nat) : FVal :=
  if fmt = 5 then ue8 (raw % 256) else if isBlocked fmt then bf16.decode (raw % 65536) else .fin false 1 0

/-- The raw scale of group g in an activation scale row (R119). -/
def actScale (fmt row g : Nat) : Nat := if fmt = 5 then bits row (8 * g) 8 else bits row (16 * g) 16

/-- The raw zero point of group g in an activation scale row (R119). -/
def actZero (row g : Nat) : Nat := bits row (8 * (8 + g)) 8

/-- The raw scale of quarter column c = 32q + j, group g, in the weight scale rows (R119). -/
def weightScale (fmt scales c g : Nat) : Nat :=
  if fmt = 5 then bits scales (8 * (4 * c + g)) 8 else bits scales (8 * (8 * c + 2 * g)) 16

/-- The raw zero point of a quarter column and group (R119). -/
def weightZero (scales c g : Nat) : Nat := bits scales (8 * (1024 + 4 * c + g)) 8

/-- The code of weight (k, column 32q + j) in the latches (R118). -/
def weightCode (l : Latches) (c k : Nat) : Nat :=
  let q := c / 32
  let j := c % 32
  let w := storageBits l.wfmt.toNat
  let byte := q / 2 * 4096 + q % 2 * quarterBytes l.slot l.wfmt.toNat
  let idx := if l.rowForm then 32 * k + j else slotK l.slot * j + k
  bits l.weights.toNat (8 * byte + w * idx) w

/-- Products of one group of an output column: the exact a[k] × b[k] of its 32 K indices (R39). -/
def groupProducts (l : Latches) (fmt row scaleRow c g : Nat) : List FVal :=
  (List.range 32).map fun i =>
    let k := 32 * g + i
    let a := elementValue fmt (bits row (storageBits fmt * k) (storageBits fmt)) (actZero scaleRow g)
    let b := elementValue l.wfmt.toNat (weightCode l c k) (weightZero l.scales.toNat c g)
    a.mul b

/-- The group values of every output column of one input row, in ascending K order (R39, R40). -/
def rowGroups (l : Latches) (fmt row scaleRow : Nat) : List (List Nat) :=
  (List.range 128).map fun c =>
    (List.range (slotK l.slot / 32)).map fun g =>
      groupValue (groupProducts l fmt row scaleRow c g)
        (scaleValue fmt (actScale fmt scaleRow g)) (scaleValue l.wfmt.toNat (weightScale l.wfmt.toNat l.scales.toNat c g))

/-- The FP32 accumulator of a column before an instruction's groups: what is held, or +0 (R40). -/
def startAcc (acc : Bool) (held : Nat) : Nat := if acc then held else 0

/-- The bytes of a list of elements of w bytes each. -/
def elementBytes (w : Nat) (vals : List Nat) : List Byte := vals.flatMap (leBytes w)

/-- The number a list of w-bit fields packs, the first lowest. -/
def packFields (w : Nat) : List Nat → Nat
  | [] => 0
  | v :: t => v % 2 ^ w + 2 ^ w * packFields w t

/-- The format code of an MMS output format (R122). -/
def ofmtCode (ofmt : Nat) : Nat :=
  match ofmt with
  | 0 => 0
  | 1 => 1
  | 2 => 3
  | _ => 4

/-- An MMS result converted: times OSCALE, rounded once, under CONV (R127, R45). -/
def mmsConvert (ofmt : Nat) (conv : BitVec 8) (oscale : BitVec 32) (v : Nat) : Converted :=
  convertScaled (floatFmt (ofmtCode ofmt)) (convOvf conv) (fp32.decode v) (fp32.decode oscale.toNat)

/-- The local-store offset of output element (i, 32b) of an MMS, of which 32 lie in a run (R127). -/
def mmsOutAddr (p : MmsRun) (i b : Nat) : Nat :=
  let e := storageBits (ofmtCode p.ofmt) / 8
  if p.oblk then p.out + b * 32 * p.rows * e + i * 32 * e else p.out + i * 128 * e + b * 32 * e

end Sys2Proof.Machine
end

