-- ==== Sys2Proof/Machine/Issue.lean ====
section
/-! DEFINITION. The instruction stream of a core: what is scheduled for later cycles and how it takes place,
faults, loops, and the issue of one instruction (03). -/

namespace Sys2Proof.Machine

/-! ## Performance events (R462) -/

/-- The event PERF_EVENT selects for counter i. -/
def State.perfSelect (s : State) (i : Nat) : Nat := leNat (Tbl.getD s.dict.entries (0x2801 * 256 + i + 1) [])

/-- n events of a code counted in every counter of a core that selects it (R462). -/
def State.countPerf (s : State) (c : CoreId) (code n : Nat) : State :=
  if (List.range 16).any (fun i => s.perfSelect i == code) then
    s.modCore c fun k => { k with sys := { k.sys with
      perf := Vector.ofFn fun i => if s.perfSelect i.val = code then k.sys.perf[i] + BitVec.ofNat 64 n else k.sys.perf[i] } }
  else s

/-- What a completed transfer of a core's engine adds to the counts of time: core cycles that accesses waited for a port of its store,
and HBM requests outstanding summed over cycles; free amounts, since the spec gives no such times (R462; log 194). -/
def State.countTimes (s : State) (c : CoreId) : State :=
  let v := s.fresh
  let w := v.2.fresh
  (w.2.countPerf c 0x05 v.1.toNat).countPerf c 0x08 w.1.toNat

/-! ## The schedule of a core -/

/-- Places of acts within a core cycle: clip increments of the cycle before, then results becoming
available, then local-store writes, then reads (R51, R78, R111, R183). -/
def phaseClip : Nat := 0
/-- Results becoming available (R78). -/
def phaseResult : Nat := 1
/-- Local-store writes (R183). -/
def phaseWrite : Nat := 2
/-- Reads of the local store and of tile rows (R111, R183). -/
def phaseRead : Nat := 3

/-- Does an act come before another: cycle, place, then order of issue (R86)? -/
def Sched.before (a b : Sched) : Bool :=
  decide (a.cycle < b.cycle) || (a.cycle == b.cycle && (decide (a.phase < b.phase) || (a.phase == b.phase && decide (a.seq < b.seq))))

/-- An act put into a schedule. -/
def insertSched (l : List Sched) (e : Sched) : List Sched :=
  match l with
  | [] => [e]
  | h :: t => if e.before h then e :: h :: t else h :: insertSched t e

/-- Further acts of the instruction of `e` at given cycles and places. -/
def Sched.later (e : Sched) (acts : List (Nat × Nat × Act)) : List Sched :=
  acts.map fun a => { e with cycle := a.1, phase := a.2.1, act := a.2.2 }

/-- Acts put into a core's schedule. -/
def State.schedule (s : State) (c : CoreId) (l : List Sched) : State :=
  s.modCore c fun k => { k with flight := { k.flight with sched := l.foldl insertSched k.flight.sched } }

/-- An upper bound on the acts an act gives rise to, itself included. -/
def Act.work (a : Act) : Nat :=
  match a with
  | .ldRead _ _ => 2
  | .vRead _ later _ masks _ _ => (if later.isEmpty then 1 else 2) + masks.length
  | .tldRow p i => 2 * (p.rows - i) + 2
  | .tstRow p i => 3 * (p.rows - i) + 2
  | .wlRows _ stage _ => (8 - stage) + 2
  | .mmtRow p i => (p.d.length + 2) * (p.rows - i + 1)
  | .mmtOut p _ _ _ => p.d.length + 1
  | .mmsRow p i => 4 * (p.rows - i) + 4
  | .mmsOut _ _ _ _ => 3
  | .mmsWrite _ _ _ _ => 2
  | _ => 1

/-- The work of a schedule. -/
def schedWork (l : List Sched) : Nat := (l.map fun e => e.act.work).foldl (· + ·) 0

/-! ## Audit (R87) -/

/-- The audit name of an X register. -/
def auditX (r : Nat) : Nat := r
/-- The audit name of a V register. -/
def auditV (r : Nat) : Nat := 32 + r
/-- The audit name of a tile row. -/
def auditRow (p : BitVec 13) (r : Nat) : Nat := 64 + rowKey p r

/-- The registers and rows an act scheduled for a cycle will write, each with its availability cycle. -/
def Act.writes (a : Act) (cycle : Nat) : List (Nat × Nat) :=
  match a with
  | .wX r _ _ => if r = 0 then [] else [(auditX r, cycle)]
  | .ldRead r _ => if r = 0 then [] else [(auditX r, cycle + 5)]
  | .wV r _ _ _ => [(auditV r, cycle)]
  | .vRead _ _ _ masks _ avail => masks.map fun m => (auditV m.1, avail)
  | .wTile p r _ _ _ => [(auditRow p r, cycle)]
  | .tldRow p i => (List.range (p.rows - i)).map fun j => (auditRow p.tpal (p.first + i + j), cycle + 5 + j)
  | .mmtRow p i => p.d.flatMap fun d => (List.range (p.rows - i)).map fun j => (auditRow d (i + j), cycle + 4 + j)
  | .mmtOut p i _ _ => p.d.map fun d => (auditRow d i, cycle + 1)
  | _ => []

/-- Everything a schedule has still to write. -/
def pendingWrites (l : List Sched) : List (Nat × Nat) := l.flatMap fun e => e.act.writes e.cycle

/-- An audit event of a core counted and logged (R87): code 0x20 STALE_READ or 0x21 WRITE_RACE. R100 gives AUX "per code"
and names none for these codes: the entry holds 0 there (DESIGN CHOICE, log 163). -/
def State.auditEvent (s : State) (c : CoreId) (code : Nat) (index : BitVec 14) (half : Bool) (count : Word) : State :=
  let s := s.modCore c fun k => { k with sys :=
    if code = 0x20 then { k.sys with staleReads := k.sys.staleReads + 1 } else { k.sys with writeRaces := k.sys.writeRaces + 1 } }
  s.logFault c { code := BitVec.ofNat 8 code, cls := .audit, detail := 0, index := index, half := half, count := count, addr := 0, aux := 0 }

/-- Issue stopped by audit's setting *log and stop* (R87); what was issued completes later. -/
def State.auditStop (s : State) (c : CoreId) : State :=
  s.modCore c fun k =>
    if k.ctl.audit = 2 ∧ (k.ctl.state = .running ∨ k.ctl.state = .waiting) then
      { k with ctl := { k.ctl with state := .stopped, hold := .none } } else k

/-- A read of tile rows by a scheduled act, audited: one STALE_READ per row with a pending write by another
instruction (R87). -/
def State.auditRows (s : State) (c : CoreId) (e : Sched) (rows : List Nat) : State :=
  let k := s.core c
  if k.ctl.audit = 0 then s
  else
    let pend := pendingWrites (k.flight.sched.filter fun x => x.seq != e.seq)
    let stale := rows.filter fun r => pend.any fun p => p.1 == r
    if stale.isEmpty then s
    else (stale.foldl (fun s _ => s.auditEvent c 0x20 e.index e.half e.count) s).auditStop c

/-! ## What happens in a scheduled cycle -/

/-- Bytes of the core's own local store, and whether a line of them is marked (R449). -/
def State.lsBytes (s : State) (c : CoreId) (addr n : Nat) : List Byte × Bool :=
  (Memory.readBytes s.mem (lsBase c + addr) n, s.marked (lsBase c + addr) n)

/-- Marked lines read, counted under event 0x0C (R462). -/
def State.countMarked (s : State) (c : CoreId) (addr n : Nat) : State :=
  if s.marks.isEmpty then s
  else s.countPerf c 0x0C ((linesOf (lsBase c + addr) n).filter fun l => s.marks.contains l).length

/-- A byte mask of 256 bits spread over 2,048 bits. -/
def byteMask (m : BitVec 256) : BitVec 2048 :=
  BitVec.ofNat 2048 (packFields 8 ((List.range 256).map fun i => if m.toNat.testBit i then 255 else 0))

/-- V[r] with the masked bytes written (R140); a mark goes only by a whole unmarked write (R449). -/
def CoreRegs.writeV (g : CoreRegs) (r : Nat) (mask : BitVec 256) (v : BitVec 2048) (mark : Bool) : CoreRegs :=
  let full := mask == BitVec.allOnes 256
  let m := byteMask mask
  { g with
    v := g.v.setIfInBounds r (if full then v else (g.readV r &&& ~~~m) ||| (v &&& m))
    vMark := if mark then g.vMark ||| (1#32 <<< r) else if full then g.vMark &&& ~~~(1#32 <<< r) else g.vMark }

/-- A value put at a byte position of a register image. -/
def putBytes (v : BitVec 2048) (pos : Nat) (data : List Byte) : BitVec 2048 :=
  BitVec.ofNat 2048 (putField v.toNat (8 * pos) (8 * data.length) (leNat data))

/-- The loads of one cycle gathered into the register images (R154). -/
def gatherMoves (s : State) (c : CoreId) (moves : List Move) (got : List (Nat × BitVec 2048)) : List (Nat × BitVec 2048) :=
  moves.foldl (fun got m => got.map fun g => if g.1 = m.reg then (g.1, putBytes g.2 m.pos (s.lsBytes c m.addr m.len).1) else g) got

/-- The row of a source that tile row i of a TLD takes: a row of bytes, or column i of a transposed source
(R130). -/
def tldSource (s : State) (c : CoreId) (p : TileMove) (i : Nat) : Nat × Bool :=
  match p.esize with
  | none => let r := s.lsBytes c (p.addr + i * p.stride) p.rbytes; (leNat r.1, r.2)
  | some e =>
    let parts := (List.range 32).map fun j => s.lsBytes c (p.addr + j * p.stride + i * e) e
    (leNat (parts.flatMap (·.1)), parts.any (·.2))

/-- The input row i of an MMS: a row of bytes, or a column of blocks (R126). -/
def mmsSource (s : State) (c : CoreId) (p : MmsRun) (i : Nat) : Nat × Bool :=
  if p.atr then
    let e := storageBits p.fmt.toNat / 8
    let cols := 64 / e
    let base := p.src + 4096 / e * (i / cols)
    let parts := (List.range (64 / e)).map fun k =>
      s.lsBytes c (base + k / 32 * 2048 + k % 32 * 64 + i % cols * e) e
    (leNat (parts.flatMap (·.1)), parts.any (·.2))
  else let r := s.lsBytes c (p.src + i * p.rbytes) p.rbytes; (leNat r.1, r.2)

/-- The scale row of input row i of an MMS, for a blocked format (R126). -/
def mmsScaleRow (s : State) (c : CoreId) (p : MmsRun) (i : Nat) : Nat × Bool :=
  if isBlocked p.fmt.toNat then
    let r := s.lsBytes c (p.src + p.rows * p.rbytes + 16 * i) 16
    (leNat r.1, r.2)
  else (0, false)

/-- Rows of the weight and scale tiles read in stage 0–7 of a weight load, gathered into the latches (R118, R119). -/
def weightRows (g : CoreRegs) (p : WLoad) (stage : Nat) (l : Latches) : Latches × List Nat :=
  let used := quarterBytes p.slot p.wfmt.toNat / 64
  let rows := (List.range 4).map (4 * stage + ·) |>.filter fun r => decide (r < used)
  let l := rows.foldl (fun l r => { l with
    weights := BitVec.ofNat 65536 (putField (putField l.weights.toNat (1024 * r) 1024 (g.tileRow p.w0 r)) (32768 + 1024 * r) 1024 (g.tileRow p.w1 r))
    poison := l.poison || g.tileMarked p.w0 r || g.tileMarked p.w1 r }) l
  match p.wscl with
  | none => (l, rows.flatMap fun r => [auditRow p.w0 r, auditRow p.w1 r])
  | some t =>
    let need := if p.wfmt = 5 then 4 else if hasZeroPoint p.wfmt.toNat then 12 else 8
    let srows := (List.range 2).map (2 * stage + ·) |>.filter fun r => decide (r < need)
    (srows.foldl (fun l r => { l with
      scales := BitVec.ofNat 12288 (putField l.scales.toNat (1024 * r) 1024 (g.tileRow t r)), poison := l.poison || g.tileMarked t r }) l,
     (rows.flatMap fun r => [auditRow p.w0 r, auditRow p.w1 r]) ++ srows.map (auditRow t))

/-- A POISON found after issue (R96, R451): the later rows of the instruction are not written, the fault is
logged with its INDEX, HALF and COUNT, a contained error is logged, and the core halts, also where issue has stopped
and the row belongs to the work that completes then. -/
def State.poisonHalt (s : State) (c : CoreId) (e : Sched) (i : Nat) : State :=
  let s := s.modCore c fun k => { k with
    flight := { k.flight with sched := k.flight.sched.filter fun x => !(x.seq == e.seq && (match x.act with
      | .lsWrite _ _ | .tstRow _ _ | .mmsRow _ _ | .mmsOut _ _ _ _ | .mmsWrite _ _ _ _ | .poisonRow _ => true
      | _ => false)) }
    ctl := if k.ctl.state = .dumping then k.ctl else { k.ctl with state := .halted, hold := .none } }
  let s := s.logFault c { code := 0x0D, cls := .halt, detail := 0, index := e.index, half := e.half, count := e.count, addr := 0, aux := BitVec.ofNat 32 i }
  s.logError { source := 0x11, part := s.corePart c, unit := dieUnit c, core := c.toNat, address := 0, detail := 0x0D }

/-- Which instruction a fault names (R100). -/
structure Place where
  index : BitVec 14
  half : Bool
  count : Word
deriving DecidableEq, Repr

/-- The place an entry names that no instruction of the core raised: free values (log 8). -/
def State.freePlace (s : State) : Place × State :=
  let a := s.fresh
  ({ index := a.1.truncate 14, half := a.1.getLsbD 14, count := (a.2.fresh).1 }, (a.2.fresh).2)

/-- A core's semaphores or queues changed between its step-barrier arrival and the release: the boundaries it
has arrived for are unstable (R261). -/
def State.touched (s : State) (c : CoreId) : State :=
  match s.corePart c with
  | none => s
  | some p =>
    match (s.part p).job with
    | none => s
    | some j =>
      let hit := (j.arrived.filter fun a => a.1 == c.toNat).map (·.2)
      if hit.isEmpty then s
      else s.modPart p fun q => { q with job := some { j with unstable := hit.foldl insertNum j.unstable } }

/-- A semaphore increased, saturating at 65,535; past it SEM_OVERFLOW is logged with the semaphore in DETAIL
and a remote sender in AUX (R278). -/
def State.incSem (s : State) (c : CoreId) (r n : Nat) (sender : Option CoreId) (p : Place) : State :=
  let old := ((s.core c).regs.readS r).toNat
  let s' := (s.modCore c fun k => { k with regs := { k.regs with sems := k.regs.sems.setIfInBounds r (BitVec.ofNat 16 (min 65535 (old + n))) } }).touched c
  if old + n ≤ 65535 then s'
  else s'.logFault c { code := 0x12, cls := .log, detail := BitVec.ofNat 6 r, index := p.index, half := p.half, count := p.count, addr := 0,
                       aux := match sender with | some q => q.setWidth 32 | none => 0 }

/-- A system register written by SETS, effective one cycle after its issue (R71, R72). The number is one SETS
may write. -/
def writeSys (k : Core) (n : Nat) (v : Word) (now : Nat) : Core :=
  let g := k.regs
  let y := k.sys
  if n < 0x80 then
    let a := (g.a[n / 8]?).getD .reset
    let a := if n % 8 = 0 then { a with base := v } else { a with inc := a.inc.setIfInBounds (n % 8 - 1) (v.truncate 48) }
    { k with regs := { g with a := g.a.setIfInBounds (n / 8) a } }
  else if n = 0xA0 then { k with regs := { g with vstart := v } }
  else if n = 0xB0 then { k with sys := { y with cultLo := v } }
  else if n = 0xB1 then { k with sys := { y with cultHi := v } }
  else if n = 0xB2 then { k with sys := { y with cultStep := v } }
  else if n = 0xC0 then { k with sys := { y with tvec := v.truncate 14, trapEnable := v.getLsbD 63 } }
  else if n = 0xC1 then { k with sys := { y with epc := v.truncate 15 } }
  else if n = 0xD1 then { k with sys := { y with cycZero := now, cycWrap := false } }
  else if n = 0xE0 then { k with sys := { y with staleReads := 0, writeRaces := 0 } }
  else if 0x100 ≤ n ∧ n < 0x140 then { k with regs := { g with tpal := g.tpal.setIfInBounds (n - 0x100) (v.truncate 13) } }
  else if 0x200 ≤ n ∧ n < 0x230 then
    let set := (n - 0x200) / 3
    let c := (y.clip[set]?).getD .reset
    let c := if (n - 0x200) % 3 = 0 then { c with total := .reset } else if (n - 0x200) % 3 = 1 then { c with sat := .reset } else { c with unf := .reset }
    { k with sys := { y with clip := y.clip.setIfInBounds set c } }
  else if 0x300 ≤ n ∧ n < 0x310 then { k with sys := { y with perf := y.perf.setIfInBounds (n - 0x300) 0 } }
  else k

/-- Clip increments added to a set of a core (R49). -/
def Core.addClips (k : Core) (set total sat unf : Nat) : Core :=
  let c := (k.sys.clip[set]?).getD .reset
  { k with sys := { k.sys with clip := k.sys.clip.setIfInBounds set { total := c.total.add total, sat := c.sat.add sat, unf := c.unf.add unf } } }

/-- A descriptor of a core's queues has completed: a held core's clock has run on until now (R412). -/
def State.noteFed (s : State) (c : CoreId) : State := s.modCore c fun k => { k with flight := { k.flight with fed := true } }

/-- The registers of a core changed. -/
def State.modRegs (s : State) (c : CoreId) (f : CoreRegs → CoreRegs) : State := s.modCore c fun k => { k with regs := f k.regs }

/-- Does a set of runs (address, bytes) cover a byte? -/
def coversByte (runs : List (Nat × List Byte)) (a : Nat) : Bool := runs.any fun r => decide (r.1 ≤ a) && decide (a < r.1 + r.2.length)

/-- The writes of one instruction in one cycle, local-store offsets and bytes: unmarked data clears the
marked lines it overwrites whole, whatever order its elements have (R449, R158). -/
def State.storeRuns (s : State) (c : CoreId) (runs : List (Nat × List Byte)) (mark : Bool) : State :=
  let runs := runs.map fun r => (lsBase c + r.1, r.2)
  { s with
    mem := runs.foldl (fun m r => Memory.writeBytes m r.1 r.2) s.mem
    marks := if mark then runs.foldl (fun l r => marksAfter l r.1 r.2.length true) s.marks
      else s.marks.filter fun l => !((List.range 64).all fun i => coversByte runs (64 * l + i)) }

/-- Is an act the write of a tile row in the cycle of `e`, by an instruction issued later: the write of `e` is then not
performed (R86, R111)? -/
def Sched.rivals (x e : Sched) (row : Nat) : Bool :=
  x.cycle == e.cycle && decide (e.seq < x.seq) && (match x.act with
    | .wTile p r _ _ _ => rowKey p r == row
    | _ => false)

/-- One scheduled act, already taken out of the schedule, takes place. -/
def applyAct (c : CoreId) (e : Sched) (s : State) : State :=
  let g := (s.core c).regs
  match e.act with
  | .wX r v mark => s.modRegs c fun g => g.writeX r v mark
  | .wF r v => s.modRegs c fun g => g.writeF r v
  | .wV r mask v mark => s.modRegs c fun g => g.writeV r mask v mark
  | .wP r v => s.modRegs c fun g => { g with p := g.p.setIfInBounds r v }
  | .wFfr v => s.modRegs c fun g => { g with ffr := v }
  | .wVstart v => s.modRegs c fun g => { g with vstart := v }
  | .wSys n v => s.modCore c fun k => writeSys k n v e.cycle
  | .ldRead r addr =>
    let d := s.lsBytes c addr 8
    (s.countMarked c addr 8).schedule c (e.later [(e.cycle + 5, phaseResult, .wX r (BitVec.ofNat 64 (leNat d.1)) d.2)])
  | .lsWrite runs mark => s.storeRuns c runs mark
  | .vRead moves later got masks marked avail =>
    let got' := gatherMoves s c moves got
    let marks' := (moves.filter fun m => (s.lsBytes c m.addr m.len).2).foldl (fun l m => insertNum l m.reg) marked
    let s := moves.foldl (fun s m => s.countMarked c m.addr m.len) s
    if later.isEmpty then
      s.schedule c (e.later (masks.map fun m => (avail, phaseResult, .wV m.1 m.2 (((got'.find? fun g => g.1 = m.1).map (·.2)).getD 0) (marks'.contains m.1))))
    else s.schedule c (e.later [(e.cycle + 1, phaseRead, .vRead later [] got' masks marks' avail)])
  | .tldRow p i =>
    let d := tldSource s c p i
    let s := s.countMarked c (p.addr + i * p.stride) p.rbytes
    s.schedule c (e.later ((e.cycle + 5, phaseResult, .wTile p.tpal (p.first + i) p.rbytes (BitVec.ofNat 1024 d.1) d.2)
      :: if i + 1 < p.rows then [(e.cycle + 1, phaseRead, .tldRow p (i + 1))] else []))
  | .wTile p r n v mark =>
    if (s.core c).flight.sched.any (fun x => x.rivals e (rowKey p r)) then s else s.modRegs c fun g => g.writeTileRow p r n v.toNat mark
  | .tstRow p i =>
    let s := s.auditRows c e [auditRow p.tpal (p.first + i)]
    let next := if i + 1 < p.rows then [(e.cycle + 1, phaseRead, Act.tstRow p (i + 1))] else []
    if g.tileMarked p.tpal (p.first + i) then s.schedule c (e.later ((e.cycle + 1, phaseWrite, .poisonRow i) :: next))
    else s.schedule c (e.later ((e.cycle + 1, phaseWrite, .lsWrite [(p.addr + i * p.stride, leBytes p.rbytes (g.tileRow p.tpal (p.first + i)))] false) :: next))
  | .poisonRow i => s.poisonHalt c e i
  | .wlRows p stage got =>
    let r := weightRows g p stage got
    let s := s.auditRows c e r.2
    s.schedule c (e.later [(e.cycle + 1, if stage < 7 then phaseRead else phaseResult, if stage < 7 then .wlRows p (stage + 1) r.1 else .wLatch r.1)])
  | .wLatch l => s.modRegs c fun g => { g with latches := l }
  | .mmtRow p i =>
    let l := g.latches
    let scale := match p.ascl with | some t => g.tileRow t i | none => 0
    let mark := g.tileMarked p.a i || l.poison || (match p.ascl with | some t => g.tileMarked t i | none => false)
    let s := s.auditRows c e (auditRow p.a i :: (match p.ascl with | some t => [auditRow t i] | none => []))
    (s.countPerf c 0x04 1).schedule c (e.later ((e.cycle + 3, phaseRead, .mmtOut p i (rowGroups l p.fmt.toNat (g.tileRow p.a i) scale) mark)
      :: if i + 1 < p.rows then [(e.cycle + 1, phaseRead, .mmtRow p (i + 1))] else []))
  | .mmtOut p i groups mark =>
    let s := if p.acc then s.auditRows c e (p.d.map fun d => auditRow d i) else s
    let mark' := mark || (p.acc && p.d.any fun d => g.tileMarked d i)
    s.schedule c (e.later (p.d.zipIdx.map fun d =>
      let held := g.tileRow d.1 i
      let vals := (List.range 32).map fun j => accumulate (startAcc p.acc (bits held (32 * j) 32)) ((groups[32 * d.2 + j]?).getD [])
      (e.cycle + 1, phaseResult, .wTile d.1 i 128 (BitVec.ofNat 1024 (packFields 32 vals)) mark')))
  | .mmsRow p i =>
    let l := g.latches
    let d := mmsSource s c p i
    let sc := mmsScaleRow s c p i
    let s := (s.countMarked c (p.src + i * p.rbytes) p.rbytes).countPerf c 0x04 1
    s.schedule c (e.later ((e.cycle + 3, phaseRead, .mmsOut p i (rowGroups l p.fmt.toNat d.1 sc.1) (d.2 || sc.2 || l.poison))
      :: if i + 1 < p.rows then [(e.cycle + 1, phaseRead, .mmsRow p (i + 1))] else []))
  | .mmsOut p i groups mark =>
    let held := (List.range 4).map fun b => s.lsBytes c (mmsOutAddr p i b) 128
    let vals := (List.range 128).map fun col =>
      accumulate (startAcc p.acc (bits (leNat ((held[col / 32]?).getD ([], false)).1) (32 * (col % 32)) 32)) ((groups[col]?).getD [])
    s.schedule c (e.later [(e.cycle + 1, phaseWrite, .mmsWrite p i vals (mark || (p.acc && held.any (·.2))))])
  | .mmsWrite p i vals mark =>
    if p.ofmt = 0 then
      (List.range 4).foldl (fun s b => s.store (lsBase c + mmsOutAddr p i b) (elementBytes 4 ((vals.drop (32 * b)).take 32)) mark) s
    else if mark then s.poisonHalt c e i
    else
      let conv := vals.map (mmsConvert p.ofmt p.conv p.oscale)
      let w := storageBits (ofmtCode p.ofmt) / 8
      let n := clipCount conv
      let s := (List.range 4).foldl (fun s b => s.store (lsBase c + mmsOutAddr p i b) (elementBytes w (((conv.map (·.code)).drop (32 * b)).take 32)) false) s
      s.schedule c (e.later [(e.cycle + 1, phaseClip, .clipInc (convSet p.conv) n.1 n.2.1 n.2.2)])
  | .semSet r v => (s.modRegs c fun g => { g with sems := g.sems.setIfInBounds r v }).touched c
  | .semInc r n sender => s.incSem c r n sender { index := e.index, half := e.half, count := e.count }
  | .clipInc set total sat unf => s.modCore c fun k => k.addClips set total sat unf

/-- The first acts of a core's schedule, up to a cycle (or all), take place; `fuel` bounds their number. -/
def runActs (c : CoreId) (upto : Option Nat) : Nat → State → State
  | 0, s => s
  | fuel + 1, s =>
    match (s.core c).flight.sched with
    | [] => s
    | e :: rest =>
      if upto.all (e.cycle ≤ ·) then
        runActs c upto fuel (applyAct c e (s.modCore c fun k => { k with flight := { k.flight with
          sched := rest, now := max k.flight.now (if e.phase = phaseClip then e.cycle - 1 else e.cycle) } }))
      else s

/-- A core's schedule run up to and including a cycle. -/
def runTo (c : CoreId) (t : Nat) (s : State) : State := runActs c (some t) (schedWork (s.core c).flight.sched) s

/-- Everything a core has issued makes its last result available (R96, R98). -/
def drain (c : CoreId) (s : State) : State := runActs c none (schedWork (s.core c).flight.sched) s

/-! ## Faults (R96–R100, R479) -/

/-- A fault an instruction asks for: code, DETAIL, ADDR and AUX of R100. -/
structure FaultReq where
  code : Nat
  detail : Nat
  addr : Word
  aux : Nat
deriving DecidableEq, Repr

/-- A fault with no detail. -/
def plainFault (code : Nat) : FaultReq := { code := code, detail := 0, addr := 0, aux := 0 }

/-- ILLEGAL_OP (R97). -/
def illegalOp : FaultReq := plainFault 0x01
/-- ILL_ALIGN (R97). -/
def illAlign : FaultReq := plainFault 0x02
/-- IMEM_END (R97). -/
def imemEnd : FaultReq := plainFault 0x03
/-- ENGINE_BUSY (R97). -/
def engineBusy : FaultReq := plainFault 0x04
/-- QUEUE_FULL (R97). -/
def queueFull : FaultReq := plainFault 0x05
/-- POISON at issue, AUX the register's number (R97, R100). -/
def poisonReg (r : Nat) : FaultReq := { code := 0x0D, detail := 0, addr := 0, aux := r }
/-- TSHAPE with its rule code (R115). -/
def tshape (rule : Nat) : FaultReq := { code := 0x0A, detail := rule, addr := 0, aux := 0 }
/-- DOUBLE_FAULT with the original code (R96). -/
def doubleFault (code : Nat) : FaultReq := { code := 0x0E, detail := code, addr := 0, aux := 0 }

/-- A failed access of a core instruction: ADDR_SCOPE for scope, SEGMENT with the subcode for the rest (R178). -/
def accessFault (f : AccessFault) (a : Word) : FaultReq :=
  match f with
  | .scope => { code := 0x09, detail := 0, addr := a, aux := 0 }
  | f => { code := 0x0B, detail := f.code, addr := a, aux := 0 }

/-- The class of a fault code (R97; 09 R278, R282, R291, R292 for the synchronisation codes). -/
def faultClass (code : Nat) : FaultClass :=
  if code ∈ [0x09, 0x0A, 0x0B, 0x0C] then .trap
  else if 0x10 ≤ code ∧ code < 0x20 then .log
  else if code = 0x20 ∨ code = 0x21 then .audit
  else .halt

/-- The log entry of a fault at a place (R100). -/
def faultEntry (f : FaultReq) (p : Place) : FaultEntry :=
  { code := BitVec.ofNat 8 f.code, cls := faultClass f.code, detail := BitVec.ofNat 6 f.detail, index := p.index, half := p.half,
    count := p.count, addr := f.addr, aux := BitVec.ofNat 32 f.aux }

/-- Issue ends and the core's state becomes the given one; what was issued completes, and a POISON row found as it
does halts the core (R95, R96). -/
def stopIssue (c : CoreId) (st : RunState) (s : State) : State :=
  drain c (s.modCore c fun k => { k with ctl := { k.ctl with state := st, hold := .none } })

/-- STOP: issue stops, what was issued completes, the state becomes Stopped (R95). A dump in progress completes. -/
def stopCore (c : CoreId) (s : State) : State :=
  if (s.core c).ctl.state = .dumping then s.modCore c fun k => { k with ctl := { k.ctl with dumpAtCount := false } }
  else stopIssue c .stopped s

/-- A HALT fault: logged, a POISON also as a contained error, and the core Halted on fault (R96, R448). -/
def haltCore (c : CoreId) (f : FaultReq) (p : Place) (s : State) : State :=
  let s := s.logFault c (faultEntry f p)
  let s := if f.code = 0x0D then s.logError { source := 0x11, part := s.corePart c, unit := dieUnit c, core := c.toNat, address := 0, detail := 0x0D } else s
  stopIssue c .halted s

/-- The fault an instruction raises, given whether a handler runs: a TRAP-class fault in a handler is
DOUBLE_FAULT (R96). -/
def effectiveFault (f : FaultReq) (handler : Bool) : FaultReq :=
  if faultClass f.code = .trap ∧ handler then doubleFault f.code else f

/-- EPC and CAUSE of a TRAP fault (R98). -/
def CoreSys.trapped (y : CoreSys) (f : FaultReq) (p : Place) : CoreSys :=
  { y with epc := p.index.setWidth 15 ||| (if p.half then 0x4000 else 0), causeCode := BitVec.ofNat 8 f.code, causeDetail := BitVec.ofNat 6 f.detail }

/-- Taking a fault (R96, R98): a TRAP saves EPC and CAUSE, and holds issue for the trap entry where a handler is
enabled; without one it halts; a HALT halts; LOG records and continues. -/
def takeFault (c : CoreId) (f : FaultReq) (p : Place) (s : State) : State :=
  let k := s.core c
  let f := effectiveFault f k.ctl.handler
  match faultClass f.code with
  | .trap =>
    let s := s.modCore c fun k => { k with sys := k.sys.trapped f p }
    if k.sys.trapEnable then
      (s.logFault c (faultEntry f p)).modCore c fun k => { k with ctl := { k.ctl with hold := .trapEntry, savedLoops := k.regs.loops } }
    else haltCore c f p s
  | .halt => haltCore c f p s
  | _ => s.logFault c (faultEntry f p)

/-! ## Partition-fatal and device-fatal errors (R457, R458) -/

/-- A press unit of a stopped partition that is in no iteration: its ring and registers are cleared (R444, R457). -/
def settlePress (s : State) (unit : Nat) : State :=
  match Tbl.get? s.press unit with
  | some q => if q.pc = 0 ∨ q.outcome.isSome then { s with press := Tbl.del s.press unit } else s
  | none => s

/-- A partition-fatal error: its cores stop, its rings and fabric engines start nothing more, and its press units end as at a
partition reset, each with the iteration it is in (R457). -/
def partitionFatal (p : Nat) (s : State) : State :=
  if (s.part p).resetting then s
  else
    let s := (s.coresOf p).foldl (fun s c => stopCore c s) s
    let s := (s.unitsOf p).foldl (fun s u => settlePress (settlePress s (2 * u)) (2 * u + 1)) s
    s.modPart p fun q => { q with fatal := true }

/-- An error event logged, and the partition stopped when it is partition-fatal (R455, R457). -/
def State.partError (s : State) (e : ErrorEvent) : State :=
  let s := s.logError e
  match e.part with
  | some p => partitionFatal p s
  | none => s

/-! ## Loops (R74, R76) -/

/-- Adds every A register's increment of a level (R74, R77). -/
def CoreRegs.advance (g : CoreRegs) (j : Nat) : CoreRegs :=
  { g with a := g.a.map fun a => { a with base := addOffset a.base ((a.inc[j]?).getD 0).toInt } }

/-- Level j and every level inside it exit, without increments (R76, R92). -/
def CoreRegs.exitFrom (g : CoreRegs) (j : Nat) : CoreRegs :=
  { g with loops := Vector.ofFn fun i => if j ≤ i.val then { g.loops[i] with active := false } else g.loops[i] }

/-- A loop-back of level j: its index advances, and the inner levels of the same LOOP, which begin at the
same word, start again from index 0 (R74, log 6). -/
def CoreRegs.loopBack (g : CoreRegs) (j : Nat) : CoreRegs :=
  let start := ((g.loops[j]?).getD .reset).start
  { g with loops := Vector.ofFn fun i =>
      let l := g.loops[i]
      if i.val = j then { l with index := l.index + 1 }
      else if j < i.val ∧ l.start = start then { l with active := true, index := 0 }
      else l }

/-- The ends of iterations at the word of an issued instruction, from level j − 1 outward (R74): the
registers, and the word index the next instruction issues at when a level loops back. -/
def loopEnds (index : Nat) : Nat → CoreRegs → CoreRegs × Option Nat
  | 0, g => (g, none)
  | j + 1, g =>
    let l := (g.loops[j]?).getD .reset
    if l.active && l.endAt.toNat == index then
      let g := g.advance j
      if l.index.toNat + 1 < l.count.toNat then (g.loopBack j, some l.start.toNat)
      else loopEnds index j (g.exitFrom j)
    else loopEnds index j g

/-- A taken branch's effect on the loops: level j and those inside exit when the target lies outside the
body of level j (R76). -/
def branchLoops (target : Nat) (g : CoreRegs) : CoreRegs :=
  match (List.range 4).find? fun j =>
    let l := (g.loops[j]?).getD .reset
    l.active && (decide (target < l.start.toNat) || decide (l.endAt.toNat < target)) with
  | some j => g.exitFrom j
  | none => g

/-! ## Issue (R59–R67, R78–R82, R479) -/

/-- An instruction row of a core: engine and opcode, whether it is a double-word, which of the rows that
share an opcode it is, its encoding rules, the slot of `CoreFlight.busy` that it occupies, and the die
domains of its die it must reach, given the core and the word: 12 mesh transit, 14 die services, 15 HBM bridge (R83). -/
structure CoreRow where
  eng : Nat
  opc : Nat
  long : Bool
  picks : Core → Nat → Bool
  legal : Core → Nat → Bool
  unit : Nat
  reaches : CoreId → Core → Nat → List Nat

/-- An instruction that leaves its core's row for no other domain. -/
def reachesNothing : CoreId → Core → Nat → List Nat := fun _ _ _ => []

/-- An instruction that sends a packet over the mesh (R281, R283). -/
def reachesMesh : CoreId → Core → Nat → List Nat := fun _ _ _ => [12]

/-- A BAR, which reaches its die's rennet node over the mesh (R288, R410). -/
def reachesNode : CoreId → Core → Nat → List Nat := fun _ _ _ => [12, 14]

/-- What an instruction's meaning receives in its issue cycle. -/
structure Issue where
  core : CoreId
  now : Nat
  w : Nat
  st : State
  k : Core
  semsBefore : Vector (BitVec 16) 32
  reissue : Bool

/-- Where issue goes after an instruction. -/
inductive Flow where
  /-- The next instruction issues after so many cycles. -/
  | next (cycles : Nat)
  /-- A taken branch. -/
  | jump (target : Nat)
  /-- A SWAPI whose half is loaded. -/
  | swap (entry : Nat)
  /-- A SWAPI that waits, with its entry. -/
  | swapWait (entry : Nat)
  /-- Issue held until a condition is met. -/
  | wait (h : Hold)
  /-- Return from trap. -/
  | rett
  /-- STOP. -/
  | stop
deriving DecidableEq, Repr

/-- What an instruction does: the state after its immediate effects, the acts it schedules (cycle, place,
act), the registers whose reads audit sees, its occupancy, its bank and port uses, where issue goes, and the
fault it raises beside a partial effect (R155). -/
structure Effect where
  st : State
  acts : List (Nat × Nat × Act)
  reads : List Nat
  occupancy : Nat
  banks : List BankUse
  ports : List PortUse
  flow : Flow
  fault : Option FaultReq

/-- The local-store bytes still to come that move in a cycle, in one direction (R180). -/
def portLoad (ports : List PortUse) (cycle : Nat) (write : Bool) : Nat :=
  ((ports.filter fun p => p.cycle == cycle && p.write == write).map (·.bytes)).foldl (· + ·) 0

/-- LS_PORT for the accesses an instruction adds (R181): the first cycle, reads before writes, in which the
total passes 1,024 bytes. -/
def lsPort (k : Core) (now : Nat) (uses : List PortUse) : Option FaultReq :=
  (uses.find? fun u => decide (1024 < portLoad k.flight.ports u.cycle u.write + portLoad uses u.cycle u.write)).map fun u =>
    { code := 0x0F, detail := if u.write then 2 else 1, addr := 0, aux := u.cycle - now }

/-- The plain effect: nothing but the issue slot. -/
def Issue.plain (x : Issue) : Effect :=
  { st := x.st, acts := [], reads := [], occupancy := 1, banks := [], ports := [], flow := .next 1, fault := none }

/-- X[r] as read in the issue cycle. -/
def Issue.x (i : Issue) (r : Nat) : Word := i.k.regs.readX r

/-- The first of the faults asked for, in the order of R479. -/
def firstFault (l : List (Option FaultReq)) : Option FaultReq := l.findSome? id

/-- POISON when one of the X registers that give a parameter is marked (R451). -/
def poisonX (g : CoreRegs) (rs : List Nat) : Option FaultReq := (rs.find? fun r => g.markX r).map poisonReg

/-- Fails a meaning with the first of its faults, or goes on. -/
def checked (l : List (Option FaultReq)) (e : Effect) : Except FaultReq Effect :=
  match firstFault l with
  | some f => .error f
  | none => .ok e

/-- The state of a power domain; one not listed is in reset (R407). -/
def State.domain (s : State) (d : Nat) : DomState := Tbl.getD s.power.domains d .inReset

/-- Has a domain its power-good and left reset? -/
def State.domainUp (s : State) (d : Nat) : Bool :=
  match s.domain d with
  | .off | .inReset => false
  | _ => true

/-- Does the clock of a domain run: it is On or Idle, not dozing, at rest, off or in reset (R407, R411)? -/
def State.domainRuns (s : State) (d : Nat) : Bool :=
  match s.domain d with
  | .on | .idle => true
  | _ => false

/-- Is a domain of a core's die able to answer (R83, R407, R411)? -/
def State.domainReady (s : State) (c : CoreId) (d : Nat) : Bool := s.domainRuns (16 * dieUnit c + d)

/-- The power domain of a core's row (R410). -/
def rowDomain (c : CoreId) : Nat := 16 * dieUnit c + bits c.toNat 4 4

/-- Does the clock of a core's row run? -/
def State.clocked (s : State) (c : CoreId) : Bool := s.domainRuns (rowDomain c)

/-- The domain an instruction has to wait for: the first that it must reach and that dozes (R83). -/
def State.dozing (s : State) (r : CoreRow) (c : CoreId) (k : Core) (w : Nat) : Option Nat :=
  ((r.reaches c k w).find? fun d => !s.domainReady c d).map (16 * dieUnit c + ·)

/-- Has a core reached its run-to-count limit (R101)? -/
def Core.atCount (k : Core) : Bool := k.ctl.rtcEnable && k.sys.issueCount == k.ctl.rtcLimit.setWidth 64

/-- May a core issue: Running, not held, not at its count, not being reset (R82, R95, R101, R443)? -/
def Core.canIssue (k : Core) : Bool :=
  k.ctl.state == .running && k.ctl.hold == .none && !k.atCount && !k.flight.resetting

/-- The key of a word of instruction memory. -/
def imemKey (half : Bool) (i : Nat) : Nat := (if half then 16384 else 0) + i

/-- The instruction at a word of the active half: one word, or two for LONG = 1 (R63). -/
def Core.instrAt (k : Core) (i : Nat) : Nat :=
  let lo := (Tbl.getD k.ctl.imem (imemKey k.ctl.half i) 0).toNat
  if wLong lo then lo + (if i < 16383 then (Tbl.getD k.ctl.imem (imemKey k.ctl.half (i + 1)) 0).toNat else 0) * 2 ^ 64 else lo

/-- The words that an instruction occupies. -/
def instrWords (w : Nat) : Nat := if wLong w then 2 else 1

/-- The first marked word of an instruction, if fetching it meets one (R451); words past the half are not fetched (R89). -/
def Core.markedFetch (k : Core) (i : Nat) (w : Nat) : Option Nat :=
  ((List.range (instrWords w)).map (i + ·)).find? fun j => decide (j < 16384) && k.ctl.imemMark.contains (imemKey k.ctl.half j)

/-- The registers of a core after issue at a word: loop ends, unless a branch was taken (R74, R76), and where
the next instruction stands. -/
def advancePc (g : CoreRegs) (index words : Nat) : CoreRegs × Nat :=
  let r := loopEnds index 4 g
  (r.1, (r.2).getD (index + words))

/-- A core whose next instruction issues, skipped or not: it counts, and RETT's reissue is over (R67, R71, R156). -/
def Core.counted (k : Core) : Core :=
  { k with sys := { k.sys with issueCount := k.sys.issueCount + 1 }, ctl := { k.ctl with reissue := false } }

/-- Bank and port uses that are still to come (R133, R181). -/
def CoreFlight.prune (f : CoreFlight) : CoreFlight :=
  { f with banks := f.banks.filter fun b => decide (f.now ≤ b.cycle), ports := f.ports.filter fun p => decide (f.now ≤ p.cycle) }

/-- The core after an instruction: where issue goes (R74, R76, R79, R92, R98). The loop increments of a level's END take
place in the issue cycle; a SETS of A_BASE that stands at END takes effect one cycle later and replaces the sum, so that
its increment is lost (DESIGN CHOICE, log 164: R72 and R74 do not combine the two). -/
def applyFlow (index words : Nat) (fl : Flow) (k : Core) : Core :=
  match fl with
  | .next n =>
    let r := advancePc k.regs index words
    { k with regs := r.1, ctl := { k.ctl with pc := r.2 }, flight := { k.flight with now := k.flight.now + n } }
  | .jump t =>
    { k with regs := branchLoops t k.regs, ctl := { k.ctl with pc := t }, flight := { k.flight with now := k.flight.now + 3 } }
  | .swap t =>
    { k with regs := k.regs.exitFrom 0, ctl := { k.ctl with pc := t, half := !k.ctl.half }, flight := { k.flight with now := k.flight.now + 3 } }
  | .swapWait t =>
    { k with regs := k.regs.exitFrom 0, ctl := { k.ctl with state := .waiting, hold := .swapi (BitVec.ofNat 14 t), heldAt := BitVec.ofNat 14 index },
             flight := { k.flight with now := k.flight.now + 1 } }
  | .wait h =>
    let r := advancePc k.regs index words
    { k with regs := r.1, ctl := { k.ctl with pc := r.2, state := .waiting, hold := h, heldAt := BitVec.ofNat 14 index }, flight := { k.flight with now := k.flight.now + 1, answer := none } }
  | .rett =>
    { k with regs := { k.regs with loops := k.ctl.savedLoops },
             ctl := { k.ctl with pc := (k.sys.epc.truncate 14).toNat, handler := false, reissue := true },
             flight := { k.flight with now := k.flight.now + 3 } }
  | .stop =>
    let r := advancePc k.regs index words
    { k with regs := r.1, ctl := { k.ctl with pc := r.2, state := .stopped }, flight := { k.flight with now := k.flight.now + 1 } }

/-- Audit of an issued instruction's register reads and of the writes it adds (R87). A register that two source fields
name is read twice and records two STALE_READ events (DESIGN CHOICE, log 163). -/
def auditIssue (c : CoreId) (old : List Sched) (added : List Sched) (reads : List Nat) (p : Place) (s : State) : State :=
  if (s.core c).ctl.audit = 0 then s
  else
    let pend := pendingWrites old
    let stale := reads.filter fun r => r != 0 && pend.any fun q => q.1 == r
    let races := (pendingWrites added).filter fun q => pend.any fun o => o.1 == q.1 && decide (q.2 ≤ o.2)
    if stale.isEmpty && races.isEmpty then s
    else
      let s := stale.foldl (fun s _ => s.auditEvent c 0x20 p.index p.half p.count) s
      (races.foldl (fun s _ => s.auditEvent c 0x21 p.index p.half p.count) s).auditStop c

/-- A core that audit has stopped or a POISON row has halted stays so, whatever its last instruction's flow was (R87, R96). -/
def Core.keepStopped (k : Core) (st : RunState) : Core :=
  if st = .running then k else { k with ctl := { k.ctl with state := st, hold := .none } }

/-- A core that goes on or waits is as it is; one that has stopped completes what it has issued (R95, R96). -/
def drainEnded (c : CoreId) (s : State) : State :=
  match (s.core c).ctl.state with
  | .running | .waiting => s
  | _ => drain c s

/-- The acts of an issued instruction as schedule entries. -/
def Effect.entries (e : Effect) (x : Issue) (p : Place) : List Sched :=
  e.acts.map fun a => { cycle := a.1, phase := a.2.1, seq := x.k.flight.seq, index := p.index, half := p.half, count := p.count, act := a.2.2 }

/-- The core with an instruction's acts scheduled, its engine taken and its port uses noted; a pipe's bank uses
are those of its latest instruction, the one the next is checked against (R79, R80, R133). R133 names no instruction
before that one: a collision with an older one goes unchecked, and both accesses take place (DESIGN CHOICE, log 165). -/
def Core.accept (k : Core) (x : Issue) (unit : Nat) (p : Place) (e : Effect) : Core :=
  { k with
    flight := { k.flight with
      sched := (e.entries x p).foldl insertSched k.flight.sched
      seq := k.flight.seq + 1
      fed := false
      busy := k.flight.busy.setIfInBounds unit (x.now + e.occupancy)
      banks := (k.flight.prune.banks.filter fun b => !((unit == 2 && !b.array) || (unit == 3 && b.array))) ++ e.banks
      ports := k.flight.prune.ports ++ e.ports } }

/-- An instruction with its effect: its acts enter the schedule, its engine is taken, and issue goes on, or a
fault with a partial effect is taken (R79, R80, R155). -/
def finishIssue (x : Issue) (unit : Nat) (p : Place) (e : Effect) : State :=
  let old := (e.st.core x.core).flight.sched
  let s := (e.st.modCore x.core fun k => k.accept x unit p e).countPerf x.core 0x01 1
  let s := auditIssue x.core old (e.entries x p) e.reads p s
  match e.fault with
  | some f => takeFault x.core f p s
  | none =>
    let st := (s.core x.core).ctl.state
    drainEnded x.core (s.modCore x.core fun k => (applyFlow x.k.ctl.pc (instrWords x.w) e.flow k).keepStopped st)

/-- A skipped instruction (R67): it takes its issue slot, counts, and is tested against the loop ends. -/
def skipIssue (x : Issue) : State :=
  (x.st.modCore x.core fun k => applyFlow x.k.ctl.pc (instrWords x.w) (.next 1)
    { k with flight := { k.flight with seq := k.flight.seq + 1, fed := false } }).countPerf x.core 0x02 1

/-- RETT's reissue of an instruction that is no vector memory form sets VSTART to 0 (R156). -/
def Issue.cleared (x : Issue) : Issue :=
  if x.reissue && !(wEng x.w == 1 && decide (0x80 ≤ wOpc x.w)) then
    { x with st := x.st.modRegs x.core fun g => { g with vstart := 0 }, k := { x.k with regs := { x.k.regs with vstart := 0 } } }
  else x

/-- Is an engine and opcode pair one that the core's chapters define, and is it a double-word (R64)? -/
def opcodeLong? (eng opc : Nat) : Option Bool :=
  match eng with
  | 0 =>
    if opc = 0x40 then some true
    else if opc ≤ 0x0C ∨ (0x10 ≤ opc ∧ opc ≤ 0x15) ∨ opc ∈ [0x18, 0x20, 0x21, 0x28, 0x29, 0x30, 0x31, 0x32, 0x33, 0x34, 0x41, 0x42, 0x43, 0x44] then some false
    else none
  | 1 =>
    if opc ≤ 0x0E ∨ opc = 0x10 ∨ (0x20 ≤ opc ∧ opc ≤ 0x27) ∨ opc ∈ [0x30, 0x31, 0x32, 0x38, 0x39, 0x40, 0x41, 0x42, 0x48, 0x49, 0x4A, 0x50, 0x51]
      ∨ (0x58 ≤ opc ∧ opc ≤ 0x62) then some false
    else if (0x80 ≤ opc ∧ opc ≤ 0x8A) ∨ (0x8C ≤ opc ∧ opc ≤ 0x8E) then some true
    else none
  | 2 => if opc ∈ [0x01, 0x02, 0x10, 0x11, 0x20] then some true else none
  | 3 => if opc = 0x01 ∨ opc = 0x02 then some false else none
  | 4 => if opc = 0x01 ∨ opc = 0x02 then some false else none
  | 5 => if opc ∈ [0x01, 0x02, 0x03, 0x04, 0x05, 0x08, 0x09, 0x0A, 0x10] then some false else none
  | _ => none

/-- Is the word a reserved encoding by its engine, opcode and LONG bit (R64)? -/
def reservedWord (w : Nat) : Bool := opcodeLong? (wEng w) (wOpc w) != some (wLong w)

/-- Does a word belong to a row? A word whose engine and opcode no row has belongs to none. -/
def CoreRow.owns (r : CoreRow) (k : Core) (w : Nat) : Bool := wEng w == r.eng && wOpc w == r.opc && r.picks k w

/-- The faults that come before an instruction's own: encoding, a LOOP or SWAPI in a handler, a busy engine
(R479, first and second). -/
def issueFault (r : CoreRow) (x : Issue) : Option FaultReq :=
  if wLong x.w && x.k.ctl.pc % 2 == 1 then some illAlign
  else if reservedWord x.w || !r.legal x.k x.w then some illegalOp
  else if x.k.ctl.handler && wEng x.w == 0 && (wOpc x.w == 0x40 || wOpc x.w == 0x41) then some (doubleFault 0)
  else if x.now < (x.k.flight.busy[r.unit]?).getD 0 then some engineBusy
  else none

/-- The next instruction of a core issues, if it is of the given row (R59–R67, R96, R479). Without one that
the core can issue now, or with an instruction of another row, nothing happens: the order of a core's
instructions is its program's alone. A reserved encoding belongs to no row and raises ILLEGAL_OP under any. Where the
work that completes before the issue cycle stops the core, that is all that happens (R87, R96). A marked word is
partition-fatal when it is fetched, before the predicate and the faults are judged, and an instruction whose domain dozes
is held before its own faults are judged (DESIGN CHOICE, log 166). -/
def issue (r : CoreRow) (c : CoreId) (body : Issue → Except FaultReq Effect) (s : State) : State :=
  let t := (s.core c).flight.now
  let s0 := runTo c (t - 1) s
  if !s.clocked c || !(s.core c).canIssue then s
  else if !(s0.core c).canIssue then drain c s0
  else
    let s1 := runTo c t s0
    let k := s1.core c
    let i := k.ctl.pc
    let place : Place := { index := BitVec.ofNat 14 i, half := k.ctl.half, count := k.sys.issueCount + 1 }
    if 16383 < i then takeFault c imemEnd { place with count := k.sys.issueCount } s1
    else
      let w := k.instrAt i
      match k.markedFetch i w with
      | some j => s1.partError { source := 0x05, part := s.corePart c, unit := dieUnit c, core := c.toNat, address := windowBase c + 8 * imemKey k.ctl.half j, detail := 0 }
      | none =>
        if !r.owns k w && (opcodeLong? (wEng w) (wOpc w)).isSome then s
        else
          let s2 := s1.modCore c Core.counted
          let x := ({ core := c, now := t, w := w, st := s2, k := s2.core c, semsBefore := (s0.core c).regs.sems, reissue := k.ctl.reissue : Issue }).cleared
          if !predHolds k.regs (wPred w) then skipIssue x
          else match s.dozing r c k w with
          | some d => s.modCore c fun k => { k with ctl := { k.ctl with hold := .doze d, heldAt := BitVec.ofNat 14 i } }
          | none =>
            match issueFault r x with
            | some f => takeFault c f place x.st
            | none =>
              match body x with
              | .error f => takeFault c f place x.st
              | .ok e => finishIssue x r.unit place e

/-- What a core's cycles up to the next issue do, or all of them while issue is held. -/
def runPending (c : CoreId) (s : State) : State :=
  if (s.core c).canIssue then runTo c ((s.core c).flight.now - 1) s else drain c s

/-- The meaning of an instruction row: its issue, which always answers a next state. -/
def issueOut (r : CoreRow) (c : CoreId) (body : Issue → Except FaultReq Effect) (s : State) : Out := .next (issue r c body s)

end Sys2Proof.Machine
end

