-- ==== Sys2Proof/Machine/Scalar.lean ====
section
/-! DEFINITION. The scalar instructions: arithmetic, comparison, load and store, system registers (R68–R72). -/

namespace Sys2Proof.Machine

/-- Is a register field within a 32-entry set (R63)? -/
def field32 (r : Nat) : Bool := decide (r < 32)

/-- A scalar row of one opcode with its encoding rule. -/
def scalarRow (opc : Nat) (legal : Core → Nat → Bool) : CoreRow :=
  { eng := 0, opc := opc, long := false, picks := fun _ _ => true, legal := legal, unit := 0, reaches := reachesNothing }

/-- DST, SRC1 and SRC2 name X registers. -/
def legalXXX (_ : Core) (w : Nat) : Bool := field32 (wDst w) && field32 (wSrc1 w) && field32 (wSrc2 w)
/-- DST and SRC1 name X registers. -/
def legalXX (_ : Core) (w : Nat) : Bool := field32 (wDst w) && field32 (wSrc1 w)
/-- DST names an X register. -/
def legalX (_ : Core) (w : Nat) : Bool := field32 (wDst w)

/-- An X register written so many cycles after issue (R78, R79). -/
def xResult (x : Issue) (latency : Nat) (v : Word) (mark : Bool) : List (Nat × Nat × Act) :=
  [(x.now + latency, phaseResult, .wX (wDst x.w) v mark)]

/-- An operation on X[SRC1] and X[SRC2]: result after a latency, marked when an operand is (R450). -/
def binary (latency occupancy : Nat) (f : Word → Word → Word) (x : Issue) : Except FaultReq Effect :=
  let a := wSrc1 x.w
  let b := wSrc2 x.w
  .ok { x.plain with
    acts := xResult x latency (f (x.x a) (x.x b)) (x.k.regs.markX a || x.k.regs.markX b)
    reads := [auditX a, auditX b]
    occupancy := occupancy }

/-- An operation on X[SRC1] and the immediate (R450). -/
def unary (f : Word → Nat → Word) (x : Issue) : Except FaultReq Effect :=
  let a := wSrc1 x.w
  .ok { x.plain with acts := xResult x 1 (f (x.x a) x.w) (x.k.regs.markX a), reads := [auditX a] }

/-- NOP. -/
def execNop (c : CoreId) (s : State) : Out := issueOut (scalarRow 0x00 fun _ _ => true) c (fun x => .ok x.plain) s

/-- ADD (R68). -/
def execAdd (c : CoreId) (s : State) : Out := issueOut (scalarRow 0x01 legalXXX) c (binary 1 1 fun a b => a + b) s

/-- SUB (R68). -/
def execSub (c : CoreId) (s : State) : Out := issueOut (scalarRow 0x02 legalXXX) c (binary 1 1 fun a b => a - b) s

/-- AND (R68). -/
def execAnd (c : CoreId) (s : State) : Out := issueOut (scalarRow 0x03 legalXXX) c (binary 1 1 fun a b => a &&& b) s

/-- OR (R68). -/
def execOr (c : CoreId) (s : State) : Out := issueOut (scalarRow 0x04 legalXXX) c (binary 1 1 fun a b => a ||| b) s

/-- XOR (R68). -/
def execXor (c : CoreId) (s : State) : Out := issueOut (scalarRow 0x05 legalXXX) c (binary 1 1 fun a b => a ^^^ b) s

/-- The shift amount X[SRC2][5:0] (R68). -/
def shiftAmount (b : Word) : Nat := b.toNat % 64

/-- SHL (R68). -/
def execShl (c : CoreId) (s : State) : Out := issueOut (scalarRow 0x06 legalXXX) c (binary 1 1 fun a b => a <<< shiftAmount b) s

/-- SHR (R68). -/
def execShr (c : CoreId) (s : State) : Out := issueOut (scalarRow 0x07 legalXXX) c (binary 1 1 fun a b => a >>> shiftAmount b) s

/-- SAR (R68). -/
def execSar (c : CoreId) (s : State) : Out := issueOut (scalarRow 0x08 legalXXX) c (binary 1 1 fun a b => a.sshiftRight (shiftAmount b)) s

/-- ADDI (R68). -/
def execAddi (c : CoreId) (s : State) : Out := issueOut (scalarRow 0x09 legalXX) c (unary fun a w => a + toWord (wSimm w)) s

/-- MOVI (R68). -/
def execMovi (c : CoreId) (s : State) : Out :=
  issueOut (scalarRow 0x0A legalX) c (fun x => .ok { x.plain with acts := xResult x 1 (toWord (wSimm x.w)) false }) s

/-- SHLI (R68). -/
def execShli (c : CoreId) (s : State) : Out := issueOut (scalarRow 0x0B legalXX) c (unary fun a w => a <<< (wImm w % 64)) s

/-- ORI (R68). -/
def execOri (c : CoreId) (s : State) : Out := issueOut (scalarRow 0x0C legalXX) c (unary fun a w => a ||| BitVec.ofNat 64 (wImm w)) s

/-- MUL: the low 64 bits (R68). -/
def execMul (c : CoreId) (s : State) : Out := issueOut (scalarRow 0x10 legalXXX) c (binary 3 1 fun a b => a * b) s

/-- The signed high 64 bits of a product (R68). -/
def mulHigh (a b : Word) : Word := BitVec.ofInt 64 (a.toInt * b.toInt / 2 ^ 64)

/-- MULH (R68). -/
def execMulh (c : CoreId) (s : State) : Out := issueOut (scalarRow 0x11 legalXXX) c (binary 3 1 mulHigh) s

/-- Signed quotient truncated toward zero; by zero all bits set; −2^63 by −1 is −2^63 (R70). -/
def divSigned (a b : Word) : Word := if b = 0 then BitVec.allOnes 64 else a.sdiv b
/-- Signed remainder with the dividend's sign; by zero the dividend (R70). -/
def remSigned (a b : Word) : Word := if b = 0 then a else a.srem b
/-- Unsigned quotient; by zero all bits set (R70). -/
def divUnsigned (a b : Word) : Word := if b = 0 then BitVec.allOnes 64 else a.udiv b
/-- Unsigned remainder; by zero the dividend (R70). -/
def remUnsigned (a b : Word) : Word := if b = 0 then a else a.umod b

/-- DIV (R68, R70). -/
def execDiv (c : CoreId) (s : State) : Out := issueOut (scalarRow 0x12 legalXXX) c (binary 18 18 divSigned) s

/-- REM (R68, R70). -/
def execRem (c : CoreId) (s : State) : Out := issueOut (scalarRow 0x13 legalXXX) c (binary 18 18 remSigned) s

/-- DIVU (R68, R70). -/
def execDivu (c : CoreId) (s : State) : Out := issueOut (scalarRow 0x14 legalXXX) c (binary 18 18 divUnsigned) s

/-- REMU (R68, R70). -/
def execRemu (c : CoreId) (s : State) : Out := issueOut (scalarRow 0x15 legalXXX) c (binary 18 18 remUnsigned) s

/-- CMP's encoding: sources in range, DST[5:3] zero, condition code 0–5 (R68, R70). -/
def legalCmp (_ : Core) (w : Nat) : Bool := decide (wDst w < 8) && field32 (wSrc1 w) && field32 (wSrc2 w) && decide (wImm w % 8 < 6)

/-- CMP: the flag available at t + 1; a marked source raises POISON (R68, R451). -/
def compare (x : Issue) : Except FaultReq Effect :=
  let a := wSrc1 x.w
  let b := wSrc2 x.w
  checked [poisonX x.k.regs [a, b]] { x.plain with
    acts := [(x.now + 1, phaseResult, .wF (wDst x.w) ((condition? (wImm x.w % 8) (x.x a) (x.x b)).getD false))]
    reads := [auditX a, auditX b] }

/-- CMP (R68). -/
def execCmp (c : CoreId) (s : State) : Out := issueOut (scalarRow 0x18 legalCmp) c compare s

/-- The resolution of an 8-byte own-store access as a fault, or the local-store offset (R69, R70, R178). -/
def ownWord (x : Issue) (a : Word) (r : Right) : Option FaultReq × Nat :=
  match x.st.ownAccess x.core a 8 r 8 with
  | .ok d => (none, d - lsBase x.core)
  | .error f => (some (accessFault f a), 0)

/-- LD: 8 bytes read at t + 1, available at t + 6 (R70, R79, R180). -/
def scalarLoad (x : Issue) : Except FaultReq Effect :=
  let b := wSrc1 x.w
  let a := addOffset (x.x b) (wSimm x.w)
  let r := ownWord x a .rd
  let uses : List PortUse := [{ cycle := x.now + 1, bytes := 8, write := false }]
  checked [poisonX x.k.regs [b], r.1, lsPort x.k x.now uses] { x.plain with
    acts := [(x.now + 1, phaseRead, .ldRead (wDst x.w) r.2)], reads := [auditX b], ports := uses }

/-- LD (R68). -/
def execLd (c : CoreId) (s : State) : Out := issueOut (scalarRow 0x20 legalXX) c scalarLoad s

/-- ST: 8 bytes written at t + 1; marked data raises POISON (R70, R180, R451). -/
def scalarStore (x : Issue) : Except FaultReq Effect :=
  let b := wSrc1 x.w
  let d := wSrc2 x.w
  let a := addOffset (x.x b) (wSimm x.w)
  let r := ownWord x a .wr
  let uses : List PortUse := [{ cycle := x.now + 1, bytes := 8, write := true }]
  checked [poisonX x.k.regs [b], r.1, poisonX x.k.regs [d], lsPort x.k x.now uses] { x.plain with
    acts := [(x.now + 1, phaseWrite, .lsWrite [(r.2, leBytes 8 (x.x d).toNat)] false)], reads := [auditX b, auditX d], ports := uses }

/-- ST's encoding: SRC1 and SRC2 name X registers. -/
def legalSt (_ : Core) (w : Nat) : Bool := field32 (wSrc1 w) && field32 (wSrc2 w)

/-- ST (R68). -/
def execSt (c : CoreId) (s : State) : Out := issueOut (scalarRow 0x21 legalSt) c scalarStore s

/-- The system-register number of MOVS and SETS. -/
def wSys (w : Nat) : Nat := wImm w % 4096

/-- May SETS write a system-register number (R71)? -/
def sysWritable (n : Nat) : Bool :=
  (decide (n < 0x80) && decide (n % 8 ≤ 4)) || [0xA0, 0xB0, 0xB1, 0xB2, 0xC0, 0xC1, 0xD1, 0xE0].contains n
    || (decide (0x100 ≤ n) && decide (n < 0x140)) || (decide (0x200 ≤ n) && decide (n < 0x230)) || (decide (0x300 ≤ n) && decide (n < 0x310))

/-- May MOVS read a system-register number (R71)? -/
def sysReadable (n : Nat) : Bool := sysWritable n || (decide (0x80 ≤ n) && decide (n < 0x84)) || n == 0xC2 || n == 0xD0

/-- An L register (R71). -/
def LoopLevel.word (l : LoopLevel) : Word :=
  BitVec.ofNat 64 (l.index.toNat + l.count.toNat * 2 ^ 21 + if l.active then 2 ^ 63 else 0)

/-- CYCLE_COUNT at a core cycle: the low 48 bits and the sticky wrap (R71, R464). -/
def CoreSys.cycleCount (y : CoreSys) (now : Nat) : Word :=
  BitVec.ofNat 64 ((now - y.cycZero) % 2 ^ 48 + if y.cycWrap || decide (2 ^ 48 ≤ now - y.cycZero) then 2 ^ 63 else 0)

/-- A system register as MOVS reads it in a core cycle; confidential partitions read PERF and AUDIT_STAT as
zero (R71, R88, R104). -/
def readSys (k : Core) (n now : Nat) (confidential : Bool) : Word :=
  let g := k.regs
  let y := k.sys
  if n < 0x80 then
    let a := (g.a[n / 8]?).getD .reset
    if n % 8 = 0 then a.base else ((a.inc[n % 8 - 1]?).getD 0).signExtend 64
  else if n < 0x84 then ((g.loops[n - 0x80]?).getD .reset).word
  else if n = 0xA0 then g.vstart
  else if n = 0xB0 then y.cultLo
  else if n = 0xB1 then y.cultHi
  else if n = 0xB2 then y.cultStep
  else if n = 0xC0 then BitVec.ofNat 64 (y.tvec.toNat + if y.trapEnable then 2 ^ 63 else 0)
  else if n = 0xC1 then y.epc.setWidth 64
  else if n = 0xC2 then BitVec.ofNat 64 (y.causeCode.toNat + y.causeDetail.toNat * 256)
  else if n = 0xD0 then y.issueCount
  else if n = 0xD1 then y.cycleCount now
  else if n = 0xE0 then if confidential then 0 else BitVec.ofNat 64 (y.staleReads.toNat + y.writeRaces.toNat * 2 ^ 32)
  else if n < 0x140 then ((g.tpal[n - 0x100]?).getD 0).setWidth 64
  else if n < 0x230 then
    let c := (y.clip[(n - 0x200) / 3]?).getD .reset
    (if n % 3 = 0x200 % 3 then c.total else if n % 3 = 0x201 % 3 then c.sat else c.unf).word
  else if confidential then 0 else (y.perf[n - 0x300]?).getD 0

/-- MOVS's encoding: DST in range, a readable register (R71). -/
def legalMovs (_ : Core) (w : Nat) : Bool := field32 (wDst w) && sysReadable (wSys w)

/-- MOVS: the system register as it stands, available at t + 2 (R79). -/
def moveFromSys (x : Issue) : Except FaultReq Effect :=
  .ok { x.plain with acts := xResult x 2 (readSys x.k (wSys x.w) x.now (x.st.confidential (x.st.corePart x.core))) false }

/-- MOVS (R68). -/
def execMovs (c : CoreId) (s : State) : Out := issueOut (scalarRow 0x28 legalMovs) c moveFromSys s

/-- SETS's encoding: SRC1 in range, a writable register (R71). -/
def legalSets (_ : Core) (w : Nat) : Bool := field32 (wSrc1 w) && sysWritable (wSys w)

/-- SETS: effective from t + 1; a marked source raises POISON (R72, R451). -/
def moveToSys (x : Issue) : Except FaultReq Effect :=
  let a := wSrc1 x.w
  checked [poisonX x.k.regs [a]] { x.plain with
    acts := [(x.now + 1, phaseResult, .wSys (wSys x.w) (x.x a))], reads := [auditX a] }

/-- SETS (R68). -/
def execSets (c : CoreId) (s : State) : Out := issueOut (scalarRow 0x29 legalSets) c moveToSys s

end Sys2Proof.Machine
end

