-- ==== Sys2Proof/Machine/Wake.lean ====
section
/-! DEFINITION. The power domains that an access reaches, and their wake from Doze (R299, R300, R410, R414, R423). -/

namespace Sys2Proof.Machine

/-- A dozing domain wakes (R414, R423). -/
def wakeDomain (d : Nat) (s : State) : State :=
  if s.domain d = .doze then
    { s with power := { s.power with domains := Tbl.put s.power.domains d .on, dozeWakes := s.power.dozeWakes + 1 } }
  else s

/-- Every domain of a list that dozes wakes: accesses have reached them, and complete once they are On (R414). -/
def wakeFor (l : List Nat) (s : State) : State := l.foldl (fun s d => wakeDomain d s) s

/-- The dies whose mesh a packet from one die to another crosses: the horizontal bridge first, then the vertical one (R300). -/
def pathDies (a b : Nat) : List Nat := if a % 2 = b % 2 ∨ a / 2 = b / 2 then [a, b] else [a, a - a % 2 + b % 2, b]

/-- The mesh-transit domains of a path (R410). -/
def pathDomains (a b : Nat) : List Nat := (pathDies a b).map fun die => 16 * die + 12

/-- The domains of a stack: the bridge to it and its base die (R410). -/
def stackDomains (stack : Nat) : List Nat := [16 * (stack / 4) + 15, 64 + stack]

/-- The domains that an access from a die to a device address reaches (R300, R410). -/
def accessDomains (die a : Nat) : List Nat :=
  match regionOf a with
  | .hbm => pathDomains die (stackOf a / 4) ++ stackDomains (stackOf a)
  | .localStore | .window => pathDomains die (dieUnit (coreAt a)) ++ [rowDomain (coreAt a)]
  | _ => []

/-- The domains that an engine of a core reaches with accesses to a segment: for its own store its row alone. -/
def segDomains (c : CoreId) (d : BitVec 256) : List Nat :=
  if !segValid d then [] else if inOwnStore c (segBase d) 1 then [rowDomain c] else accessDomains (dieUnit c) (segBase d)

/-- The domains that an access from outside the dies reaches: those of the address, by way of its own die. -/
def inboundDomains (a : Nat) : List Nat :=
  match regionOf a with
  | .hbm => stackDomains (stackOf a)
  | .localStore | .window => pathDomains (dieUnit (coreAt a)) (dieUnit (coreAt a)) ++ [rowDomain (coreAt a)]
  | _ => []

end Sys2Proof.Machine
end

