-- ==== Sys2Proof/Machine/Sync.lean ====
section
/-! DEFINITION. The sync unit: semaphores, remote signals, fences and the effects they hold (R209, R275–R285),
and a BAR's issue (R290). -/

namespace Sys2Proof.Machine

/-! ## Fence marks (R209, R317) -/

/-- The control window or local-store tier of a destination: does a descriptor with this destination segment
write a local store (R209)? -/
def writesStore (d : BitVec 256) : Bool := segTier d == 0

/-- OP of a knife record (R163). -/
def knifeOp (j : KnifeJob) : Nat := field j.raw 0 8

/-- The segment a knife descriptor writes through: the dense side of a GATHER, else the table (R164). -/
def KnifeJob.target (j : KnifeJob) : BitVec 256 := if knifeOp j = 1 then j.denseSeg else j.tableSeg

/-- Is an act a local-store write still to come? -/
def Act.storesLs (a : Act) : Bool :=
  match a with
  | .lsWrite _ _ | .tstRow _ _ | .mmsRow _ _ | .mmsOut _ _ _ _ | .mmsWrite _ _ _ _ => true
  | _ => false

/-- PRODUCED of a core's fabric ring as memory holds it; 0 without a job (R317). -/
def State.fabricProduced (s : State) (c : CoreId) : BitVec 32 :=
  match s.corePart c with
  | none => 0
  | some p =>
    match (s.part p).job with
    | none => 0
    | some j => BitVec.ofNat 32 (s.readNat (lsBase c + j.fabricOfs) 4)

/-- Is every write of a mark's class that was issued or enqueued before it complete (R209)? -/
def CoreFlight.markDone (f : CoreFlight) (m : FenceMark) : Bool :=
  match m.cls with
  | .f => serialGe 32 f.fabric.consumed.toNat m.produced.toNat
  | cls =>
    let counts (d : BitVec 256) : Bool := cls == .m || writesStore d
    f.sched.all (fun e => decide (m.seq ≤ e.seq) || !e.act.storesLs)
      && f.streams.toList.all (fun q => q.jobs.all fun j => decide (m.seq ≤ j.id) || !counts j.dstSeg)
      && f.knife.jobs.all fun j => decide (m.seq ≤ j.id) || !counts j.target

/-- A fence's mark placed in the core's order; marks whose writes are complete go (R209). -/
def placeMark (cls : FenceClass) (x : Issue) : Except FaultReq Effect :=
  .ok { x.plain with st := x.st.modCore x.core fun k => { k with flight := { k.flight with
    marks := (k.flight.marks.filter fun m => !k.flight.markDone m)
      ++ [{ cls := cls, seq := k.flight.seq, produced := x.st.fabricProduced x.core }] } } }

/-! ## Effects at the target (R281–R285) -/

/-- CORE of a core-form target. -/
def targetCore (v : Word) : CoreId := v.truncate 10
/-- SEM of a core-form target. -/
def targetSem (v : Word) : BitVec 5 := BitVec.ofNat 5 (bits v.toNat 10 5)
/-- KIND: the press form. -/
def targetPress? (v : Word) : Bool := v.getLsbD 15
/-- COUNT of a core-form target. -/
def targetCount (v : Word) : BitVec 16 := BitVec.ofNat 16 (bits v.toNat 16 16)
/-- PRESS of a press-form target. -/
def targetUnit (v : Word) : Nat := bits v.toNat 32 5

/-- Is an RSIGNAL refused (R282)? -/
def targetRefused (s : State) (c : CoreId) (v : Word) : Bool :=
  let p := s.corePart c
  if targetPress? v then
    let u := targetUnit v / 2
    !(s.unitPresent u && p.isSome && s.unitPart u == p)
  else targetCount v == 0 || !(coreExists (targetCore v) && p.isSome && s.corePart (targetCore v) == p)

/-- A press unit's state; one not listed is as a reset leaves it. -/
def State.pressUnit (s : State) (u : Nat) : Press := Tbl.getD s.press u .reset

/-- A press unit changed. -/
def State.modPress (s : State) (u : Nat) (f : Press → Press) : State := { s with press := Tbl.put s.press u (f (s.pressUnit u)) }

/-- Entries of the press rings of a job (R340). -/
def State.pressEntries (s : State) (p : Option Nat) : Nat :=
  match p with
  | none => 0
  | some n => match (s.part n).job with
    | some j => j.pressEntries
    | none => 0

/-- The device address of entry i of a press unit's ring (R340). -/
def pressEntryAddr (j : Job) (u i : Nat) : Nat :=
  Tbl.getD j.bases (u / 2) 0 + j.pressOfs + u % 2 * j.pressEntries * 384 + i % j.pressEntries * 384

/-- GEN of the ring entry i of a press unit (R254). -/
def State.pressEntryGen (s : State) (j : Job) (u i : Nat) : Nat := s.peekNat (pressEntryAddr j u i + 4) 4

/-- A press descriptor of the update of generation G + 1 has become outstanding: boundaries arrived for are
unstable (R261). -/
def State.pressTouched (s : State) (p : Nat) (gen : Nat) : State :=
  match (s.part p).job with
  | none => s
  | some j =>
    if gen = (j.gen + 1).toNat then
      s.modPart p fun q => { q with job := some { j with unstable := (j.arrived.map (·.2)).foldl insertNum j.unstable } }
    else s

/-- One more entry of a press ring made available; past the ring's entries the signal is discarded and
counted (R253). -/
def pressSignal (c : CoreId) (u : Nat) (s : State) : State :=
  let q := s.pressUnit u
  let p := s.corePart c
  if s.pressEntries p ≤ q.available then
    { s with errors := { s.errors with pressDiscarded := s.errors.pressDiscarded + 1 } }
  else
    let s' := s.modPress u fun q => { q with available := q.available + 1 }
    match p with
    | none => s'
    | some n => match (s.part n).job with
      | none => s'
      | some j => s'.pressTouched n (s.pressEntryGen j u (q.readIndex.toNat + q.available))

/-- Are the stream and knife queues of a core free of descriptors? -/
def CoreFlight.queuesEmpty (f : CoreFlight) : Bool := f.streams.toList.all (·.jobs.isEmpty) && f.knife.jobs.isEmpty

/-- Is a press descriptor of the update of generation g outstanding in a partition (R261)? -/
def State.pressPending (s : State) (p : Nat) (j : Job) (g : Nat) : Bool :=
  (s.unitsOf p).any fun pu => [2 * pu, 2 * pu + 1].any fun u =>
    let q := s.pressUnit u
    (match q.desc with | some d => field d 32 32 == g | none => false)
      || (List.range (q.available - if q.desc.isSome then 1 else 0)).any fun i =>
          s.pressEntryGen j u (q.readIndex.toNat + (if q.desc.isSome then 1 else 0) + i) == g

/-- A member's arrival at its partition's step barrier noted, for R261's test of the boundary: a queued
descriptor or an outstanding press descriptor of the generation makes it unstable at once. -/
def State.noteArrival (s : State) (c : CoreId) (bid : BitVec 10) (epoch : BitVec 16) : State :=
  match s.corePart c with
  | none => s
  | some p =>
    match (s.part p).job with
    | none => s
    | some j =>
      if j.stepBarrier ≠ bid.toNat then s
      else
        let busy := !(s.core c).flight.queuesEmpty || s.pressPending p j (j.gen + 1).toNat
        s.modPart p fun q => { q with job := some { j with
          arrived := j.arrived ++ [(c.toNat, epoch.toNat)]
          unstable := if busy then insertNum j.unstable epoch.toNat else j.unstable } }

/-- A sync effect takes place: a local increment, a signal sent on its way, a press entry made available, or
an arrival sent to its die node (R253, R277, R281, R288). -/
def performEffect (c : CoreId) (h : HeldEffect) (s : State) : State :=
  match h.effect with
  | .signal r n => s.incSem c r.toNat n.toNat none { index := h.index, half := h.half, count := h.count }
  | .rsignal v =>
    if targetPress? v then
      wakeFor (pathDomains (dieUnit c) (targetUnit v / 8) ++ stackDomains (targetUnit v / 2)) (pressSignal c (targetUnit v) s)
    else { s with signals := s.signals ++ [{ sender := c, target := targetCore v, sem := targetSem v, count := targetCount v }] }
  | .arrive bid epoch waits sem image =>
    let s := s.noteArrival c bid epoch
    { s with arrivals := s.arrivals ++ [{ core := c, bid := bid, epoch := epoch, waits := waits, sem := sem, index := h.index, half := h.half,
                                          count := h.count, image := { image with sems := (s.core c).regs.sems } }] }

/-- Must an effect be held: fence marks are not complete, or an earlier effect is held (R285)? -/
def CoreFlight.holdsEffects (f : CoreFlight) : Bool := !f.held.isEmpty || f.marks.any fun m => !f.markDone m

/-- The effect of a sync instruction with its place (R285). -/
def Issue.held (x : Issue) (e : SyncEffect) : HeldEffect :=
  { seq := x.k.flight.seq, index := BitVec.ofNat 14 x.k.ctl.pc, half := x.k.ctl.half, count := x.k.sys.issueCount, effect := e }

/-- The effect sent, or held behind fence marks (R285). -/
def sendEffect (x : Issue) (e : SyncEffect) : State :=
  if x.k.flight.holdsEffects then
    x.st.modCore x.core fun k => { k with flight := { k.flight with held := k.flight.held ++ [x.held e] } }
  else performEffect x.core (x.held e) x.st

/-! ## The instructions (R280) -/

/-- A sync-unit row. -/
def syncRow (opc : Nat) (picks : Core → Nat → Bool) (legal : Nat → Bool) : CoreRow :=
  { eng := 5, opc := opc, long := false, picks := picks, legal := fun _ w => legal w, unit := 6, reaches := reachesNothing }

/-- IMM[15:0]: the count of a SIGNAL or WAIT. -/
def semCount (w : Nat) : Nat := wImm w % 65536

/-- The encoding of a SIGNAL or WAIT (R280). -/
def legalSemCount (w : Nat) : Bool := field32 (wDst w) && decide (semCount w ≠ 0)

/-- SIGNAL: S[DST] rises in cycle t + 1, or when the fence marks before it are complete (R277, R285). -/
def signalSem (x : Issue) : Except FaultReq Effect :=
  let e := SyncEffect.signal (BitVec.ofNat 5 (wDst x.w)) (BitVec.ofNat 16 (semCount x.w))
  if x.k.flight.holdsEffects then .ok { x.plain with st := sendEffect x e }
  else .ok { x.plain with acts := [(x.now + 1, phaseResult, .semInc (wDst x.w) (semCount x.w) none)] }

/-- SIGNAL (R280). -/
def execSignal (c : CoreId) (s : State) : Out := issueOut (syncRow 0x01 (fun _ _ => true) legalSemCount) c signalSem s

/-- A core's semaphore with a WAIT's count subtracted (R279). -/
def State.takeSem (s : State) (c : CoreId) (r n : Nat) : State :=
  (s.modRegs c fun g => { g with sems := g.sems.setIfInBounds r (g.readS r - BitVec.ofNat 16 n) }).touched c

/-- WAIT: satisfied in its issue cycle it subtracts and holds nothing, otherwise it holds issue (R279). -/
def waitSem (x : Issue) : Except FaultReq Effect :=
  let r := wDst x.w
  let n := semCount x.w
  if n ≤ (x.k.regs.readS r).toNat then .ok { x.plain with st := x.st.takeSem x.core r n }
  else .ok { x.plain with flow := .wait (.wait (BitVec.ofNat 5 r) (BitVec.ofNat 16 n)) }

/-- WAIT (R280). -/
def execWait (c : CoreId) (s : State) : Out := issueOut (syncRow 0x02 (fun _ _ => true) legalSemCount) c waitSem s

/-- Issue resumes: the next instruction issues two core cycles after cycle T (R279, R290). -/
def resumeIssue (c : CoreId) (T : Nat) (s : State) : State :=
  s.modCore c fun k => { k with
    ctl := { k.ctl with state := .running, hold := .none }
    flight := { k.flight with now := T + 2 } }

/-- Of so many cycles of a hold, those that the core's clock counts: with no descriptor in the core's queues since the
hold began, its island is gated once the last result is available, and restarts in the cycle the wait is satisfied (R412). -/
def clockedCycles (c : CoreId) (elapsed : Nat) (s : State) : Nat :=
  let f := (s.core c).flight
  if f.queuesEmpty && !f.fed then min elapsed (((drain c s).core c).flight.now - (f.now - 1)) else elapsed

/-- The cycle that lies so many clocked cycles after the one a core was held in, its work done up to there. -/
def heldCycle (c : CoreId) (elapsed : Nat) (s : State) : Nat := (s.core c).flight.now - 1 + max 1 (clockedCycles c elapsed s)

/-- Cycles in which issue was held, counted from the hold to the next issue (R462). -/
def countHeld (c : CoreId) (elapsed : Nat) (held s : State) : State := s.countPerf c 0x03 (max 1 (clockedCycles c elapsed held) + 1)

/-- WAIT_RELEASE: `elapsed` cycles after its issue a held WAIT finds its count, subtracts it, and issue resumes
two cycles later; where the semaphore is still below the count nothing happens (R279). Work that completes meanwhile may
stop the core instead (R87, R96). -/
def execWaitRelease (c : CoreId) (elapsed : Nat) (s : State) : Out :=
  let T := heldCycle c elapsed s
  let s' := runTo c T s
  match (s.core c).ctl.hold, (s.core c).ctl.state with
  | .wait r n, .waiting =>
    if (s'.core c).ctl.state ≠ .waiting then .next (drain c s')
    else if n.toNat ≤ ((s'.core c).regs.readS r.toNat).toNat then
      .next (countHeld c elapsed s (resumeIssue c T (s'.takeSem c r.toNat n.toNat)))
    else .next s
  | _, _ => .next s

/-- SEMSET: S[DST] takes X[SRC1][15:0] in cycle t + 1 (R277, R280). -/
def setSem (x : Issue) : Except FaultReq Effect :=
  let a := wSrc1 x.w
  checked [poisonX x.k.regs [a]]
    { x.plain with reads := [auditX a], acts := [(x.now + 1, phaseResult, .semSet (wDst x.w) ((x.x a).truncate 16))] }

/-- SEMSET (R280). -/
def execSemset (c : CoreId) (s : State) : Out :=
  issueOut (syncRow 0x03 (fun _ _ => true) fun w => field32 (wDst w) && field32 (wSrc1 w)) c setSem s

/-- SEMRD: X[DST] takes the semaphore as it stood at the start of the cycle (R277). -/
def readSem (x : Issue) : Except FaultReq Effect :=
  .ok { x.plain with acts := xResult x 1 (((x.semsBefore[wSrc1 x.w]?).getD 0).setWidth 64) false }

/-- SEMRD (R280). -/
def execSemrd (c : CoreId) (s : State) : Out :=
  issueOut (syncRow 0x04 (fun _ _ => true) fun w => field32 (wDst w) && field32 (wSrc1 w)) c readSem s

/-- BAD_CORE with X[SRC1] in AUX (R282). -/
def badCore (v : Word) : FaultReq := { code := 0x11, detail := 0, addr := 0, aux := v.toNat }

/-- RSIGNAL: a signal to the target X[SRC1] names, refused with BAD_CORE and no more (R281, R282). -/
def remoteSignal (x : Issue) : Except FaultReq Effect :=
  let a := wSrc1 x.w
  let v := x.x a
  let place : Place := { index := BitVec.ofNat 14 x.k.ctl.pc, half := x.k.ctl.half, count := x.k.sys.issueCount }
  checked [poisonX x.k.regs [a]]
    { x.plain with
      reads := [auditX a]
      st := if targetRefused x.st x.core v then x.st.logFault x.core (faultEntry (badCore v) place) else sendEffect x (.rsignal v) }

/-- Does X[SRC1] hold a press-form target? -/
def pressForm (k : Core) (w : Nat) : Bool := targetPress? (k.regs.readX (wSrc1 w))

/-- RSIGNAL to a core (R280, R281). -/
def execRsignalCore (c : CoreId) (s : State) : Out :=
  issueOut { syncRow 0x05 (fun k w => !pressForm k w) fun w => field32 (wSrc1 w) with reaches := reachesMesh } c remoteSignal s

/-- The domains an RSIGNAL to a press unit reaches: the mesh, and the HBM bridge of its own die where the unit stands
on a stack of that die (R83, R253, R410). -/
def reachesPress (c : CoreId) (k : Core) (w : Nat) : List Nat :=
  if targetUnit (k.regs.readX (wSrc1 w)) / 8 = dieUnit c then [12, 15] else [12]

/-- RSIGNAL to a press unit (R253, R281). -/
def execRsignalPress (c : CoreId) (s : State) : Out :=
  issueOut { syncRow 0x05 pressForm fun w => field32 (wSrc1 w) with reaches := reachesPress } c remoteSignal s

/-- FENCE.L (R209). -/
def execFenceL (c : CoreId) (s : State) : Out := issueOut (syncRow 0x08 (fun _ _ => true) fun _ => true) c (placeMark .l) s

/-- FENCE.M (R209). -/
def execFenceM (c : CoreId) (s : State) : Out := issueOut (syncRow 0x09 (fun _ _ => true) fun _ => true) c (placeMark .m) s

/-- FENCE.F (R209, R317). -/
def execFenceF (c : CoreId) (s : State) : Out := issueOut (syncRow 0x0A (fun _ _ => true) fun _ => true) c (placeMark .f) s

/-- FENCE_HELD_RELEASE: the oldest held effect takes place once every mark before it is complete (R285). -/
def execFenceHeldRelease (c : CoreId) (s : State) : Out :=
  let s' := runPending c s
  let f := (s'.core c).flight
  match f.held with
  | [] => .next s
  | h :: rest =>
    if f.marks.all fun m => decide (h.seq ≤ m.seq) || f.markDone m then
      .next (performEffect c h (s'.modCore c fun k => { k with flight := { k.flight with held := rest } }))
    else .next s

/-- The first element that satisfies a test taken out of a list. -/
def takeFirst {α : Type} (test : α → Bool) : List α → Option (α × List α)
  | [] => none
  | h :: t => if test h then some (h, t) else (takeFirst test t).map fun r => (r.1, h :: r.2)

/-- SEMAPHORE_INCREMENT: the oldest signal on its way from one core to another arrives, if it is for the semaphore: packets
on one path keep their order (R276, R283, R301). Dozing domains that it reaches wake (R414). A core in reset discards it (R443). -/
def execSemaphoreIncrement (sender target : CoreId) (sem : BitVec 5) (s : State) : Out :=
  match takeFirst (fun f => f.sender == sender && f.target == target) s.signals with
  | none => .next s
  | some (f, rest) =>
    if f.sem ≠ sem then .next s else
    let s := wakeFor (pathDomains (dieUnit sender) (dieUnit target) ++ [rowDomain target]) { s with signals := rest }
    if (s.core target).flight.resetting then .next s
    else
      let old := ((s.core target).regs.readS sem.toNat).toNat
      if old + f.count.toNat ≤ 65535 then .next (s.incSem target sem.toNat f.count.toNat (some sender) { index := 0, half := false, count := 0 })
      else
        let p := s.freePlace
        .next (p.2.incSem target sem.toNat f.count.toNat (some sender) p.1)

/-! ## BAR's issue (R290) -/

/-- The core record of R265 as a BAR leaves it: the word after it, the loops, the counts. -/
def coreImageAt (k : Core) (next : CoreRegs × Nat) : CoreImage :=
  { pc := BitVec.ofNat 14 next.2, half := k.ctl.half, issueCount := k.sys.issueCount, loops := next.1.loops, sems := k.regs.sems }

/-- BAR: the arrival is sent, and in wait mode issue is held for its answer (R290). -/
def barArrive (waits : Bool) (x : Issue) : Except FaultReq Effect :=
  let a := wSrc1 x.w
  let b := wSrc2 x.w
  let bid := (x.x a).truncate 10
  let epoch := (x.x b).truncate 16
  let image := coreImageAt x.k (advancePc x.k.regs x.k.ctl.pc 1)
  let st := sendEffect x (.arrive bid epoch waits (BitVec.ofNat 5 (bits (wImm x.w) 1 5)) image)
  checked [poisonX x.k.regs [a, b]]
    { x.plain with
      st := st, reads := [auditX a, auditX b]
      flow := if waits then .wait (.bar bid epoch (BitVec.ofNat 6 (wDst x.w))) else .next 1 }

/-- The encoding of a BAR (R63, R280). -/
def legalBar (w : Nat) : Bool := field32 (wDst w) && field32 (wSrc1 w) && field32 (wSrc2 w)

/-- BAR in wait mode (R290). -/
def execBarWaitMode (c : CoreId) (s : State) : Out :=
  issueOut { syncRow 0x10 (fun _ w => !bit (wImm w) 0) legalBar with reaches := reachesNode } c (barArrive true) s

/-- BAR in signal mode (R290). -/
def execBarSignalMode (c : CoreId) (s : State) : Out :=
  issueOut { syncRow 0x10 (fun _ w => bit (wImm w) 0) legalBar with reaches := reachesNode } c (barArrive false) s

end Sys2Proof.Machine
end

