-- ==== Sys2Proof/Machine/Wheels.lean ====
section
/-! DEFINITION. The wheel table and the wheel context (R220, R221). -/

namespace Sys2Proof.Machine

/-- A wheel's state; an entry that is not listed is free. -/
def State.wheel (s : State) (w : Nat) : Wheel := Tbl.getD s.intake.wheels w .reset

/-- A wheel put in place; a free one is not listed (R220). -/
def State.setWheel (s : State) (w : Nat) (v : Wheel) : State :=
  { s with intake := { s.intake with wheels := if v.state = 0 then Tbl.del s.intake.wheels w else Tbl.put s.intake.wheels w v } }

/-- A wheel changed. -/
def State.modWheel (s : State) (w : Nat) (f : Wheel → Wheel) : State := s.setWheel w (f (s.wheel w))

/-- The wheels of a partition, by ID in rising order. -/
def State.wheelsOf (s : State) (p : Nat) : List Nat := (s.intake.wheels.filter fun w => w.2.state != 0 && w.2.part == p).map (·.1)

/-- The event counters of a context as one number, ERR_SYNTAX lowest (R221). -/
def counterBits (l : List (BitVec 16)) : Nat :=
  match l with
  | [] => 0
  | h :: t => h.toNat + 65536 * counterBits t

/-- Bits [1023:0] of a wheel's context (R221). -/
def Wheel.context (w : Wheel) : BitVec 1024 :=
  BitVec.ofNat 1024 (w.state % 16 + w.codec.toNat * 2 ^ 4 + (if w.input then 2 ^ 8 else 0) + (if w.srcRes then 2 ^ 9 else 0)
    + (if w.srcClosed then 2 ^ 10 else 0) + w.pid.toNat * 2 ^ 16 + w.policy.toNat * 2 ^ 32 + w.par.toNat * 2 ^ 34
    + w.engine.toNat * 2 ^ 40 + w.puMask.toNat * 2 ^ 48 + w.srcBase.toNat * 2 ^ 64 + w.srcSize.toNat * 2 ^ 128
    + w.pos.toNat * 2 ^ 192 + w.rapPos.toNat * 2 ^ 256 + w.dpbBase.toNat * 2 ^ 320 + w.dpbSize.toNat * 2 ^ 384
    + w.job.toNat * 2 ^ 416 + w.cplBase.toNat * 2 ^ 448 + w.cplCount.toNat * 2 ^ 512 + w.cplIndex.toNat * 2 ^ 544
    + w.clipSeq.toNat * 2 ^ 576 + w.pendingCount.toNat * 2 ^ 608 + w.phase.toNat * 2 ^ 640 + counterBits w.counters.toList * 2 ^ 672)

/-- A context read back into a wheel: the restore of a schedule image (R272). What the context does not hold is
given. -/
def Wheel.ofContext (c : BitVec 1024) (part : Nat) (recipe : BitVec 1024) : Wheel :=
  { Wheel.reset with
    state := field c 0 4, codec := BitVec.ofNat 4 (field c 4 4), input := c.getLsbD 8, srcRes := c.getLsbD 9, srcClosed := c.getLsbD 10
    pid := BitVec.ofNat 13 (field c 16 13), policy := BitVec.ofNat 2 (field c 32 2), par := BitVec.ofNat 3 (field c 34 3)
    engine := 0xFF, puMask := BitVec.ofNat 16 (field c 48 16), part := part, srcBase := BitVec.ofNat 64 (field c 64 64)
    srcSize := BitVec.ofNat 64 (field c 128 64), pos := BitVec.ofNat 64 (field c 192 64), rapPos := BitVec.ofNat 64 (field c 256 64)
    dpbBase := BitVec.ofNat 64 (field c 320 64), dpbSize := BitVec.ofNat 32 (field c 384 32), job := BitVec.ofNat 32 (field c 416 32)
    cplBase := BitVec.ofNat 64 (field c 448 64), cplCount := BitVec.ofNat 16 (field c 512 16), cplIndex := BitVec.ofNat 32 (field c 544 32)
    clipSeq := BitVec.ofNat 32 (field c 576 32), pendingCount := BitVec.ofNat 32 (field c 608 32), phase := BitVec.ofNat 32 (field c 640 32)
    counters := Vector.ofFn fun i => BitVec.ofNat 16 (field c (672 + 16 * i.val) 16), recipe := recipe }

/-- The 256 bytes of a wheel's entry in the wheel table (R221). -/
def Wheel.entryBytes (v : Wheel) : List Byte := leBytes 128 v.context.toNat ++ leBytes 128 (Config.engineState v.stateNo).toNat

/-- A wheel's context written to its entry, as at a group boundary (R220, R226, R227). -/
def State.saveWheel (s : State) (w : Nat) : State := s.put (wheelAddr w) (s.wheel w).entryBytes false

/-- A wheel freed: its entry is zero, and no engine keeps it (R220, R226). -/
def State.freeWheelEntry (s : State) (w : Nat) : State :=
  let s := s.setWheel w .reset
  ({ s with intake := { s.intake with resident := s.intake.resident.map fun e => (e.1, e.2.filter (· != w)) } } : State).put (wheelAddr w)
    (zeroBytes 256) false

end Sys2Proof.Machine
end

