-- ==== Sys2Proof/Machine/Barrier.lean ====
section
/-! DEFINITION. Rennet barriers, the step boundary and its schedule image, and the iron sweep (R260–R265,
R286–R298). -/

namespace Sys2Proof.Machine

/-! ## The barrier table (R286–R289) -/

/-- VALID of a barrier entry. -/
def barValid (e : BitVec 256) : Bool := e.getLsbD 0
/-- SCOPE: a ring-group barrier. -/
def barScope (e : BitVec 256) : Bool := e.getLsbD 1
/-- EPOCH at load. -/
def barEpoch (e : BitVec 256) : BitVec 16 := BitVec.ofNat 16 (field e 16 16)
/-- DEVICES. -/
def barDevices (e : BitVec 256) : Nat := field e 192 6

/-- A barrier of a partition; one not listed is unused. -/
def State.barrier (s : State) (p bid : Nat) : Barrier := Tbl.getD (s.part p).barriers bid .reset

/-- A barrier of a partition changed. -/
def State.modBarrier (s : State) (p bid : Nat) (f : Barrier → Barrier) : State :=
  s.modPart p fun q => { q with barriers := Tbl.put q.barriers bid (f (s.barrier p bid)) }

/-- A barrier opened at an epoch with its members and nothing arrived (R287, R294). -/
def Barrier.fresh (entry : BitVec 256) (members : List CoreId) (epoch : BitVec 16) : Barrier :=
  { Barrier.reset with
    entry := entry, members := members, rootEpoch := epoch
    nodes := Vector.replicate 4 { BarNode.reset with openEpoch := epoch } }

/-- The die of a core. -/
def dieOf (c : CoreId) : Nat := bits c.toNat 8 2

/-- The die node of a barrier. -/
def Barrier.node (b : Barrier) (die : Nat) : BarNode := (b.nodes[die]?).getD .reset

/-- A die node changed. -/
def Barrier.modNode (b : Barrier) (die : Nat) (f : BarNode → BarNode) : Barrier :=
  { b with nodes := b.nodes.setIfInBounds die (f (b.node die)) }

/-- The members on a die. -/
def Barrier.dieMembers (b : Barrier) (die : Nat) : List CoreId := b.members.filter fun c => dieOf c == die

/-- The die of the device root: that of the partition's lowest-numbered present unit (R288). -/
def State.rootDie (s : State) (p : Nat) : Nat :=
  match (s.unitsOf p).filter s.unitPresent with
  | u :: _ => u / 4
  | [] => 0

/-- Has every member on a die arrived for the node's open epoch? -/
def Barrier.dieComplete (b : Barrier) (die : Nat) : Bool :=
  (b.dieMembers die).all fun c => (b.node die).counted.any fun a => a.core == c

/-- The four classes of R289. -/
inductive EpochClass where
  | current | early | overrun | stale
deriving DecidableEq, Repr

/-- The class of an epoch at a node's open epoch (R289). -/
def epochClass (e n : BitVec 16) : EpochClass :=
  let d := (e - n).toNat
  if d = 0 then .current else if d = 1 then .early else if d ≤ 32767 then .overrun else .stale

/-! ## Arrivals (R290–R292) -/

/-- The status of a refusal (R290). -/
inductive BarRefusal where
  | overrun | stale | member | invalid
deriving DecidableEq, Repr

/-- Its status value (R290). -/
def BarRefusal.status : BarRefusal → BitVec 3
  | .overrun => 1
  | .stale => 2
  | .member => 3
  | .invalid => 4

/-- Its fault code (R284). -/
def BarRefusal.code : BarRefusal → Nat
  | .overrun => 0x13
  | .stale => 0x14
  | .member => 0x15
  | .invalid => 0x16

/-- What a node makes of an arrival: counted, held early, or refused (R291, R292). -/
inductive BarVerdict where
  | counted | early
  | refused (r : BarRefusal)
deriving DecidableEq, Repr

/-- The verdict on a core's arrival with an epoch (R289, R291, R292). -/
def barVerdict (b : Barrier) (c : CoreId) (e : BitVec 16) : BarVerdict :=
  let n := b.node (dieOf c)
  if !barValid b.entry then .refused .invalid
  else if !b.members.contains c then .refused .member
  else match epochClass e n.openEpoch with
    | .current => if n.counted.any (fun a => a.core == c) then .refused .overrun else .counted
    | .early => if n.early.any (fun a => a.core == c) then .refused .overrun else .early
    | .overrun => .refused .overrun
    | .stale => .refused .stale

/-- The key of a core record for an epoch. -/
def imageKey (c : CoreId) (e : BitVec 16) : Nat := 65536 * c.toNat + e.toNat

/-- A counted or held step-barrier arrival keeps its core record; a refused one is no arrival (R261, R264). -/
def State.keepImage (s : State) (p : Nat) (a : FlyingArrival) (taken : Bool) : State :=
  match (s.part p).job with
  | none => s
  | some j =>
    if j.stepBarrier ≠ a.bid.toNat then s
    else s.modPart p fun q => { q with job := some (if taken then { j with arrivalImages := Tbl.put j.arrivalImages (imageKey a.core a.epoch) a.image }
      else
        let rest := j.arrived.erase (a.core.toNat, a.epoch.toNat)
        { j with arrived := rest
                 unstable := if rest.any (fun x => x.2 == a.epoch.toNat) then j.unstable else j.unstable.filter (· != a.epoch.toNat) }) }

/-- Does a core wait in the BAR that sent an arrival? -/
def State.waitsFor (s : State) (a : FlyingArrival) : Bool :=
  match (s.core a.core).ctl.hold with
  | .bar bid epoch _ => bid == a.bid && epoch == a.epoch
  | _ => false

/-- A refused arrival: logged in the arriving core's fault log; in wait mode the answer goes back to the BAR that waits
for it (R291, R292). -/
def refuseArrival (a : FlyingArrival) (r : BarRefusal) (s : State) : State :=
  let s := s.logFault a.core { code := BitVec.ofNat 8 r.code, cls := .log, detail := a.bid.truncate 6, index := a.index, half := a.half,
                               count := a.count, addr := 0, aux := a.bid.setWidth 32 ||| (a.epoch.setWidth 32 <<< 16) }
  if a.waits && s.waitsFor a then s.modCore a.core fun k => { k with flight := { k.flight with answer := some r.status } } else s

/-- An arrival reaches its die node. -/
def arriveAtNode (a : FlyingArrival) (s : State) : State :=
  match s.corePart a.core with
  | none => refuseArrival a .invalid s
  | some p =>
    let entry : Arrival := { core := a.core, waits := a.waits, sem := a.sem }
    match barVerdict (s.barrier p a.bid.toNat) a.core a.epoch with
    | .counted => (s.modBarrier p a.bid.toNat fun b => b.modNode (dieOf a.core) fun n => { n with counted := n.counted ++ [entry] }).keepImage p a true
    | .early => (s.modBarrier p a.bid.toNat fun b => b.modNode (dieOf a.core) fun n => { n with early := n.early ++ [entry] }).keepImage p a true
    | .refused r => (refuseArrival a r s).keepImage p a false

/-- BARRIER_ARRIVAL: the oldest arrival on its way from a core reaches its node, which wakes if it dozes (R283, R292, R414). -/
def execBarrierArrival (c : CoreId) (s : State) : Out :=
  match takeFirst (fun a : FlyingArrival => a.core == c) s.arrivals with
  | none => .next s
  | some (a, rest) => .next (arriveAtNode a (wakeFor [16 * dieUnit c + 12, 16 * dieUnit c + 14] { s with arrivals := rest }))

/-- The epoch the root collects reports of: the open one, or while its release is under way the next (R288, R293). -/
def Barrier.collecting (b : Barrier) : BitVec 16 := if b.completing then b.rootEpoch + 1 else b.rootEpoch

/-- BARRIER_NODE_REPORT: a die node whose members have all arrived reports its epoch to the root (R288). The
root's own die needs no report. -/
def execBarrierNodeReport (part bid die : Nat) (s : State) : Out :=
  let b := s.barrier part bid
  let n := b.node die
  if barValid b.entry && die < 4 && die != s.rootDie part && !(b.dieMembers die).isEmpty && b.dieComplete die && !n.reported
      && n.releasing.isEmpty && n.openEpoch == b.collecting then
    .next (s.modBarrier part bid fun b =>
      { (b.modNode die fun n => { n with reported := true }) with rootReports := insertNum b.rootReports die })
  else .next s

/-- Has every member on the device arrived, as the root sees it (R288)? -/
def Barrier.rootComplete (b : Barrier) (root : Nat) : Bool :=
  barValid b.entry && !b.completing && (b.node root).openEpoch == b.rootEpoch && b.dieComplete root
    && (List.range 4).all fun d => d == root || (b.dieMembers d).isEmpty || b.rootReports.contains d

/-- This device's fabric ID. -/
def State.fabricId (s : State) : Nat := s.fabric.assignedId.toNat

/-- Is this device the head of its ring group (R325)? -/
def State.isHead (s : State) : Bool := s.fabric.groupState == 2

/-- DEVICE_REPORT: the device root of a SCOPE 1 barrier reports to the head; on the head a report of the open
epoch counts, one of the next is held early, and another, or a second one of a device, is discarded and logged in
the health range (R288, R292). Nothing comes from a device that a takeover has fenced (R272). `time` is the arrival in the head's island (R270). -/
def execDeviceReport (part bid device : Nat) (epoch : BitVec 16) (time : Nat) (s : State) : Out :=
  let b := s.barrier part bid
  if !barValid b.entry || !barScope b.entry || s.fabric.takeover.dropped.contains device then .next s
  else if device = s.fabricId ∧ !(b.rootComplete (s.rootDie part) && !b.deviceReported && epoch == b.rootEpoch) then .next s
  else
    let s := if device = s.fabricId then s.modBarrier part bid fun b => { b with deviceReported := true } else s
    if !s.isHead then .next s
    else match epochClass epoch b.rootEpoch with
      | .current =>
        if !b.completing && !b.devices.any (fun d => d.1 == device) then
          .next (s.modBarrier part bid fun b => { b with devices := b.devices ++ [(device, time)] })
        else .next (s.healthEvent 2 device)
      | .early =>
        if !b.earlyDevices.any (fun d => d.1 == device) then
          .next (s.modBarrier part bid fun b => { b with earlyDevices := b.earlyDevices ++ [(device, time)] })
        else .next (s.healthEvent 2 device)
      | _ => .next (s.healthEvent 2 device)

/-! ## Straggling (R270) -/

/-- The median of arrival times: the middle one in rising order, the lower of two (log 12). -/
def medianTime (l : List Nat) : Nat :=
  let sorted := l.foldl (fun a t => (a.filter (· ≤ t)) ++ t :: a.filter (t < ·)) []
  (sorted[(sorted.length - 1) / 2]?).getD 0

/-- Each device's run of straggling steps after a step, and the devices whose run has reached STRAGGLE_STEPS. -/
def straggleRuns (b : Barrier) (pct steps : Nat) : Tbl Nat × List Nat :=
  match b.lastRelease, b.prevRelease with
  | some l, some q =>
    let med := medianTime (b.devices.map (·.2))
    let late := b.devices.filter fun d => decide (pct * (l - q) < 100 * (d.2 - med))
    let runs := b.devices.foldl (fun t d => if late.contains d then Tbl.put t d.1 (Tbl.getD t d.1 0 + 1) else Tbl.put t d.1 0) b.straggles
    (runs, (b.devices.map (·.1)).filter fun d => decide (steps ≤ Tbl.getD runs d 0) && late.any fun x => x.1 == d)
  | _, _ => (b.straggles, [])

/-! ## The step boundary (R260–R265) -/

/-- The present units of a partition as a mask. -/
def State.presentMask (s : State) (p : Nat) : Nat := ((s.unitsOf p).filter s.unitPresent).foldl (fun m u => m + 2 ^ u) 0

/-- Image record of a ring: the records it has completed, its next completion index, the last SEQ completed (R264). -/
def ringImage (q : Ring) : BitVec 32 × BitVec 32 × BitVec 32 :=
  (q.consumed - (if q.current.isSome then 1 else 0), q.cplNext, q.lastDone)

/-- The schedule image of a partition at a boundary that reached generation g by the release of an epoch (R264). -/
def captureImage (s : State) (p : Nat) (j : Job) (g : BitVec 32) (epoch : BitVec 16) (members : List CoreId) : SchedImage :=
  { gen := g, step := j.stepNo, fabricId := s.fabric.assignedId
    units := BitVec.ofNat 16 (s.presentMask p)
    rings := (s.ringsOf p).map fun r => (r, ringImage (s.ring r))
    epochs := ((s.part p).barriers.filter fun b => barValid b.2.entry).map fun b => (b.1, if b.1 = j.stepBarrier then epoch + 1 else b.2.rootEpoch)
    cores := (members.filterMap fun c => (Tbl.get? j.arrivalImages (imageKey c epoch)).map fun i => (c.toNat, i)).foldl (fun t x => Tbl.put t x.1 x.2) []
    press := ((s.unitsOf p).flatMap fun u => [2 * u, 2 * u + 1]).map fun u => (u, ((s.pressUnit u).readIndex, (s.pressUnit u).lastGen))
    wheels := (s.wheelsOf p).map fun w => (w, (s.wheel w).context) }

/-- Is a boundary stable: nothing of R261 was noted since an arrival, no queue holds a descriptor, and no press
descriptor of the generation is outstanding? -/
def boundaryStable (s : State) (p : Nat) (j : Job) (epoch : BitVec 16) (members : List CoreId) : Bool :=
  !j.unstable.contains epoch.toNat && members.all (fun c => (s.core c).flight.queuesEmpty) && !s.pressPending p j (j.gen + 1).toNat

/-- The slot a drain uses: not the one that holds the newest committed generation (R266). -/
def Job.drainSlot (j : Job) : Nat := if ((j.slots[j.newest]?).getD none).isSome then 1 - j.newest else j.newest

/-- The buffer of a generation leaves DRAINING, unless it holds another generation by now (R267). -/
def Job.settleBuffer (j : Job) (g : BitVec 32) : Job :=
  match j.bufs[g.toNat % 2]? with
  | some b => if b.gen = g ∧ b.state = .draining then { j with bufs := j.bufs.setIfInBounds (g.toNat % 2) { b with state := .stable } } else j
  | none => j

/-- The drain in progress ends without a commit: its buffer leaves DRAINING, and a corrected event is logged (R267). -/
def failDrain (p : Nat) (s : State) : State :=
  match (s.part p).job with
  | none => s
  | some j =>
    match j.draining with
    | none => s
    | some g =>
      let s := s.modPart p fun q => { q with job := some { j.settleBuffer g with draining := none, drainImage := none, drainSent := none } }
      s.logError { source := 0x13, part := some p, unit := 0x20, core := 0x3FF, address := 0, detail := 0 }

/-- Every drain of a partition that cannot finish ends, those that wait for the one in progress with it (R267). -/
def endDrain (p : Nat) (s : State) : State :=
  let s := failDrain p s
  s.modPart p fun q => { q with job := q.job.map fun j =>
    { (j.queued.foldl (fun j e => j.settleBuffer e.1) j) with queued := [] } }

/-! ## Completion and release (R293) -/

/-- A node with nothing left to deliver opens the next epoch: early arrivals become current (R293). -/
def BarNode.next (n : BarNode) : BarNode :=
  { openEpoch := n.openEpoch + 1, counted := n.early, early := [], reported := false, releasing := [] }

/-- The barrier after its root completes the open epoch: every node begins its release; a die without members
has none to make; the root's own node, when it has no member, opens at once. -/
def Barrier.complete (b : Barrier) (root : Nat) : Barrier :=
  let nodes := Vector.ofFn fun i : Fin 4 =>
    let n := b.node i.val
    if (b.dieMembers i.val).isEmpty then n.next else { n with releasing := n.counted }
  let opens := (b.dieMembers root).isEmpty
  { b with
    nodes := nodes, rootReports := [], deviceReported := false, completing := !opens
    devices := if opens then b.earlyDevices else [], earlyDevices := if opens then [] else b.earlyDevices
    rootEpoch := if opens then b.rootEpoch + 1 else b.rootEpoch }

/-- May the epoch complete: for SCOPE 1 on the head once DEVICES reports are in, elsewhere after this device's
report (R288, R293)? -/
def completionDue (s : State) (p : Nat) (b : Barrier) : Bool :=
  b.rootComplete (s.rootDie p)
    && (!barScope b.entry || (if s.isHead then b.devices.length == barDevices b.entry else b.deviceReported))

/-- A release delivered at a node: the arrival leaves, and a node with nothing left opens its next epoch; with
the root's own node the root does (R293). -/
def Barrier.delivered (b : Barrier) (root die : Nat) (c : CoreId) : Barrier :=
  let n := b.node die
  let rest := n.releasing.filter fun a => a.core != c
  if rest.isEmpty then
    let b := b.modNode die fun n => n.next
    if die = root then { b with completing := false, rootEpoch := b.rootEpoch + 1, devices := b.earlyDevices, earlyDevices := [] } else b
  else b.modNode die fun n => { n with releasing := rest }

/-- A core held in a wait-mode BAR gets its answer: X[DST] holds the status when issue resumes, two cycles later (R290).
A core that a fault of an earlier instruction has halted meanwhile does not resume (R96). -/
def answerBar (c : CoreId) (elapsed : Nat) (dst : BitVec 6) (status : BitVec 3) (s : State) : State :=
  let T := heldCycle c elapsed s
  let u := (runTo c T s).modCore c fun k => { k with flight := { k.flight with answer := none } }
  if (u.core c).ctl.state = .waiting then
    countHeld c elapsed s (resumeIssue c T (u.modCore c fun k => { k with regs := k.regs.writeX dst.toNat (status.setWidth 64) false }))
  else u

/-- Is a release of another barrier, which the root sent earlier, still on its way to a core: packets on one path keep their
order (R300, R301, R303)? -/
def State.releaseBehind (s : State) (p bid : Nat) (c : CoreId) : Bool :=
  (s.part p).barriers.any fun b => b.1 != bid && decide (b.2.releaseNo < (s.barrier p bid).releaseNo)
    && (b.2.node (dieOf c)).releasing.any fun a => a.core == c

/-- BARRIER_RELEASE_DELIVERY: a release, or the answer to a refused wait-mode arrival, reaches a core (R290,
R292, R293): a waiting core resumes, a signal-mode member's semaphore rises. -/
def execBarrierReleaseDelivery (core : CoreId) (bid elapsed : Nat) (s : State) : Out :=
  let k := s.core core
  match k.ctl.hold, k.flight.answer with
  | .bar b _ dst, some st => if b.toNat = bid then .next (answerBar core elapsed dst st s) else .next s
  | hold, _ =>
    match s.corePart core with
    | none => .next s
    | some p =>
      match ((s.barrier p bid).node (dieOf core)).releasing.find? fun a => a.core == core with
      | none => .next s
      | some a =>
        if s.releaseBehind p bid core then .next s else
        let s' := wakeFor (pathDomains (s.rootDie p) (dieUnit core) ++ [rowDomain core])
          (s.modBarrier p bid fun b => b.delivered (s.rootDie p) (dieOf core) core)
        if (s.core core).flight.resetting then .next s'
        else if a.waits then
          match hold with
          | .bar b e dst =>
            if b.toNat = bid ∧ e = ((s.barrier p bid).node (dieOf core)).openEpoch then
              .next ((answerBar core elapsed dst 0 s).modBarrier p bid fun b => b.delivered (s.rootDie p) (dieOf core) core)
            else .next s'
          | _ => .next s'
        else
          let f := s'.freePlace
          if ((s'.core core).regs.readS a.sem.toNat).toNat < 65535 then
            .next (s'.incSem core a.sem.toNat 1 none { index := 0, half := false, count := 0 })
          else .next (f.2.incSem core a.sem.toNat 1 none f.1)

/-- A core reset discards the core's counted and held arrivals at every node, with a report that counted one
(R294). -/
def Barrier.discard (b : Barrier) (c : CoreId) : Barrier :=
  let die := dieOf c
  let n := b.node die
  let had := n.counted.any fun a => a.core == c
  if !n.releasing.isEmpty then
    let b := b.modNode die fun n => { n with early := n.early.filter fun a => a.core != c }
    b
  else
    let b := b.modNode die fun n => { n with
      counted := n.counted.filter (fun a => a.core != c), early := n.early.filter (fun a => a.core != c), reported := n.reported && !had }
    { b with rootReports := if had then b.rootReports.filter (· != die) else b.rootReports }

/-- Every arrival of a core discarded (R294, R443): on its way, counted, or held. -/
def discardArrivals (c : CoreId) (s : State) : State :=
  let s := { s with arrivals := s.arrivals.filter fun a => a.core != c }
  match s.corePart c with
  | none => s
  | some p => s.modPart p fun q => { q with
      barriers := q.barriers.map fun b => (b.1, b.2.discard c)
      job := q.job.map fun j => { j with arrived := j.arrived.filter fun a => a.1 != c.toNat } }

/-- Every barrier of a partition back at the epoch it was loaded with (R294, R444). -/
def restoreBarriers (p : Nat) (s : State) : State :=
  s.modPart p fun q => { q with barriers := q.barriers.map fun b => (b.1, Barrier.fresh b.2.entry b.2.members (barEpoch b.2.entry)) }

/-! ## The iron sweep (R296–R298) -/

/-- Does a core count as Stopped for the iron (R296)? -/
def ironStopped (k : Core) : Bool :=
  match k.ctl.state with
  | .stopped | .halted | .stoppedAtCount => true
  | _ => false

/-- Is a core waiting on something the iron counts: a WAIT, a SCOPE 0 BAR, a SWAPI or a START (R296)? -/
def ironWaits (s : State) (p : Nat) (k : Core) : Bool :=
  k.ctl.state == .waiting && (match k.ctl.hold with
    | .wait _ _ | .swapi _ | .start _ _ => true
    | .bar bid _ _ => !barScope (s.barrier p bid.toNat).entry
    | _ => false)

/-- A core's record in the iron report (R297, R298). -/
def ironRecord (k : Core) (conf : Bool) : BitVec 128 :=
  let body : Nat := match k.ctl.hold with
    | .wait r n => 1 + r.toNat * 2 ^ 3 + n.toNat * 2 ^ 8 + (k.regs.readS r.toNat).toNat * 2 ^ 24
    | .bar bid e _ => 2 + bid.toNat * 2 ^ 40 + e.toNat * 2 ^ 64
    | .swapi _ => 3 + (if k.ctl.half then 0 else 2 ^ 64)
    | .start h _ => 4 + (if h then 2 ^ 64 else 0)
    | _ => 0
  BitVec.ofNat 128 (body + (if conf then 0 else k.ctl.heldAt.toNat * 2 ^ 80 + (if k.ctl.half then 2 ^ 94 else 0)))

/-- Is a transfer of a partition queued or in progress (R296, condition 4)? -/
def State.transfersBusy (s : State) (p : Nat) : Bool :=
  (s.coresOf p).any (fun c => let f := (s.core c).flight; !f.queuesEmpty || f.fabric.current.isSome
      || decide (0 < (s.fabricProduced c - f.fabric.consumed).toNat ∧ (s.part p).job.isSome))
    || (s.unitsOf p).any (fun u => [2 * u, 2 * u + 1].any fun q => (s.pressUnit q).desc.isSome || decide (0 < (s.pressUnit q).available))
    || (s.wheelsOf p).any fun w => decide (0 < (s.wheel w).pendingCount.toNat)

/-- The place of a core in the iron report and the schedule image (R264). -/
def recordIndex (c : CoreId) : Nat := bits c.toNat 8 2 * 192 + bits c.toNat 4 4 * 16 + bits c.toNat 0 4

/-- Where the iron report of a partition lies: in the reserved region of its lowest-numbered present stack, past the wheel
table's share; the place there is left open (R20, R220, R297, log 168). -/
def State.ironAt (s : State) (p : Nat) : Nat :=
  hbmBase (((s.unitsOf p).filter s.unitPresent).head?.getD 0) + 0xFF0400000 + 64 * (Config.ironPlace p % 0x3E0000)

/-- The bytes of the iron report: the header, then the 768 core records (R297). -/
def State.ironBytes (s : State) (p : Nat) : List Byte :=
  let i := (s.part p).iron
  leBytes 64 (i.sweeps.toNat + s.presentMask p * 2 ^ 32 + i.reportBlocked.toNat * 2 ^ 48)
    ++ (List.range 768).flatMap fun n => leBytes 16 (match i.report with
        | some l => (Tbl.getD l n 0).toNat
        | none => 0)

/-- A deadlock declared: every core stops, the report of its last sweep's visits is written, and the error is
partition-fatal (R297). -/
def ironDeadlock (p blocked : Nat) (s : State) : State :=
  let s := (s.coresOf p).foldl (fun s c => stopCore c s) s
  let s := s.modPart p fun q => { q with iron := { q.iron with report := some q.iron.records, reportBlocked := BitVec.ofNat 16 blocked, prevOk := false } }
  let s := s.put (s.ironAt p) (s.ironBytes p) false
  s.partError { source := 0x12, part := some p, unit := 0x20, core := 0x3FF, address := 0, detail := 0 }

/-- The end of a sweep: counted, and a deadlock declared when it and the one before met every condition (R296). -/
def ironSweepEnd (p : Nat) (s : State) : State :=
  let i := (s.part p).iron
  let ok := decide (0 < i.blocked) && i.allBlocked && !i.disturbed && !s.transfersBusy p
  let s := s.modPart p fun q => { q with iron := { i with
    next := 0, blocked := 0, allBlocked := true, disturbed := false, prevOk := ok, sweeps := i.sweeps + 1 } }
  if ok && i.prevOk then ironDeadlock p i.blocked s else s

/-- IRON_VISIT: the token visits the next core in ascending ID; the last visit ends the sweep (R296). It pauses
while every core counts as Stopped, and while the partition resets or is held by a fatal error (R413, R457). -/
def execIronVisit (part : Nat) (s : State) : Out :=
  let q := s.part part
  let cores := s.coresOf part
  if q.resetting || q.fatal || cores.all fun c => ironStopped (s.core c) then .next s
  else match cores[q.iron.next]? with
    | none => .next (s.modPart part fun q => { q with iron := { q.iron with next := 0 } })
    | some c =>
      let k := s.core c
      let blockedNow := ironWaits s part k && Tbl.get? q.iron.visits c.toNat == some k.sys.issueCount
      let s := s.modPart part fun q => { q with iron := { q.iron with
        visits := Tbl.put q.iron.visits c.toNat k.sys.issueCount
        records := if blockedNow then Tbl.put q.iron.records (recordIndex c) (ironRecord k (s.confidential (some part)))
                   else Tbl.del q.iron.records (recordIndex c)
        next := q.iron.next + 1
        blocked := if blockedNow then q.iron.blocked + 1 else q.iron.blocked
        allBlocked := q.iron.allBlocked && (ironStopped k || blockedNow) } }
      .next (if q.iron.next + 1 = cores.length then ironSweepEnd part s else s)

end Sys2Proof.Machine
end

