-- ==== Sys2Proof/Machine/Control.lean ====
section
/-! DEFINITION. The control instructions: branches, LOOP, SWAPI, NOPN, RETT, STOP, and trap entry (R73–R76,
R92, R98). -/

namespace Sys2Proof.Machine

/-- The word index a branch or SWAPI names (R68). -/
def wTarget (w : Nat) : Nat := wImm w % 16384

/-- B (R68). -/
def execB (c : CoreId) (s : State) : Out :=
  issueOut (scalarRow 0x30 fun _ _ => true) c (fun x => .ok { x.plain with flow := .jump (wTarget x.w) }) s

/-- A conditional branch's encoding: SRC1 and SRC2 name X registers. -/
def legalBranch (_ : Core) (w : Nat) : Bool := field32 (wSrc1 w) && field32 (wSrc2 w)

/-- A conditional branch: taken when X[SRC1] compares with X[SRC2]; a marked source raises POISON (R68, R451). -/
def branch (holds : Word → Word → Bool) (x : Issue) : Except FaultReq Effect :=
  let a := wSrc1 x.w
  let b := wSrc2 x.w
  checked [poisonX x.k.regs [a, b]] { x.plain with
    reads := [auditX a, auditX b], flow := if holds (x.x a) (x.x b) then .jump (wTarget x.w) else .next 1 }

/-- BEQ (R68). -/
def execBeq (c : CoreId) (s : State) : Out := issueOut (scalarRow 0x31 legalBranch) c (branch (branchHolds 0x31)) s

/-- BNE (R68). -/
def execBne (c : CoreId) (s : State) : Out := issueOut (scalarRow 0x32 legalBranch) c (branch (branchHolds 0x32)) s

/-- BLT (R68). -/
def execBlt (c : CoreId) (s : State) : Out := issueOut (scalarRow 0x33 legalBranch) c (branch (branchHolds 0x33)) s

/-- BGE (R68). -/
def execBge (c : CoreId) (s : State) : Out := issueOut (scalarRow 0x34 legalBranch) c (branch (branchHolds 0x34)) s

/-- DEPTH of a LOOP plus one: the number of new levels (R73). -/
def loopDepth (w : Nat) : Nat := bits w 16 2 + 1
/-- The X register of the count of new level i (R73). -/
def loopCountReg (w i : Nat) : Nat := bits w (18 + 5 * i) 5
/-- END of new level i (R73). -/
def loopEnd (w i : Nat) : Nat := bits w (64 + 14 * i) 14

/-- The number of active levels (R74). -/
def activeLevels (g : CoreRegs) : Nat := ((List.range 4).filter fun j => ((g.loops[j]?).getD .reset).active).length

/-- Is a loop count legal (R75)? -/
def loopCountOk (v : Word) : Bool := decide (1 ≤ v.toNat) && decide (v.toNat ≤ 2 ^ 20)

/-- END of the level enclosing new level i of a LOOP at D active levels: the half's last word for an
outermost one (R75). -/
def enclosingEnd (g : CoreRegs) (w D i : Nat) : Nat :=
  if i = 0 then (if D = 0 then 16383 else ((g.loops[D - 1]?).getD .reset).endAt.toNat) else loopEnd w (i - 1)

/-- The levels after a LOOP at word index `index` with D active levels: d new ones, each with index 0, its
count, END and body start; deeper levels hold nothing (R74). -/
def loopLevels (g : CoreRegs) (w D index : Nat) : Vector LoopLevel 4 :=
  Vector.ofFn fun j =>
    if j.val < D then g.loops[j]
    else if j.val < D + loopDepth w then
      { active := true, index := 0, count := (g.readX (loopCountReg w (j.val - D))).setWidth 21,
        endAt := BitVec.ofNat 14 (loopEnd w (j.val - D)), start := BitVec.ofNat 14 (index + 2) }
    else .reset

/-- LOOP (R73–R75): POISON from a marked count, then LOOP_COUNT, LOOP_DEPTH, LOOP_END; otherwise its levels
are set up. -/
def setLoop (x : Issue) : Except FaultReq Effect :=
  let g := x.k.regs
  let new := List.range (loopDepth x.w)
  let regs := new.map (loopCountReg x.w)
  let D := activeLevels g
  let index := x.k.ctl.pc
  let ends := new.all fun i => decide (index + 2 ≤ loopEnd x.w i) && decide (loopEnd x.w i ≤ enclosingEnd g x.w D i)
  checked [poisonX g regs,
      if regs.all fun r => loopCountOk (x.x r) then none else some (plainFault 0x06),
      if D + loopDepth x.w ≤ 4 then none else some (plainFault 0x07),
      if ends then none else some (plainFault 0x08)]
    { x.plain with
      st := x.st.modRegs x.core fun g => { g with loops := loopLevels g x.w D index }
      reads := regs.map auditX }

/-- LOOP (R68). -/
def execLoop (c : CoreId) (s : State) : Out :=
  issueOut { scalarRow 0x40 (fun _ _ => true) with long := true } c setLoop s

/-- Is a half's LOADED flag set (R90)? -/
def CoreCtl.loaded (k : CoreCtl) (half : Bool) : Bool := if half then k.loadedB else k.loadedA

/-- SWAPI (R92): the inactive half becomes active when loaded, otherwise issue waits for it; active loop
levels exit. -/
def swapHalf (x : Issue) : Except FaultReq Effect :=
  .ok { x.plain with flow := if x.k.ctl.loaded (!x.k.ctl.half) then .swap (wTarget x.w) else .swapWait (wTarget x.w) }

/-- SWAPI (R68). -/
def execSwapi (c : CoreId) (s : State) : Out := issueOut (scalarRow 0x41 fun _ _ => true) c swapHalf s

/-- NOPN's count (R68). -/
def nopCount (w : Nat) : Nat := wImm w % 2 ^ 20

/-- NOPN: the next instruction issues n cycles later; the cycles between count as held (R70, R79, R462). -/
def execNopn (c : CoreId) (s : State) : Out :=
  issueOut (scalarRow 0x42 fun _ w => decide (nopCount w ≠ 0)) c
    (fun x => .ok { x.plain with st := x.st.countPerf x.core 0x03 (nopCount x.w - 1), flow := .next (nopCount x.w) }) s

/-- RETT: return from the handler that runs; without one it is ILLEGAL_OP (R97, R98). -/
def execRett (c : CoreId) (s : State) : Out :=
  issueOut (scalarRow 0x43 fun k _ => k.ctl.handler) c (fun x => .ok { x.plain with flow := .rett }) s

/-- STOP: issue stops, in-flight work completes, the core is Stopped (R68, R95). -/
def execStop (c : CoreId) (s : State) : Out :=
  issueOut (scalarRow 0x44 fun _ _ => true) c (fun x => .ok { x.plain with flow := .stop }) s

/-- The trap entry a TRAP fault waits for (R98): everything issued lands, then the handler's first instruction
is next, at TVEC. A core that one of the landing instructions halts enters no handler (R96). -/
def enterTrap (c : CoreId) (s : State) : State :=
  let t := (s.core c).flight.now
  let s := drain c s
  if (s.core c).ctl.state = .running then s.modCore c fun k => { k with
    ctl := { k.ctl with hold := .none, handler := true, pc := k.sys.tvec.toNat }
    flight := { k.flight with now := max (t + 1) k.flight.now } }
  else s

/-- TRAP_ENTRY: no effect unless the core waits for its trap entry. -/
def execTrapEntry (c : CoreId) (s : State) : Out :=
  .next (if (s.core c).ctl.hold = .trapEntry ∧ (s.core c).ctl.state = .running then enterTrap c s else s)

end Sys2Proof.Machine
end

