-- ==== Sys2Proof/Machine/Block.lean ====
section
/-! DEFINITION. The control block of a core: its registers as its window shows them, instruction memory, and the
actions of CORE_CTL (R89–R95, R100–R104, R173). -/

namespace Sys2Proof.Machine

/-! ## Actions (R95) -/

/-- AUDIT_MODE as a START selects it; none in a confidential partition (R88, R398). -/
def State.auditMode (s : State) (c : CoreId) : Nat := if s.confidential (s.corePart c) then 0 else s.dictNat 0x2000 5 0

/-- Has a partition-fatal error ended the use of a core's partition (R457)? -/
def State.coreFatal (s : State) (c : CoreId) : Bool := (s.corePart c).any fun p => (s.part p).fatal

/-- START: from Stopped, ISSUE_COUNT clears, the half becomes active, and issue begins at the entry once the half
is loaded; ignored in other states, while the core resets, and after a partition-fatal error (R95, R457). -/
def startCore (c : CoreId) (half : Bool) (entry : BitVec 14) (s : State) : State :=
  let k := s.core c
  if k.ctl.state ≠ .stopped ∨ k.flight.resetting ∨ s.coreFatal c then s
  else
    let loaded := k.ctl.loaded half
    s.modCore c fun k => { k with
      sys := { k.sys with issueCount := 0 }
      flight := { k.flight with answer := none, fed := false }
      ctl := { k.ctl with
        half := half, pc := entry.toNat, heldAt := entry, reissue := false, audit := s.auditMode c
        state := if loaded then .running else .waiting
        hold := if loaded then .none else .start half entry } }

/-- CONTINUE: from Stopped at count, issue resumes at the PC; ignored in a confidential partition (R95, R104). -/
def continueCore (c : CoreId) (s : State) : State :=
  if (s.core c).ctl.state = .stoppedAtCount ∧ !s.confidential (s.corePart c) ∧ !s.coreFatal c then
    s.modCore c fun k => { k with ctl := { k.ctl with state := .running } }
  else s

/-! ## The state dump (R103) -/

/-- The bytes a dump occupies. -/
def dumpSize (ls : Bool) : Nat := if ls then 0x900000 else 0x83000

/-- The subcode of R178 with which a dump range fails, if it does: no valid HBM descriptor of the partition covers
it (LIMIT), or none that does grants WR (RIGHTS). -/
def State.dumpFault (s : State) (c : CoreId) : Option AccessFault :=
  let k := (s.core c).ctl
  let a := k.dumpAddr.toNat
  let n := dumpSize k.ctlDumpLs
  let covering : Tbl (BitVec 256) := match s.corePart c with
    | none => []
    | some p => (s.part p).segs.filter fun d => segValid d.2 && segTier d.2 == 2 && decide (segBase d.2 ≤ a) && decide (a + n ≤ segBase d.2 + segLimit d.2 + 1)
  if covering.isEmpty then some .limit
  else if covering.any (fun d => segWr d.2) then none else some .rights

/-- DUMP: accepted when Stopped or Stopped at count, not in a confidential partition; a range no writable segment
holds puts SEGMENT in the fault log and nothing is dumped (R95, R103, R104). -/
def dumpCore (c : CoreId) (s : State) : State :=
  let k := s.core c
  if s.confidential (s.corePart c) || !(k.ctl.state == .stopped || k.ctl.state == .stoppedAtCount) || k.flight.resetting then s
  else match s.dumpFault c with
    | some f =>
      let p := s.freePlace
      (p.2.modCore c fun k => { k with ctl := { k.ctl with dumpDone := false } }).logFault c
        (faultEntry { code := 0x0B, detail := f.code, addr := k.ctl.dumpAddr, aux := 0 } p.1)
    | none => s.modCore c fun k => { k with ctl := { k.ctl with
        dumpDone := false, dumpAtCount := k.ctl.state == .stoppedAtCount, dumpTo := k.ctl.dumpAddr, dumpLs := k.ctl.ctlDumpLs
        state := .dumping } }

/-- Words of 8 bytes, lowest byte first. -/
def wordBytes (l : List Nat) : List Byte := l.flatMap (leBytes 8)

/-- Bytes padded with zeros, or cut, to a length. -/
def padTo (n : Nat) (l : List Byte) : List Byte := (l ++ List.replicate (n - l.length) 0).take n

/-- STATE of CORE_STAT (R95). -/
def RunState.code : RunState → Nat
  | .stopped => 0
  | .running => 1
  | .waiting => 2
  | .halted => 3
  | .stoppedAtCount => 4
  | .dumping => 5

/-- The bytes of a dump below the local store (R103, R110). -/
def dumpBytes (s : State) (c : CoreId) : List Byte :=
  let k := s.core c
  let g := k.regs
  let y := k.sys
  let st := if k.ctl.dumpAtCount then RunState.stoppedAtCount else .stopped
  let count := (y.cycleCount k.flight.now).toNat
  padTo 0x40 ((List.range 64).map (Config.dumpHead [c.toNat, st.code, if k.ctl.half then 1 else 0, k.ctl.pc, y.issueCount.toNat, count]))
    ++ padTo 0x100 (wordBytes ((List.range 32).map fun r => (g.readX r).toNat))
    ++ padTo 0x280 (wordBytes (g.a.toList.flatMap fun a => a.base.toNat :: a.inc.toList.map fun i => (i.signExtend 64).toNat))
    ++ padTo 0x40 (wordBytes (g.loops.toList.map (fun l => l.word.toNat) ++ g.loops.toList.map fun l => l.endAt.toNat + l.start.toNat * 2 ^ 32))
    ++ padTo 0x40 ((List.range 8).map (fun f => if g.readF f then 1 else 0) ++ leBytes 8 g.vstart.toNat ++ leBytes 32 g.ffr.toNat)
    ++ padTo 0x200 (g.p.toList.flatMap fun p => leBytes 32 p.toNat)
    ++ padTo 0x40 (g.sems.toList.flatMap fun v => leBytes 2 v.toNat)
    ++ padTo 0x200 (wordBytes (g.tpal.toList.map (·.toNat)))
    ++ padTo 0x180 (wordBytes (y.clip.toList.flatMap fun q => [q.total.word.toNat, q.sat.word.toNat, q.unf.word.toNat]))
    ++ padTo 0x600 (wordBytes ([y.cultLo.toNat, y.cultHi.toNat, y.cultStep.toNat] ++ [0xC0, 0xC1, 0xC2, 0xE0].map (fun n => (readSys k n k.flight.now false).toNat)
        ++ y.perf.toList.map (·.toNat)))
    ++ padTo 0x2000 (g.v.toList.flatMap fun v => leBytes 256 v.toNat)
    ++ ((List.range 4096).flatMap fun i => leBytes 64 (Tbl.getD g.tiles i 0).toNat)
    ++ wordBytes ((List.range 32768).map fun i => (Tbl.getD k.ctl.imem i 0).toNat)

/-- Lines marked where a copy of n bytes from one device address to another brought a byte of a marked line (R449, R450). -/
def State.copyMarks (s : State) (src dst n : Nat) : State :=
  let hit := (linesOf src n).filter s.marks.contains
  { s with marks := hit.foldl (fun l k =>
      let lo := max src (64 * k)
      (linesOf (dst + (lo - src)) (min (src + n) (64 * k + 64) - lo)).foldl insertNum l) s.marks }

/-- The dump completes: its bytes are written to the range that the DUMP took, the local store's with its marks, and
DUMP_DONE is set (R95, R103, R449). -/
def finishDump (c : CoreId) (s : State) : State :=
  let k := s.core c
  let a := k.ctl.dumpTo.toNat
  let s := if k.ctl.dumpLs then
      ((s.put a (padTo 0x100000 (dumpBytes s c)) false).put (a + 0x100000) (s.peek (lsBase c) 0x800000) false).copyMarks (lsBase c) (a + 0x100000) 0x800000
    else s.put a (dumpBytes s c) false
  (wakeFor (accessDomains (dieUnit c) a) s).modCore c fun k => { k with ctl := { k.ctl with
    dumpDone := true, state := if k.ctl.dumpAtCount then .stoppedAtCount else .stopped } }

/-! ## The control window (R173) -/

/-- Is the active half being fetched (R90, R94)? -/
def CoreCtl.fetching (k : CoreCtl) : Bool :=
  k.state == .running || (k.state == .waiting && !(match k.hold with | .start _ _ => true | _ => false))

/-- CORE_STAT (R95). -/
def CoreCtl.stat (k : CoreCtl) : Nat :=
  k.state.code + (if k.half then 2 ^ 3 else 0) + k.pc % 16384 * 2 ^ 4 + k.lastFault.toNat * 2 ^ 18 + (if k.dumpDone then 2 ^ 26 else 0)

/-- An 8-byte word of a core's control window, and whether it is marked (R90, R95, R100, R101, R173). -/
def State.windowWord (s : State) (c : CoreId) (ofs : Nat) : Nat × Bool :=
  let k := (s.core c).ctl
  let f (b : Bool) (i : Nat) : Nat := if b then 2 ^ i else 0
  if ofs < 0x40000 then ((Tbl.getD k.imem (ofs / 8) 0).toNat, k.imemMark.contains (ofs / 8))
  else if ofs = 0x40000 then (f k.half 0 + f k.loadedA 1 + f k.loadedB 2 + f k.fetching 3, false)
  else if ofs = 0x40008 then (f k.ctlHalf 2 + k.ctlEntry.toNat * 8 + f k.ctlDumpLs 18, false)
  else if ofs = 0x40010 then (k.stat, false)
  else if ofs = 0x40018 then (if s.confidential (s.corePart c) then 0 else k.rtcLimit.toNat + f k.rtcEnable 63, false)
  else if ofs = 0x40020 then (k.dumpAddr.toNat, false)
  else if ofs = 0x40028 then (k.fltNext.toNat + k.fltOverwritten.toNat * 2 ^ 16, false)
  else if 0x40100 ≤ ofs ∧ ofs < 0x40300 then
    (bits ((k.log[(ofs - 0x40100) / 32]?).getD .reset).word (64 * ((ofs - 0x40100) / 8 % 4)) 64, false)
  else (0, false)

/-- A read of a word of the fault log marks its entry as read (R100). -/
def State.noteRead (s : State) (c : CoreId) (ofs : Nat) : State :=
  if 0x40100 ≤ ofs ∧ ofs < 0x40300 then
    s.modCore c fun k => { k with ctl := { k.ctl with logRead := k.ctl.logRead ||| (1#16 <<< ((ofs - 0x40100) / 32)) } }
  else s

/-- Is a write of n bytes from a window offset on refused because it aims at the half being fetched (R94)? -/
def State.imemRefused (s : State) (c : CoreId) (ofs n : Nat) : Bool :=
  let k := (s.core c).ctl
  let lo := if k.half then 0x20000 else 0
  k.fetching && decide (ofs < lo + 0x20000) && decide (lo < ofs + n)

/-- IMEM_ACTIVE entered in a core's fault log, the target address in ADDR (R94, R100). R100 offers AUX a transfer tag "per
code" and no rule gives the refused transfer one: AUX is 0 (DESIGN CHOICE, log 163). -/
def State.logImemActive (s : State) (c : CoreId) (addr : Nat) : State :=
  let p := s.freePlace
  p.2.logFault c (faultEntry { code := 0x10, detail := 0, addr := BitVec.ofNat 64 addr, aux := 0 } p.1)

/-- An accepted write of an instruction-memory word: the half's LOADED flag clears, the word takes the mark of
the data (R91, R449). -/
def CoreCtl.writeImem (k : CoreCtl) (i : Nat) (v : Word) (mark : Bool) : CoreCtl :=
  { k with
    imem := Tbl.put k.imem i v
    imemMark := if mark then insertNum k.imemMark i else k.imemMark.filter (· ≠ i)
    loadedA := k.loadedA && decide (16384 ≤ i), loadedB := k.loadedB && decide (i < 16384) }

/-- A LOADED flag set (R90). -/
def setLoaded (c : CoreId) (half : Bool) (s : State) : State :=
  s.modCore c fun k => { k with ctl := if half then { k.ctl with loadedB := true } else { k.ctl with loadedA := true } }

/-- A write to CORE_CTL: the stored fields, then the one W1 bit that is set; two or more act on nothing (R95). -/
def writeCoreCtl (c : CoreId) (v : Nat) (s : State) : State :=
  let s := s.modCore c fun k => { k with ctl := { k.ctl with ctlHalf := bit v 2, ctlEntry := BitVec.ofNat 14 (bits v 3 14), ctlDumpLs := bit v 18 } }
  match bit v 0, bit v 1, bit v 17, bit v 19 with
  | true, false, false, false => startCore c (bit v 2) (BitVec.ofNat 14 (bits v 3 14)) s
  | false, true, false, false => stopCore c s
  | false, false, true, false => dumpCore c s
  | false, false, false, true => continueCore c s
  | _, _, _, _ => s

/-- A write of an 8-byte word to a core's control window; the caller has made R94's test (R90, R95, R100, R101,
R173). -/
def State.writeWindow (s : State) (c : CoreId) (ofs v : Nat) (mark : Bool) : State :=
  if ofs < 0x40000 then s.modCore c fun k => { k with ctl := k.ctl.writeImem (ofs / 8) (BitVec.ofNat 64 v) mark }
  else if ofs = 0x40000 then
    let s := if bit v 1 then setLoaded c false s else s
    if bit v 2 then setLoaded c true s else s
  else if ofs = 0x40008 then writeCoreCtl c v s
  else if ofs = 0x40018 then
    if s.confidential (s.corePart c) then s
    else s.modCore c fun k => { k with ctl := { k.ctl with rtcLimit := BitVec.ofNat 48 v, rtcEnable := bit v 63 } }
  else if ofs = 0x40020 then s.modCore c fun k => { k with ctl := { k.ctl with dumpAddr := BitVec.ofNat 64 v } }
  else if ofs = 0x40028 then s.modCore c fun k => { k with ctl := { k.ctl with fltOverwritten := 0 } }
  else s

/-- The offsets of a window that a stream may write: instruction memory and the control-block words of R173. -/
def windowTarget (ofs : Nat) : Bool := decide (ofs < 0x40030) || (decide (0x40100 ≤ ofs) && decide (ofs < 0x40300))

end Sys2Proof.Machine
end

