-- ==== Sys2Proof/Machine/Health.lean ====
section
/-! DEFINITION. What an HBM read's ECC events do (R452, R453, R460), and the eye map (R432, R433). -/

namespace Sys2Proof.Machine

/-! ## The eye map -/

/-- KIND, UNIT and LOCATION of an eye-map entry: what makes two entries one defect (R433). -/
def eyeKey (e : BitVec 128) : Nat := field e 0 48

/-- An eye-map entry (R432). -/
def eyeEntry (kind unit location step point : Nat) (start : BitVec 32) : BitVec 128 :=
  BitVec.ofNat 128 (kind % 2 ^ 8 + unit % 2 ^ 8 * 2 ^ 8 + location % 2 ^ 32 * 2 ^ 16 + step % 2 ^ 4 * 2 ^ 48 + point % 2 ^ 4 * 2 ^ 52
    + start.toNat * 2 ^ 64)

/-- Does the eye map already describe a defect (R433)? -/
def State.eyeKnown (s : State) (e : BitVec 128) : Bool := s.start.eyeMap.any fun x => eyeKey x == eyeKey e

/-- A defect recorded, unless it is known or the map is full (R433). -/
def State.addEye (s : State) (e : BitVec 128) : State :=
  if s.eyeKnown e || decide (16384 ≤ s.start.eyeMap.length) then s
  else State.flashWrote { s with start := { s.start with eyeMap := s.start.eyeMap ++ [e] } } regionEyeMap

/-- Every defect that this start repairs: the eye map's, and those a full map does not hold (R429, R433). -/
def Start.defects (t : Start) : List (BitVec 128) := t.eyeMap ++ t.unrecorded

/-- The lanes of a Hjelis Link port that no defect takes away (R432, R435). -/
def Start.portLanes (t : Start) (port : Nat) : BitVec 4 :=
  BitVec.ofNat 4 (((List.range 4).map fun l =>
    if t.defects.any (fun x => field x 0 8 == 7 && field x 16 5 == port && field x 21 2 == l) then 0 else 2 ^ l).foldl (· + ·) 0)

/-- Has a defect taken a CXL lane of a port away: lanes 0–7 are port 0's and 8–15 port 1's when bifurcated, all of them port 0's
otherwise; PRESUMED (R329, R432; log 195)? -/
def Start.cxlLaneLost (t : Start) (port : Nat) : Bool :=
  t.defects.any fun x => field x 0 8 == 8 && (!t.bifurcated || field x 16 4 / 8 == port)

/-! ## ECC events of HBM reads -/

/-- LOCATION of an HBM row (R432). -/
def rowLocation (e : EccEvent) : Nat := e.pc % 64 + e.bank % 16 * 2 ^ 6 + e.row % 2 ^ 18 * 2 ^ 10

/-- The key of an HBM row among the rows with corrected events. -/
def watchKey (stack location : Nat) : Nat := stack * 2 ^ 28 + location

/-- A row with more than 16 corrected events in one start is added to the eye map and counted, once the guard lets the flash take
it; STEP and POINT of a row found while On have no stated value: free values (R404, R431, R460). -/
def State.watchRow (s : State) (key : Nat) : State :=
  let stack := key / 2 ^ 28
  let location := key % 2 ^ 28
  let v := s.fresh
  let e := eyeEntry 0x06 (0x10 + stack) location (bits v.1.toNat 0 4) (bits v.1.toNat 4 4) s.start.number
  if Tbl.getD s.errors.rowCorrected key 0 < 17 ∨ s.flashHeld ∨ s.start.eyeMap.any (fun x => field x 0 8 == 6 && field x 8 8 == 0x10 + stack && field x 16 32 == location) then s
  else State.addEye { v.2 with errors := { v.2.errors with rowWatchAdded := v.2.errors.rowWatchAdded + 1 } } e

/-- One more corrected event of a row (R460). -/
def State.rowEvent (s : State) (stack : Nat) (e : EccEvent) : State :=
  let key := watchKey stack (rowLocation e)
  State.watchRow { s with errors := { s.errors with rowCorrected := Tbl.put s.errors.rowCorrected key (Tbl.getD s.errors.rowCorrected key 0 + 1) } } key

/-- An error event of a local store: the core's own counter of corrected errors, or the line marked (R452, R455, R462). -/
def State.storeEvent (s : State) (e : EccEvent) : State :=
  let c := coreAt e.addr
  let s := s.logError { source := if e.secondFails then 0x04 else 0x03, part := s.corePart c, unit := dieUnit c, core := c.toNat,
                        address := e.addr, detail := 0 }
  if e.secondFails then { s with marks := insertNum s.marks (e.addr / 64) } else s.countPerf c 0x0B 1

/-- An uncorrectable word of instruction memory is marked; its fetch is what is reported (R449, R451, R452). -/
def State.imemEvent (s : State) (e : EccEvent) : State :=
  let ofs := e.addr % 0x100000
  if e.secondFails ∧ ofs < 0x40000 then s.modCore (coreAt e.addr) fun k => { k with ctl := { k.ctl with imemMark := insertNum k.ctl.imemMark (ofs / 8) } }
  else s

/-- A transfer that a memory link or a mesh bridge sent again, which only delays it (R453, R455). -/
def State.resentEvent (s : State) (e : EccEvent) : State :=
  if isHbm e.addr then
    s.logError { source := 0x07, part := s.unitPart (stackOf e.addr), unit := 0x10 + stackOf e.addr, core := 0x3FF, address := e.addr, detail := 0 }
  else
    let c := coreAt e.addr
    s.logError { source := 0x07, part := s.corePart c, unit := dieUnit c, core := 0x3FF, address := e.addr, detail := 0 }

/-- An error event of an access. An HBM read whose ECC could not correct the data is read again: that corrects it, or the line is
marked (R452, R453). -/
def State.eccEvent (s : State) (e : EccEvent) : State :=
  if e.resent then s.resentEvent e
  else if regionOf e.addr = .localStore then s.storeEvent e
  else if regionOf e.addr = .window then s.imemEvent e
  else if !isHbm e.addr then s
  else
    let stack := stackOf e.addr
    let event : ErrorEvent := { source := if e.secondFails then 0x02 else 0x01, part := s.unitPart stack, unit := 0x10 + stack, core := 0x3FF,
                                address := e.addr, detail := (Config.eccDetail e.pc e.bank).toNat }
    let s := s.logError event
    if e.secondFails then { s with marks := insertNum s.marks (e.addr / 64) }
    else
      let s := { s with errors := { s.errors with eccCorrected := Tbl.put s.errors.eccCorrected stack (Tbl.getD s.errors.eccCorrected stack 0 + 1) } }
      s.rowEvent stack e

/-- The ECC events of a transfer's reads (R453). -/
def State.eccEvents (s : State) (l : List EccEvent) : State := l.foldl State.eccEvent s

end Sys2Proof.Machine
end

