-- ==== Sys2Proof/Machine/Wax.lean ====
section
/-! DEFINITION. The wax codec (R192–R196): the stored form of a tile of 4,096 bytes, its encoding, its decoding
and its checks, and reads and writes of wax segments. -/

namespace Sys2Proof.Machine

/-- The k pieces of n bytes of a byte string. -/
def pieces (n k : Nat) (l : List Byte) : List (List Byte) := (List.range k).map fun i => (l.drop (n * i)).take n

/-! ## Encoding (R193, R194) -/

/-- The 8-byte mask of a SPARSE line: bit b set when byte b is nonzero. -/
def sparseMask (l : List Byte) : Nat := packFields 1 (l.map fun b => if b = 0 then 0 else 1)

/-- The mode code and payload of a line, given the line before it: the first mode that applies (R193). -/
def lineMode (prev : Option (List Byte)) (l : List Byte) : Nat × List Byte :=
  if l.all (· == 0) then (1, [])
  else if prev = some l then (2, [])
  else if (l.filter (· != 0)).length ≤ 55 then (3, leBytes 8 (sparseMask l) ++ l.filter (· != 0))
  else (0, l)

/-- The modes and payloads of lines in order. -/
def lineModes (prev : Option (List Byte)) : List (List Byte) → List (Nat × List Byte)
  | [] => []
  | l :: t => lineMode prev l :: lineModes (some l) t

/-- How a tile is stored: its metadata byte and the bytes of its sectors (R193, R195). -/
structure WaxForm where
  info : Nat
  stored : List Byte
deriving DecidableEq, Repr

/-- A tile stored raw in 8 sectors (R193). -/
def waxRaw (tile : List Byte) : WaxForm := { info := 0x0F, stored := tile }

/-- The stored form of a tile of 4,096 bytes (R193–R195). -/
def waxEncode (tile : List Byte) : WaxForm :=
  if tile.all (· == 0) then { info := 0x10, stored := [] }
  else
    let m := lineModes none (pieces 64 64 tile)
    let body := m.flatMap (·.2)
    let len := 32 + body.length
    if 3584 < len then waxRaw tile
    else
      let sectors := (len + 511) / 512
      let head := 1 + (sectors - 1) * 2 ^ 8 + len * 2 ^ 16 + (crc32 tile).toNat * 2 ^ 32 + packFields 2 (m.map (·.1)) * 2 ^ 128
      { info := sectors - 1, stored := leBytes 32 head ++ body ++ List.replicate (512 * sectors - len) 0 }

/-! ## Decoding (R194, R196) -/

/-- The bytes of a SPARSE line from its mask and the payload after it, with the rest of the payload. -/
def spread : List Nat → List Byte → Option (List Byte × List Byte)
  | [], l => some ([], l)
  | 0 :: t, l => (spread t l).map fun r => (0 :: r.1, r.2)
  | _ :: t, b :: l => (spread t l).map fun r => (b :: r.1, r.2)
  | _ :: _, [] => none

/-- Lines decoded from their modes and the payloads; none where a check of R196 fails. -/
def unpackLines (prev : Option (List Byte)) : List Nat → List Byte → Option (List Byte × List Byte)
  | [], l => some ([], l)
  | m :: t, l =>
    let line : Option (List Byte × List Byte) :=
      match m with
      | 0 => if 64 ≤ l.length then some (l.take 64, l.drop 64) else none
      | 1 => some (List.replicate 64 0, l)
      | 2 => prev.map fun p => (p, l)
      | _ => if 8 ≤ l.length then spread ((List.range 64).map fun i => bits (leNat (l.take 8)) i 1) (l.drop 8) else none
    line.bind fun r => (unpackLines (some r.1) t r.2).map fun q => (r.1 ++ q.1, q.2)

/-- A compressed tile decoded from its sectors, with the checks of R196. -/
def waxUnpack (sectors : Nat) (stored : List Byte) : Option (List Byte) :=
  let head := leNat (stored.take 32)
  let len := bits head 16 12
  if bits head 0 4 ≠ 1 ∨ bits head 8 3 + 1 ≠ sectors ∨ len < 32 ∨ 3584 < len ∨ (len + 511) / 512 ≠ sectors then none
  else
    (unpackLines none ((List.range 64).map fun l => bits head (128 + 2 * l) 2) ((stored.drop 32).take (len - 32))).bind fun r =>
      if r.2.isEmpty ∧ (crc32 r.1).toNat = bits head 32 32 then some r.1 else none

/-- A tile as a read delivers it: its bytes, per line whether it is marked, and whether its check failed. -/
structure WaxTile where
  data : List Byte
  marks : List Bool
  failed : Bool

/-- A damaged tile: bytes without a stated value, every line poisoned (R196). -/
def waxBroken (stored : List Byte) : WaxTile :=
  { data := (List.range 4096).map fun i => Config.waxDamaged (leNat stored) i, marks := List.replicate 64 true, failed := true }

/-- Where a tile's sectors lie and how many bytes they take, from the low bits of its metadata byte or index
entry: SECTORS at `lo`, RAW and ZERO after it. -/
def waxTileAt (s : State) (start info : Nat) : WaxTile :=
  let sectors := bits info 0 3 + 1
  if bit info 4 then { data := List.replicate 4096 0, marks := List.replicate 64 false, failed := false }
  else if bit info 3 then
    { data := s.peek start 4096, marks := (List.range 64).map fun l => s.marked (start + 64 * l) 64, failed := false }
  else
    let stored := s.peek start (512 * sectors)
    if s.marked start (512 * sectors) then
      match waxUnpack sectors stored with
      | some d => { data := d, marks := List.replicate 64 true, failed := false }
      | none => waxBroken stored
    else match waxUnpack sectors stored with
      | some d => { data := d, marks := List.replicate 64 false, failed := false }
      | none => waxBroken stored

/-- Tile t of a wax segment as a read delivers it (R195, R196): a writable one by its metadata byte, a packed one
by its index entry, whose sectors must lie in the partition's reservation. -/
def State.waxTile (s : State) (d : BitVec 256) (granted : Nat → Nat → Bool) (t : Nat) : WaxTile :=
  if segPacked d then
    let e := s.peekNat (segMeta d + 8 * t) 8
    let start := segBase d + 512 * bits e 0 32
    let info := bits e 32 5
    let size := if bit info 4 then 0 else if bit info 3 then 4096 else 512 * (bits info 0 3 + 1)
    if size ≠ 0 ∧ !granted start size then waxBroken [] else waxTileAt s start info
  else waxTileAt s (segBase d + 4096 * t) (s.peekNat (segMeta d + t) 1)

/-- Is the wax encoder off (WAX_ENABLE FALSE, R398)? -/
def State.waxOff (s : State) : Bool := s.dictNat 0x2000 4 1 == 0

/-- A whole tile written to a writable wax segment: compressed, or raw with its line marks where a line of it
is marked, or where WAX_ENABLE is FALSE (R192, R195, R398, R450). -/
def State.waxWriteTile (s : State) (d : BitVec 256) (t : Nat) (tile : List Byte) (marks : List Bool) : State :=
  let f := if marks.any id || s.waxOff then waxRaw tile else waxEncode tile
  let base := segBase d + 4096 * t
  let s := if marks.any id then
      ((pieces 64 64 tile).zip marks).zipIdx.foldl (fun s p => s.put (base + 64 * p.2) p.1.1 p.1.2) s
    else s.put base f.stored false
  s.put (segMeta d + t) [BitVec.ofNat 8 f.info] false

end Sys2Proof.Machine
end

