-- ==== Sys2Proof/Machine/Transfer.lean ====
section
/-! DEFINITION. The data path that the stream, knife and fabric engines share: their scope, the pages of the cave
window, and bytes read and written through a resolved segment with their poison marks (R172, R178, R179, R187–R190,
R192, R449, R450). -/

namespace Sys2Proof.Machine

/-- A byte on its way, with whether the line it came from is marked (R449). -/
abbrev MByte := Byte × Bool

/-- The plain bytes of marked ones. -/
def plainBytes (l : List MByte) : List Byte := l.map (·.1)

/-- Is any of the bytes marked? -/
def anyMarked (l : List MByte) : Bool := l.any (·.2)

/-! ## Scope -/

/-- Do n ≥ 1 bytes at a device address lie within the resources of a partition (R172, R176, R178, R179): its cores'
local stores and windows, its job's HBM reservation, its cave ranges that CAVE_MAP
covers (R351), its host ranges? -/
def State.inPart (s : State) (p : Option Nat) (a n : Nat) : Bool :=
  match p with
  | none => false
  | some q =>
    match spanRegion a n with
    | .localStore | .window => s.spanOfPart p a n
    | .hbm => match (s.part q).job with
      | some j => j.holdsHbm (stackOf a) a n
      | none => false
    | .cave => (s.part q).layout.grantsSpan 3 a n && (s.seenBy p).caveCovers 9 a n
    | .host => (s.part q).layout.grantsSpan 4 a n
    | .peer | .hole => false

/-- The device address of offset `ofs` of a segment. -/
def segAddr (d : BitVec 256) (ofs : Nat) : Nat := segBase d + ofs

/-! ## Cave pages (R188) -/

/-- The size of a page of the cave window. -/
def pageSize : Nat := 0x200000

/-- Is a segment's data brought into the cave window (R188)? -/
def segMigrates (d : BitVec 256) : Bool := segTier d == 3 && segRes d

/-- The pages of a migrating segment that n ≥ 1 bytes at a device address touch, aligned from its BASE (R188). -/
def pagesOf (d : BitVec 256) (a n : Nat) : List Nat :=
  let k := (a - segBase d) / pageSize
  (List.range' k ((a + n - 1 - segBase d) / pageSize + 1 - k)).map fun i => segBase d + pageSize * i

/-- The bytes of a page in the cave window of a job, if it is there (R188). -/
def State.residentPage (s : State) (j : Job) (page : Nat) : Option (List Byte) :=
  (j.cavePages.find? fun c => c.page == page && c.ready).map fun c => s.peek (j.caveWindow + pageSize * c.slot) pageSize

/-- What a descriptor has of the pages it needs, after a look at the window: pages found there are read, and the
number of pages it must now wait for (R188, R189). -/
def State.gatherPages (s : State) (p : Option Nat) (need : List Nat) (u : CaveUse) : CaveUse × Nat :=
  match p.bind fun q => (s.part q).job with
  | none => (u, 0)
  | some j =>
    need.foldl (fun r page =>
      let u := r.1
      if (Tbl.get? u.pages page).isSome || u.bad.contains page then r
      else match s.residentPage j page with
        | some b => ({ u with pages := Tbl.put u.pages page b, waits := u.waits.filter (· != page) }, r.2)
        | none => if u.waits.contains page then r else ({ u with waits := insertNum u.waits page }, r.2 + 1)) (u, 0)

/-- Accesses that now wait for cave pages: counted in the telemetry and the core's events, and their migrations may
start (R188, R462). -/
def State.caveWait (s : State) (c : CoreId) (waits : List Nat) (new : Nat) : State :=
  match s.corePart c with
  | none => s
  | some p =>
    let s := s.modPart p fun q => { q with job := q.job.map fun j => { j with
      caveWaits := waits.foldl (fun l w => if j.cavePages.any (·.page == w) then l else insertNum l w) j.caveWaits } }
    { s with errors := { s.errors with notResident := s.errors.notResident + BitVec.ofNat 64 new } }.countPerf c 0x09 new

/-- The state as a descriptor of a partition sees it: the cave through the partition's port (R351), and the cave pages it has
read in place of the expander's bytes. -/
def State.caveView (s : State) (p : Option Nat) (u : CaveUse) : State :=
  let s := s.seenBy p
  { s with mem := u.pages.foldl (fun m p => p.2.zipIdx.foldl (fun m b => Memory.write m (s.caveAddr (p.1 + b.2)) b.1) m) s.mem }

/-- Bytes of device addresses that n bytes at an offset of a segment are held in: for a packed cave segment the
sectors of its tiles (R190, R195). -/
def sourceSpans (s : State) (d : BitVec 256) (ofs n : Nat) : List (Nat × Nat) :=
  if segWax d && segPacked d then
    (List.range' (ofs / 4096) ((ofs + n - 1) / 4096 + 1 - ofs / 4096)).filterMap fun t =>
      let e := s.peekNat (segMeta d + 8 * t) 8
      let start := segBase d + 512 * bits e 0 32
      let info := bits e 32 5
      if bit info 4 then none else some (start, if bit info 3 then 4096 else 512 * (bits info 0 3 + 1))
  else [(segAddr d ofs, n)]

/-- The pages that a read through a segment needs in the cave window. -/
def State.pagesNeeded (s : State) (d : BitVec 256) (ofs n : Nat) : List Nat :=
  if segMigrates d then (sourceSpans s d ofs n).flatMap fun r => pagesOf d r.1 r.2 else []

/-! ## Reading -/

/-- Words of a control window as bytes, each with the mark of its word (R173, R449). -/
def State.windowBytes (s : State) (a n : Nat) : List MByte :=
  (List.range (n / 8)).flatMap fun i =>
    let w := s.windowWord (coreAt (a + 8 * i)) ((a + 8 * i) % 0x100000)
    (leBytes 8 w.1).map fun b => (b, w.2)

/-- Bytes at a device address of memory, each with the mark of its line (R449). -/
def State.memBytes (s : State) (a n : Nat) : List MByte :=
  (s.peek a n).zipIdx.map fun b => (b.1, carriesMarks (a + b.2) && s.marks.contains ((a + b.2) / 64))

/-- A wax segment's bytes, each with the mark of its line, and the tiles whose check failed (R192, R196). -/
def State.waxBytes (s : State) (p : Option Nat) (d : BitVec 256) (ofs n : Nat) : List MByte × List Nat :=
  let nums := List.range' (ofs / 4096) ((ofs + n - 1) / 4096 + 1 - ofs / 4096)
  let tiles := nums.map fun t => (t, s.waxTile d (fun a n => s.inPart p a n) t)
  let all := tiles.flatMap fun t => t.2.data.zipIdx.map fun b => (b.1, (t.2.marks[b.2 / 64]?).getD false)
  ((all.drop (ofs % 4096)).take n, (tiles.filter fun t => t.2.failed).map (·.1))

/-- n bytes at an offset of a segment, as an engine of partition `p` reads them, and the wax tiles that failed. -/
def State.readSeg (s : State) (p : Option Nat) (d : BitVec 256) (u : CaveUse) (ofs n : Nat) : List MByte × List Nat :=
  if n = 0 then ([], [])
  else
    let v := s.caveView p u
    if segWax d then v.waxBytes p d ofs n
    else if segTier d = 1 then (s.windowBytes (segAddr d ofs) n, [])
    else (v.memBytes (segAddr d ofs) n, [])

/-- The errors of failed wax tiles logged (R196, R455). -/
def State.waxErrors (s : State) (p : Option Nat) (d : BitVec 256) (tiles : List Nat) : State :=
  tiles.foldl (fun s t => s.logError
    { source := 0x06, part := p, unit := if segTier d = 2 then 0x10 + stackOf (segBase d) else 0x20, core := 0x3FF,
      address := segBase d + 4096 * t, detail := 0 }) s

/-- Reads of fault-log words mark their entries as read (R100). -/
def State.noteReads (s : State) (d : BitVec 256) (ofs n : Nat) : State :=
  if segTier d = 1 then
    (List.range (n / 8)).foldl (fun s i => s.noteRead (coreAt (segAddr d ofs + 8 * i)) ((segAddr d ofs + 8 * i) % 0x100000)) s
  else s

/-- Marked lines that a read touches, counted for the core (R462). -/
def State.countMarkedAt (s : State) (c : CoreId) (a n : Nat) : State :=
  if s.marks.isEmpty then s else s.countPerf c 0x0C ((linesOf a n).filter fun l => s.marks.contains l).length

/-! ## Writing -/

/-- Lines that receive a marked byte. -/
def markedLines (a : Nat) (data : List MByte) : List Nat :=
  data.zipIdx.foldl (fun l b => if b.1.2 then insertNum l ((a + b.2) / 64) else l) []

/-- Bytes written to memory: a line wholly overwritten by unmarked bytes loses its mark, a line that receives a
marked byte is marked (R449, R450). -/
def State.putMarked (s : State) (a : Nat) (data : List MByte) : State :=
  let s := s.put a (plainBytes data) false
  if carriesMarks a then { s with marks := (markedLines a data).foldl insertNum s.marks } else s

/-- Whole words written to a control window; a word takes the mark of the bytes it is made of (R449). -/
def State.putWindow (s : State) (a : Nat) (data : List MByte) : State :=
  (List.range (data.length / 8)).foldl (fun s i =>
    let w := (data.drop (8 * i)).take 8
    s.writeWindow (coreAt (a + 8 * i)) ((a + 8 * i) % 0x100000) (leNat (plainBytes w)) (anyMarked w)) s

/-- A byte string with a part of it replaced. -/
def splice {α : Type} (l : List α) (at_ : Nat) (data : List α) : List α := l.take at_ ++ data ++ l.drop (at_ + data.length)

/-- Bytes put into one tile of a writable wax segment: the tile is decoded, changed and stored again; a line
overwritten whole takes the marks of its bytes, another keeps its own (R192, R450). -/
def State.putTile (s : State) (p : Option Nat) (d : BitVec 256) (t ofs : Nat) (data : List MByte) : State :=
  let old := s.waxTile d (fun a n => s.inPart p a n) t
  let marks := old.marks.zipIdx.map fun m =>
    let inside := (data.zipIdx.filter fun b => (ofs + b.2) / 64 == m.2).map (·.1)
    if inside.length = 64 then anyMarked inside else m.1 || anyMarked inside
  s.waxWriteTile d t (splice old.data ofs (plainBytes data)) marks

/-- Bytes written through a writable wax segment, tile by tile. -/
def State.putWax (s : State) (p : Option Nat) (d : BitVec 256) (ofs : Nat) (data : List MByte) : State :=
  let nums := List.range' (ofs / 4096) ((ofs + data.length - 1) / 4096 + 1 - ofs / 4096)
  nums.foldl (fun s t =>
    let lo := max ofs (4096 * t)
    let hi := min (ofs + data.length) (4096 * t + 4096)
    s.putTile p d t (lo - 4096 * t) ((data.drop (lo - ofs)).take (hi - lo))) s

/-- Bytes written at an offset of a segment by an engine of partition `p`. -/
def State.writeSeg (s : State) (p : Option Nat) (d : BitVec 256) (ofs : Nat) (data : List MByte) : State :=
  if data.isEmpty then s
  else if segWax d then s.putWax p d ofs data
  else if segTier d = 1 then s.putWindow (segAddr d ofs) data
  else s.putMarked (segAddr d ofs) data

end Sys2Proof.Machine
end

