-- ==== Sys2Proof/Machine/Stream.lean ====
section
/-! DEFINITION. The stream engine: enqueuing, the checks and the rows of a descriptor, and its completion
(R198–R208, with R94, R177, R178). -/

namespace Sys2Proof.Machine

/-! ## The descriptor (R200) -/

/-- OP. -/
def sdOp (r : BitVec 1024) : Nat := field r 0 8
/-- SEM. -/
def sdSem (r : BitVec 1024) : Nat := field r 8 5
/-- SFMT. -/
def sdSfmt (r : BitVec 1024) : Nat := field r 16 4
/-- DFMT. -/
def sdDfmt (r : BitVec 1024) : Nat := field r 20 4
/-- CONV. -/
def sdConv (r : BitVec 1024) : BitVec 8 := BitVec.ofNat 8 (field r 24 8)
/-- SCALE. -/
def sdScale (r : BitVec 1024) : Nat := field r 32 32
/-- SRC. -/
def sdSrc (r : BitVec 1024) : Word := BitVec.ofNat 64 (field r 64 64)
/-- DST. -/
def sdDst (r : BitVec 1024) : Word := BitVec.ofNat 64 (field r 128 64)
/-- BYTES0. -/
def sdBytes (r : BitVec 1024) : Nat := field r 192 32
/-- CNT1, CNT2, CNT3 for dimension 0, 1, 2. -/
def sdCount (r : BitVec 1024) (k : Nat) : Nat := field r (224 + 16 * k) 16
/-- SSTR1, SSTR2, SSTR3 for dimension 0, 1, 2. -/
def sdSrcStride (r : BitVec 1024) (k : Nat) : Int := sfield r (272 + 48 * k) 48
/-- DSTR1, DSTR2, DSTR3 for dimension 0, 1, 2. -/
def sdDstStride (r : BitVec 1024) (k : Nat) : Int := sfield r (416 + 48 * k) 48

/-- Bytes of one element of a CONVERT's source format. -/
def sdSw (r : BitVec 1024) : Nat := storageBits (sdSfmt r) / 8
/-- Bytes of one element of a CONVERT's destination format. -/
def sdDw (r : BitVec 1024) : Nat := storageBits (sdDfmt r) / 8

/-- Bytes a row writes (R201). -/
def rowBytes (r : BitVec 1024) : Nat := if sdOp r = 3 then sdBytes r / sdSw r * sdDw r else sdBytes r

/-- Rows of a descriptor (R201). -/
def rowCount (r : BitVec 1024) : Nat := sdCount r 0 * sdCount r 1 * sdCount r 2

/-- Where row n runs from or to, as a signed distance from SRC or DST (R201). -/
def rowShift (r : BitVec 1024) (stride : Nat → Int) (n : Nat) : Int :=
  stride 0 * (n % sdCount r 0 : Nat) + stride 1 * (n / sdCount r 0 % sdCount r 1 : Nat) + stride 2 * (n / sdCount r 0 / sdCount r 1 : Nat)

/-! ## Checks (R202, R203) -/

/-- One side of a transfer: its segment, its program address, the lowest and highest offset over all rows. -/
structure Span where
  seg : BitVec 256
  addr : Word
  lo : Int
  hi : Int
deriving DecidableEq, Repr

/-- The span of one side (R203). -/
def spanOf (r : BitVec 1024) (seg : BitVec 256) (addr : Word) (stride : Nat → Int) (n : Nat) : Span :=
  let ext (k : Nat) : Int := stride k * ((sdCount r k : Int) - 1)
  { seg := seg, addr := addr
    lo := (offsetOf addr : Int) + min 0 (ext 0) + min 0 (ext 1) + min 0 (ext 2)
    hi := (offsetOf addr : Int) + max 0 (ext 0) + max 0 (ext 1) + max 0 (ext 2) + n - 1 }

/-- The source span. -/
def srcSpan (j : StreamJob) : Span := spanOf j.raw j.srcSeg (sdSrc j.raw) (sdSrcStride j.raw) (sdBytes j.raw)
/-- The destination span. -/
def dstSpan (j : StreamJob) : Span := spanOf j.raw j.dstSeg (sdDst j.raw) (sdDstStride j.raw) (rowBytes j.raw)

/-- Is a device address formed (R178), of a span inside the offset bits (R203)? -/
def Span.formed (q : Span) : Bool := segValid q.seg && reservedZero q.addr && decide (0 ≤ q.lo) && decide (q.hi < 2 ^ 48)

/-- The device address of a span's first byte. -/
def Span.dev (q : Span) : Nat := segAddr q.seg q.lo.toNat
/-- The bytes of a span. -/
def Span.size (q : Span) : Nat := (q.hi - q.lo + 1).toNat

/-- Does a span's first byte lie in a control window? -/
def Span.inWindow (q : Span) : Bool := q.formed && regionOf q.dev == .window

/-- Are n bytes at a window offset all words that a stream may write: instruction memory and the control-block words
of R173 (R203)? -/
def windowSpanOk (ofs n : Nat) : Bool := decide (ofs + n ≤ 0x40030) || (decide (0x40100 ≤ ofs) && decide (ofs + n ≤ 0x40300))

/-- Does a span reach an instruction-memory half? -/
def Span.inImem (q : Span) : Bool := q.inWindow && decide (q.dev % 0x100000 < 0x40000)

/-- The span check of one subcode (R178, R203); true where it fails. -/
def Span.fails (s : State) (p : Option Nat) (q : Span) (dst : Bool) (exec : Bool) (aligned : Bool) (f : AccessFault) : Bool :=
  match f with
  | .scope => q.formed && (!s.inPart p q.dev q.size || (dst && q.inWindow && !windowSpanOk (q.dev % 0x100000) q.size))
  | .limit => !q.formed || decide ((segLimit q.seg : Int) < q.hi)
  | .rights => if dst then !segGrants q.seg .wr else !segGrants q.seg (if exec then .rdExec else .rd)
  | .align => !aligned

/-- A scope failure of a cave destination is a rights failure (R187, R203). -/
def Span.caveTarget (q : Span) : Bool := q.formed && regionOf q.dev == .cave

/-- Are the numbers multiples of n? -/
def multiples (n : Nat) (l : List Int) : Bool := l.all fun x => x % n == 0

/-- Does the source side keep its alignment rule (R203)? The device address of SRC is judged. -/
def srcAligned (j : StreamJob) : Bool :=
  let r := j.raw
  sdOp r != 3 || multiples (sdSw r) [(segBase j.srcSeg : Int) + offsetOf (sdSrc r), sdSrcStride r 0, sdSrcStride r 1, sdSrcStride r 2]

/-- Does the destination side keep its alignment rule (R203)? -/
def dstAligned (j : StreamJob) : Bool :=
  let r := j.raw
  let l := [(segBase j.dstSeg : Int) + offsetOf (sdDst r), sdDstStride r 0, sdDstStride r 1, sdDstStride r 2]
  if sdOp r = 3 then multiples (sdDw r) l else if sdOp r = 2 then multiples 8 l else true

/-- Has a side in a control window an address, stride or BYTES0 that is no multiple of 8 (R91, R173, R202)? -/
def windowMisfit (q : Span) (r : BitVec 1024) (stride : Nat → Int) (n : Nat) : Bool :=
  q.inWindow && !multiples 8 [(segBase q.seg : Int) + offsetOf q.addr, stride 0, stride 1, stride 2, sdBytes r, n]

/-- Offsets [lo, hi) merged into a list of disjoint rising ranges. -/
def addRange (l : List (Nat × Nat)) (lo hi : Nat) : List (Nat × Nat) :=
  match l with
  | [] => [(lo, hi)]
  | (a, b) :: t =>
    if hi < a then (lo, hi) :: (a, b) :: t
    else if b < lo then (a, b) :: addRange t lo hi
    else addRange t (min a lo) (max b hi)

/-- Does the destination of a descriptor, its rows taken together, cover a wax tile in part (R192, R202)? -/
def partlyCovers (j : StreamJob) : Bool :=
  let r := j.raw
  let rows := (List.range (rowCount r)).foldl (fun l n =>
    let a := wrapInt 48 ((offsetOf (sdDst r) : Int) + rowShift r (sdDstStride r) n)
    addRange l a (a + rowBytes r)) []
  rows.any fun x => x.1 % 4096 != 0 || x.2 % 4096 != 0

/-- BAD_DESCRIPTOR of R202. -/
def badStream (j : StreamJob) : Bool :=
  let r := j.raw
  let op := sdOp r
  op == 0 || decide (3 < op) || sdBytes r == 0 || sdCount r 0 == 0 || sdCount r 1 == 0 || sdCount r 2 == 0
    || (op == 3 && (decide (4 < sdSfmt r) || decide (4 < sdDfmt r) || convRnd (sdConv r) || sdBytes r % sdSw r != 0))
    || (op == 2 && sdBytes r % 8 != 0)
    || (op != 2 && windowMisfit (srcSpan j) r (sdSrcStride r) (sdBytes r))
    || windowMisfit (dstSpan j) r (sdDstStride r) (rowBytes r)
    || ((dstSpan j).formed && segWax j.dstSeg && !segPacked j.dstSeg && partlyCovers j)

/-- The earliest check of R178 that either span fails, the source first (R203). -/
def streamAccess (s : State) (p : Option Nat) (j : StreamJob) : Option AccessFault :=
  let src := srcSpan j
  let dst := dstSpan j
  let hasSrc := sdOp j.raw != 2
  [AccessFault.scope, .limit, .rights, .align].find? fun f =>
    (hasSrc && src.fails s p false dst.inImem (srcAligned j) f)
      || (dst.fails s p true false (dstAligned j) f && !(f == .scope && dst.caveTarget))

/-! ## Rows (R201, R206) -/

/-- A transfer under way: the state, the rows written, the cause that ended it, and the clip counts so far. -/
structure StreamMove where
  st : State
  done : Nat
  fail : Option Nat
  clips : Nat × Nat × Nat

/-- The offset of a row on one side, in the offset bits (R66, R201). -/
def rowOffset (addr : Word) (shift : Int) : Nat := wrapInt 48 ((offsetOf addr : Int) + shift)

/-- The elements of a row converted (R45, R201). -/
def convertRow (r : BitVec 1024) (data : List Byte) : List Converted :=
  (pieces (sdSw r) (data.length / sdSw r) data).map fun e =>
    convertScaled (floatFmt (sdDfmt r)) (convOvf (sdConv r)) ((floatFmt (sdSfmt r)).decode (leNat e)) (fp32.decode (sdScale r))

/-- The pattern of a FILL over a row (R201). -/
def fillRow (r : BitVec 1024) : List MByte :=
  (List.range (sdBytes r / 8)).flatMap fun _ => (leBytes 8 (sdSrc r).toNat).map fun b => (b, false)

/-- Cause DATA (R206). -/
def causeData : Nat := 0x07
/-- Cause POISON (R206). -/
def causePoison : Nat := 0x08

/-- One row: read whole, then written (R201, R206). -/
def moveRow (c : CoreId) (p : Option Nat) (j : StreamJob) (lost : Nat → Bool) (n : Nat) (m : StreamMove) : StreamMove :=
  let r := j.raw
  let src := rowOffset (sdSrc r) (rowShift r (sdSrcStride r) n)
  let dst := rowOffset (sdDst r) (rowShift r (sdDstStride r) n)
  if lost n then { m with fail := some causeData }
  else if sdOp r = 2 then { m with st := m.st.writeSeg p j.dstSeg dst (fillRow r), done := n + 1 }
  else
    let d := m.st.readSeg p j.srcSeg j.cave src (sdBytes r)
    let s := ((m.st.waxErrors p j.srcSeg d.2).noteReads j.srcSeg src (sdBytes r)).countMarkedAt c (segAddr j.srcSeg src) (sdBytes r)
    if sdOp r = 1 then { m with st := s.writeSeg p j.dstSeg dst d.1, done := n + 1 }
    else if anyMarked d.1 then { m with st := s, fail := some causePoison }
    else
      let conv := convertRow r (plainBytes d.1)
      let k := clipCount conv
      { m with
        st := s.writeSeg p j.dstSeg dst ((conv.flatMap fun v => leBytes (sdDw r) v.code).map fun b => (b, false)), done := n + 1
        clips := (m.clips.1 + k.1, m.clips.2.1 + k.2.1, m.clips.2.2 + k.2.2) }

/-- Rows from n on, in ascending order, until one ends the descriptor. -/
def moveRows (c : CoreId) (p : Option Nat) (j : StreamJob) (lost : Nat → Bool) : Nat → Nat → StreamMove → StreamMove
  | 0, _, m => m
  | fuel + 1, n, m => if m.fail.isSome then m else moveRows c p j lost fuel (n + 1) (moveRow c p j lost n m)

/-! ## The queue (R198, R204, R207) -/

/-- A stream queue of a core. -/
def CoreFlight.stream (f : CoreFlight) (q : Nat) : StreamQ := (f.streams[q]?).getD .reset

/-- A stream queue of a core changed. -/
def State.modStream (s : State) (c : CoreId) (q : Nat) (f : StreamQ → StreamQ) : State :=
  s.modCore c fun k => { k with flight := { k.flight with streams := k.flight.streams.setIfInBounds q (f (k.flight.stream q)) } }

/-- The outcome of a descriptor with no row done. -/
def nothingMoved (status cause : Nat) : DescOutcome :=
  { status := BitVec.ofNat 8 status, cause := BitVec.ofNat 8 cause, done := 0, faultIndex := 0 }

/-- A queue's head with its outcome: any other than OK and SKIPPED makes the queue skip when it completes. -/
def setOutcome (c : CoreId) (q : Nat) (o : DescOutcome) (clips : Nat × Nat × Nat) (s : State) : State :=
  s.modStream c q fun x => match x.jobs with
    | [] => x
    | j :: t => { x with jobs := { j with outcome := some o, clips := clips } :: t }

/-- Has every fixed-cycle write of instructions issued before a descriptor's enqueue taken place (R184)? -/
def CoreFlight.writesBefore (f : CoreFlight) (id : Nat) : Bool := f.sched.all fun e => decide (id ≤ e.seq) || !e.act.storesLs

/-- Does a row of a descriptor write a byte of the half [lo, lo + 128 KiB) of its target's window (R91, R94)? -/
def rowsTouch (j : StreamJob) (lo : Nat) : Bool :=
  (List.range (rowCount j.raw)).any fun n =>
    let ofs := segAddr j.dstSeg (rowOffset (sdDst j.raw) (rowShift j.raw (sdDstStride j.raw) n)) % 0x100000
    decide (ofs < lo + 0x20000) && decide (lo < ofs + rowBytes j.raw)

/-- LOADED flags of the halves that a transfer is accepted into clear (R91, R203). -/
def clearLoaded (j : StreamJob) (s : State) : State :=
  let d := dstSpan j
  if d.inImem then
    s.modCore (coreAt d.dev) fun k => { k with ctl := { k.ctl with
      loadedA := k.ctl.loadedA && !rowsTouch j 0, loadedB := k.ctl.loadedB && !rowsTouch j 0x20000 } }
  else s

/-- Is a descriptor refused because a byte of it aims at the half that its target is fetching (R94)? -/
def streamRefused (j : StreamJob) (s : State) : Bool :=
  let d := dstSpan j
  let k := (s.core (coreAt d.dev)).ctl
  d.inImem && k.fetching && rowsTouch j (if k.half then 0x20000 else 0)

/-- The pages of the cave window that a descriptor's rows read (R188). -/
def streamPages (s : State) (j : StreamJob) : List Nat :=
  if sdOp j.raw == 2 || !segMigrates j.srcSeg then []
  else (List.range (rowCount j.raw)).foldl (fun l n =>
    (s.pagesNeeded j.srcSeg (rowOffset (sdSrc j.raw) (rowShift j.raw (sdSrcStride j.raw) n)) (sdBytes j.raw)).foldl insertNum l) []

/-- Does row n read a page whose migration failed (R452)? -/
def rowLost (s : State) (j : StreamJob) (n : Nat) : Bool :=
  !j.cave.bad.isEmpty &&
    (s.pagesNeeded j.srcSeg (rowOffset (sdSrc j.raw) (rowShift j.raw (sdSrcStride j.raw) n)) (sdBytes j.raw)).any j.cave.bad.contains

/-- A read of the cave tier that gives no value is logged (R455): UR or CA from the expander. -/
def State.caveLost (s : State) (p : Option Nat) (a : Nat) : State :=
  s.logError { source := 0x0D, part := p, unit := 0x20, core := 0x3FF, address := a, detail := 0 }

/-- The transfer of an accepted descriptor: its rows, and its outcome in the queue. -/
def transferRows (c : CoreId) (q : Nat) (j : StreamJob) (env : TransferEnv) (s : State) : State :=
  let p := s.corePart c
  let s := clearLoaded j (s.eccEvents env.ecc)
  let lost (n : Nat) : Bool := env.noValue == some n || rowLost s j n
  let m := moveRows c p j lost (rowCount j.raw) 0 { st := s, done := 0, fail := none, clips := (0, 0, 0) }
  let s := if m.fail = some causeData ∧ env.noValue = some m.done ∧ segTier j.srcSeg = 3 ∧ sdOp j.raw ≠ 2 then
      m.st.caveLost p (segAddr j.srcSeg (rowOffset (sdSrc j.raw) (rowShift j.raw (sdSrcStride j.raw) m.done)))
    else m.st
  let o : DescOutcome := match m.fail with
    | none => { nothingMoved 0 0 with done := m.done }
    | some cause => { nothingMoved 0x06 cause with done := m.done }
  setOutcome c q o m.clips (wakeFor (segDomains c j.srcSeg ++ segDomains c j.dstSeg) s)

/-- A descriptor that its queue takes and does not skip: its checks, the cave pages it must wait for, its rows
(R94, R188, R202, R203). -/
def runStream (c : CoreId) (q : Nat) (j : StreamJob) (env : TransferEnv) (s : State) : State :=
  let p := s.corePart c
  let dst := dstSpan j
  if badStream j then setOutcome c q (nothingMoved 0x02 0) (0, 0, 0) s
  else match streamAccess s p j with
    | some f => setOutcome c q (nothingMoved 0x05 f.code) (0, 0, 0) s
    | none =>
      if streamRefused j s then
        setOutcome c q (nothingMoved 0x04 0) (0, 0, 0) (s.logImemActive (coreAt dst.dev) dst.dev)
      else
        let g := s.gatherPages p (streamPages s j) j.cave
        let j := { j with cave := g.1 }
        let s := s.modStream c q fun x => { x with jobs := j :: x.jobs.tail }
        if j.cave.waits.isEmpty then transferRows c q j env s
        else s.caveWait c j.cave.waits g.2

/-- Is a descriptor of the operation of a row, or of none (R202)? -/
def opMatches (op : Nat) (j : StreamJob) : Bool := sdOp j.raw == op || sdOp j.raw == 0 || decide (3 < sdOp j.raw)

/-- Has a descriptor been taken, and waited for cave pages? -/
def CaveUse.begun (u : CaveUse) : Bool := !u.pages.isEmpty || !u.waits.isEmpty || !u.bad.isEmpty

/-- A queue takes its head descriptor: in the skipping state it completes without action, unless SRESUME was given
(R207). A head that waits for its core's own writes, or has its outcome, is not taken. -/
def takeStream (op : Nat) (c : CoreId) (q : Nat) (env : TransferEnv) (s : State) : State :=
  let s' := runPending c s
  let f := (s'.core c).flight
  let x := f.stream q
  match x.jobs with
  | [] => s
  | j :: _ =>
    if j.outcome.isSome || !opMatches op j || !f.writesBefore j.id || f.resetting then s
    else
      let skip := x.skipping && !x.resume
      let s := s'.modStream c q fun x => { x with skipping := skip, resume := false }
      if j.cave.begun then runStream c q j env s'
      else if skip then setOutcome c q (nothingMoved 0x03 0) (0, 0, 0) s else runStream c q j env s

/-- COPY (R201). -/
def execCopy (core : CoreId) (queue : Nat) (env : TransferEnv) (s : State) : Out := .next (takeStream 1 core queue env s)

/-- FILL (R201). -/
def execFill (core : CoreId) (queue : Nat) (env : TransferEnv) (s : State) : Out := .next (takeStream 2 core queue env s)

/-- CONVERT (R201). -/
def execConvert (core : CoreId) (queue : Nat) (env : TransferEnv) (s : State) : Out := .next (takeStream 3 core queue env s)

/-! ## Completion (R205) -/

/-- A completion's semaphore increment at a core (R276, R278); a core in reset discards it (R443). -/
def State.signalDone (s : State) (c : CoreId) (r : Nat) : State :=
  if (s.core c).flight.resetting then s
  else if ((s.core c).regs.readS r).toNat < 65535 then s.incSem c r 1 none { index := 0, half := false, count := 0 }
  else
    let f := s.freePlace
    f.2.incSem c r 1 none f.1

/-- STREAM_COMPLETION: the clip counts, then STATUS, CAUSE and DONE in the record, then the semaphore; the
descriptor leaves its queue, and an error makes the queue skip (R51, R205, R207). -/
def completeStream (c : CoreId) (q : Nat) (j : StreamJob) (o : DescOutcome) (s : State) : State :=
  let s := if j.clips.1 = 0 then s
    else s.modCore c fun k => k.addClips (convSet (sdConv j.raw)) j.clips.1 j.clips.2.1 j.clips.2.2
  let s := s.put (j.record + 96) [o.status, o.cause] false
  let s := s.put (j.record + 100) (leBytes 6 o.done) false
  let s := (s.noteFed c).modStream c q fun x => { x with jobs := x.jobs.tail, skipping := x.skipping || !(o.status == 0 || o.status == 3) }
  let s := wakeFor (accessDomains (dieUnit c) j.record) (((s.touched c).countPerf c 0x06 (o.done * sdBytes j.raw)).countTimes c)
  (s.signalDone c (sdSem j.raw)).disturb (s.corePart c)

/-- STREAM_COMPLETION: the head of a queue whose outcome is known completes. -/
def execStreamCompletion (core : CoreId) (queue : Nat) (s : State) : Out :=
  match ((s.core core).flight.stream queue).jobs with
  | [] => .next s
  | j :: _ =>
    match j.outcome with
    | none => .next s
    | some o => .next (completeStream core queue j o (runPending core s))

/-! ## SNQ and SRESUME (R199) -/

/-- A stream-engine row. -/
def streamRow (opc : Nat) (legal : Nat → Bool) : CoreRow :=
  { eng := 3, opc := opc, long := false, picks := fun _ _ => true, legal := fun _ w => legal w, unit := 4, reaches := reachesNothing }

/-- The descriptor record at an address as an enqueue reads it: n bytes of the own local store, or the fault; the
low address bits are taken as zero (R162, R199). -/
def ownRecord (x : Issue) (n : Nat) : Option FaultReq × Nat :=
  let a := x.x (wSrc1 x.w)
  let a := BitVec.ofNat 64 (a.toNat / n * n)
  match x.st.ownAccess x.core a n .rd 1 with
  | .ok dev => (none, dev)
  | .error f => (some (accessFault f a), 0)

/-- The queue of an SNQ or SRESUME: IMM[1:0]. -/
def wQueue (w : Nat) : Nat := wImm w % 4

/-- SNQ: the descriptor is read, its segments resolved, and it takes its queue entry (R177, R198, R199). -/
def enqueueStream (x : Issue) : Except FaultReq Effect :=
  let rcd := ownRecord x 128
  let q := wQueue x.w
  let raw := BitVec.ofNat 1024 (x.st.readNat rcd.2 128)
  let p := x.st.corePart x.core
  let job : StreamJob := { raw := raw, record := rcd.2, srcSeg := x.st.segOf p (sdSrc raw), dstSeg := x.st.segOf p (sdDst raw),
                           id := x.k.flight.seq, cave := .reset, outcome := none, clips := (0, 0, 0) }
  checked [poisonX x.k.regs [wSrc1 x.w], rcd.1, if 16 ≤ (x.k.flight.stream q).jobs.length then some queueFull else none]
    { x.plain with
      reads := [auditX (wSrc1 x.w)]
      st := ((x.st.countMarkedAt x.core rcd.2 128).modStream x.core q fun y => { y with jobs := y.jobs ++ [job] }).touched x.core }

/-- SNQ (R199). -/
def execSnq (c : CoreId) (s : State) : Out := issueOut (streamRow 0x01 fun w => field32 (wSrc1 w)) c enqueueStream s

/-- SRESUME: the descriptor its queue takes next runs normally (R199, R207). -/
def execSresume (c : CoreId) (s : State) : Out :=
  issueOut (streamRow 0x02 fun _ => true) c
    (fun x => .ok { x.plain with st := x.st.modStream x.core (wQueue x.w) fun y => { y with resume := true } }) s

end Sys2Proof.Machine
end

