-- ==== Sys2Proof/Machine/Knife.lean ====
section
/-! DEFINITION. The knife engine: enqueuing, its elements, and completion (R161–R169). -/

namespace Sys2Proof.Machine

/-! ## The descriptor (R163) -/

/-- ELEM_BYTES. -/
def kdElem (r : BitVec 512) : Nat := field r 16 13
/-- IDXW. -/
def kdIdxw (r : BitVec 512) : Nat := field r 29 2
/-- Bytes of an index. -/
def kdIndexBytes (r : BitVec 512) : Nat := 2 * 2 ^ kdIdxw r
/-- COUNT. -/
def kdCount (r : BitVec 512) : Nat := field r 32 24
/-- SEM. -/
def kdSem (r : BitVec 512) : Nat := field r 56 5
/-- INDEX_ADDR. -/
def kdIndex (r : BitVec 512) : Word := BitVec.ofNat 64 (field r 64 64)
/-- TABLE_BASE. -/
def kdTable (r : BitVec 512) : Word := BitVec.ofNat 64 (field r 128 64)
/-- DENSE_ADDR. -/
def kdDense (r : BitVec 512) : Word := BitVec.ofNat 64 (field r 192 64)
/-- START. -/
def kdStart (r : BitVec 512) : Nat := field r 256 24
/-- TSTRIDE; 0 means ELEM_BYTES. -/
def kdStride (r : BitVec 512) : Nat := if field r 288 48 = 0 then kdElem r else field r 288 48
/-- BOUND. -/
def kdBound (r : BitVec 512) : Nat := field r 336 48

/-- Is ELEM_BYTES one of the sizes of R163? -/
def elemOk (n : Nat) : Bool := n ∈ [1, 2, 4, 8] || (n % 16 == 0 && decide (16 ≤ n) && decide (n ≤ 4096))

/-- Is a device address formed for a program address (R178)? -/
def addrFormed (d : BitVec 256) (a : Word) : Bool := segValid d && reservedZero a

/-- Does a read of n bytes at INDEX_ADDR fail the scope check: outside the core's own local store (R165)? -/
def indexOutside (c : CoreId) (d : BitVec 256) (a : Word) (n : Nat) : Bool :=
  addrFormed d a && !inOwnStore c (segAddr d (offsetOf a)) n

/-- BAD_DESCRIPTOR (R165). -/
def badKnife (c : CoreId) (j : KnifeJob) : Bool :=
  let r := j.raw
  let op := knifeOp j
  op == 0 || decide (3 < op) || !elemOk (kdElem r) || kdIdxw r == 3 || kdCount r == 0 || decide (kdCount r ≤ kdStart r)
    || (op == 3 && kdElem r % 4 != 0)
    || indexOutside c j.indexSeg (kdIndex r) (kdIndexBytes r)
    || (addrFormed j.indexSeg (kdIndex r) && segAddr j.indexSeg (offsetOf (kdIndex r)) % kdIndexBytes r != 0)

/-! ## Elements (R164–R166) -/

/-- The offset a distance on from a program address, in the offset bits. -/
def offsetBy (a : Word) (n : Nat) : Nat := (offsetOf a + n) % 2 ^ 48

/-- Entry i of the index list; none where the read fails (R165, check 1). -/
def readIndex (s : State) (c : CoreId) (j : KnifeJob) (i : Nat) : Option Nat :=
  let n := kdIndexBytes j.raw
  let d := j.indexSeg
  let ofs := offsetBy (kdIndex j.raw) (i * n)
  let a := segAddr d ofs
  if !addrFormed d (kdIndex j.raw) || !inOwnStore c a n || decide (segLimit d < ofs + n - 1) || !segRd d || s.marked a n then none
  else some (s.readNat a n)

/-- One side of an element: its segment, program address and offset, and the rights it needs. -/
structure Side where
  seg : BitVec 256
  addr : Word
  ofs : Nat
  rights : List Right
deriving DecidableEq, Repr

/-- The table side of an element with index x; an element write into a wax segment has no right (R192). -/
def tableSide (j : KnifeJob) (x : Nat) : Side :=
  { seg := j.tableSeg, addr := kdTable j.raw, ofs := offsetBy (kdTable j.raw) (x * kdStride j.raw)
    rights := if knifeOp j = 1 then [.rd] else if knifeOp j = 2 then [.wr] else [.rd, .wr] }

/-- The dense side of element i. -/
def denseSide (j : KnifeJob) (i : Nat) : Side :=
  { seg := j.denseSeg, addr := kdDense j.raw, ofs := offsetBy (kdDense j.raw) (i * kdElem j.raw)
    rights := if knifeOp j = 1 then [.wr] else [.rd] }

/-- Does a side fail a check of R165 (3 to 6)? -/
def Side.fails (s : State) (p : Option Nat) (q : Side) (n : Nat) (f : AccessFault) : Bool :=
  let a := segAddr q.seg q.ofs
  match f with
  | .scope => addrFormed q.seg q.addr &&
      !(s.inPart p a n && (match spanRegion a n with | .localStore | .hbm | .cave => true | _ => false))
  | .limit => !addrFormed q.seg q.addr || decide (segLimit q.seg < q.ofs + n - 1)
  | .rights => q.rights.any fun r => !segGrants q.seg r || (r == .wr && segWax q.seg)
  | .align => a % min n 16 != 0

/-- The first check that an element fails, over both its addresses (R165). -/
def knifeFault (s : State) (p : Option Nat) (j : KnifeJob) (i x : Nat) : Option AccessFault :=
  [AccessFault.scope, .limit, .rights, .align].find? fun f =>
    (tableSide j x).fails s p (kdElem j.raw) f || (denseSide j i).fails s p (kdElem j.raw) f

/-- A descriptor's elements under way: the state, how many are done, the fault that ended it (CAUSE and
FAULT_INDEX), and the cave pages it must wait for. -/
structure KnifeMove where
  st : State
  done : Nat
  fault : Option (Nat × Word)
  waits : List Nat

/-- Bytes that never arrived, as marked ones (R166, R452). -/
def lostBytes (a n : Nat) : List MByte := (List.range n).map fun i => (Config.lostByte (a + i), true)

/-- The bytes an element's side holds, lost ones where its cave page or its read gave no value, with the state after the
read's events. -/
def readSide (c : CoreId) (p : Option Nat) (j : KnifeJob) (lost : Bool) (q : Side) (s : State) : List MByte × State :=
  let n := kdElem j.raw
  let a := segAddr q.seg q.ofs
  if lost then (lostBytes a n, if segTier q.seg = 3 then s.caveLost p a else s)
  else if (s.pagesNeeded q.seg q.ofs n).any j.cave.bad.contains then (lostBytes a n, s)
  else
    let d := s.readSeg p q.seg j.cave q.ofs n
    (d.1, (s.waxErrors p q.seg d.2).countMarkedAt c a n)

/-- The FP32 words of two elements added (R164); a sum of a marked word is marked (R166). -/
def addElements (t d : List MByte) : List MByte :=
  (List.range (t.length / 4)).flatMap fun i =>
    let a := (t.drop (4 * i)).take 4
    let b := (d.drop (4 * i)).take 4
    (leBytes 4 (addF32 (leNat (plainBytes a)) (leNat (plainBytes b)))).map fun x => (x, anyMarked a || anyMarked b)

/-- Element i with index x moved (R164). -/
def moveElement (c : CoreId) (p : Option Nat) (j : KnifeJob) (lost : Bool) (i x : Nat) (s : State) : State :=
  let t := tableSide j x
  let d := denseSide j i
  match knifeOp j with
  | 1 =>
    let r := readSide c p j lost t s
    r.2.writeSeg p d.seg d.ofs r.1
  | 2 =>
    let r := readSide c p j lost d s
    r.2.writeSeg p t.seg t.ofs r.1
  | _ =>
    let a := readSide c p j lost t s
    let b := readSide c p j lost d a.2
    b.2.writeSeg p t.seg t.ofs (addElements a.1 b.1)

/-- The pages of the cave window that element i needs and its descriptor has not (R188). -/
def elementPages (s : State) (j : KnifeJob) (i x : Nat) : List Nat :=
  let n := kdElem j.raw
  ((s.pagesNeeded j.tableSeg (tableSide j x).ofs n) ++ (if knifeOp j = 1 then [] else s.pagesNeeded j.denseSeg (denseSide j i).ofs n)).filter
    fun g => (Tbl.get? j.cave.pages g).isNone && !j.cave.bad.contains g

/-- Element i: its index, its checks, then its move (R165, R166). -/
def stepElement (c : CoreId) (p : Option Nat) (j : KnifeJob) (env : TransferEnv) (i : Nat) (m : KnifeMove) : KnifeMove :=
  match (if env.noIndex = some i then none else readIndex m.st c j i) with
  | none => { m with fault := some (0x06, BitVec.allOnes 64) }
  | some x =>
    if kdBound j.raw ≠ 0 ∧ kdBound j.raw ≤ x then { m with fault := some (0x05, BitVec.ofNat 64 x) }
    else match knifeFault m.st p j i x with
      | some f => { m with fault := some (f.code, BitVec.ofNat 64 x) }
      | none =>
        let need := elementPages m.st j i x
        if need.isEmpty then { m with st := moveElement c p j (env.noValue == some i) i x m.st, done := m.done + 1 }
        else { m with waits := need }

/-- Elements from i on, in ascending order, until one faults or must wait. -/
def stepElements (c : CoreId) (p : Option Nat) (j : KnifeJob) (env : TransferEnv) : Nat → Nat → KnifeMove → KnifeMove
  | 0, _, m => m
  | fuel + 1, i, m => if m.fault.isSome || !m.waits.isEmpty then m else stepElements c p j env fuel (i + 1) (stepElement c p j env i m)

/-! ## The queue (R161, R169) -/

/-- The knife engine of a core changed. -/
def State.modKnife (s : State) (c : CoreId) (f : Knife → Knife) : State :=
  s.modCore c fun k => { k with flight := { k.flight with knife := f k.flight.knife } }

/-- The head descriptor with its outcome. -/
def knifeOutcome (c : CoreId) (o : DescOutcome) (s : State) : State :=
  s.modKnife c fun x => match x.jobs with
    | [] => x
    | j :: t => { x with jobs := { j with outcome := some o } :: t }

/-- A descriptor that the engine begins (R164–R166): with every page it needs at hand its elements move; with one
absent nothing has moved yet, and it waits (R188). -/
def runKnife (c : CoreId) (j : KnifeJob) (env : TransferEnv) (s : State) : State :=
  let p := s.corePart c
  if badKnife c j then knifeOutcome c (nothingMoved 0x02 0) s
  else
    let g := s.gatherPages p j.cave.waits j.cave
    let j := { j with cave := g.1 }
    let begun := s.eccEvents env.ecc
    let m := stepElements c p j env (kdCount j.raw - kdStart j.raw) (kdStart j.raw) { st := begun, done := 0, fault := none, waits := [] }
    if m.waits.isEmpty then
      let o : DescOutcome := match m.fault with
        | none => { nothingMoved 0 0 with done := m.done }
        | some f => { nothingMoved 0x01 f.1 with done := m.done, faultIndex := f.2 }
      knifeOutcome c o (wakeFor (segDomains c j.indexSeg ++ segDomains c j.tableSeg ++ segDomains c j.denseSeg)
        (m.st.modKnife c fun x => { x with jobs := j :: x.jobs.tail }))
    else
      let h := s.gatherPages p m.waits j.cave
      (s.modKnife c fun x => { x with jobs := { j with cave := h.1 } :: x.jobs.tail }).caveWait c h.1.waits h.2

/-- Is a descriptor of the operation of a row, or of none (R165)? -/
def knifeMatches (op : Nat) (j : KnifeJob) : Bool := knifeOp j == op || knifeOp j == 0 || decide (3 < knifeOp j)

/-- The engine takes its next descriptor: in the skipping state it completes without action, unless KNRESUME was given
(R169). -/
def takeKnife (op : Nat) (c : CoreId) (env : TransferEnv) (s : State) : State :=
  let s' := runPending c s
  let f := (s'.core c).flight
  match f.knife.jobs with
  | [] => s
  | j :: _ =>
    if j.outcome.isSome || !knifeMatches op j || !f.writesBefore j.id || f.resetting then s
    else if j.cave.begun then runKnife c j env s'
    else
      let skip := f.knife.skipping && !f.knife.resume
      let s := s'.modKnife c fun x => { x with skipping := skip, resume := false }
      if skip then knifeOutcome c (nothingMoved 0x03 0) s else runKnife c j env s

/-- GATHER (R164). -/
def execGather (core : CoreId) (env : TransferEnv) (s : State) : Out := .next (takeKnife 1 core env s)

/-- SCATTER (R164). -/
def execScatter (core : CoreId) (env : TransferEnv) (s : State) : Out := .next (takeKnife 2 core env s)

/-- SCATTER_ADD (R164). -/
def execScatterAdd (core : CoreId) (env : TransferEnv) (s : State) : Out := .next (takeKnife 3 core env s)

/-- A knife descriptor completes: STATUS, DONE, CAUSE and FAULT_INDEX in the record, then the semaphore (R167, R169). -/
def completeKnife (c : CoreId) (j : KnifeJob) (o : DescOutcome) (s : State) : State :=
  let s := s.put (j.record + 48) (o.status :: leBytes 3 o.done ++ [o.cause]) false
  let s := s.put (j.record + 56) (leBytes 8 o.faultIndex.toNat) false
  let s := (s.noteFed c).modKnife c fun x => { x with jobs := x.jobs.tail, skipping := x.skipping || o.status == 1 || o.status == 2 }
  let s := wakeFor (accessDomains (dieUnit c) j.record) (((s.touched c).countPerf c 0x07 o.done).countTimes c)
  (s.signalDone c (kdSem j.raw)).disturb (s.corePart c)

/-- KNIFE_COMPLETION: the engine's descriptor completes once its outcome is known. -/
def execKnifeCompletion (core : CoreId) (s : State) : Out :=
  match (s.core core).flight.knife.jobs with
  | [] => .next s
  | j :: _ =>
    match j.outcome with
    | none => .next s
    | some o => .next (completeKnife core j o (runPending core s))

/-! ## KNQ and KNRESUME (R162) -/

/-- A knife-engine row. -/
def knifeRow (opc : Nat) (legal : Nat → Bool) : CoreRow :=
  { eng := 4, opc := opc, long := false, picks := fun _ _ => true, legal := fun _ w => legal w, unit := 5, reaches := reachesNothing }

/-- KNQ: the descriptor is read, its segments resolved, and it takes its queue entry (R161, R162, R177). -/
def enqueueKnife (x : Issue) : Except FaultReq Effect :=
  let rcd := ownRecord x 64
  let raw := BitVec.ofNat 512 (x.st.readNat rcd.2 64)
  let p := x.st.corePart x.core
  let job : KnifeJob := { raw := raw, record := rcd.2, indexSeg := x.st.segOf p (kdIndex raw), tableSeg := x.st.segOf p (kdTable raw),
                          denseSeg := x.st.segOf p (kdDense raw), id := x.k.flight.seq, cave := .reset, outcome := none }
  checked [poisonX x.k.regs [wSrc1 x.w], rcd.1, if 8 ≤ x.k.flight.knife.jobs.length then some queueFull else none]
    { x.plain with
      reads := [auditX (wSrc1 x.w)]
      st := ((x.st.countMarkedAt x.core rcd.2 64).modKnife x.core fun y => { y with jobs := y.jobs ++ [job] }).touched x.core }

/-- KNQ (R162). -/
def execKnq (c : CoreId) (s : State) : Out := issueOut (knifeRow 0x01 fun w => field32 (wSrc1 w)) c enqueueKnife s

/-- KNRESUME: the descriptor the engine takes next runs normally (R162, R169). -/
def execKnresume (c : CoreId) (s : State) : Out :=
  issueOut (knifeRow 0x02 fun _ => true) c
    (fun x => .ok { x.plain with st := x.st.modKnife x.core fun y => { y with resume := true } }) s

end Sys2Proof.Machine
end

