-- ==== Sys2Proof/Machine/Cave.lean ====
section
/-! DEFINITION. The cave window of a job: migrations and eviction (R188, R189, R177, R452). -/

namespace Sys2Proof.Machine

/-- The job of a partition changed. -/
def State.modJob (s : State) (p : Nat) (f : Job → Job) : State := s.modPart p fun q => { q with job := q.job.map f }

/-- The lowest slot of the cave window that no page holds. -/
def Job.freeSlot (j : Job) : Option Nat := (List.range j.caveSlots).find? fun n => !j.cavePages.any fun c => c.slot == n

/-- The page that migrated earliest among those in the window: accesses take place at once, so none is pinned (R189). -/
def Job.oldestPage (j : Job) : Option CavePage :=
  (j.cavePages.filter (·.ready)).foldl (fun m c => match m with
    | none => some c
    | some x => some (if c.age < x.age then c else x)) none

/-- A job with the migration of a page begun in a free slot, or in that of the oldest page; no change where every slot
is being filled (R189). -/
def Job.startMigration (j : Job) (page : Nat) : Job :=
  let take (slot : Nat) (pages : List CavePage) : Job :=
    { j with cavePages := pages ++ [{ page := page, slot := slot, age := 0, ready := false }], caveWaits := j.caveWaits.filter (· != page) }
  match j.freeSlot with
  | some n => take n j.cavePages
  | none => match j.oldestPage with
    | some c => take c.slot (j.cavePages.filter fun x => x.page != c.page)
    | none => j

/-- CAVE_MIGRATION_START: the migration of a page that an access waits for begins (R188, R189). -/
def execCaveMigrationStart (part page : Nat) (s : State) : Out :=
  match (s.part part).job with
  | none => .next s
  | some j =>
    if j.caveWaits.contains page && !j.cavePages.any (·.page == page) then .next (s.modJob part fun j => j.startMigration page) else .next s

/-- A use of cave pages that meets the no-value error of a page it waited for (R452). -/
def CaveUse.lose (u : CaveUse) (page : Nat) : CaveUse :=
  if u.waits.contains page then { u with waits := u.waits.filter (· != page), bad := insertNum u.bad page } else u

/-- Every access of a core that waits for a page meets its error. -/
def CoreFlight.losePage (f : CoreFlight) (page : Nat) : CoreFlight :=
  { f with
    streams := f.streams.map fun q => { q with jobs := q.jobs.map fun j => { j with cave := j.cave.lose page } }
    knife := { f.knife with jobs := f.knife.jobs.map fun j => { j with cave := j.cave.lose page } } }

/-- A migration that gave no value: the slot is not filled, the error is logged, and every access that waited meets
it (R452, R455). -/
def losePage (p page : Nat) (s : State) : State :=
  let s := s.modJob p fun j => { j with cavePages := j.cavePages.filter fun c => c.page != page }
  let s := (s.coresOf p).foldl (fun s c => s.modCore c fun k => { k with flight := k.flight.losePage page }) s
  let s := (s.wheelsOf p).foldl (fun s w => s.modWheel w fun v => { v with cave := v.cave.lose page }) s
  s.caveLost (some p) page

/-- A migration that finished: the page's bytes lie in its slot (R188). -/
def fillPage (p : Nat) (j : Job) (c : CavePage) (s : State) : State :=
  let s := wakeFor (inboundDomains (j.caveWindow + pageSize * c.slot))
    (s.put (j.caveWindow + pageSize * c.slot) ((s.seenBy (some p)).peek c.page pageSize) false)
  s.modJob p fun j => { j with
    migrated := j.migrated + 1
    cavePages := j.cavePages.map fun x => if x.page = c.page then { x with ready := true, age := j.migrated } else x }

/-- CAVE_MIGRATION_COMPLETE: a migration ends, with its page in the window or with a no-value error. -/
def execCaveMigrationComplete (part page : Nat) (ok : Bool) (s : State) : Out :=
  match (s.part part).job with
  | none => .next s
  | some j =>
    match j.cavePages.find? fun c => c.page == page && !c.ready with
    | none => .next s
    | some c => .next (if ok then fillPage part j c s else losePage part page s)

/-- Does a page belong to a cave segment: aligned from its BASE, within its limit or, packed, anywhere after it in its
grant (R188, R195)? -/
def pageOfSeg (r : PartRec) (d : BitVec 256) (page : Nat) : Bool :=
  segMigrates d && decide (segBase d ≤ page) && (page - segBase d) % pageSize == 0
    && (decide (page ≤ segBase d + segLimit d)
      || (segPacked d && r.grants.any fun g => g.tier == 3 && decide (g.base ≤ segBase d) && decide (page < g.base + g.length)))

/-- The pages of a segment that a load changes are discarded (R177). -/
def discardPages (p : Nat) (d : BitVec 256) (s : State) : State :=
  let r := (s.part p).layout
  s.modJob p fun j => { j with cavePages := j.cavePages.filter fun c => !(c.ready && pageOfSeg r d c.page) }

end Sys2Proof.Machine
end

