-- ==== Sys2Proof/Machine/Recipe.lean ====
section
/-! DEFINITION. What the intake makes of a source, as pure functions: the demultiplexer, sampling, the stages of a recipe,
tubelets and their layout, and the costs (R217–R219, R229–R237). -/

namespace Sys2Proof.Machine

open Sys2Proof.Config (StreamInfo SourcePicture)

/-! ## Demultiplexing (R218, R219) -/

/-- What the demultiplexer has made of a source: the elementary stream with the source offset of each byte, the stream
positions at which bytes were lost, the source offsets of ERR_TS and ERR_SYNC events, whether a video PES packet is
open, its header bytes still to skip, and the last continuity counter. -/
structure Demux where
  stream : List (Byte × Nat)
  gaps : List Nat
  tsErrors : List Nat
  syncErrors : List Nat
  inVideo : Bool
  skip : Nat
  counter : Option Nat

/-- Before the first byte. -/
def Demux.start : Demux := { stream := [], gaps := [], tsErrors := [], syncErrors := [], inVideo := false, skip := 0, counter := none }

/-- The byte at a place of a packet. -/
def byteAt (l : List Byte) (i : Nat) : Nat := ((l[i]?).getD 0).toNat

/-- Bytes were lost here. -/
def Demux.lose (d : Demux) : Demux := { d with gaps := d.gaps ++ [d.stream.length] }

/-- Payload bytes of the wheel's PID taken into the stream, those of a PES header still open left out. -/
def Demux.append (d : Demux) (pos : Nat) (l : List Byte) : Demux :=
  let n := min d.skip l.length
  { d with skip := d.skip - n, stream := d.stream ++ (l.drop n).zipIdx.map fun b => (b.1, pos + n + b.2) }

/-- The payload of a packet: the start of a PES packet is kept for stream_id 0xE0–0xEF, anything else discarded (R219). -/
def Demux.payload (d : Demux) (pos : Nat) (starts : Bool) (l : List Byte) : Demux :=
  if starts then
    if byteAt l 0 = 0 ∧ byteAt l 1 = 0 ∧ byteAt l 2 = 1 ∧ 0xE0 ≤ byteAt l 3 ∧ byteAt l 3 ≤ 0xEF then
      { d with inVideo := true, skip := 9 + byteAt l 8 }.append pos l
    else { d with inVideo := false }
  else if d.inVideo then d.append pos l else d

/-- One packet of 188 bytes at a source offset (R219). -/
def Demux.packet (pid pos : Nat) (p : List Byte) (d : Demux) : Demux :=
  if byteAt p 1 % 32 * 256 + byteAt p 2 ≠ pid then d
  else
    let control := byteAt p 3 / 16 % 4
    let cc := byteAt p 3 % 16
    let field := if 2 ≤ control then 1 + byteAt p 4 else 0
    let announced := decide (2 ≤ control) && decide (0 < byteAt p 4) && decide (128 ≤ byteAt p 5)
    let carries := control % 2 == 1
    let scrambled := decide (64 ≤ byteAt p 3)
    let repeated := decide (d.counter = some cc) && !announced
    let gap := carries && !repeated && d.counter.any (fun c => cc != (c + 1) % 16) && !announced
    let d := if gap then { d with tsErrors := d.tsErrors ++ [pos] }.lose else d
    let d := if scrambled then { d with tsErrors := d.tsErrors ++ [pos] } else d
    if !carries || repeated then d
    else if scrambled then { d with counter := some cc }.lose
    else { d with counter := some cc }.payload (pos + 4 + field) (decide (64 ≤ byteAt p 1 % 128)) (p.drop (4 + field))

/-- The first place at which three consecutive packets begin with 0x47. -/
def syncPlace : List Byte → Option Nat
  | [] => none
  | b :: t => if b = 0x47 ∧ t[187]? = some 0x47 ∧ t[375]? = some 0x47 then some 0 else (syncPlace t).map (· + 1)

/-- The packets of a transport stream from a source offset on; `fuel` bounds their number. -/
def demuxPackets (pid : Nat) : Nat → Nat → List Byte → Demux → Demux
  | 0, _, _, d => d
  | fuel + 1, pos, l, d =>
    if l.length < 188 then d
    else if byteAt l 0 = 0x47 then demuxPackets pid fuel (pos + 188) (l.drop 188) (d.packet pid pos (l.take 188))
    else
      let d := { d with syncErrors := d.syncErrors ++ [pos], counter := none }.lose
      match syncPlace l with
      | some n => demuxPackets pid fuel (pos + n) (l.drop n) d
      | none => d

/-- The elementary stream of a source read from an offset on. -/
def demux (isTs : Bool) (pid pos : Nat) (l : List Byte) : Demux :=
  if isTs then demuxPackets pid l.length pos l .start
  else { Demux.start with stream := l.zipIdx.map fun b => (b.1, pos + b.2) }

/-- The source offset of a place of the stream; `size` at its end. -/
def Demux.source (d : Demux) (size at' : Nat) : Nat := match d.stream[at']? with
  | some b => b.2
  | none => size

/-! ## Fields of a recipe (R230) -/

/-- DEST is a core ring. -/
def rcRing (r : BitVec 1024) : Bool := field r 0 2 == 1
/-- FIELDS. -/
def rcFields (r : BitVec 1024) : Bool := r.getLsbD 2
/-- LAYOUT is K-blocked. -/
def rcBlocked (r : BitVec 1024) : Bool := r.getLsbD 3
/-- MATRIX. -/
def rcMatrix (r : BitVec 1024) : Nat := field r 4 2
/-- RANGE. -/
def rcRange (r : BitVec 1024) : Nat := field r 6 2
/-- SCALE. -/
def rcScale (r : BitVec 1024) : Nat := field r 8 2
/-- OFMT. -/
def rcOfmt (r : BitVec 1024) : Nat := field r 10 2
/-- C: channels of an element (R230, R236). -/
def rcChannels (r : BitVec 1024) : Nat := if r.getLsbD 12 then 1 else 3
/-- CONV. -/
def rcConv (r : BitVec 1024) : BitVec 8 := BitVec.ofNat 8 (field r 16 8)
/-- CROP_X. -/
def rcCropX (r : BitVec 1024) : Nat := field r 32 16
/-- CROP_Y. -/
def rcCropY (r : BitVec 1024) : Nat := field r 48 16
/-- CROP_W. -/
def rcCropW (r : BitVec 1024) : Nat := field r 64 16
/-- CROP_H. -/
def rcCropH (r : BitVec 1024) : Nat := field r 80 16
/-- OUT_W. -/
def rcOutW (r : BitVec 1024) : Nat := field r 96 16
/-- OUT_H. -/
def rcOutH (r : BitVec 1024) : Nat := field r 112 16
/-- PW. -/
def rcPw (r : BitVec 1024) : Nat := field r 128 8
/-- PH. -/
def rcPh (r : BitVec 1024) : Nat := field r 136 8
/-- PT. -/
def rcPt (r : BitVec 1024) : Nat := field r 144 8
/-- STRIDE. -/
def rcStride (r : BitVec 1024) : Nat := field r 152 8
/-- ROWS. -/
def rcRows (r : BitVec 1024) : Nat := field r 160 32
/-- GAIN of a channel. -/
def rcGain (r : BitVec 1024) (c : Nat) : Nat := field r (192 + 32 * c) 32
/-- BIAS of a channel. -/
def rcBias (r : BitVec 1024) (c : Nat) : Nat := field r (288 + 32 * c) 32
/-- CORE. -/
def rcCore (r : BitVec 1024) : CoreId := BitVec.ofNat 10 (field r 384 10)
/-- SEM. -/
def rcSem (r : BitVec 1024) : Nat := field r 394 5
/-- SIG. -/
def rcSig (r : BitVec 1024) : Bool := r.getLsbD 399
/-- RING_OFS. -/
def rcRingOfs (r : BitVec 1024) : Nat := field r 400 32
/-- SLOTS. -/
def rcSlots (r : BitVec 1024) : Nat := field r 432 16
/-- SLOT_BYTES. -/
def rcSlotBytes (r : BitVec 1024) : Nat := field r 448 32

/-- Bytes of an element (R236). -/
def rcElement (r : BitVec 1024) : Nat := if rcOfmt r = 0 then 2 else 1
/-- Elements of a tubelet (R236). -/
def rcElements (r : BitVec 1024) : Nat := rcPw r * rcPh r * rcPt r * rcChannels r
/-- TB: bytes of a tubelet (R236). -/
def rcTb (r : BitVec 1024) : Nat := rcElements r * rcElement r
/-- NX and NY (R236). -/
def rcNx (r : BitVec 1024) : Nat := rcOutW r / rcPw r
/-- Patch rows. -/
def rcNy (r : BitVec 1024) : Nat := rcOutH r / rcPh r
/-- Bytes of a core ring (R238). -/
def rcRingBytes (r : BitVec 1024) : Nat := 0x40 + rcSlots r * rcSlotBytes r

/-- Where a ring of a recipe lies. -/
def ringAddr (recipe : BitVec 1024) : Nat := lsBase (rcCore recipe) + rcRingOfs recipe

/-- Is a number outside a range? -/
def outside (n lo hi : Nat) : Bool := decide (n < lo) || decide (hi < n)

/-- The checks of R231 on a recipe that need no other wheel. -/
def recipeBad (r : BitVec 1024) : Bool :=
  decide (2 ≤ field r 0 2) || rcRange r == 3 || rcScale r == 3 || rcOfmt r == 3 || field r 13 3 != 0 || field r 24 8 != 0
    || field r 480 544 != 0 || (rcChannels r == 1 && rcMatrix r != 0)
    || outside (rcCropW r) 16 8192 || outside (rcCropH r) 16 8192 || outside (rcOutW r) 16 4096 || outside (rcOutH r) 16 4096
    || outside (rcPw r) 1 64 || outside (rcPh r) 1 64 || outside (rcPt r) 1 16 || rcStride r == 0
    || rcOutW r % rcPw r != 0 || rcOutH r % rcPh r != 0 || decide (32768 < rcElements r)
    || decide (8 * rcOutW r < rcCropW r) || decide (8 * rcOutH r < rcCropH r) || decide (4 * rcCropW r < rcOutW r) || decide (4 * rcCropH r < rcOutH r)
    || (rcScale r == 2 && (decide (rcCropW r < rcOutW r) || decide (rcCropH r < rcOutH r)))
    || convRnd (rcConv r) || field (rcConv r) 6 2 != 0
    || (rcBlocked r && rcTb r % 64 != 0)
    || (rcRows r == 0 && (rcRing r || rcBlocked r))
    || (rcRing r && (outside (rcSlots r) 2 65535 || rcRingOfs r % 64 != 0 || decide (rcSlotBytes r < 64 + rcRows r * rcTb r) || rcSlotBytes r % 64 != 0
        || decide (0x800000 < rcRingOfs r + rcRingBytes r)))

/-- Do the rings of two wheels' recipes overlap (R231)? -/
def ringsOverlap (a b : BitVec 1024) : Bool :=
  rcRing a && rcRing b && rcCore a == rcCore b
    && decide (rcRingOfs a < rcRingOfs b + rcRingBytes b) && decide (rcRingOfs b < rcRingOfs a + rcRingBytes a)

/-! ## Activation checks (R215, R216, R222, R231) -/

/-- The largest picture that a decode codec allows (R215). -/
def largestPicture (codec : Nat) : Nat × Nat :=
  match codec with
  | 0 => (1920, 1152)
  | 1 => (4096, 2304)
  | 2 => (8192, 4320)
  | _ => (8192, 4352)

/-- The highest level that a decode codec allows, in the units of StreamInfo (R215). -/
def highestLevel (codec : Nat) : Nat :=
  match codec with
  | 0 => 3
  | 1 => 52
  | 2 => 61
  | _ => 60

/-- Are chroma format, bit depth and scan among those of the profile (R215)? -/
def profileForm (codec : Nat) (i : StreamInfo) : Bool :=
  let sub420 := i.chroma == 1
  let sub422 := i.chroma == 2
  let d8 := i.depth == 8
  let d10 := i.depth == 10
  match codec with
  | 0 => decide (i.profile < 2) && d8 && (sub420 || (sub422 && i.profile == 1))
  | 1 => decide (i.profile < 5) && ((sub420 && (d8 || (d10 && i.profile == 3))) || (sub422 && d10 && i.intraOnly && i.profile == 4))
      && (!i.interlaced || (decide (1 ≤ i.profile) && decide (i.profile ≤ 3)))
  | 2 => decide (i.profile < 3) && ((sub420 && (d8 || d10)) || (sub422 && d10 && i.profile == 2))
  | _ => i.profile == 0 && (sub420 || i.chroma == 0) && (d8 || d10) && !i.interlaced

/-- Does an activation fail R216: is anything it says outside R215? -/
def unsupportedStream (codec : Nat) (i : StreamInfo) : Bool :=
  i.ruledOut || decide (highestLevel codec < i.level) || !profileForm codec i
    || decide ((largestPicture codec).1 < i.width) || decide ((largestPicture codec).2 < i.height)

/-- The height of an output picture. -/
def outputHeight (r : BitVec 1024) (i : StreamInfo) : Nat := if rcFields r then i.height / 2 else i.height

/-- Does the crop fail to fit the picture and its chroma subsampling (R231)? -/
def cropMisfit (r : BitVec 1024) (i : StreamInfo) : Bool :=
  decide (i.width < rcCropX r + rcCropW r) || decide (outputHeight r i < rcCropY r + rcCropH r)
    || (i.chroma != 0 && (rcCropX r % 2 != 0 || rcCropW r % 2 != 0))
    || (i.chroma == 1 && (rcCropY r % 2 != 0 || rcCropH r % 2 != 0))

/-- A number of bytes rounded up to 4 KiB. -/
def toPages (n : Nat) : Nat := (n + 4095) / 4096 * 4096

/-- B of R222: one decoded picture. -/
def pictureBytes (i : StreamInfo) : Nat :=
  let luma := i.width * i.height
  toPages ((match i.chroma with
    | 0 => luma
    | 1 => luma * 3 / 2
    | _ => luma * 2) * (if i.depth = 8 then 1 else 2))

/-- N of R222: fixed for MPEG-2 and AV1, declared by the stream for H.264 and H.265. -/
def referencePictures (codec : Nat) (i : StreamInfo) : Nat :=
  match codec with
  | 0 => 2
  | 3 => 8
  | _ => i.refs

/-- The working region a stream needs (R222). -/
def regionNeed (codec par : Nat) (i : StreamInfo) : Nat := 65536 + (par + 1) * (referencePictures codec i + 1) * pictureBytes i

/-! ## Random-access points (R227) -/

/-- Does a group begin at an access unit? -/
def randomAccess (codec : Nat) (u : Config.AccessUnit) : Bool :=
  match codec with
  | 0 => u.header && u.intra
  | 1 => u.idr || (u.recovery && u.intra)
  | 2 => u.irap
  | _ => u.key && u.header

/-- The bytes of the group at the head of a stream: those before the next random-access point, or all. -/
def groupExtent (codec : Nat) (stream : List Byte) : Nat :=
  match (Config.accessUnits codec stream).find? fun u => decide (0 < u.first) && randomAccess codec u with
  | some u => min u.first stream.length
  | none => stream.length

/-! ## Output pictures (R229, R232, R243) -/

/-- An output picture: what its stream says, its planes, the causes that damaged the coded pictures counted with it, and
whether any coded picture it is of was damaged. -/
structure OutPicture where
  info : StreamInfo
  planes : List (List (List Nat))
  causes : List Nat
  damaged : Bool

/-- Every other row from row 0 or row 1 on. -/
def fieldRows (top : Bool) (plane : List (List Nat)) : List (List Nat) :=
  (plane.zipIdx.filter fun r => r.2 % 2 == (if top then 0 else 1)).map (·.1)

/-- Two fields woven, the top one in even lines (R232). -/
def weaveRows : List (List Nat) → List (List Nat) → List (List Nat)
  | [], l => l
  | a :: t, l => a :: (match l with
    | [] => weaveRows t []
    | b :: u => b :: weaveRows t u)

/-- The field that a lone field lacks. -/
def absentField (plane : List (List Nat)) : List (List Nat) :=
  plane.zipIdx.map fun r => (List.range r.1.length).map fun c => Config.absentSample r.2 c

/-- A picture with its stream information and its cause of damage. -/
abbrev CodedPicture := SourcePicture × StreamInfo × Nat

/-- Two fields of a frame woven, the first of which is the top one or not; a partner that never came is absent. -/
def weavePair (x : CodedPicture) (top : Bool) (y : Option CodedPicture) : OutPicture :=
  let planes := match y with
    | some q => (x.1.planes.zip q.1.planes).map fun a => if top then weaveRows a.1 a.2 else weaveRows a.2 a.1
    | none => x.1.planes.map fun a => if top then weaveRows a (absentField a) else weaveRows (absentField a) a
  let causes := x.2.2 :: (match y with
    | some q => [q.2.2]
    | none => [])
  { info := x.2.1, planes := planes, causes := causes, damaged := causes.any (· != 0) }

/-- Frames formed so far, and a first field that waits for its partner. -/
structure FrameForm where
  done : List OutPicture
  held : Option (CodedPicture × Bool)

/-- The field that waits, given up. -/
def FrameForm.flush (f : FrameForm) : List OutPicture := match f.held with
  | some (x, top) => f.done ++ [weavePair x top none]
  | none => f.done

/-- One more coded picture. -/
def FrameForm.add (f : FrameForm) (x : CodedPicture) : FrameForm :=
  match x.1.parity, f.held with
  | none, _ => { done := f.flush ++ [{ info := x.2.1, planes := x.1.planes, causes := [x.2.2], damaged := x.2.2 != 0 }], held := none }
  | some top, some (y, first) =>
    if first = top then { done := f.flush, held := some (x, top) } else { done := f.done ++ [weavePair y first (some x)], held := none }
  | some top, none => { f with held := some (x, top) }

/-- Frame output (R232): fields are woven in pairs. -/
def formFrames (l : List CodedPicture) : List OutPicture := (l.foldl FrameForm.add { done := [], held := none }).flush

/-- Field output (R232): each field is one picture, in the stream's field order; both fields of a damaged frame are damaged,
which counts with the first (R243). -/
def formFields (l : List CodedPicture) : List OutPicture :=
  l.flatMap fun x => match x.1.parity with
    | some _ => [{ info := x.2.1, planes := x.1.planes, causes := [x.2.2], damaged := x.2.2 != 0 }]
    | none =>
      let f (top first : Bool) : OutPicture :=
        { info := x.2.1, planes := x.1.planes.map (fieldRows top), causes := if first then [x.2.2] else [], damaged := x.2.2 != 0 }
      [f x.1.topFirst true, f (!x.1.topFirst) false]

/-- A mid-grey picture (R243). -/
def greyPicture (o : OutPicture) : List (List (List Nat)) := o.planes.map fun p => p.map fun r => r.map fun _ => 2 ^ (o.info.depth - 1)

/-! ## Resampling (R233) -/

/-- A rational number as FP32. -/
def ratF32 (num : Int) (den : Nat) : Nat := if num = 0 then 0 else fp32.encodeRatio (decide (num < 0)) num.natAbs den 0

/-- An input position, its numerator and its denominator. -/
abbrev Position := Int × Nat

/-- The source position of output o on an axis of input length n and output length m. -/
def lumaPosition (n m o : Nat) : Position := ((2 * o + 1 : Nat) * (n : Int) - m, 2 * m)

/-- The position taken to the chroma grid of a subsampled axis, its offset in half luma samples. -/
def chromaPosition (offset2 : Nat) (p : Position) : Position := (2 * p.1 - (offset2 : Int) * p.2, 4 * p.2)

/-- Horizontal and vertical offsets of an H.273 chroma location type, in half luma samples. -/
def chromaOffsets (type : Nat) : Nat × Nat :=
  match type with
  | 0 => (0, 1)
  | 1 => (1, 1)
  | 2 => (0, 0)
  | 3 => (1, 0)
  | 4 => (0, 2)
  | 5 => (1, 2)
  | _ => (0, 1)

/-- Taps of an output: source index and FP32 weight, indices ascending. -/
abbrev Taps := List (Int × Nat)

/-- The two samples around a position. -/
def bilinearTaps (p : Position) : Taps :=
  let f := p.1 % p.2
  [(p.1 / p.2, ratF32 (p.2 - f) p.2), (p.1 / p.2 + 1, ratF32 f p.2)]

/-- The cubic kernel with a = −0.5 at distance x / d. -/
def cubicWeight (x d : Int) : Nat :=
  let x := Int.ofNat x.natAbs
  let num := if x ≤ d then 3 * x ^ 3 - 5 * x ^ 2 * d + 2 * d ^ 3 else -(x ^ 3) + 5 * x ^ 2 * d - 8 * x * d ^ 2 + 4 * d ^ 3
  ratF32 num (2 * d ^ 3).toNat

/-- Four samples. -/
def bicubicTaps (p : Position) : Taps :=
  [-1, 0, 1, 2].map fun k => (p.1 / p.2 + k, cubicWeight (p.1 % p.2 - k * p.2) p.2)

/-- A footprint of width wn / wd centred on the position's sample; each weight is the overlap divided by the width. -/
def areaTaps (wn wd : Nat) (p : Position) : Taps :=
  let D : Int := 2 * p.2 * wd
  let mid := (2 * p.1 + p.2) * wd
  let lo := mid - (wn : Int) * p.2
  let hi := mid + (wn : Int) * p.2
  (List.range ((hi - 1) / D - lo / D + 1).toNat).map fun (k : Nat) =>
    let i := lo / D + (k : Int)
    (i, ratF32 ((min hi ((i + 1) * D) - max lo (i * D)) * wd) (D.toNat * wn))

/-- The taps of every output of an axis: SCALE, input and output length on the luma grid, and for a subsampled axis its
chroma offset. -/
def axisTaps (scale n m : Nat) (isChroma sub : Bool) (offset2 : Nat) : List Taps :=
  (List.range m).map fun o =>
    let p := if sub then chromaPosition offset2 (lumaPosition n m o) else lumaPosition n m o
    let wd := if sub then 2 * m else m
    match scale with
    | 0 => bilinearTaps p
    | 1 => bicubicTaps p
    | _ => if isChroma ∧ n < wd then bilinearTaps p else areaTaps n wd p

/-- An index clamped to a list of a length. -/
def clampIndex (i : Int) (len : Nat) : Nat := (max 0 (min i ((len : Int) - 1))).toNat

/-- One output of an axis: one fma per tap, in ascending index order. -/
def tapSum (l : List Nat) (taps : Taps) : Nat := taps.foldl (fun acc t => fmaF32 t.2 ((l[clampIndex t.1 l.length]?).getD 0) acc) 0

/-- One output row of the vertical pass. -/
def tapRows (rows : List (List Nat)) (width : Nat) (taps : Taps) : List Nat :=
  (List.range width).map fun x =>
    taps.foldl (fun acc t => fmaF32 t.2 ((((rows[clampIndex t.1 rows.length]?).getD [])[x]?).getD 0) acc) 0

/-- A plane resampled, horizontal first; samples become FP32. -/
def resample (plane : List (List Nat)) (hor ver : List Taps) : List (List Nat) :=
  let rows := plane.map fun r =>
    let f := r.map fun (x : Nat) => fp32.encode (FVal.ofInt (x : Int) 0)
    hor.map (tapSum f)
  ver.map (tapRows rows hor.length)

/-- A rectangle of a plane. -/
def cropPlane (x y w h : Nat) (plane : List (List Nat)) : List (List Nat) := ((plane.drop y).take h).map fun r => (r.drop x).take w

/-! ## Normalisation, matrix, conversion (R234, R235) -/

/-- A sample normalised: the exact difference from the black level, times the FP32 reciprocal, rounded once. -/
def normalise (full : Bool) (isChroma : Bool) (d : Nat) (x : Nat) : Nat :=
  let lim := 2 ^ (d - 8)
  let black : Nat := if isChroma then (if full then 2 ^ (d - 1) else 128 * lim) else if full then 0 else 16 * lim
  let span : Nat := if full then 2 ^ d - 1 else if isChroma then 224 * lim else 219 * lim
  fp32.encode ((((fp32.decode x).add (FVal.ofInt (-(black : Int)) 0))).mul (fp32.decode (ratF32 1 span)))

/-- Kr and Kb of a MATRIX, in units of 1/10,000 (R234). -/
def matrixConstants (matrix : Nat) : Nat × Nat :=
  match matrix with
  | 1 => (2990, 1140)
  | 2 => (2126, 722)
  | _ => (2627, 593)

/-- R, G, B of Y, Cb, Cr (R234). -/
def toRgb (matrix y cb cr : Nat) : List Nat :=
  let k := matrixConstants matrix
  let kr := k.1
  let kb := k.2
  let kg := 10000 - kr - kb
  let crR := ratF32 (2 * (10000 - kr) : Nat) 10000
  let cbB := ratF32 (2 * (10000 - kb) : Nat) 10000
  let cbG := ratF32 (-(2 * kb * (10000 - kb) : Nat)) (10000 * kg)
  let crG := ratF32 (-(2 * kr * (10000 - kr) : Nat)) (10000 * kg)
  [fmaF32 crR cr y, fmaF32 crG cr (fmaF32 cbG cb y), fmaF32 cbB cb y]

/-- An element converted to OFMT (R235): U8 rounds to nearest, is limited to 0–255, and is 0 for NaN. -/
def convertOut (r : BitVec 1024) (x : Nat) : Converted :=
  let v := fp32.decode x
  match rcOfmt r with
  | 0 => convertFloat bf16 (convOvf (rcConv r)) .near v
  | 1 => convertFloat e4m3 (convOvf (rcConv r)) .near v
  | _ => convertInt 8 false 0 false .near v (.fin false 1 0)

/-- The channels of a pixel from its resampled samples: normalisation, matrix, gain and bias (R232). -/
def pixelChannels (r : BitVec 1024) (i : StreamInfo) (y cb cr : Nat) : List Nat :=
  let full := if rcRange r = 0 then i.fullRange else rcRange r == 2
  let y := normalise full false i.depth y
  let ch := if rcChannels r = 1 then [y]
    else
      let b := normalise full true i.depth cb
      let c := normalise full true i.depth cr
      if rcMatrix r = 0 then [y, b, c] else toRgb (rcMatrix r) y b c
  ch.zipIdx.map fun v => fmaF32 v.1 (rcGain r v.2) (rcBias r v.2)

/-- A chroma plane cropped and resampled; a monochrome stream's chroma is mid-grey, as its standard infers it. -/
def chromaPlane (r : BitVec 1024) (i : StreamInfo) (plane : List (List Nat)) : List (List Nat) :=
  if i.chroma = 0 then
    List.replicate (rcOutH r) (List.replicate (rcOutW r) (fp32.encode (FVal.ofInt (2 ^ (i.depth - 1) : Nat) 0)))
  else
    let subV := i.chroma == 1
    let ofs := chromaOffsets i.chromaLoc
    let c := cropPlane (rcCropX r / 2) (if subV then rcCropY r / 2 else rcCropY r) (rcCropW r / 2) (if subV then rcCropH r / 2 else rcCropH r) plane
    resample c (axisTaps (rcScale r) (rcCropW r) (rcOutW r) true true ofs.1) (axisTaps (rcScale r) (rcCropH r) (rcOutH r) true subV ofs.2)

/-- A picture through the stages of R232 up to conversion: elements by row, column and channel. -/
def processPicture (r : BitVec 1024) (i : StreamInfo) (planes : List (List (List Nat))) : List (List (List Converted)) :=
  let plane (n : Nat) : List (List Nat) := (planes[n]?).getD []
  let luma := resample (cropPlane (rcCropX r) (rcCropY r) (rcCropW r) (rcCropH r) (plane 0))
    (axisTaps (rcScale r) (rcCropW r) (rcOutW r) false false 0) (axisTaps (rcScale r) (rcCropH r) (rcOutH r) false false 0)
  let cb := if rcChannels r = 1 then [] else chromaPlane r i (plane 1)
  let cr := if rcChannels r = 1 then [] else chromaPlane r i (plane 2)
  luma.zipIdx.map fun row => row.1.zipIdx.map fun y =>
    let at' (p : List (List Nat)) : Nat := (((p[row.2]?).getD [])[y.2]?).getD 0
    (pixelChannels r i y.1 (at' cb) (at' cr)).map (convertOut r)

/-! ## Tubelets (R236, R237) -/

/-- The bytes of the tubelet at a patch position from the pictures of its step (R236). -/
def tubeletBytes (r : BitVec 1024) (step : List (List (List (List Nat)))) (px py : Nat) : List Byte :=
  step.flatMap fun pic => (List.range (rcPh r)).flatMap fun y => (List.range (rcPw r)).flatMap fun x =>
    (((((pic[py * rcPh r + y]?).getD [])[px * rcPw r + x]?).getD []).flatMap fun code => leBytes (rcElement r) code)

/-- The tubelets of a step τ (R236). -/
def stepTubelets (r : BitVec 1024) (tau : Nat) (step : List KeptPicture) : List Tubelet :=
  let affected := step.any (·.affected)
  (List.range (rcNy r)).flatMap fun py => (List.range (rcNx r)).map fun px =>
    { index := tau * rcNx r * rcNy r + py * rcNx r + px, affected := affected, bytes := tubeletBytes r (step.map (·.codes)) px py }

/-- The 64-byte runs of a byte string. -/
def runs64 : Nat → List Byte → List (List Byte)
  | 0, _ => []
  | n + 1, l => l.take 64 :: runs64 n (l.drop 64)

/-- A group of tubelets as K blocks: runs of as many rows of 64 bytes as the group has tubelets (R237). -/
def blockGroup (tb : Nat) (group : List (List Byte)) : List Byte :=
  let rows := group.map (runs64 (tb / 64))
  (List.range (tb / 64)).flatMap fun k => rows.flatMap fun t => (t[k]?).getD []

/-- The bytes of tubelets under LAYOUT, as one group where it is K-blocked (R237). -/
def layoutGroup (r : BitVec 1024) (group : List (List Byte)) : List Byte := if rcBlocked r then blockGroup (rcTb r) group else group.flatten

/-! ## Costs (R217) -/

/-- Reference cost and reference luma samples of a codec and profile; those of AVC are of a field. -/
def referenceCost (codec profile : Nat) : Nat × Nat :=
  match codec with
  | 0 => (62500, 414720)
  | 1 => (250000, 1036800)
  | 2 => if profile = 2 then (666667, 2073600) else (500000, 2073600)
  | _ => (833334, 2073600)

/-- The pixel cost of luma samples, rounded up. -/
def pixelCost (codec profile luma : Nat) : Nat :=
  let r := referenceCost codec profile
  (r.1 * luma + r.2 - 1) / r.2

/-- Intake cycles of a decoded picture: the larger of the pixel cost and 2 coded bits per cycle; an AVC frame costs as two
fields. -/
def pictureCost (codec : Nat) (i : StreamInfo) (isField : Bool) (codedBytes : Nat) : Nat :=
  let luma := i.width * i.height
  let pixels := if isField then pixelCost codec i.profile (luma / 2)
    else if codec = 1 then 2 * pixelCost codec i.profile (luma / 2) else pixelCost codec i.profile luma
  max pixels (4 * codedBytes)

/-! ## The watchdog (R244) -/

/-- Blocks of 16 by 16 luma samples in a picture. -/
def blocksPerPicture (i : StreamInfo) : Nat := (i.width + 15) / 16 * ((i.height + 15) / 16)

/-- Does the watchdog expire while a picture of a group is decoded: has the group by then decoded more than twice the blocks
it declares, or more than 2^24 where it declares no count, or are 4 MiB of source consumed since the last picture? -/
def watchdogExpires (l : List CodedPicture) (declared : Option Nat) (p : CodedPicture) : Bool :=
  let blocks := ((l.filter fun q => decide (q.1.first ≤ p.1.first)).map fun q => q.1.blocks).foldl (· + ·) 0
  let limit := match declared with
    | some n => 2 * (n * blocksPerPicture p.2.1)
    | none => 2 ^ 24
  let before := ((l.map fun q => q.1.past).filter (· ≤ p.1.first)).foldl max 0
  decide (limit < blocks) || decide (0x400000 < p.1.past - before)

/-! ## The input of an encode wheel (R245, R246) -/

/-- Rows of samples cut from a list of them. -/
def planeRows (width : Nat) : Nat → List Nat → List (List Nat)
  | 0, _ => []
  | n + 1, l => l.take width :: planeRows width n (l.drop width)

/-- The little-endian samples of n bytes each in a byte string; `fuel` bounds them. -/
def byteSamples (n : Nat) : Nat → List Byte → List Nat
  | 0, _ => []
  | fuel + 1, l => leNat (l.take n) :: byteSamples n fuel (l.drop n)

/-- The sample of an FP32 value under limited range: black plus span times the value, exactly, rounded to nearest and kept
within the depth. -/
def limitedSample (depth black span : Nat) (x : Nat) : Nat :=
  let lim := 2 ^ (depth - 8)
  let v := ((fp32.decode x).mul (FVal.ofInt ((span * lim : Nat) : Int) 0)).add (FVal.ofInt ((black * lim : Nat) : Int) 0)
  (convertInt depth false 0 false .near v (.fin false 1 0)).code

/-- Y, Cb and Cr in FP32 of R, G and B by the inverse of R234's matrix, one FP32 operation a step. -/
def fromRgb (matrix r g b : Nat) : Nat × Nat × Nat :=
  let k := matrixConstants matrix
  let kr := k.1
  let kb := k.2
  let y := fmaF32 (ratF32 (kr : Nat) 10000) r (fmaF32 (ratF32 (10000 - kr - kb : Nat) 10000) g (mulF32 (ratF32 (kb : Nat) 10000) b))
  (y, mulF32 (ratF32 10000 (2 * (10000 - kb))) (subF32 b y), mulF32 (ratF32 10000 (2 * (10000 - kr))) (subF32 r y))

/-- The FP32 mean of each 2 by 2 block of a plane, its samples added by rows. -/
def blockMeans (w h : Nat) (plane : List (List Nat)) : List (List Nat) :=
  let at' (y x : Nat) : Nat := (((plane[y]?).getD [])[x]?).getD 0
  (List.range (h / 2)).map fun y => (List.range (w / 2)).map fun x =>
    mulF32 (addF32 (addF32 (addF32 (at' (2 * y) (2 * x)) (at' (2 * y) (2 * x + 1))) (at' (2 * y + 1) (2 * x))) (at' (2 * y + 1) (2 * x + 1)))
      (ratF32 1 4)

/-- An RGB picture in FP32 codes converted to planar 4:2:0. -/
def rgbPicture (w h depth matrix : Nat) (r g b : List Nat) : List (List (List Nat)) :=
  let px := (r.zip (g.zip b)).map fun c => fromRgb matrix c.1 c.2.1 c.2.2
  let plane (f : Nat × Nat × Nat → Nat) : List (List Nat) := planeRows w h (px.map f)
  let chroma (f : Nat × Nat × Nat → Nat) : List (List Nat) := (blockMeans w h (plane f)).map fun x => x.map (limitedSample depth 128 224)
  [(plane (·.1)).map fun x => x.map (limitedSample depth 16 219), chroma (·.2.1), chroma (·.2.2)]

/-- The planes of one input picture from its bytes under the parameters of an encode wheel. -/
def inputPicture (e : BitVec 512) (bytes : List Byte) : List (List (List Nat)) :=
  let w := field e 0 16
  let h := field e 16 16
  let depth := if e.getLsbD 32 then 10 else 8
  let n := w * h
  match field e 33 2 with
  | 0 =>
    let l := byteSamples (if depth = 10 then 2 else 1) (n + n / 2) bytes
    [planeRows w h (l.take n), planeRows (w / 2) (h / 2) ((l.drop n).take (n / 4)), planeRows (w / 2) (h / 2) (l.drop (n + n / 4))]
  | k =>
    let l := (byteSamples (if k = 1 then 4 else 2) (3 * n) bytes).map fun x => if k = 1 then x else x * 65536
    rgbPicture w h depth (field e 35 2) (l.take n) ((l.drop n).take n) (l.drop (2 * n))

end Sys2Proof.Machine
end

