-- ==== Sys2Proof/Machine/Link.lean ====
section
/-! DEFINITION. Hjelis Link: ports, frames, training, routes, the join of a fabric domain, ring groups, and link
sessions (R305–R316, R325, R326, R371). -/

namespace Sys2Proof.Machine

/-! ## Ports -/

/-- A port's state; one not listed has not trained. -/
def State.port (s : State) (p : Nat) : Port := Tbl.getD s.fabric.ports p .reset

/-- A port changed. -/
def State.modPort (s : State) (p : Nat) (f : Port → Port) : State :=
  { s with fabric := { s.fabric with ports := Tbl.put s.fabric.ports p (f (s.port p)) } }

/-- The UNIT code of a port: its compute die. -/
def portUnit (p : Nat) : Nat := p / 6

/-- Does a port carry traffic: it is not out, not down, not retraining, and not cut off by a takeover? -/
def Port.carries (q : Port) : Bool := q.width != 0 && !q.isDown && !q.retraining && !q.fenced

/-- Frames of transfers that may be outstanding (R309). -/
def frameWindow : Nat := 64

/-! ## Routes (R315) -/

/-- The links of a device that routes may use: port, neighbour, lanes. This device's own are those of its ports. -/
def State.links (s : State) (id : Nat) : List (Nat × Nat × Nat) :=
  if id = s.fabricId then
    (s.fabric.ports.filter fun q => q.2.carries && !q.2.gateway).map fun q => (q.1, q.2.neighbour.toNat, q.2.width)
  else ((Tbl.getD s.fabric.topology id []).filter (·.usable)).map fun l => (l.port, l.neighbour, l.width)

/-- Devices by their distance in hops, layer by layer; `fuel` bounds the layers. -/
def hopsFrom (s : State) : Nat → Nat → List Nat → Tbl Nat → Tbl Nat
  | 0, _, _, seen => seen
  | fuel + 1, d, front, seen =>
    let next := (front.flatMap fun n => (s.links n).map (·.2.1)).foldl
      (fun l n => if (Tbl.get? seen n).isSome || l.contains n then l else l ++ [n]) []
    if next.isEmpty then seen else hopsFrom s fuel (d + 1) next (next.foldl (fun t n => Tbl.put t n (d + 1)) seen)

/-- The distance of every device from one. -/
def State.hops (s : State) (id : Nat) : Tbl Nat := hopsFrom s 4096 0 [id] [(id, 0)]

/-- One alternative of a route entry: port and weight. -/
def routeAlt (l : Option (Nat × Nat)) : Nat :=
  match l with
  | some (p, w) => p + w * 32
  | none => 0x1F

/-- A route entry of up to four alternatives (R315). -/
def routeEntry (l : List (Nat × Nat)) : BitVec 32 :=
  BitVec.ofNat 32 (routeAlt l[0]? + routeAlt l[1]? * 2 ^ 8 + routeAlt l[2]? * 2 ^ 16 + routeAlt l[3]? * 2 ^ 24)

/-- The route table of a device from the flooded port states: for each destination the ports that start a shortest path, in
ascending order (R315). -/
def State.routesOf (s : State) (id : Nat) : Tbl (BitVec 32) :=
  let own := s.links id
  let from_ := own.map fun l => (l, s.hops l.2.1)
  (s.hops id).filterMap fun d =>
    if d.1 = id then none
    else
      let alts := (from_.filter fun l => Tbl.get? l.2 d.1 == some (d.2 - 1)).map fun l => (l.1.1, l.1.2.2)
      if alts.isEmpty then none else some (d.1, routeEntry (alts.take 4))

/-- The alternatives of a route entry. -/
def routeAlts (e : BitVec 32) : List (Nat × Nat) :=
  (List.range 4).filterMap fun i => if field e (8 * i) 5 = 31 then none else some (field e (8 * i) 5, field e (8 * i + 5) 3)

/-- The route table of this device. -/
def State.computeRoutes (s : State) : Tbl (BitVec 32) := s.routesOf s.fabricId

/-- The alternatives toward a device. -/
def State.routeTo (s : State) (id : Nat) : List (Nat × Nat) := routeAlts (Tbl.getD s.fabric.routes id routeNone)

/-- Drains to partners that no route reaches end (R267). -/
def endLostDrains (s : State) : State :=
  (List.range 16).foldl (fun s p =>
    match (s.part p).job with
    | some j => if j.draining.isSome && (s.routeTo j.partner.toNat).isEmpty then endDrain p s else s
    | none => s) s

/-! ## Packets and frames (R306–R309) -/

/-- The flits of a packet: header, data of 256 bytes each, and a tag flit when encrypted (R308). -/
def packetFlits (bytes : Nat) (enc : Bool) : Nat := 1 + (bytes + 255) / 256 + (if enc then 1 else 0)

/-- The channel a packet travels on, as VCMAP names it: 1 request, 2 response, 3 control. Which kinds are responses is read from
their names (log 170). -/
def packetChannel (kind : Nat) : Nat :=
  match kind with
  | 3 | 5 => 2
  | 6 => 3
  | _ => 1

/-- The channel of each flit of a list of packets. -/
def flitChannels (l : List OutPacket) : List Nat :=
  l.flatMap fun k => List.replicate (packetFlits k.data.length k.enc) (packetChannel k.kind)

/-- The header flit of a packet (R308). -/
def OutPacket.header (k : OutPacket) : List Byte :=
  leBytes 256 (k.kind % 16 + k.dst % 4096 * 2 ^ 4 + k.src % 4096 * 2 ^ 16 + k.target % 2 ^ 40 * 2 ^ 32 + k.data.length % 2 ^ 32 * 2 ^ 72
    + k.tag % 2 ^ 32 * 2 ^ 104 + k.total % 2 ^ 32 * 2 ^ 136 + (if k.first then 2 ^ 168 else 0) + (if k.last then 2 ^ 169 else 0)
    + (if k.enc then 2 ^ 170 else 0))

/-- Packets handed to the links, as this device's. -/
def State.sendPackets (s : State) (l : List OutPacket) : State :=
  { s with fabric := { s.fabric with sent := s.fabric.sent ++ l.map fun k => { k with src := s.fabricId } } }

/-- A control packet (R308, R315). -/
def controlPacket (dst : Nat) (what : Control) : OutPacket :=
  { kind := 6, src := 0, dst := dst, target := 0, tag := 0, total := 0, first := true, last := true, enc := false, data := [], flits := []
    answer := 0, control := what }

/-- A frame number n of those that carry flits of the given channels, 32 to a frame, the rest idle (R306, R307). -/
def Port.frame (q : Port) (owner : FrameOwner) (channels : List Nat) (n : Nat) : LinkFrame :=
  let own := (channels.drop (32 * n)).take 32
  { seq := q.txSeq + BitVec.ofNat 16 n, ack := q.rxSeq, vcmap := own ++ List.replicate (32 - own.length) 0
    credits := if n = 0 then q.due else (0, 0), owner := owner, replays := 0 }

/-- Flits handed to a port in frames of 32, each frame with the highest SEQ accepted, the first with the buffer that is due
(R306, R307). -/
def sendFrames (p : Nat) (owner : FrameOwner) (channels : List Nat) (s : State) : State :=
  s.modPort p fun q =>
    let n := (channels.length + 31) / 32
    { q with txSeq := q.txSeq + BitVec.ofNat 16 n, unacked := q.unacked ++ (List.range n).map (q.frame owner channels)
             due := if n = 0 then q.due else (0, 0) }

/-- Packets sent through a port (R308, R316). -/
def State.sendOn (s : State) (p : Nat) (owner : FrameOwner) (l : List OutPacket) : State :=
  sendFrames p owner (flitChannels l) (s.sendPackets l)

/-- A device's port states to the neighbours of this one (R315). -/
def floodStates (device : Nat) (links : List FloodLink) (s : State) : State :=
  (s.fabric.ports.filter fun q => q.2.carries && !q.2.gateway).foldl (fun s q =>
    s.sendOn q.1 .control [controlPacket q.2.neighbour.toNat (.portStates device links)]) s

/-- The states of this device's ports as it floods them (R315). -/
def State.ownStates (s : State) : List FloodLink :=
  s.fabric.ports.map fun q => { port := q.1, neighbour := q.2.neighbour.toNat, width := q.2.width, usable := q.2.carries && !q.2.gateway }

/-- The routes in force when a core's transfer started: those kept for its entry since the routes changed, or the present ones,
which is the flag (R316). -/
def State.routesAt (s : State) (c : CoreId) (entry : BitVec 32) : Tbl (BitVec 32) × Bool :=
  match (s.core c).flight.fabric.pinned.find? fun x => !serialGe 32 entry.toNat x.1.toNat with
  | some x => (x.2, false)
  | none => (s.fabric.routes, true)

/-- The routes change: every transfer that has started keeps those it started under (R316). -/
def setRoutes (table : Tbl (BitVec 32)) (s : State) : State :=
  let old := s.fabric.routes
  let s := s.cores.foldl (fun s k =>
    let c : CoreId := BitVec.ofNat 10 k.1
    let produced := s.fabricProduced c
    if (s.corePart c).any (fun p => (s.part p).job.isSome) ∧ produced ≠ (s.core c).flight.fabric.consumed then
      s.modCore c fun k => { k with flight := { k.flight with fabric := { k.flight.fabric with pinned := k.flight.fabric.pinned ++ [(produced, old)] } } }
    else s) s
  { s with fabric := { s.fabric with routes := table } }

/-- The other members of this device's group. -/
def State.otherMembers (s : State) : List DomainMember :=
  s.fabric.members.filter fun m => m.group == s.dictNat 0x2500 5 0xFFFF && m.id != s.fabricId && m.reachable

/-- The first port toward a device that carries traffic, by the present routes. -/
def State.portToward (s : State) (id : Nat) : Option Nat := ((s.routeTo id).find? fun a => (s.port a.1).carries).map (·.1)

/-- The head computes the table of every member, sends it with the next epoch, and adopts its own (R315). -/
def distributeRoutes (s : State) : State :=
  let epoch := s.fabric.routeEpoch + 1
  let s := setRoutes s.computeRoutes { s with fabric := { s.fabric with routeEpoch := epoch } }
  s.otherMembers.foldl (fun s m => match s.portToward m.id with
    | some p => s.sendOn p .control [controlPacket m.id (.routes epoch (s.routesOf m.id))]
    | none => s) s

/-- New port states or new flooded ones: a device outside any group computes its own table, a head that of every member, and a
member's comes from its head (R315). -/
def redrawRoutes (s : State) : State :=
  if s.fabric.groupState = 1 then s
  else endLostDrains (if s.fabric.groupState = 2 then distributeRoutes s else setRoutes s.computeRoutes s)

/-- This device's port states have changed: it floods them, and the routes are redrawn (R311, R312, R315). -/
def portsChanged (s : State) : State := redrawRoutes (floodStates s.fabricId s.ownStates s)

/-- The port a transfer takes: the first alternative whose running sum of weights exceeds h (R316). -/
def pickPort (h : Nat) : Nat → List (Nat × Nat) → Nat
  | _, [] => 31
  | sum, (p, w) :: t => if h < sum + w then p else pickPort h (sum + w) t

/-- How a transfer finds its port (R311, R312, R316): one to take; none, for the device cannot be reached; one that retrains, for
which it waits; or one that is out by now, so that its flits are lost. -/
inductive PortChoice where
  | take (port : Nat)
  | unreachable
  | wait
  | lost
deriving DecidableEq, Repr

/-- The port of the transfer of a ring's entry to a device: by the routes it started under, those of the present table only
over ports that carry traffic now; for a put also across a gateway port to the device at its other end (R312, R314, R316). A device
whose join was refused reaches none, and none reaches a device that a takeover has fenced (R272, R313). `slot` is the entry's index
in the ring. -/
def State.choosePort (s : State) (c : CoreId) (entry : BitVec 32) (slot id : Nat) (put : Bool) : PortChoice :=
  if s.fabric.takeover.dropped.contains id || s.fabric.joinStatus != 0 then .unreachable
  else
    let table := s.routesAt c entry
    let alts := (routeAlts (Tbl.getD table.1 id routeNone)).filter fun a => !table.2 || (s.port a.1).carries
    let total := (alts.map (·.2)).foldl (· + ·) 0
    if 0 < total then
      let p := pickPort ((c.toNat + slot) % total) 0 alts
      let q := s.port p
      if q.carries then .take p else if q.retraining || q.wanted then .wait else .lost
    else if put then match s.fabric.ports.find? fun q => q.2.gateway && q.2.carries && q.2.neighbour.toNat == id with
      | some q => .take q.1
      | none => .unreachable
    else .unreachable

/-! ## Frames (R309) -/

/-- The port that retrains now, if one does (R312). -/
def State.retrainingPort (s : State) : Option Nat := (s.fabric.ports.find? fun q => q.2.retraining).map (·.1)

/-- A retrain asked for: it begins unless another port is retraining (R312). -/
def askRetrain (p : Nat) (s : State) : State :=
  if (s.port p).retraining then s
  else if s.retrainingPort.isSome then s.modPort p fun q => { q with wanted := true }
  else portsChanged (s.modPort p fun q => { q with retraining := true, wanted := false })

/-- The partition that all the cores of a list belong to, if there is one (R459). -/
def State.commonPart (s : State) (l : List CoreId) : Option Nat :=
  match l with
  | [] => none
  | c :: t => if t.all (fun d => s.corePart d == s.corePart c) then s.corePart c else none

/-- A port goes down: transfers and drains with a flit in an unacknowledged frame fail, the port retrains, and routes exclude it
(R267, R309, R312, R455). -/
def portGoesDown (p : Nat) (s : State) : State :=
  let owners := (s.port p).unacked.map (·.owner)
  let cores := (owners.filterMap fun o => match o with | .core c => some c | _ => none).filter fun c =>
    (s.core c).flight.fabric.current.any fun j => j.ports.contains p
  let drains := (List.range 16).filter fun q => owners.contains (.drain q)
  let s := s.logError { source := 0x0B, part := s.commonPart cores, unit := portUnit p, core := 0x3FF, address := 0, detail := p }
  let s := cores.foldl (fun s c => s.modCore c fun k => { k with flight := { k.flight with fabric := { k.flight.fabric with
      current := k.flight.fabric.current.map fun j => { j with lost := true } } } }) s
  let s := drains.foldl (fun s q => failDrain q s) s
  askRetrain p (s.modPort p fun q => { q with isDown := true, unacked := [] })

/-- PORT_DOWN (R309). A port that carries nothing cannot go down. -/
def execPortDown (port : Nat) (s : State) : Out :=
  .next (if (s.port port).width = 0 ∨ (s.port port).isDown then s else portGoesDown port s)

/-- The partition whose flits a frame carries, if it is one's. -/
def State.ownerPart (s : State) (o : FrameOwner) : Option Nat :=
  match o with
  | .core c => s.corePart c
  | .drain p => some p
  | .answer | .control => none

/-- May a frame be replayed from a SEQ onward: it is one of the 64 that may be outstanding, and not before that SEQ (R309)? -/
def replayed (n : BitVec 16) (i : Nat) (f : LinkFrame) : Bool := decide (i < frameWindow) && serialGe 16 f.seq.toNat n.toNat

/-- Frames replayed from a SEQ onward, at the other end's request, each a corrected event of its transfer's partition (R453,
R455, R459); the eighth replay of one frame in a row takes the port down (R309). -/
def replayFrom (p : Nat) (n : BitVec 16) (s : State) : State :=
  let marked := (s.port p).unacked.zipIdx.map fun f => (f.1, replayed n f.2 f.1)
  let frames := (marked.filter (·.2)).map (·.1)
  if frames.isEmpty then s
  else
    let s := frames.foldl (fun s f =>
      s.logError { source := 0x0A, part := s.ownerPart f.owner, unit := portUnit p, core := 0x3FF, address := 0, detail := p }) s
    let s := s.modPort p fun q => { q with
      framesReplayed := q.framesReplayed + BitVec.ofNat 64 frames.length
      unacked := marked.map fun f => if f.2 then { f.1 with replays := f.1.replays + 1 } else f.1 }
    if frames.any fun f => f.replays + 1 = 8 then portGoesDown p s else s

/-- SEQ of a frame trailer (R307). -/
def trSeq (t : BitVec 256) : BitVec 16 := BitVec.ofNat 16 (field t 0 16)
/-- ACK of a frame trailer. -/
def trAck (t : BitVec 256) : BitVec 16 := BitVec.ofNat 16 (field t 16 16)
/-- CRC of a frame trailer. -/
def trCrc (t : BitVec 256) : Nat := field t 32 32
/-- CREDITS of a frame trailer, request and response. -/
def trCredits (t : BitVec 256) : Nat × Nat := (field t 128 16, field t 144 16)
/-- The flits of a frame on a channel, by VCMAP. -/
def trFlits (t : BitVec 256) (channel : Nat) : Nat := ((List.range 32).filter fun f => field t (64 + 2 * f) 2 == channel).length

/-- The CRC-32 of a frame: over its flits and trailer bits [255:64] (R307). -/
def frameCrc (flits : List Byte) (t : BitVec 256) : Nat := (crc32 (flits ++ leBytes 24 (field t 64 192))).toNat

/-- Pairs added. -/
def addPair (a b : Nat × Nat) : Nat × Nat := (a.1 + b.1, a.2 + b.2)

/-- An accepted frame: SEQ advances, acknowledged frames leave, CREDITS are taken, and the buffer of its flits is due (R307,
R309). -/
def Port.acceptFrame (q : Port) (t : BitVec 256) : Port :=
  { q with rxSeq := trSeq t, retryAsked := none, unacked := q.unacked.filter fun u => !serialGe 16 (trAck t).toNat u.seq.toNat
           credits := addPair q.credits (trCredits t), due := addPair q.due (trFlits t 1, trFlits t 2) }

/-- LINK_FRAME_RECEIVE: accepted when its CRC holds and its SEQ is the next; any other is discarded and a retry asked
for. An accepted frame may carry the other end's retry request (R309). -/
def execLinkFrameReceive (port : Nat) (flits : List Byte) (trailer : BitVec 256) (retry : Option (BitVec 16)) (s : State) : Out :=
  let q := s.port port
  if !q.carries then .next s
  else if trCrc trailer = frameCrc flits trailer ∧ trSeq trailer = q.rxSeq + 1 then
    let s := s.modPort port fun q => q.acceptFrame trailer
    match retry with
    | some n => .next (replayFrom port n s)
    | none => .next s
  else .next (s.modPort port fun q => { q with retryAsked := some (q.rxSeq + 1) })

/-! ## Training (R310–R312) -/

/-- The lanes a port runs on, from those that pass (R311). -/
def trainedWidth (lanes : BitVec 4) : Nat :=
  if lanes = 0xF then 4
  else if (lanes.getLsbD 0 && lanes.getLsbD 1) || (lanes.getLsbD 2 && lanes.getLsbD 3) then 2
  else if lanes = 0 then 0 else 1

/-- LINK_FEC (R398). -/
def State.linkFec (s : State) : Nat := s.dictNat 0x2000 3 0

/-- PORT_GATEWAY of a port (R326). -/
def State.gatewayPort (s : State) (p : Nat) : Bool := s.dictNat 0x2502 (p + 1) 0 != 0

/-- A port as its training leaves it: out when no lane passes, or the neighbour's domain, FEC mode or ID conflicts. -/
def Port.trained (q : Port) (t : PortTraining) (fec : Nat) (gateway : Bool) : Port :=
  let width := if t.conflict || t.neighbourFec != fec then 0 else trainedWidth t.lanes
  { q with width := width, retraining := false, isDown := false, wanted := false, fenced := false, fecMode := fec, gateway := gateway
           neighbour := BitVec.ofNat 12 t.neighbour }

/-- A port trained at start or again, on the lanes that pass and that no defect takes away (R311, R429, R435); a narrow one raises a corrected event (R455). -/
def trainPort (p : Nat) (t : PortTraining) (again : Bool) (s : State) : State :=
  let s := s.modPort p fun q => q.trained { t with lanes := t.lanes &&& s.start.portLanes p } s.linkFec (s.gatewayPort p)
  let w := (s.port p).width
  if again || (w != 0 && w != 4) then
    s.logError { source := 0x0C, part := none, unit := portUnit p, core := 0x3FF, address := 0, detail := p }
  else s

/-- The lowest port whose retrain is waiting begins it. -/
def nextRetrain (s : State) : State :=
  match s.fabric.ports.find? fun q => q.2.wanted with
  | some q => askRetrain q.1 s
  | none => s

/-- PORT_RETRAIN_COMPLETE: the retrain in progress ends, with the port trained or out (R312). -/
def execPortRetrainComplete (port : Nat) (training : PortTraining) (s : State) : Out :=
  if !(s.port port).retraining then .next s
  else
    let s := s.modPort port fun q => { q with retrains := min 255 (q.retrains + 1) }
    .next (nextRetrain (portsChanged (trainPort port training true s)))

/-- PORT_STATE_FLOOD: another device's port states, which new ones make this device pass on (R315). What a takeover has fenced
floods nothing (R272). -/
def execPortStateFlood (device : Nat) (links : List FloodLink) (s : State) : Out :=
  if Tbl.get? s.fabric.topology device = some links ∨ device ∈ s.fabric.takeover.dropped then .next s
  else .next (redrawRoutes (floodStates device links { s with fabric := { s.fabric with topology := Tbl.put s.fabric.topology device links } }))

/-- ROUTE_EPOCH_ADOPT: a member adopts the table its head sent, at its epoch (R315). A head has adopted its own. -/
def execRouteEpochAdopt (epoch : BitVec 32) (table : List (Nat × BitVec 32)) (s : State) : Out :=
  if s.fabric.groupState = 1 then
    let s := setRoutes (table.foldl (fun t e => Tbl.put t e.1 e.2) []) { s with fabric := { s.fabric with routeEpoch := epoch } }
    .next (endLostDrains s)
  else .next s

/-! ## Joining a domain, ring groups (R313, R325) -/

/-- The fabric ID a device asks for; 0xFFFF asks to be given one (R313). -/
def State.wantedId (s : State) : Nat := s.dictNat 0x2500 1 0xFFFF

/-- The lowest fabric ID that no member holds. -/
def freeId (members : List DomainMember) : Option Nat := (List.range 4096).find? fun n => !members.any fun m => m.id == n

/-- JOIN_STATUS and the ID of a join (R313, R326). -/
def joinResult (s : State) (members : List DomainMember) : Nat × Option Nat :=
  let w := s.wantedId
  if w < 4096 then (if members.any fun m => m.id == w then (2, none) else (0, some w))
  else if !(members.any (·.registrar) || s.dictNat 0x2500 3 0 != 0) then (3, none)
  else match freeId members with
    | some n => (0, some n)
    | none => (1, none)

/-- This device as a member of its domain. -/
def State.self (s : State) : DomainMember :=
  { id := s.fabricId, serial := Config.serial.toNat, group := s.dictNat 0x2500 5 0xFFFF
    candidate := s.dictNat 0x2500 6 0 != 0, registrar := s.dictNat 0x2500 3 0 != 0, reachable := true }

/-- The member of lowest serial number. -/
def lowestSerial (l : List DomainMember) : Option DomainMember :=
  l.foldl (fun m x => match m with
    | none => some x
    | some y => some (if x.serial < y.serial then x else y)) none

/-- The members of a ring group: of those that claim it, the 32 of lowest serial number; a device that a takeover has replaced
is none (R273, R325). -/
def groupMembers (replaced : List Nat) (l : List DomainMember) (g : Nat) : List DomainMember :=
  let claim := l.filter fun m => m.group == g && !replaced.contains m.serial
  claim.filter fun m => decide ((claim.filter fun x => decide (x.serial < m.serial)).length < 32)

/-- The head of a group: the candidate of lowest serial number, or without one the lowest serial number (R325). -/
def headOf (l : List DomainMember) : Option DomainMember :=
  match lowestSerial (l.filter (·.candidate)) with
  | some m => some m
  | none => lowestSerial l

/-- GROUP_STATE and HEAD_ID from the members of the domain that can be reached (R325, R326). -/
def State.formGroup (s : State) : State :=
  let me := s.self
  if me.group = 0xFFFF ∨ s.fabric.assignedId = 0xFFFF then
    { s with fabric := { s.fabric with groupState := 0, headId := 0xFFFF } }
  else
    let all := groupMembers s.fabric.replaced (me :: s.fabric.members) me.group
    if !all.any (fun m => m.id == me.id) then { s with fabric := { s.fabric with groupState := 3, headId := 0xFFFF } }
    else match headOf (all.filter (·.reachable)) with
      | some h => { s with fabric := { s.fabric with groupState := if h.id = me.id then 2 else 1, headId := BitVec.ofNat 16 h.id } }
      | none => s

/-- FABRIC_JOIN: the device joins its domain with the ID it holds or is given, or is refused; its ring group forms
(R313, R325). -/
def execFabricJoin (members : List DomainMember) (s : State) : Out :=
  let r := joinResult s members
  .next (portsChanged (State.formGroup { s with fabric := { s.fabric with
    joinStatus := r.1, members := members, assignedId := match r.2 with | some n => BitVec.ofNat 16 n | none => 0xFFFF } }))

/-- HEAD_FAILOVER: the group's head can no longer be reached; the member that the same rule selects becomes head, which owns the
route tables from then on (R315, R325). -/
def execHeadFailover (members : List DomainMember) (s : State) : Out :=
  .next (redrawRoutes (State.formGroup { s with fabric := { s.fabric with members := members } }))

/-! ## Link sessions (R371) -/

/-- The session of a partition with a peer. -/
def State.session (s : State) (part peer : Nat) : Option LinkSession := s.fabric.sessions.find? fun x => x.part == part && x.peer == peer

/-- The number of a fresh key or nonce: the DRBG output it is made of. The DRBG is seeded again every 2^20 requests (R355). -/
def State.newKey (s : State) : Nat × State :=
  let again := decide (2 ^ 20 ≤ s.rtp.drbgSince)
  (s.rtp.drbgCount, { s with rtp := { s.rtp with
    drbgCount := s.rtp.drbgCount + 1, drbgSince := if again then 1 else s.rtp.drbgSince + 1
    drbgSeeds := if again then s.rtp.drbgSeeds + 1 else s.rtp.drbgSeeds } })

/-- A self-test or conditional test of the RTP fails: its error state, with the test's number (R359). -/
def rtpFails (test : Nat) (s : State) : State :=
  { s with rtp := { s.rtp with error := true, errorSinceStart := true, selfTestFailed := BitVec.ofNat 16 test } }

/-- LINK_SESSION_ESTABLISH: both RTPs' proofs hold, and each direction has its key (R371). The RTP makes no key in its error state,
and enters it where a conditional test or the port engine's known-answer test fails (R359). -/
def execLinkSessionEstablish (part peer : Nat) (proofOk : Bool) (testFailed : Option Nat) (s : State) : Out :=
  if !proofOk || s.rtp.error || !s.confidential (some part) || (s.session part peer).isSome then .next s
  else if testFailed.isSome then .next (rtpFails (testFailed.getD 0) s)
  else
    let a := s.newKey
    let b := a.2.newKey
    .next { b.2 with fabric := { b.2.fabric with
      sessions := b.2.fabric.sessions ++ [{ part := part, peer := peer, keyOut := a.1, keyIn := b.1, countOut := 0, countIn := 0 }] } }

/-- A session changed. -/
def State.modSession (s : State) (part peer : Nat) (f : LinkSession → LinkSession) : State :=
  { s with fabric := { s.fabric with sessions := s.fabric.sessions.map fun x => if x.part = part ∧ x.peer = peer then f x else x } }

end Sys2Proof.Machine
end

