-- ==== Sys2Proof/Machine/Fabric.lean ====
section
/-! DEFINITION. Fabric transfers: the engine of a core's ring, its operations, its completions, and the packets that
peers send to this device's grants (R302, R303, R316–R324, R371). -/

namespace Sys2Proof.Machine

/-! ## Member sets and multicast groups (R286, R302, R323) -/

/-- KIND of a member-set word. -/
def memberKind (w : Nat) : Nat := bits w 0 2

/-- Has a member-set word a reserved bit or encoding: KIND 3, bits 31–30, or KIND 2 with [13:10] not zero (R286, R287)? -/
def memberReserved (w : Nat) : Bool := memberKind w == 3 || bits w 30 2 != 0 || (memberKind w == 2 && bits w 10 4 != 0)

/-- The core of a die at a row and column. -/
def coreOf (die row col : Nat) : CoreId := BitVec.ofNat 10 (256 * die + 16 * row + col)

/-- The group-table entry that a member-set word names on a die. -/
def State.groupEntry (s : State) (die w : Nat) : BitVec 256 := Tbl.getD s.fabric.groups (256 * die + bits w 2 8) 0

/-- VALID of a group-table entry. -/
def groupValid (e : BitVec 256) : Bool := e.getLsbD 192

/-- The cores of a die that a mask of R302 names. -/
def maskCores (die : Nat) (m : BitVec 256) : List CoreId :=
  ((List.range 192).filter fun i => m.getLsbD i).map fun i => coreOf die (i / 16) (i % 16)

/-- The member cores of a member-set word on a die (R286). -/
def State.memberCores (s : State) (die w : Nat) : List CoreId :=
  if memberKind w = 1 then
    (List.range 12).flatMap fun r => ((List.range 16).filter fun c => bit w (2 + r) && bit w (14 + c)).map fun c => coreOf die r c
  else if memberKind w = 2 then (if groupValid (s.groupEntry die w) then maskCores die (s.groupEntry die w) else [])
  else []

/-- COUNT of a multicast group. -/
def mcastCount (e : BitVec 512) : Nat := field e 384 6
/-- The members' fabric IDs of a multicast group (R323). -/
def mcastIds (e : BitVec 512) : List Nat := (List.range (mcastCount e)).map fun m => field e (12 * m) 12

/-- The members of group g as a transfer of a partition may use it: in use, of the partition, this device among them. -/
def State.mcastMembers (s : State) (p g : Nat) : Option (List Nat) :=
  match Tbl.get? s.fabric.mcast g with
  | none => none
  | some e => if e.1 = p ∧ e.2.getLsbD 390 ∧ (mcastIds e.2).contains s.fabricId then some (mcastIds e.2) else none

/-! ## The descriptor (R318) -/

/-- OP. -/
def fdOp (r : BitVec 512) : Nat := field r 0 8
/-- SEM. -/
def fdSem (r : BitVec 512) : Nat := field r 8 5
/-- RESUME. -/
def fdResume (r : BitVec 512) : Bool := r.getLsbD 13
/-- RFMT. -/
def fdRfmt (r : BitVec 512) : Nat := field r 16 4
/-- GROUP. -/
def fdGroup (r : BitVec 512) : Nat := field r 24 10
/-- DIES. -/
def fdDies (r : BitVec 512) : Nat := field r 36 4
/-- SRC. -/
def fdSrc (r : BitVec 512) : Word := BitVec.ofNat 64 (field r 64 64)
/-- DST. -/
def fdDst (r : BitVec 512) : Word := BitVec.ofNat 64 (field r 128 64)
/-- BYTES. -/
def fdBytes (r : BitVec 512) : Nat := field r 192 32
/-- SET. -/
def fdSet (r : BitVec 512) : Nat := field r 224 32

/-- The member cores of a PUT_SET on every die of DIES. -/
def State.setMembers (s : State) (r : BitVec 512) : List CoreId :=
  ((List.range 4).filter fun d => bit (fdDies r) d).flatMap fun d => s.memberCores d (fdSet r)

/-! ## Checks (R319, R322) -/

/-- Is a device address range in the peer window of one device (R171)? -/
def inPeerWindow (a n : Nat) : Bool := spanRegion a n == .peer && a / 2 ^ 40 == (a + n - 1) / 2 ^ 40

/-- The device that a peer-window address names. -/
def peerDevice (a : Nat) : Nat := bits a 40 12
/-- The offset into that device's HBM region. -/
def peerOffset (a : Nat) : Nat := bits a 0 40

/-- The span of a side of a fabric transfer. -/
def fabricSpan (seg : BitVec 256) (a : Word) (n : Nat) : Span :=
  { seg := seg, addr := a, lo := offsetOf a, hi := (offsetOf a : Int) + n - 1 }

/-- One check of R178 on a side that lies on this device, or in a peer window; true where it fails. -/
def Span.fabricFails (s : State) (p : Option Nat) (q : Span) (dst peer : Bool) (f : AccessFault) : Bool :=
  match f with
  | .scope => q.formed && !(if peer then inPeerWindow q.dev q.size
      else (spanRegion q.dev q.size == .localStore || spanRegion q.dev q.size == .hbm) && s.inPart p q.dev q.size)
  | .limit => !q.formed || decide ((segLimit q.seg : Int) < q.hi)
  | .rights => !segGrants q.seg (if dst then .wr else .rd)
  | .align => q.dev % 64 != 0

/-- Does one check of R178 fail on the destination of a transfer? A PUT_SET's is its members' local stores within the
job's reservation; a PUT_GROUP's alignment alone is judged here. -/
def fabricDstFails (s : State) (p : Option Nat) (r : BitVec 512) (dst : Span) (f : AccessFault) : Bool :=
  match fdOp r, f with
  | 3, .scope => (s.setMembers r).any fun c => s.corePart c != p
  | 3, .limit => match p.bind fun q => (s.part q).job with
    | some j => decide (j.lsBytes < bits (fdDst r).toNat 0 23 + fdBytes r)
    | none => true
  | 3, .align => bits (fdDst r).toNat 0 6 != 0
  | 4, .align => bits (fdDst r).toNat 0 6 != 0
  | 3, _ | 4, _ => false
  | op, f => dst.fabricFails s p true (op == 1) f

/-- The earliest check of R178 that a side fails, the source first (R319). -/
def fabricAccess (s : State) (p : Option Nat) (r : BitVec 512) (src dst : Span) : Option AccessFault :=
  [AccessFault.scope, .limit, .rights, .align].find? fun f => src.fabricFails s p false (fdOp r == 2) f || fabricDstFails s p r dst f

/-- Is a reserved bit of a fabric descriptor not zero (R318)? -/
def fdReserved (r : BitVec 512) : Bool :=
  field r 14 2 != 0 || field r 20 4 != 0 || field r 34 2 != 0 || field r 40 24 != 0 || field r 320 192 != 0

/-- BAD_DESCRIPTOR with cause FIELD (R319, R322). -/
def badField (s : State) (r : BitVec 512) (dst : BitVec 256) : Bool :=
  let op := fdOp r
  op == 0 || decide (5 < op) || fdReserved r || fdBytes r == 0 || fdBytes r % 64 != 0
    || (op == 5 && decide (1 < fdRfmt r))
    || (op == 3 && (memberReserved (fdSet r) || (s.setMembers r).isEmpty))
    || ((op == 2 || op == 5) && segValid dst && segWax dst && !segPacked dst && (offsetOf (fdDst r) % 4096 != 0 || fdBytes r % 4096 != 0))

/-- Cause FIELD (R322). -/
def causeField : Nat := 0x0A
/-- Cause LINK (R322). -/
def causeLink : Nat := 0x0B
/-- Cause REMOTE (R322). -/
def causeRemote : Nat := 0x0C
/-- Cause UNREACHABLE (R322). -/
def causeUnreachable : Nat := 0x0D
/-- Cause MISMATCH (R322). -/
def causeMismatch : Nat := 0x0E
/-- Cause GROUP (R322). -/
def causeGroup : Nat := 0x0F

/-! ## Packets (R308) -/

/-- The largest payload of a packet. -/
def packetBytes : Nat := 1048576

/-- The poison marks of 256-byte flits of marked bytes (R449). -/
def flitMarks (l : List MByte) : List Bool := (List.range ((l.length + 255) / 256)).map fun i => anyMarked ((l.drop (256 * i)).take 256)

/-- Bytes with the marks of the flits that bring them. -/
def flitBytes (data : List Byte) (flits : List Bool) : List MByte := data.zipIdx.map fun b => (b.1, (flits[b.2 / 256]?).getD false)

/-- The packets of n bytes of data: TOTAL names the whole transfer, FIRST and LAST its ends. -/
def dataPackets (kind dst target tag total : Nat) (enc : Bool) (data : List MByte) : List OutPacket :=
  let n := (data.length + packetBytes - 1) / packetBytes
  (List.range n).map fun i =>
    let part := (data.drop (packetBytes * i)).take packetBytes
    { kind := kind, src := 0, dst := dst, target := target + packetBytes * i, tag := tag, total := if i = 0 then total else 0
      first := i == 0, last := decide (packetBytes * i + part.length = total), enc := enc
      data := plainBytes part, flits := flitMarks part, answer := 0, control := .none }

/-- Packets of a session sent or received: its counter of that direction rises (R371). -/
def State.countPackets (s : State) (part peer : Nat) (outbound : Bool) (n : Nat) : State :=
  s.modSession part peer fun x => if outbound then { x with countOut := x.countOut + n } else { x with countIn := x.countIn + n }

/-- May a transfer of a partition send to a peer now: a confidential one waits for its session and its rekey (R371)? -/
def State.sessionReady (s : State) (part peer : Nat) : Bool :=
  !s.confidential (some part) || (s.session part peer).any fun x => decide (x.countOut < 2 ^ 48)

/-! ## The ring (R317, R322) -/

/-- A core's fabric ring changed. -/
def State.modFabricRing (s : State) (c : CoreId) (f : FabricRing → FabricRing) : State :=
  s.modCore c fun k => { k with flight := { k.flight with fabric := f k.flight.fabric } }

/-- The device address of the entry that a count of a core's fabric ring names (R317). -/
def fabricEntryAddr (j : Job) (c : CoreId) (n : Nat) : Nat := lsBase c + j.fabricOfs + 0x40 + 64 * (n % j.fabricEntries)

/-- The next entry that the engine of a core may take. -/
def nextFabricEntry (c : CoreId) (s : State) : Option (Nat × Job × BitVec 512) :=
  match s.corePart c with
  | none => none
  | some p =>
    match (s.part p).job with
    | none => none
    | some j =>
      let k := s.core c
      let x := k.flight.fabric
      let ahead := (s.fabricProduced c - x.consumed).toNat
      if ahead = 0 ∨ 2 ^ 31 ≤ ahead ∨ x.current.isSome ∨ (s.part p).resetting ∨ (s.part p).fatal ∨ k.flight.resetting
          ∨ !k.flight.writesBefore k.flight.seq then none
      else some (p, j, BitVec.ofNat 512 (s.readNat (fabricEntryAddr j c x.consumed.toNat) 64))

/-- The transfer that the engine takes becomes its current one. -/
def beginFabric (c : CoreId) (r : BitVec 512) (dst : BitVec 256) (ports : List Nat) (o : Option DescOutcome) (s : State) : State :=
  s.modFabricRing c fun x => { x with current := some { raw := r, dstSeg := dst, ports := ports, lost := false, reduced := none, outcome := o } }

/-- A transfer whose source is about to be read: the core, its partition and job, the entry, the segments, the sides. -/
structure FabricRun where
  core : CoreId
  part : Nat
  job : Job
  raw : BitVec 512
  srcSeg : BitVec 256
  dstSeg : BitVec 256

/-- The bytes of a transfer's source, with the state after the read: its ECC events and its wax errors. -/
def FabricRun.source (x : FabricRun) (env : TransferEnv) (n : Nat) (s : State) : List MByte × State :=
  let s := s.eccEvents env.ecc
  let ofs := offsetOf (fdSrc x.raw)
  let d := s.readSeg (some x.part) x.srcSeg .reset ofs n
  (d.1, wakeFor (segDomains x.core x.srcSeg) ((s.waxErrors (some x.part) x.srcSeg d.2).countMarkedAt x.core (segAddr x.srcSeg ofs) n))

/-- How many bytes of a transfer are moved before a no-value error, and the outcome it brings (R322, R452). -/
def lostAt (env : TransferEnv) (n : Nat) : Nat × Option DescOutcome :=
  match env.noValue with
  | some k => if k < n then (k, some { nothingMoved 0x06 causeData with done := k }) else (n, none)
  | none => (n, none)

/-- The port of a transfer to a device (R316). -/
def FabricRun.port (x : FabricRun) (s : State) (id : Nat) (put : Bool) : PortChoice :=
  let n := (s.core x.core).flight.fabric.consumed
  s.choosePort x.core n (n.toNat % x.job.fabricEntries) id put

/-- A transfer that fails before anything moves (R315, R316). -/
def FabricRun.fail (x : FabricRun) (cause : Nat) (s : State) : State :=
  beginFabric x.core x.raw x.dstSeg [] (some (nothingMoved 0x06 cause)) s

/-- PUT: the source's bytes as packets to the peer segment's device (R319). -/
def runPut (x : FabricRun) (env : TransferEnv) (s : State) : State :=
  let a := segAddr x.dstSeg (offsetOf (fdDst x.raw))
  let enc := s.confidential (some x.part)
  match x.port s (peerDevice a) true with
  | .unreachable => x.fail causeUnreachable s
  | .lost => x.fail causeLink s
  | .wait => s
  | .take port =>
    if !s.sessionReady x.part (peerDevice a) then s
    else
      let cut := lostAt env (fdBytes x.raw)
      let d := x.source env cut.1 s
      let tag := d.2.fresh
      let l := dataPackets 1 (peerDevice a) (peerOffset a) (tag.1.toNat % 2 ^ 32) (fdBytes x.raw) enc d.1
      let s := ((tag.2.sendOn port (.core x.core) l).countPackets x.part (peerDevice a) true l.length).countPerf x.core 0x0A cut.1
      beginFabric x.core x.raw x.dstSeg [port] cut.2 s

/-- GET: a request for the peer's bytes (R319); none crosses a gateway (R314). -/
def runGet (x : FabricRun) (s : State) : State :=
  let a := segAddr x.srcSeg (offsetOf (fdSrc x.raw))
  match x.port s (peerDevice a) false with
  | .unreachable => x.fail causeUnreachable s
  | .lost => x.fail causeLink s
  | .wait => s
  | .take port =>
    if !s.sessionReady x.part (peerDevice a) then s
    else
      let tag := s.fresh
      let k : OutPacket := { kind := 2, src := 0, dst := peerDevice a, target := peerOffset a, tag := tag.1.toNat % 2 ^ 32, total := fdBytes x.raw
                             first := true, last := true, enc := s.confidential (some x.part), data := [], flits := [], answer := 0, control := .none }
      beginFabric x.core x.raw x.dstSeg [port] none ((tag.2.sendOn port (.core x.core) [k]).countPackets x.part (peerDevice a) true 1)

/-- PUT_SET: the source's bytes into the local store of every member (R303, R319). -/
def runPutSet (x : FabricRun) (env : TransferEnv) (s : State) : State :=
  let cut := lostAt env (fdBytes x.raw)
  let d := x.source env cut.1 s
  let s := (s.setMembers x.raw).foldl (fun s c => wakeFor (accessDomains (dieUnit x.core) (lsBase c)) (s.putMarked (lsBase c + bits (fdDst x.raw).toNat 0 23) d.1)) d.2
  beginFabric x.core x.raw x.dstSeg [] (some (cut.2.getD { nothingMoved 0 0 with done := cut.1 })) (s.countPerf x.core 0x0A cut.1)

/-- One more destination of a PUT_GROUP. -/
def putToMember (x : FabricRun) (tag : Nat) (data : List MByte) (s : State) (peer : Nat × Nat) : State :=
  let l := dataPackets 1 peer.1 (bits (fdDst x.raw).toNat 0 40) tag (fdBytes x.raw) (s.confidential (some x.part)) data
  (s.sendOn peer.2 (.core x.core) l).countPackets x.part peer.1 true l.length

/-- The ports toward a list of devices: one for each, or the first reason that stops the transfer. -/
inductive PortChoices where
  | take (ports : List Nat)
  | unreachable
  | wait
  | lost

/-- One more port in front of those of the devices after it. -/
def PortChoices.cons (c : PortChoice) (l : PortChoices) : PortChoices :=
  match c, l with
  | .take p, .take ps => .take (p :: ps)
  | .unreachable, _ => .unreachable
  | .lost, .unreachable => .unreachable
  | .lost, _ => .lost
  | .wait, .take _ => .wait
  | _, r => r

/-- The ports toward a list of devices: where one cannot be reached the transfer fails, where one is lost it fails too, and
where one retrains it waits. -/
def FabricRun.ports (x : FabricRun) (s : State) (put : Bool) (ids : List Nat) : PortChoices :=
  ids.foldr (fun d r => PortChoices.cons (x.port s d put) r) (.take [])

/-- PUT_GROUP: the source's bytes to every other member of the group (R319). -/
def runPutGroup (x : FabricRun) (peers : List Nat) (env : TransferEnv) (s : State) : State :=
  match x.ports s true peers with
  | .unreachable => x.fail causeUnreachable s
  | .lost => x.fail causeLink s
  | .wait => s
  | .take ports =>
    if !peers.all (s.sessionReady x.part) then s
    else
      let cut := lostAt env (fdBytes x.raw)
      let d := x.source env cut.1 s
      let tag := d.2.fresh
      let s := (peers.zip ports).foldl (putToMember x (tag.1.toNat % 2 ^ 32) d.1) tag.2
      let o := if peers.isEmpty then some (cut.2.getD { nothingMoved 0 0 with done := cut.1 }) else cut.2
      beginFabric x.core x.raw x.dstSeg ports o (s.countPerf x.core 0x0A (cut.1 * peers.length))

/-! ## All-reduce (R324) -/

/-- Bytes of one element of an ALLREDUCE. -/
def rfmtBytes (rfmt : Nat) : Nat := if rfmt = 0 then 4 else 2

/-- The FP32 elements of a member's vector (R324). -/
def rfmtElements (rfmt : Nat) (data : List Byte) : List Nat :=
  let w := rfmtBytes rfmt
  (pieces w (data.length / w) data).map fun e => if rfmt = 0 then leNat e else fp32.encode (bf16.decode (leNat e))

/-- The largest power of two below n, for n ≥ 2. -/
def powerBelow (n : Nat) : Nat := 2 ^ Nat.log2 (n - 1)

/-- R(0, n − 1) of n values: the left part holds the largest power of two below n of them; `fuel` bounds the depth. -/
def reduceMembers : Nat → List Nat → Nat
  | 0, l => l.headD 0
  | fuel + 1, l =>
    match l with
    | [] => 0
    | [v] => v
    | _ => addF32 (reduceMembers fuel (l.take (powerBelow l.length))) (reduceMembers fuel (l.drop (powerBelow l.length)))

/-- The result of an all-reduce over the members' vectors in ascending fabric-ID order. -/
def reduceVectors (rfmt : Nat) (vs : List (List Byte)) : List Byte :=
  let es := vs.map (rfmtElements rfmt)
  (List.range (es.headD []).length).flatMap fun i =>
    let v := reduceMembers es.length (es.map fun e => e.getD i 0)
    leBytes (rfmtBytes rfmt) (if rfmt = 0 then v else bf16.encode (fp32.decode v))

/-- This member's vector sent to another member (R308, R324). -/
def reduceToMember (x : FabricRun) (tag : Nat) (data : List MByte) (s : State) (peer : Nat × Nat) : State :=
  let l := dataPackets 4 peer.1 0 tag (fdBytes x.raw) (s.confidential (some x.part)) data
  (s.sendOn peer.2 (.core x.core) l).countPackets x.part peer.1 true l.length

/-- The transfer in progress of a core keeps the result it has to write. -/
def keepResult (c : CoreId) (result : List Byte) (s : State) : State :=
  s.modFabricRing c fun x => { x with current := x.current.map fun j => { j with reduced := some result } }

/-- ALLREDUCE: once every other member has posted, the vectors go out and are added in the order of their IDs; the result is
written as the transfer completes. Unequal postings, lost data and poison fail it, and so does a port that goes down (R309,
R321, R324). Which members a member sends its vector to is open; here all of them (log 171). -/
def runAllreduce (x : FabricRun) (ids : List Nat) (env : TransferEnv) (posted : List PeerVector) (s : State) : State :=
  let others := ids.filter (· != s.fabricId)
  match x.ports s false others with
  | .unreachable => x.fail causeUnreachable s
  | .lost => x.fail causeLink s
  | .wait => s
  | .take ports =>
    let found := others.filterMap fun d => posted.find? fun v => v.id == d
    if !others.all (s.sessionReady x.part) || found.length != others.length then s
    else
      let n := fdBytes x.raw
      let stop (cause : Nat) (s : State) : State := beginFabric x.core x.raw x.dstSeg ports (some (nothingMoved 0x06 cause)) s
      if found.any fun v => v.bytes != n || v.rfmt != fdRfmt x.raw then stop causeMismatch s
      else
        let d := x.source env n s
        let tag := d.2.fresh
        let s := ((others.zip ports).foldl (reduceToMember x (tag.1.toNat % 2 ^ 32) d.1) tag.2).countPerf x.core 0x0A n
        if env.noValue.isSome then stop causeData s
        else if anyMarked d.1 || found.any (·.poisoned) then stop causePoison s
        else
          let vs := ids.map fun i => if i = s.fabricId then plainBytes d.1 else ((found.find? fun v => v.id == i).map (·.data)).getD []
          keepResult x.core (reduceVectors (fdRfmt x.raw) vs) (beginFabric x.core x.raw x.dstSeg ports none s)

/-! ## Taking an entry -/

/-- An entry that the engine takes and does not skip: its checks, then its operation (R319, R322). -/
def runFabric (c : CoreId) (p : Nat) (j : Job) (r : BitVec 512) (env : TransferEnv) (posted : List PeerVector) (s : State) : State :=
  let src := s.segOf (some p) (fdSrc r)
  let dst := if fdOp r = 3 ∨ fdOp r = 4 then 0 else s.segOf (some p) (fdDst r)
  let x : FabricRun := { core := c, part := p, job := j, raw := r, srcSeg := src, dstSeg := dst }
  let refuse (status cause : Nat) : State := beginFabric c r dst [] (some (nothingMoved status cause)) s
  if badField s r dst then refuse 0x02 causeField
  else
    let group := s.mcastMembers p (fdGroup r)
    if (fdOp r = 4 ∨ fdOp r = 5) ∧ group.isNone then refuse 0x02 causeGroup
    else match fabricAccess s (some p) r (fabricSpan src (fdSrc r) (fdBytes r)) (fabricSpan dst (fdDst r) (fdBytes r)) with
      | some f => refuse 0x05 f.code
      | none =>
        match fdOp r with
        | 1 => runPut x env s
        | 2 => runGet x s
        | 3 => runPutSet x env s
        | 4 => runPutGroup x ((group.getD []).filter (· != s.fabricId)) env s
        | _ => runAllreduce x (group.getD []) env posted s

/-- The engine of a core takes its next ring entry, of the operation of a row or of none; in the skipping state it
completes without action, unless RESUME is set (R317, R322). -/
def takeFabric (op : Nat) (c : CoreId) (env : TransferEnv) (posted : List PeerVector) (s : State) : State :=
  let s' := runPending c s
  match nextFabricEntry c s' with
  | none => s
  | some (p, j, r) =>
    if !(fdOp r == op || fdOp r == 0 || decide (5 < fdOp r)) then s
    else
      let skip := (s'.core c).flight.fabric.skipping && !fdResume r
      let s := s'.modFabricRing c fun x => { x with skipping := skip }
      if skip then beginFabric c r 0 [] (some (nothingMoved 0x03 0)) s else runFabric c p j r env posted s

/-- PUT (R319). -/
def execPut (core : CoreId) (env : TransferEnv) (s : State) : Out := .next (takeFabric 1 core env [] s)

/-- GET (R319). -/
def execGet (core : CoreId) (s : State) : Out := .next (takeFabric 2 core { noValue := none, ecc := [] } [] s)

/-- PUT_SET (R319). -/
def execPutSet (core : CoreId) (env : TransferEnv) (s : State) : Out := .next (takeFabric 3 core env [] s)

/-- PUT_GROUP (R319). -/
def execPutGroup (core : CoreId) (env : TransferEnv) (s : State) : Out := .next (takeFabric 4 core env [] s)

/-- ALLREDUCE (R319, R324). -/
def execAllreduce (core : CoreId) (env : TransferEnv) (peers : List PeerVector) (s : State) : Out := .next (takeFabric 5 core env peers s)

/-! ## Completion (R321, R322) -/

/-- The outcome of a transfer whose far side has answered (R309, R320, R322, R371). -/
def fabricOutcome (j : FabricJob) (a : PeerAnswer) : DescOutcome :=
  let done := if fdOp j.raw = 2 then min a.data.length (fdBytes j.raw) else if fdOp j.raw = 5 then 0 else min a.done (fdBytes j.raw)
  match j.outcome with
  | some o => o
  | none =>
    if j.lost then { nothingMoved 0x06 causeLink with done := done }
    else match a.verdict with
      | .ok => { nothingMoved 0 0 with done := fdBytes j.raw }
      | .refused => nothingMoved 0x05 causeRemote
      | .link => { nothingMoved 0x06 causeLink with done := done }
      | .reset => { nothingMoved 0x06 causeRemote with done := done }
      | .badTag => { nothingMoved 0x06 causeData with done := done }

/-- A packet that came with an invalid tag is logged as a security event, in the health range too (R371, R455). -/
def securityEvent (p address : Nat) (s : State) : State :=
  ({ s with errors := { s.errors with security := s.errors.security + 1 } } : State).logError
    { source := 0x0F, part := some p, unit := 0x20, core := 0x3FF, address := address, detail := 0 }

/-- The result of an all-reduce that completes OK is written at its destination (R324). -/
def landReduced (p : Nat) (j : FabricJob) (o : DescOutcome) (s : State) : State :=
  match j.reduced with
  | some l => if o.status = 0 ∧ !(s.part p).resetting then s.writeSeg (some p) j.dstSeg (offsetOf (fdDst j.raw)) (l.map fun b => (b, false)) else s
  | none => s

/-- What a GET brought is written at its destination, each flit's mark with its bytes (R319, R449); a partition being reset
absorbs it (R304). -/
def landGet (p : Nat) (j : FabricJob) (a : PeerAnswer) (s : State) : State :=
  if fdOp j.raw = 2 ∧ j.outcome.isNone ∧ a.verdict ≠ .refused then
    let data := (flitBytes a.data a.flits).take (fdBytes j.raw)
    let peer := peerDevice (segAddr (s.segOf (some p) (fdSrc j.raw)) (offsetOf (fdSrc j.raw)))
    let s := s.countPackets p peer false ((data.length + packetBytes - 1) / packetBytes)
    let s := if a.verdict = .badTag then securityEvent p (segAddr j.dstSeg (offsetOf (fdDst j.raw)) + data.length) s else s
    if (s.part p).resetting then s else s.writeSeg (some p) j.dstSeg (offsetOf (fdDst j.raw)) data
  else s

/-- A transfer completes: STATUS, CAUSE and DONE into its entry, CONSUMED advances, the semaphore rises, and an error
makes the ring skip. -/
def completeFabric (c : CoreId) (p : Nat) (job : Job) (j : FabricJob) (a : PeerAnswer) (s : State) : State :=
  let o := fabricOutcome j a
  let s := wakeFor (rowDomain c :: segDomains c j.dstSeg) ((landReduced p j o (landGet p j a s)).countTimes c)
  let n := (s.core c).flight.fabric.consumed
  let s := s.put (fabricEntryAddr job c n.toNat + 32) (o.status :: o.cause :: leBytes 6 o.done) false
  let s := s.put (lsBase c + job.fabricOfs + 4) (leBytes 4 (n + 1).toNat) false
  let s := s.modFabricRing c fun x => { x with
    consumed := n + 1, current := none, pinned := x.pinned.filter (fun y => !serialGe 32 (n + 1).toNat y.1.toNat), skipping := x.skipping || !(o.status == 0 || o.status == 3) }
  (s.signalDone c (fdSem j.raw)).disturb (some p)

/-! ## Traffic from peers (R320, R304, R371) -/

/-- The device address of an offset into this device's HBM region. -/
def hbmOffset (t : Nat) : Nat := 0x02000000000000 + t

/-- The partition whose peer grant of a sender holds n bytes at a device address (R320). -/
def State.grantFor (s : State) (sender a n : Nat) : Option Nat :=
  (List.range 16).find? fun p => (s.part p).grants.any fun g => g.sender == sender && decide (g.base ≤ a) && decide (a + n ≤ g.base + g.bytes)

/-- Packets that answer a peer, over the first port toward it that carries traffic; where there is none they wait unsent. -/
def State.replyPackets (s : State) (peer : Nat) (l : List OutPacket) : State :=
  match s.portToward peer with
  | some p => s.sendOn p .answer l
  | none => s.sendPackets l

/-- A transfer answer to a peer: STATUS × 256 + CAUSE. -/
def State.answerPeer (s : State) (sender tag code : Nat) : State :=
  s.replyPackets sender [{ kind := 5, src := 0, dst := sender, target := 0, tag := tag, total := 0, first := true, last := true, enc := false
                           data := [], flits := [], answer := code, control := .none }]

/-- The incoming transfer of a sender and tag. -/
def State.incomingOf (s : State) (sender tag : Nat) : Option Incoming := s.fabric.incoming.find? fun x => x.sender == sender && x.tag == tag

/-- The incoming transfer of a sender and tag put in place, or ended. -/
def State.putIncoming (s : State) (sender tag : Nat) (x : Option Incoming) : State :=
  { s with fabric := { s.fabric with
    incoming := (s.fabric.incoming.filter fun y => !(y.sender == sender && y.tag == tag)) ++ x.toList } }

/-- A first packet: its TOTAL and TARGET give the range, which is checked once (R320); a partition being reset absorbs
the transfer (R304). -/
def beginIncoming (sender tag target total : Nat) (s : State) : Incoming × State :=
  let a := hbmOffset target
  let x : Incoming := { sender := sender, tag := tag, base := a, total := total, next := 0, accepted := false, part := 16 }
  match s.grantFor sender a (max 1 total) with
  | none => (x, s.answerPeer sender tag 0x050C)
  | some p => if (s.part p).resetting then ({ x with part := p }, s.answerPeer sender tag 0x060C) else ({ x with accepted := true, part := p }, s)

/-- A packet whose tag is invalid is discarded and logged as a security event; the transfer fails at its sender (R371, R455). -/
def badPacket (x : Incoming) (s : State) : State :=
  (securityEvent x.part (x.base + x.next) s).answerPeer x.sender x.tag 0x0607

/-- A packet of an incoming transfer: written where the last ended, or discarded; a confidential partition takes none whose
tag is invalid, or whose session with the sender is gone (R371). -/
def landPacket (x : Incoming) (data : List MByte) (tagOk : Bool) (s : State) : Incoming × State :=
  if !x.accepted then (x, s)
  else if (s.part x.part).resetting then ({ x with accepted := false }, s.answerPeer x.sender x.tag 0x060C)
  else if s.confidential (some x.part) ∧ (!tagOk || (s.session x.part x.sender).isNone) then ({ x with accepted := false }, badPacket x s)
  else
    let d := data.take (x.total - x.next)
    ({ x with next := x.next + d.length }, wakeFor (inboundDomains x.base) ((s.countPackets x.part x.sender false 1).putMarked (x.base + x.next) d))

/-- Does a device take no packet from a peer: a takeover has fenced the peer, or this device's join was refused (R272, R313)? -/
def State.deafTo (s : State) (peer : Nat) : Bool := s.fabric.takeover.dropped.contains peer || s.fabric.joinStatus != 0

/-- PEER_PUT_RECEIVE: one packet of a PUT or PUT_GROUP from a peer, in order (R308, R320). -/
def execPeerPutReceive (sender tag target total : Nat) (first last : Bool) (data : List Byte) (flits : List Bool) (tagOk : Bool) (s : State) : Out :=
  let opened := if first then some (beginIncoming sender tag target total s) else (s.incomingOf sender tag).map fun x => (x, s)
  match opened with
  | none => .next s
  | some o =>
    if s.deafTo sender then .next s else
    let r := landPacket o.1 (flitBytes data flits) tagOk o.2
    if last then
      let s := if r.1.accepted then r.2.answerPeer sender tag 0 else r.2
      .next (s.putIncoming sender tag none)
    else .next (r.2.putIncoming sender tag (some r.1))

/-- The bytes of a grant sent to the peer that asked for them (R319, R371). -/
def answerGet (part sender tag a total : Nat) (s : State) : State :=
  let l := dataPackets 3 sender 0 tag total (s.confidential (some part)) (s.memBytes a total)
  wakeFor (inboundDomains a) ((s.replyPackets sender l).countPackets part sender true l.length)

/-- GET_REQUEST_RECEIVE: a peer's GET is answered with the bytes of its grant, or refused (R319, R320). A confidential partition
takes no request whose tag is invalid or whose session with the sender is gone, and its answer waits for a rekey (R371). -/
def execGetRequestReceive (sender tag target total : Nat) (tagOk : Bool) (s : State) : Out :=
  let a := hbmOffset target
  if s.deafTo sender then .next s else
  match s.grantFor sender a (max 1 total) with
  | none => .next (s.answerPeer sender tag 0x050C)
  | some p =>
    if (s.part p).resetting then .next (s.answerPeer sender tag 0x060C)
    else if s.confidential (some p) ∧ (!tagOk || (s.session p sender).isNone) then .next ((securityEvent p a s).answerPeer sender tag 0x0607)
    else
      let s := s.countPackets p sender false 1
      .next (if s.sessionReady p sender then answerGet p sender tag a total s
        else { s with fabric := { s.fabric with getsWaiting := s.fabric.getsWaiting ++ [(p, sender, tag, a, total)] } })

/-! ## Rekeying (R371) -/

/-- GETs that waited for a partition's direction to a peer are answered. -/
def answerWaiting (part peer : Nat) (s : State) : State :=
  let due (g : Nat × Nat × Nat × Nat × Nat) : Bool := g.1 == part && g.2.1 == peer
  let mine := s.fabric.getsWaiting.filter due
  mine.foldl (fun s g => answerGet part peer g.2.2.1 g.2.2.2.1 g.2.2.2.2 s)
    { s with fabric := { s.fabric with getsWaiting := s.fabric.getsWaiting.filter fun g => !due g } }

/-- LINK_REKEY: a direction whose counter has reached 2^48 takes a fresh key, and what waited for it proceeds (R371). The RTP makes no
key in its error state, and enters it where a conditional test fails (R359). -/
def execLinkRekey (part peer : Nat) (outbound : Bool) (testFailed : Option Nat) (s : State) : Out :=
  match s.session part peer with
  | none => .next s
  | some x =>
    let k := s.newKey
    if s.rtp.error || decide ((if outbound then x.countOut else x.countIn) < 2 ^ 48) then .next s
    else if testFailed.isSome then .next (rtpFails (testFailed.getD 0) s)
    else if outbound then .next (answerWaiting part peer (k.2.modSession part peer fun x => { x with keyOut := k.1, countOut := 0 }))
    else .next (k.2.modSession part peer fun x => { x with keyIn := k.1, countIn := 0 })

/-- The sessions of a partition torn down; what waited for one fails at its sender (R371, R373). -/
def dropSessions (part : Nat) (s : State) : State :=
  let gone := s.fabric.getsWaiting.filter fun g => g.1 == part
  gone.foldl (fun s g => s.answerPeer g.2.1 g.2.2.1 0x0607) { s with fabric := { s.fabric with
    sessions := s.fabric.sessions.filter (fun x => x.part != part), getsWaiting := s.fabric.getsWaiting.filter fun g => g.1 != part } }

/-! ## Completion, and the scrubs that wait for it (R322, R373) -/

/-- Has a core in reset drained: no fabric transfer of it is in progress? -/
def coreDrained (s : State) (c : CoreId) : Bool := (s.core c).flight.fabric.current.isNone

/-- The units of a partition whose scrub waits for their cores. -/
def State.unitsPending (s : State) (p : Nat) : List Nat := (s.unitsOf p).filter fun u => Tbl.getD s.rtp.unitScrub u .none == .pending

/-- A pending scrub goes on once the cores of its units have drained: the partition's key and link sessions are destroyed, and
its units are being scrubbed (R373, steps 1 and 2). -/
def advanceScrub (p : Nat) (s : State) : State :=
  let units := s.unitsPending p
  if (s.part p).scrub ≠ .pending ∨ !(allCores.all fun c => !units.contains (unitOf c) || coreDrained s c) then s
  else
    let t := (dropSessions p s).modPart p fun q => { q with scrub := .running, xtsKey := none }
    { t with rtp := { t.rtp with unitScrub := units.foldl (fun l u => Tbl.put l u .running) t.rtp.unitScrub } }

/-- FABRIC_COMPLETION: the transfer of a core's ring that is in progress completes, with its own outcome or with the
far side's answer; a scrub that waits for it goes on. -/
def execFabricCompletion (core : CoreId) (answer : PeerAnswer) (s : State) : Out :=
  match s.corePart core with
  | none => .next s
  | some p =>
    match (s.part p).job, (s.core core).flight.fabric.current with
    | some job, some j => .next (advanceScrub p (completeFabric core p job j answer (runPending core s)))
    | _, _ => .next s

end Sys2Proof.Machine
end

