-- ==== Sys2Proof/Machine/Vector.lean ====
section
/-! DEFINITION. The vector instructions other than memory forms (R134–R152). -/

namespace Sys2Proof.Machine

/-! ## Fields and elements (R134, R136, R137) -/

/-- PG. -/
def vPg (w : Nat) : Nat := bits w 40 4
/-- ZM. -/
def vZm (w : Nat) : Bool := bit w 44
/-- ESZ, or PART of a VCVT. -/
def vEsz (w : Nat) : Nat := bits w 45 2
/-- FMT. -/
def vFmt (w : Nat) : Nat := bits w 47 4
/-- SGN of an integer form. -/
def vSgn (w : Nat) : Bool := bit w 47
/-- OPX. -/
def vOpx (w : Nat) : Nat := bits w 51 8
/-- FMT2. -/
def vFmt2 (w : Nat) : Nat := bits w 59 4
/-- Element size in bytes (R134). -/
def vSize (w : Nat) : Nat := 2 ^ vEsz w

/-- VL(s) (R134). -/
def vl (s : Nat) : Nat := 256 / s

/-- The elements of a register at a size in bytes, element 0 first (R134). -/
def elems (v : BitVec 2048) (s : Nat) : List Nat := (List.range (vl s)).map fun i => bits v.toNat (8 * s * i) (8 * s)

/-- Element i of a list of elements. -/
def elemAt (l : List Nat) (i : Nat) : Nat := (l[i]?).getD 0

/-- The governing predicate's bits at a number of elements (R136). -/
def activeBits (g : CoreRegs) (w n : Nat) : List Bool := (List.range n).map fun i => (g.readP (vPg w)).toNat.testBit i

/-- A predicate from its elements; the bits beyond are clear (R136). -/
def packPred (l : List Bool) : BitVec 256 := BitVec.ofNat 256 (packFields 1 (l.map fun b => if b then 1 else 0))

/-- A V register written: the elements that are active or zeroed under ZM (R140). -/
def vResult (x : Issue) (latency s : Nat) (zeroing : Bool) (act : List Bool) (vals : List Nat) (mark : Bool) : List (Nat × Nat × Act) :=
  let mask := packFields s (act.map fun a => if a || zeroing then 2 ^ s - 1 else 0)
  let v := packFields (8 * s) ((act.zip vals).map fun p => if p.1 then p.2 else 0)
  [(x.now + latency, phaseResult, .wV (wDst x.w) (BitVec.ofNat 256 mask) (BitVec.ofNat 2048 v) mark)]

/-- A V register written whole. -/
def vWhole (x : Issue) (latency s : Nat) (vals : List Nat) (mark : Bool) : List (Nat × Nat × Act) :=
  [(x.now + latency, phaseResult, .wV (wDst x.w) (BitVec.allOnes 256) (BitVec.ofNat 2048 (packFields (8 * s) vals)) mark)]

/-- A predicate register written (R136, R140). -/
def pResult (x : Issue) (latency : Nat) (l : List Bool) : List (Nat × Nat × Act) :=
  [(x.now + latency, phaseResult, .wP (wDst x.w) (packPred l))]

/-- POISON when one of the V registers is marked (R159, R451). -/
def poisonV (g : CoreRegs) (rs : List Nat) : Option FaultReq := (rs.find? fun r => g.markV r).map poisonReg

/-- A vector instruction's plain effect: the unit is held two cycles (R138). -/
def Issue.vplain (x : Issue) (reads : List Nat) (acts : List (Nat × Nat × Act)) : Effect :=
  { x.plain with occupancy := 2, reads := reads, acts := acts }

/-! ## Encoding rules (R63, R139) -/

/-- A vector row of one opcode. -/
def vectorRow (opc : Nat) (legal : Nat → Bool) : CoreRow :=
  { eng := 1, opc := opc, long := false, picks := fun _ _ => true, legal := fun _ w => legal w, unit := 1, reaches := reachesNothing }

/-- Is a register field within the 16 predicates? -/
def field16 (r : Nat) : Bool := decide (r < 16)

/-- An integer form: FMT holds SGN alone, OPX and FMT2 are zero (R137, R139, log 9). -/
def intForm (w : Nat) : Bool := decide (vFmt w < 2) && vOpx w == 0 && vFmt2 w == 0

/-- An FP32 form: ESZ = 2, FMT = 0x0, OPX and FMT2 zero (R139). -/
def fp32Form (w : Nat) : Bool := vEsz w == 2 && vFmt w == 0 && vOpx w == 0 && vFmt2 w == 0

/-- A form that uses none of FMT, OPX and FMT2. -/
def bareForm (w : Nat) : Bool := vFmt w == 0 && vOpx w == 0 && vFmt2 w == 0

/-- DST, SRC1 and SRC2 name V or X registers. -/
def three32 (w : Nat) : Bool := field32 (wDst w) && field32 (wSrc1 w) && field32 (wSrc2 w)
/-- DST and SRC1 name V or X registers. -/
def two32 (w : Nat) : Bool := field32 (wDst w) && field32 (wSrc1 w)

/-! ## Integer, logic, shift and move forms (R141) -/

/-- An element operation on V[SRC1] and V[SRC2] at width 8s: the function gets the width in bits and SGN. -/
def vecInt (f : Nat → Bool → Nat → Nat → Nat) (x : Issue) : Except FaultReq Effect :=
  let g := x.k.regs
  let s := vSize x.w
  let a := elems (g.readV (wSrc1 x.w)) s
  let b := elems (g.readV (wSrc2 x.w)) s
  let vals := (a.zip b).map fun p => f (8 * s) (vSgn x.w) p.1 p.2
  .ok (x.vplain [auditV (wSrc1 x.w), auditV (wSrc2 x.w)]
    (vResult x 3 s (vZm x.w) (activeBits g x.w (vl s)) vals (g.markV (wSrc1 x.w) || g.markV (wSrc2 x.w))))

/-- The encoding of an element operation on two V registers. -/
def legalVecInt (w : Nat) : Bool := three32 w && intForm w

/-- The value an element has for a comparison under SGN (R141). -/
def elemInt (width : Nat) (sgn : Bool) (a : Nat) : Int := if sgn then signed width a else a

/-- VADD (R141). -/
def execVadd (c : CoreId) (s : State) : Out := issueOut (vectorRow 0x00 legalVecInt) c (vecInt fun _ _ a b => a + b) s

/-- VSUB (R141). -/
def execVsub (c : CoreId) (s : State) : Out := issueOut (vectorRow 0x01 legalVecInt) c (vecInt fun w _ a b => a + 2 ^ w - b) s

/-- VMUL (R141). -/
def execVmul (c : CoreId) (s : State) : Out := issueOut (vectorRow 0x02 legalVecInt) c (vecInt fun _ _ a b => a * b) s

/-- VMIN (R141). -/
def execVmin (c : CoreId) (s : State) : Out :=
  issueOut (vectorRow 0x03 legalVecInt) c (vecInt fun w g a b => if elemInt w g a ≤ elemInt w g b then a else b) s

/-- VMAX (R141). -/
def execVmax (c : CoreId) (s : State) : Out :=
  issueOut (vectorRow 0x04 legalVecInt) c (vecInt fun w g a b => if elemInt w g a ≤ elemInt w g b then b else a) s

/-- VAND (R138). -/
def execVand (c : CoreId) (s : State) : Out := issueOut (vectorRow 0x05 legalVecInt) c (vecInt fun _ _ a b => a &&& b) s

/-- VOR (R138). -/
def execVor (c : CoreId) (s : State) : Out := issueOut (vectorRow 0x06 legalVecInt) c (vecInt fun _ _ a b => a ||| b) s

/-- VXOR (R138). -/
def execVxor (c : CoreId) (s : State) : Out := issueOut (vectorRow 0x07 legalVecInt) c (vecInt fun _ _ a b => a ^^^ b) s

/-- VSHL: the shift amount is modulo 8s (R138). -/
def execVshl (c : CoreId) (s : State) : Out := issueOut (vectorRow 0x08 legalVecInt) c (vecInt fun w _ a b => a <<< (b % w)) s

/-- VSHR: arithmetic when SGN = 1 (R138, R141). -/
def execVshr (c : CoreId) (s : State) : Out :=
  issueOut (vectorRow 0x09 legalVecInt) c (vecInt fun w g a b => wrapInt w (elemInt w g a / 2 ^ (b % w))) s

/-- VMOV (R138). -/
def vecMove (x : Issue) : Except FaultReq Effect :=
  let g := x.k.regs
  let s := vSize x.w
  .ok (x.vplain [auditV (wSrc1 x.w)]
    (vResult x 3 s (vZm x.w) (activeBits g x.w (vl s)) (elems (g.readV (wSrc1 x.w)) s) (g.markV (wSrc1 x.w))))

/-- VMOV (R138). -/
def execVmov (c : CoreId) (s : State) : Out := issueOut (vectorRow 0x0A fun w => two32 w && intForm w) c vecMove s

/-- A V register whose element i is a function of X registers: VDUP and VIOTA (R138, R159). -/
def vecFromX (regs : Nat → List Nat) (f : Issue → Nat → Nat) (x : Issue) : Except FaultReq Effect :=
  let s := vSize x.w
  .ok (x.vplain ((regs x.w).map auditX)
    (vResult x 3 s (vZm x.w) (activeBits x.k.regs x.w (vl s)) ((List.range (vl s)).map (f x)) ((regs x.w).any fun r => x.k.regs.markX r)))

/-- VDUP (R138). -/
def execVdup (c : CoreId) (s : State) : Out :=
  issueOut (vectorRow 0x0B fun w => two32 w && intForm w) c (vecFromX (fun w => [wSrc1 w]) fun x _ => (x.x (wSrc1 x.w)).toNat) s

/-- VIOTA (R138, R141). -/
def execViota (c : CoreId) (s : State) : Out :=
  issueOut (vectorRow 0x0C legalVecInt) c
    (vecFromX (fun w => [wSrc1 w, wSrc2 w]) fun x i => (x.x (wSrc1 x.w)).toNat + i * (x.x (wSrc2 x.w)).toNat) s

/-- VSIZE: 256, whatever the predicate (R134, R138). -/
def execVsize (c : CoreId) (s : State) : Out :=
  issueOut (vectorRow 0x0D fun w => field32 (wDst w) && intForm w) c (fun x => .ok (x.vplain [] (xResult x 3 256 false))) s

/-- VEXT: element X[SRC2] of V[SRC1]; an index of VL or more writes 0; a marked index raises POISON (R141, R159). -/
def vecExtract (x : Issue) : Except FaultReq Effect :=
  let g := x.k.regs
  let s := vSize x.w
  let i := (x.x (wSrc2 x.w)).toNat
  let e := if i < vl s then elemAt (elems (g.readV (wSrc1 x.w)) s) i else 0
  checked [poisonX g [wSrc2 x.w]]
    (x.vplain [auditV (wSrc1 x.w), auditX (wSrc2 x.w)] (xResult x 3 (toWord (elemInt (8 * s) (vSgn x.w) e)) (g.markV (wSrc1 x.w))))

/-- VEXT (R138). -/
def execVext (c : CoreId) (s : State) : Out := issueOut (vectorRow 0x0E legalVecInt) c vecExtract s

/-! ## Comparison (R138, R139, R142) -/

/-- A comparison code 0–5 from less-than and equality. -/
def compareBy (cc : Nat) (lt eq gt : Bool) : Bool :=
  match cc with
  | 0 => eq
  | 1 => !eq
  | 2 => lt
  | 3 => lt || eq
  | 4 => gt
  | _ => gt || eq

/-- VCMP on one pair of elements: as a float format when OPX[3] = 1, where NaN makes every test but NE false. -/
def compareElem (w a b : Nat) : Bool :=
  let cc := vOpx w % 8
  if bit (vOpx w) 3 then
    let f := floatFmt (vFmt w)
    compareBy cc ((f.decode a).lt (f.decode b)) ((f.decode a).numEq (f.decode b)) ((f.decode b).lt (f.decode a))
  else
    let p := elemInt (8 * vSize w) (vSgn w) a
    let q := elemInt (8 * vSize w) (vSgn w) b
    compareBy cc (decide (p < q)) (decide (p = q)) (decide (q < p))

/-- VCMP's encoding (R139). -/
def legalVcmp (w : Nat) : Bool :=
  decide (wDst w < 16) && field32 (wSrc1 w) && field32 (wSrc2 w) && decide (vOpx w % 8 < 6) && decide (vOpx w < 16) && vFmt2 w == 0
    && (if bit (vOpx w) 3 then decide (vFmt w ≤ 4) && storageBits (vFmt w) == 8 * vSize w else decide (vFmt w < 2))

/-- VCMP (R138, R159). -/
def vecCompare (x : Issue) : Except FaultReq Effect :=
  let g := x.k.regs
  let s := vSize x.w
  let ab := (elems (g.readV (wSrc1 x.w)) s).zip (elems (g.readV (wSrc2 x.w)) s)
  checked [poisonV g [wSrc1 x.w, wSrc2 x.w]]
    (x.vplain [auditV (wSrc1 x.w), auditV (wSrc2 x.w)]
      (pResult x 3 (((activeBits g x.w (vl s)).zip ab).map fun p => p.1 && compareElem x.w p.2.1 p.2.2)))

/-- VCMP (R138). -/
def execVcmp (c : CoreId) (s : State) : Out := issueOut (vectorRow 0x10 legalVcmp) c vecCompare s

/-! ## FP32 forms (R55, R142, R145) -/

/-- An FP32 lane operation on the named V registers after a latency (R139). -/
def vecFp (latency : Nat) (regs : Nat → List Nat) (f : List Nat → Nat) (x : Issue) : Except FaultReq Effect :=
  let g := x.k.regs
  let cols := (regs x.w).map fun r => elems (g.readV r) 4
  let vals := (List.range 64).map fun i => f (cols.map fun l => elemAt l i)
  .ok (x.vplain ((regs x.w).map auditV)
    (vResult x latency 4 (vZm x.w) (activeBits g x.w 64) vals ((regs x.w).any fun r => g.markV r)))

/-- V[SRC1] and V[SRC2]. -/
def src12 (w : Nat) : List Nat := [wSrc1 w, wSrc2 w]
/-- V[SRC1]. -/
def src1 (w : Nat) : List Nat := [wSrc1 w]

/-- A two-operand lane function on a list of lanes. -/
def onTwo (f : Nat → Nat → Nat) (l : List Nat) : Nat := f (elemAt l 0) (elemAt l 1)
/-- A one-operand lane function on a list of lanes. -/
def onOne (f : Nat → Nat) (l : List Nat) : Nat := f (elemAt l 0)

/-- The encoding of a two-operand FP32 form. -/
def legalFp2 (w : Nat) : Bool := three32 w && fp32Form w
/-- The encoding of a one-operand FP32 form. -/
def legalFp1 (w : Nat) : Bool := two32 w && fp32Form w

/-- VFADD (R55). -/
def execVfadd (c : CoreId) (s : State) : Out := issueOut (vectorRow 0x20 legalFp2) c (vecFp 5 src12 (onTwo addF32)) s

/-- VFSUB (R55). -/
def execVfsub (c : CoreId) (s : State) : Out := issueOut (vectorRow 0x21 legalFp2) c (vecFp 5 src12 (onTwo subF32)) s

/-- VFMUL (R55). -/
def execVfmul (c : CoreId) (s : State) : Out := issueOut (vectorRow 0x22 legalFp2) c (vecFp 5 src12 (onTwo mulF32)) s

/-- VFMA: one rounding (R55, R138). -/
def execVfma (c : CoreId) (s : State) : Out :=
  issueOut (vectorRow 0x23 fun w => three32 w && field32 (wSrc3 w) && fp32Form w) c
    (vecFp 5 (fun w => [wSrc1 w, wSrc2 w, wSrc3 w]) fun l => fmaF32 (elemAt l 0) (elemAt l 1) (elemAt l 2)) s

/-- FP32 minimum of two codes (R142). -/
def minF32 (a b : Nat) : Nat := fp32.encode ((fp32.decode a).minimum (fp32.decode b))
/-- FP32 maximum of two codes (R142). -/
def maxF32 (a b : Nat) : Nat := fp32.encode ((fp32.decode a).maximum (fp32.decode b))

/-- VFMIN (R142). -/
def execVfmin (c : CoreId) (s : State) : Out := issueOut (vectorRow 0x24 legalFp2) c (vecFp 5 src12 (onTwo minF32)) s

/-- VFMAX (R142). -/
def execVfmax (c : CoreId) (s : State) : Out := issueOut (vectorRow 0x25 legalFp2) c (vecFp 5 src12 (onTwo maxF32)) s

/-- VFABS (R142). -/
def execVfabs (c : CoreId) (s : State) : Out :=
  issueOut (vectorRow 0x26 legalFp1) c (vecFp 5 src1 (onOne fun a => fp32.encode (fp32.decode a).abs)) s

/-- VFNEG (R142). -/
def execVfneg (c : CoreId) (s : State) : Out :=
  issueOut (vectorRow 0x27 legalFp1) c (vecFp 5 src1 (onOne fun a => fp32.encode (fp32.decode a).negate)) s

/-- VRECIP (R145). -/
def execVrecip (c : CoreId) (s : State) : Out := issueOut (vectorRow 0x40 legalFp1) c (vecFp 9 src1 (onOne recipF32)) s

/-- VRSQRT (R145). -/
def execVrsqrt (c : CoreId) (s : State) : Out := issueOut (vectorRow 0x41 legalFp1) c (vecFp 9 src1 (onOne rsqrtF32)) s

/-- VEXP (R145). -/
def execVexp (c : CoreId) (s : State) : Out := issueOut (vectorRow 0x42 legalFp1) c (vecFp 9 src1 (onOne expF32)) s

/-! ## Widening and dot forms (R143, R144) -/

/-- VMULW's encoding: integer with s = 1 or 2, or BF16 and FP16 to FP32 (R143). -/
def legalVmulw (w : Nat) : Bool :=
  three32 w && decide (vOpx w < 4)
    && (if bit (vOpx w) 1 then vEsz w == 1 && vFmt w == 0 && (vFmt2 w == 1 || vFmt2 w == 2) else decide (vEsz w < 2) && decide (vFmt w < 2) && vFmt2 w == 0)

/-- VMULW: destination element i is the product of source elements HALF × VL(2s) + i, governed at size 2s (R143). -/
def vecMulWide (x : Issue) : Except FaultReq Effect :=
  let g := x.k.regs
  let s := vSize x.w
  let n := vl (2 * s)
  let a := elems (g.readV (wSrc1 x.w)) s
  let b := elems (g.readV (wSrc2 x.w)) s
  let vals := (List.range n).map fun i =>
    let p := elemAt a ((if bit (vOpx x.w) 0 then n else 0) + i)
    let q := elemAt b ((if bit (vOpx x.w) 0 then n else 0) + i)
    if bit (vOpx x.w) 1 then fp32.encode (((floatFmt (vFmt2 x.w)).decode p).mul ((floatFmt (vFmt2 x.w)).decode q))
    else wrapInt (16 * s) (elemInt (8 * s) (vSgn x.w) p * elemInt (8 * s) (vSgn x.w) q)
  .ok (x.vplain ((src12 x.w).map auditV)
    (vResult x 5 (2 * s) (vZm x.w) (activeBits g x.w n) vals ((src12 x.w).any fun r => g.markV r)))

/-- VMULW (R138). -/
def execVmulw (c : CoreId) (s : State) : Out := issueOut (vectorRow 0x30 legalVmulw) c vecMulWide s

/-- A dot form: lane j of DST plus products of the sources' sub-elements (R144). -/
def vecDot (sub : Nat) (f : Nat → Nat → List (Nat × Nat) → Nat) (x : Issue) : Except FaultReq Effect :=
  let g := x.k.regs
  let n := 4 / sub
  let a := elems (g.readV (wSrc1 x.w)) sub
  let b := elems (g.readV (wSrc2 x.w)) sub
  let d := elems (g.readV (wDst x.w)) 4
  let vals := (List.range 64).map fun j => f x.w (elemAt d j) ((List.range n).map fun m => (elemAt a (n * j + m), elemAt b (n * j + m)))
  .ok (x.vplain ((src12 x.w ++ [wDst x.w]).map auditV)
    (vResult x 6 4 (vZm x.w) (activeBits g x.w 64) vals ((src12 x.w ++ [wDst x.w]).any fun r => g.markV r)))

/-- VDOT4 (R144). -/
def execVdot4 (c : CoreId) (s : State) : Out :=
  issueOut (vectorRow 0x31 fun w => three32 w && intForm w && vEsz w == 2) c
    (vecDot 1 fun w lane l => wrapInt 32 (l.foldl (fun t p => t + elemInt 8 (vSgn w) p.1 * elemInt 8 (vSgn w) p.2) (lane : Int))) s

/-- The exact sum of a lane and products, rounded once; special values as in step 2 of R39 (R144). -/
def dotFloat (f : FloatFmt) (lane : Nat) (l : List (Nat × Nat)) : Nat :=
  let terms := fp32.decode lane :: l.map fun p => (f.decode p.1).mul (f.decode p.2)
  match groupSpecial terms with
  | some v => fp32.encode v
  | none => fp32.encode (terms.tail.foldl FVal.add (fp32.decode lane))

/-- VDOT2 (R144). -/
def execVdot2 (c : CoreId) (s : State) : Out :=
  issueOut (vectorRow 0x32 fun w => three32 w && vEsz w == 2 && vFmt w == 0 && vOpx w == 0 && (vFmt2 w == 1 || vFmt2 w == 2)) c
    (vecDot 2 fun w lane l => dotFloat (floatFmt (vFmt2 w)) lane l) s

/-! ## Conversions (R146–R148) -/

/-- The culture registers' seed and step (R48). -/
def cultSeed (k : Core) : Nat := k.sys.cultLo.toNat + k.sys.cultHi.toNat * 2 ^ 64

/-- The generator's output for element p of an instruction: tensor X[SRC2], index X[SRC3] + p (R147, R150). -/
def cultAt (x : Issue) (p : Nat) : GenState :=
  generator (cultSeed x.k) x.k.sys.cultStep.toNat ((x.x (wSrc2 x.w)).toNat % 2 ^ 32) (((x.x (wSrc3 x.w)).toNat + p) % 2 ^ 40)

/-- Clip increments of a conversion, in the cycle after its result cycle's read point (R51). -/
def clipActs (x : Issue) (latency : Nat) (conv : BitVec 8) (l : List Converted) : List (Nat × Nat × Act) :=
  let n := clipCount l
  [(x.now + latency + 1, phaseClip, .clipInc (convSet conv) n.1 n.2.1 n.2.2)]

/-- Storage bytes of a float format code. -/
def fmtBytes (f : Nat) : Nat := storageBits f / 8

/-- VCVT's encoding (R146, R147). -/
def legalVcvt (w : Nat) : Bool :=
  two32 w && decide (vFmt w ≤ 4) && decide (vFmt2 w ≤ 4)
    && decide (vEsz w < max (fmtBytes (vFmt w)) (fmtBytes (vFmt2 w)) / min (fmtBytes (vFmt w)) (fmtBytes (vFmt2 w)))
    && (if bit (vOpx w) 1 then field32 (wSrc2 w) && field32 (wSrc3 w) else wSrc2 w == 0 && wSrc3 w == 0)

/-- VCVT: element i of the wider format; PART picks where the narrower elements lie (R146, R147). -/
def vecConvert (x : Issue) : Except FaultReq Effect :=
  let g := x.k.regs
  let conv := BitVec.ofNat 8 (vOpx x.w)
  let sb := fmtBytes (vFmt2 x.w)
  let db := fmtBytes (vFmt x.w)
  let n := vl (max sb db)
  let part := vEsz x.w
  let src := elems (g.readV (wSrc1 x.w)) sb
  let act := activeBits g x.w n
  let one (i : Nat) : Converted :=
    let p := part * n + i
    let v := (floatFmt (vFmt2 x.w)).decode (elemAt src (if db < sb then i else p))
    convertFloat (floatFmt (vFmt x.w)) (convOvf conv) (if convRnd conv then .stochastic ((cultAt x p).x0 % 65536) else .near) v
  let done := (List.range n).map one
  let counted := ((act.zip done).filter (·.1)).map (·.2)
  let before := if db < sb then part * n else 0
  let after := if db < sb then vl db - (part + 1) * n else 0
  let write := List.replicate before false ++ (act.map fun a => a || vZm x.w) ++ List.replicate after false
  let vals := List.replicate before 0 ++ ((act.zip done).map fun p => if p.1 then p.2.code else 0) ++ List.replicate after 0
  let acts := [(x.now + 5, phaseResult, Act.wV (wDst x.w) (BitVec.ofNat 256 (packFields db (write.map fun b => if b then 2 ^ db - 1 else 0)))
    (BitVec.ofNat 2048 (packFields (8 * db) vals)) false)]
  let xs := if convRnd conv then [wSrc2 x.w, wSrc3 x.w] else []
  checked [poisonX g xs, poisonV g [wSrc1 x.w]]
    (x.vplain (auditV (wSrc1 x.w) :: xs.map auditX) (acts ++ clipActs x 5 conv counted))

/-- VCVT (R138). -/
def execVcvt (c : CoreId) (s : State) : Out := issueOut (vectorRow 0x38 legalVcvt) c vecConvert s

/-- VCVTQ's encoding (R139, R148). -/
def legalVcvtq (w : Nat) : Bool :=
  three32 w && vEsz w == 2 && vFmt2 w == 0 && isBlocked (vFmt w) && !bit (vOpx w) 1

/-- The raw zero point of block b, of the width of the format's codes (R148). -/
def cvtqZero (fmt : Nat) (params : List Nat) (b : Nat) : Nat :=
  if hasZeroPoint fmt then elemAt params (8 + b) % 2 ^ storageBits fmt else 0

/-- The raw scale of block b (R148). -/
def cvtqScale (fmt : Nat) (params : List Nat) (b : Nat) : Nat :=
  if fmt = 5 then elemAt params b else elemAt params (2 * b) + 256 * elemAt params (2 * b + 1)

/-- One element of a VCVTQ converted (R46, R148). -/
def cvtqElem (fmt : Nat) (ovf : Bool) (params : List Nat) (b v : Nat) : Converted :=
  let scale := scaleValue fmt (cvtqScale fmt params b)
  if fmt = 5 then convertE2M1 ovf .near (fp32.decode v) scale
  else convertInt (storageBits fmt) (signedCodes fmt) (intCode fmt (storageBits fmt) (cvtqZero fmt params b)) ovf .near (fp32.decode v) scale

/-- Does an element give its B4 block the NaN scale (R480)? -/
def cvtqNan (fmt : Nat) (params : List Nat) (b v : Nat) : Bool := divExact (fp32.decode v) (scaleValue fmt (cvtqScale fmt params b)) == .nan

/-- VCVTQ: two blocks of 32 codes, and for B4 their scales (R148, R480). -/
def vecQuantise (x : Issue) : Except FaultReq Effect :=
  let g := x.k.regs
  let conv := BitVec.ofNat 8 (vOpx x.w)
  let fmt := vFmt x.w
  let params := elems (g.readV (wSrc2 x.w)) 1
  let src := elems (g.readV (wSrc1 x.w)) 4
  let act := activeBits g x.w 64
  let items := (act.zip src).zipIdx
  let done := items.map fun p => (p.1.1, cvtqElem fmt (convOvf conv) params (p.2 / 32) p.1.2)
  let codes := done.zipIdx.map fun p => if p.1.1 then p.1.2.code else cvtqZero fmt params (p.2 / 32)
  let nan (b : Nat) : Bool := items.any fun p => p.1.1 && p.2 / 32 == b && cvtqNan fmt params b p.1.2
  let body := packFields (storageBits fmt) codes
  let scales := if fmt = 5 then (if nan 0 then 255 else elemAt params 0) * 2 ^ 256 + (if nan 1 then 255 else elemAt params 1) * 2 ^ 264 else 0
  checked [poisonV g [wSrc2 x.w], poisonV g [wSrc1 x.w]]
    (x.vplain ((src12 x.w).map auditV)
      ((x.now + 5, phaseResult, .wV (wDst x.w) (BitVec.allOnes 256) (BitVec.ofNat 2048 (body + scales)) false)
        :: clipActs x 5 conv ((done.filter (·.1)).map (·.2))))

/-- VCVTQ (R138). -/
def execVcvtq (c : CoreId) (s : State) : Out := issueOut (vectorRow 0x39 legalVcvtq) c vecQuantise s

/-! ## Reductions (R56, R149) -/

/-- The second stage of R56: for s = 32, 16, … lane l is combined with lane l + s. -/
def reduceTree (f : Nat → Nat → Nat) (l : List Nat) : Nat :=
  elemAt ([32, 16, 8, 4, 2, 1].foldl (fun l s => (List.range s).map fun i => f (elemAt l i) (elemAt l (i + s))) l) 0

/-- A tree over the FP32 lanes: inactive lanes enter as the neutral value; lanes 1–63 become +0 (R149). -/
def vecReduce (f : Nat → Nat → Nat) (neutral : Nat) (x : Issue) : Except FaultReq Effect :=
  let g := x.k.regs
  let lanes := ((activeBits g x.w 64).zip (elems (g.readV (wSrc1 x.w)) 4)).map fun p => if p.1 then p.2 else neutral
  .ok (x.vplain [auditV (wSrc1 x.w)] (vWhole x 12 4 [reduceTree f lanes] (g.markV (wSrc1 x.w))))

/-- VREDSUM (R149). -/
def execVredsum (c : CoreId) (s : State) : Out := issueOut (vectorRow 0x48 legalFp1) c (vecReduce addF32 0) s

/-- VREDMAX (R149). -/
def execVredmax (c : CoreId) (s : State) : Out := issueOut (vectorRow 0x49 legalFp1) c (vecReduce maxF32 0xFF800000) s

/-- VREDADD: the active elements' sum modulo 2^(8s), in element 0 (R149). -/
def vecReduceInt (x : Issue) : Except FaultReq Effect :=
  let g := x.k.regs
  let s := vSize x.w
  let vals := ((activeBits g x.w (vl s)).zip (elems (g.readV (wSrc1 x.w)) s)).map fun p => if p.1 then p.2 else 0
  .ok (x.vplain [auditV (wSrc1 x.w)] (vWhole x 12 s [vals.foldl (· + ·) 0 % 2 ^ (8 * s)] (g.markV (wSrc1 x.w))))

/-- VREDADD: 4- or 8-byte elements (R138, R149). R139 gives the forms 0x40–0x49 alone the FP32 rule. -/
def execVredadd (c : CoreId) (s : State) : Out :=
  issueOut (vectorRow 0x4A fun w => two32 w && intForm w && decide (2 ≤ vEsz w)) c vecReduceInt s

/-! ## Culture instructions (R150) -/

/-- What VCULT writes for an output selection 0–3 (R54, R150). -/
def cultOutput (sel : Nat) (g : GenState) : Nat :=
  match sel with
  | 0 => g.x0
  | 1 => g.x1
  | 2 => fp32.encode (.fin false (g.x2 / 256) (-24))
  | _ => fp32.encode (.fin false (g.x3 / 256) (-24))

/-- VCULT (R150). -/
def vecCulture (x : Issue) : Except FaultReq Effect :=
  let xs := [wSrc2 x.w, wSrc3 x.w]
  checked [poisonX x.k.regs xs]
    (x.vplain (xs.map auditX) (vResult x 7 4 (vZm x.w) (activeBits x.k.regs x.w 64)
      ((List.range 64).map fun i => cultOutput (vOpx x.w % 4) (cultAt x i)) false))

/-- VCULT's encoding: ESZ = 2, OPX[1:0] the output (R150). -/
def legalCult (w : Nat) : Bool := field32 (wDst w) && field32 (wSrc2 w) && field32 (wSrc3 w) && vEsz w == 2 && vFmt w == 0 && decide (vOpx w < 4) && vFmt2 w == 0

/-- VCULT (R138). -/
def execVcult (c : CoreId) (s : State) : Out := issueOut (vectorRow 0x50 legalCult) c vecCulture s

/-- VCULTDROP: element i active when y1 ≥ X[SRC1][31:0] (R54, R150). -/
def vecDrop (x : Issue) : Except FaultReq Effect :=
  let xs := [wSrc1 x.w, wSrc2 x.w, wSrc3 x.w]
  let threshold := (x.x (wSrc1 x.w)).toNat % 2 ^ 32
  checked [poisonX x.k.regs xs]
    (x.vplain (xs.map auditX) (pResult x 7 ((activeBits x.k.regs x.w 64).zipIdx.map fun p => p.1 && decide (threshold ≤ (cultAt x p.2).x1))))

/-- VCULTDROP (R138). -/
def execVcultdrop (c : CoreId) (s : State) : Out :=
  issueOut (vectorRow 0x51 fun w => decide (wDst w < 16) && field32 (wSrc1 w) && field32 (wSrc2 w) && field32 (wSrc3 w) && vEsz w == 2 && bareForm w) c vecDrop s

/-! ## Predicates and first-fault (R138, R140, R151, R152) -/

/-- A loop-tail predicate: element i active when X[SRC1] + i < X[SRC2] and P[PG] is (R151). -/
def predLoop (val : Word → Int) (x : Issue) : Except FaultReq Effect :=
  let n := vl (vSize x.w)
  let a := val (x.x (wSrc1 x.w))
  let b := val (x.x (wSrc2 x.w))
  checked [poisonX x.k.regs [wSrc1 x.w, wSrc2 x.w]]
    (x.vplain [auditX (wSrc1 x.w), auditX (wSrc2 x.w)]
      (pResult x 2 ((activeBits x.k.regs x.w n).zipIdx.map fun p => p.1 && decide (a + p.2 < b))))

/-- The encoding of a loop-tail predicate. -/
def legalPgen (w : Nat) : Bool := decide (wDst w < 16) && field32 (wSrc1 w) && field32 (wSrc2 w) && bareForm w

/-- PGEN.LT (R151). -/
def execPgenLt (c : CoreId) (s : State) : Out := issueOut (vectorRow 0x58 legalPgen) c (predLoop fun a => a.toInt) s

/-- PGEN.LTU (R151). -/
def execPgenLtu (c : CoreId) (s : State) : Out := issueOut (vectorRow 0x59 legalPgen) c (predLoop fun a => (a.toNat : Int)) s

/-- PSETALL: every element of size ESZ (R138). R140 writes 0 to the inactive elements of a predicate destination and
excepts FFPUT alone; the row of R138 says "all VL(s) elements true", and the model takes PG not to govern it (DEDUCED, log 167). -/
def execPsetall (c : CoreId) (s : State) : Out :=
  issueOut (vectorRow 0x5A fun w => field16 (wDst w) && bareForm w) c
    (fun x => .ok (x.vplain [] (pResult x 2 (List.replicate (vl (vSize x.w)) true)))) s

/-- Predicate logic on P[SRC1] and P[SRC2] for the active elements (R138, R140). -/
def predLogic (f : Bool → Bool → Bool) (x : Issue) : Except FaultReq Effect :=
  let g := x.k.regs
  let n := vl (vSize x.w)
  .ok (x.vplain [] (pResult x 2 ((activeBits g x.w n).zipIdx.map fun p =>
    p.1 && f ((g.readP (wSrc1 x.w)).toNat.testBit p.2) ((g.readP (wSrc2 x.w)).toNat.testBit p.2))))

/-- The encoding of two-operand predicate logic. -/
def legalPP (w : Nat) : Bool := field16 (wDst w) && field16 (wSrc1 w) && field16 (wSrc2 w) && bareForm w

/-- PAND (R138). -/
def execPand (c : CoreId) (s : State) : Out := issueOut (vectorRow 0x5B legalPP) c (predLogic fun a b => a && b) s

/-- POR (R138). -/
def execPor (c : CoreId) (s : State) : Out := issueOut (vectorRow 0x5C legalPP) c (predLogic fun a b => a || b) s

/-- PXOR (R138). -/
def execPxor (c : CoreId) (s : State) : Out := issueOut (vectorRow 0x5D legalPP) c (predLogic fun a b => a != b) s

/-- PNOT: of P[SRC1] (R138). -/
def execPnot (c : CoreId) (s : State) : Out :=
  issueOut (vectorRow 0x5E fun w => field16 (wDst w) && field16 (wSrc1 w) && bareForm w) c (predLogic fun a _ => !a) s

/-- PCNT: the count of elements active in both P[SRC1] and P[PG] (R138). -/
def predCount (x : Issue) : Except FaultReq Effect :=
  let g := x.k.regs
  let n := ((activeBits g x.w (vl (vSize x.w))).zipIdx.filter fun p => p.1 && (g.readP (wSrc1 x.w)).toNat.testBit p.2).length
  .ok (x.vplain [] (xResult x 2 (BitVec.ofNat 64 n) false))

/-- PCNT (R138). -/
def execPcnt (c : CoreId) (s : State) : Out :=
  issueOut (vectorRow 0x5F fun w => field32 (wDst w) && field16 (wSrc1 w) && bareForm w) c predCount s

/-- FFGET: FFR for the elements active in P[PG] (R138). -/
def execFfget (c : CoreId) (s : State) : Out :=
  issueOut (vectorRow 0x60 fun w => field16 (wDst w) && bareForm w) c
    (fun x => .ok (x.vplain [] (pResult x 2 ((activeBits x.k.regs x.w (vl (vSize x.w))).zipIdx.map fun p => p.1 && x.k.regs.ffr.toNat.testBit p.2)))) s

/-- FFPUT: all 256 bits of P[SRC1], not governed (R138, R140). -/
def execFfput (c : CoreId) (s : State) : Out :=
  issueOut (vectorRow 0x61 fun w => field16 (wSrc1 w) && bareForm w) c
    (fun x => .ok (x.vplain [] [(x.now + 2, phaseResult, .wFfr (x.k.regs.readP (wSrc1 x.w)))])) s

/-- The lowest element whose FFR bit is clear, or n (R138). -/
def firstClear (ffr : BitVec 256) (n : Nat) : Nat := ((List.range n).find? fun i => !ffr.toNat.testBit i).getD n

/-- FFIDX (R138). -/
def execFfidx (c : CoreId) (s : State) : Out :=
  issueOut (vectorRow 0x62 fun w => field32 (wDst w) && bareForm w) c
    (fun x => .ok (x.vplain [] (xResult x 2 (BitVec.ofNat 64 (firstClear x.k.regs.ffr (vl (vSize x.w)))) false))) s

end Sys2Proof.Machine
end

