-- ==== Sys2Proof/Machine/Press.lean ====
section
/-! DEFINITION. The press units: taking a descriptor and its checks, the press instructions, completion (R247–R260). -/

namespace Sys2Proof.Machine

/-! ## The descriptor (R254, R255) -/

/-- Program instructions: PROG_LEN + 1. -/
def pdLen (d : BitVec 3072) : Nat := field d 0 6 + 1
/-- RESUME. -/
def pdResume (d : BitVec 3072) : Bool := d.getLsbD 6
/-- SEM. -/
def pdSem (d : BitVec 3072) : Nat := field d 8 5
/-- CORE. -/
def pdCore (d : BitVec 3072) : CoreId := BitVec.ofNat 10 (field d 16 10)
/-- GEN. -/
def pdGen (d : BitVec 3072) : BitVec 32 := BitVec.ofNat 32 (field d 32 32)
/-- PROG. -/
def pdProg (d : BitVec 3072) : Nat := field d 64 64
/-- COUNT. -/
def pdCount (d : BitVec 3072) : Nat := field d 128 32
/-- ELEM_BASE. -/
def pdElemBase (d : BitVec 3072) : Nat := field d 160 40
/-- TENSOR. -/
def pdTensor (d : BitVec 3072) : Nat := field d 224 32
/-- STEP. -/
def pdStep (d : BitVec 3072) : Nat := field d 256 64
/-- SEED. -/
def pdSeed (d : BitVec 3072) : Nat := field d 320 128
/-- Kn. -/
def pdConst (d : BitVec 3072) (n : Nat) : Nat := field d (448 + 32 * n) 32
/-- STREAMn. -/
def pdStream (d : BitVec 3072) (n : Nat) : BitVec 256 := BitVec.ofNat 256 (field d (1024 + 256 * n) 256)

/-- FMT of a stream. -/
def psFmt (t : BitVec 256) : Nat := field t 0 4
/-- VALID of a stream. -/
def psValid (t : BitVec 256) : Bool := t.getLsbD 4
/-- BUF of a stream. -/
def psBuf (t : BitVec 256) : Bool := t.getLsbD 5
/-- CONV of a stream. -/
def psConv (t : BitVec 256) : BitVec 8 := BitVec.ofNat 8 (field t 8 8)
/-- Bytes of one element of a stream. -/
def psWidth (t : BitVec 256) : Nat := storageBits (psFmt t) / 8
/-- BASE0 or BASE1. -/
def psBase (t : BitVec 256) (one : Bool) : Nat := if one then field t 128 64 else field t 64 64
/-- The buffer of a generation that a double-buffered stream uses; BASE0 for another (R255). -/
def psBuffer (t : BitVec 256) (gen : BitVec 32) : Nat := psBase t (psBuf t && gen.toNat % 2 == 1)

/-- The streams of a descriptor that are in use. -/
def pdStreams (d : BitVec 3072) : List (BitVec 256) := ((List.range 6).map (pdStream d)).filter psValid

/-- The base addresses that a descriptor's streams use, each with its bytes and element width (R255). -/
def pdRanges (d : BitVec 3072) : List (Nat × Nat × Nat) :=
  (pdStreams d).flatMap fun t =>
    (if psBuf t then [psBase t false, psBase t true] else [psBase t false]).map fun b => (b, pdCount d * psWidth t, psWidth t)

/-- Is a reserved field of a descriptor not zero (R254, R255, R43)? -/
def pdReserved (d : BitVec 3072) : Bool :=
  field d 7 1 != 0 || field d 13 3 != 0 || field d 26 6 != 0 || field d 200 24 != 0 || field d 1016 8 != 0 || field d 2752 320 != 0
    || (List.range 6).any fun n => let t := pdStream d n
        field t 6 2 != 0 || field t 14 2 != 0 || field t 16 48 != 0 || field t 192 64 != 0

/-! ## The checks (R256, R260) -/

/-- OP of a press instruction. -/
def piOp (w : BitVec 32) : Nat := field w 0 6
/-- D of a press instruction. -/
def piD (w : BitVec 32) : Nat := field w 6 4
/-- A of a press instruction. -/
def piA (w : BitVec 32) : Nat := field w 10 4
/-- B of a press instruction. -/
def piB (w : BitVec 32) : Nat := field w 14 4
/-- C of a press instruction. -/
def piC (w : BitVec 32) : Nat := field w 18 4
/-- ST of a press instruction. -/
def piSt (w : BitVec 32) : Nat := field w 24 3

/-- Is an opcode one of R250? -/
def pressOpOk (op : Nat) : Bool := decide (op ≤ 0x03) || (decide (0x08 ≤ op) && decide (op ≤ 0x12))

/-- Does instruction i of a program of n fail R256? -/
def pressInstrBad (d : BitVec 3072) (n i : Nat) (w : BitVec 32) : Bool :=
  let op := piOp w
  !pressOpOk op || field w 27 5 != 0 || decide (5 < piSt w) || ((op == 0x01) != (i == 0)) || ((op == 0x00) != (i + 1 == n))
    || ((op == 0x02 || op == 0x03) && !psValid (pdStream d (piSt w)))

/-- The index of a program's first failing instruction (R256). -/
def badInstruction (d : BitVec 3072) (prog : List (BitVec 32)) : Option Nat :=
  (prog.zipIdx.find? fun w => pressInstrBad d prog.length w.2 w.1).map (·.2)

/-- Does a descriptor with double-buffered streams break the rule of R260? -/
def generationBad (j : Job) (d : BitVec 3072) : Bool :=
  (pdStreams d).any psBuf
    && (pdGen d != j.gen + 1 || ((j.bufs[(pdGen d - 1).toNat % 2]?).map (·.gen)) != some j.gen)

/-- The failed check of a descriptor that a press unit takes: its status and cause (R256). -/
def pressFault (s : State) (p : Nat) (j : Job) (unit : Nat) (d : BitVec 3072) (prog : List (BitVec 32)) : Option DescOutcome :=
  let inside (a n : Nat) : Bool := j.holdsHbm (unit / 2) a n
  if pdLen d < 2 ∨ pdCount d = 0 ∨ pdReserved d ∨ (List.range 6).any (fun n => decide (4 < psFmt (pdStream d n)))
      ∨ !(coreExists (pdCore d) && s.corePart (pdCore d) == some p) then some (nothingMoved 0x02 0x0A)
  else if !inside (pdProg d) (4 * pdLen d) || (pdRanges d).any (fun r => !inside r.1 r.2.1) then some (nothingMoved 0x02 0x01)
  else if pdProg d % 4 != 0 || (pdRanges d).any (fun r => r.1 % r.2.2 != 0) then some (nothingMoved 0x02 0x04)
  else if generationBad j d then some (nothingMoved 0x02 0x09)
  else (badInstruction d prog).map (nothingMoved 0x07)

/-- Must a press hold a descriptor: its target buffer is being drained (R260)? -/
def mustHold (j : Job) (d : BitVec 3072) : Bool :=
  (pdStreams d).any psBuf && ((j.bufs[(pdGen d).toNat % 2]?).map (·.state)) == some .draining

/-! ## Taking a descriptor (R248, R253, R257) -/

/-- The registers of a press unit as a descriptor that starts finds them (R248). -/
def Press.start (q : Press) (d : BitVec 3072) (prog : List (BitVec 32)) : Press :=
  { q with
    pv := Vector.replicate 16 0, pk := Vector.ofFn fun i => BitVec.ofNat 32 (pdConst d i.val), vl := 0, pos := 0
    desc := some d, prog := prog, pc := 0, stores := [], pendClips := (0, 0, 0), clips := (0, 0, 0) }

/-- The buffer of generation g is being written (R260). -/
def Job.writeBuffer (j : Job) (g : BitVec 32) : Job :=
  { j with bufs := j.bufs.setIfInBounds (g.toNat % 2) { gen := g, state := .writing } }

/-- A descriptor with the outcome of a failed check, or of the skipping state. -/
def Press.refuse (q : Press) (d : BitVec 3072) (o : DescOutcome) : Press :=
  { q with desc := some d, prog := [], clips := (0, 0, 0), outcome := some o }

/-- A press starts a descriptor that has passed its checks, or holds it while its target buffer drains, which is counted
once (R260). -/
def startPress (unit p : Nat) (j : Job) (d : BitVec 3072) (prog : List (BitVec 32)) (s : State) : State :=
  if mustHold j d then
    let s := if (s.pressUnit unit).heldOnce then s else { s with errors := { s.errors with pressHolds := s.errors.pressHolds + 1 } }
    s.modPress unit fun q => { q with desc := some d, prog := prog, heldOnce := true }
  else
    let s := s.modPress unit fun q => { q.start d prog with heldOnce := false }
    if (pdStreams d).any psBuf then s.modPart p fun t => { t with job := some (j.writeBuffer (pdGen d)) } else s

/-- A press takes a descriptor: it skips it, refuses it, holds it for a drain, or starts it. -/
def beginPress (unit p : Nat) (j : Job) (d : BitVec 3072) (s : State) : State :=
  let q := s.pressUnit unit
  let skip := q.skipping && !pdResume d
  if skip then s.modPress unit fun q => q.refuse d (nothingMoved 0x03 0)
  else
    let prog := (List.range (pdLen d)).map fun i => BitVec.ofNat 32 (s.peekNat (pdProg d + 4 * i) 4)
    let s := s.modPress unit fun q => { q with skipping := false }
    match pressFault s p j unit d prog with
    | some o => s.modPress unit fun q => q.refuse d o
    | none => startPress unit p j d prog s

/-- Does a press unit start nothing more: its partition is fatal, held or in reset (R272, R444, R457)? -/
def State.pressHalted (s : State) (unit : Nat) : Bool :=
  match s.unitPart (unit / 2) with
  | none => false
  | some p => (s.part p).fatal || (s.part p).held || (s.part p).resetting

/-- PRESS_DESCRIPTOR_TAKE: a press without a descriptor takes its next ring entry; one that holds a descriptor looks
again whether the drain has finished (R253, R256, R260). -/
def execPressDescriptorTake (unit : Nat) (s : State) : Out :=
  match s.unitPart (unit / 2) with
  | none => .next s
  | some p =>
    match (s.part p).job with
    | none => .next s
    | some j =>
      let q := s.pressUnit unit
      if s.pressHalted unit then .next s
      else match q.desc with
      | some d => if q.heldOnce then .next (startPress unit p j d q.prog s) else .next s
      | none =>
        if q.available = 0 then .next s
        else .next (wakeFor [64 + unit / 2] (beginPress unit p j (BitVec.ofNat 3072 (s.peekNat (pressEntryAddr j unit q.readIndex.toNat) 384)) s))

/-! ## The instructions (R250–R252) -/

/-- The next instruction of a running press, if it has one. -/
def Press.current (q : Press) : Option (BitVec 3072 × BitVec 32) :=
  match q.desc, q.outcome, q.prog[q.pc]? with
  | some d, none, some w => if q.heldOnce then none else some (d, w)
  | _, _, _ => none

/-- Is the partition of a press unit stopped by a fatal error (R457)? -/
def State.pressFatal (s : State) (unit : Nat) : Bool := (s.unitPart (unit / 2)).any fun p => (s.part p).fatal

/-- A press instruction: the unit's next one, if it is of the given opcode; otherwise nothing happens. A unit that is to
start nothing more begins no iteration, and one of a stopped partition is cleared where its iteration ends (R457). -/
def pressStep (unit op : Nat) (body : BitVec 3072 → BitVec 32 → State → State) (s : State) : Out :=
  match (s.pressUnit unit).current with
  | some (d, w) => .next (if piOp w = op ∧ !(s.pressHalted unit && (s.pressUnit unit).pc == 0) then
      let t := body d w s
      if t.pressFatal unit then settlePress t unit else t
    else s)
  | none => .next s

/-- Lane i of a PV register. -/
def Press.lane (q : Press) (r i : Nat) : Nat := field ((q.pv[r]?).getD 0) (32 * i) 32

/-- The lanes of the second or third operand: a PV register, or a constant in every lane (R249). -/
def Press.operand (q : Press) (isConst : Bool) (r i : Nat) : Nat := if isConst then ((q.pk[r]?).getD 0).toNat else q.lane r i

/-- D ← the 512 lanes, and on to the next instruction. -/
def Press.setLanes (q : Press) (w : BitVec 32) (f : Nat → Nat) : Press :=
  { q with pv := q.pv.setIfInBounds (piD w) (BitVec.ofNat 16384 (packFields 32 ((List.range 512).map f))), pc := q.pc + 1 }

/-- A descriptor that runs ends at a PLD: its iteration writes nothing (R258). -/
def Press.fail (q : Press) (cause : Nat) : Press :=
  { q with outcome := some { nothingMoved 0x06 cause with done := q.pos }, stores := [], pendClips := (0, 0, 0) }

/-- An arithmetic instruction of all 512 lanes. -/
def pressLanes (unit op : Nat) (f : Press → BitVec 32 → Nat → Nat) (s : State) : Out :=
  pressStep unit op (fun _ w s => s.modPress unit fun q => q.setLanes w (f q w)) s

/-- An operation on A. -/
def onA (f : Nat → Nat) (q : Press) (w : BitVec 32) (i : Nat) : Nat := f (q.lane (piA w) i)
/-- An operation on A and B. -/
def onAB (f : Nat → Nat → Nat) (q : Press) (w : BitVec 32) (i : Nat) : Nat :=
  f (q.lane (piA w) i) (q.operand (w.getLsbD 22) (piB w) i)
/-- An operation on A, B and C. -/
def onABC (f : Nat → Nat → Nat → Nat) (q : Press) (w : BitVec 32) (i : Nat) : Nat :=
  f (q.lane (piA w) i) (q.operand (w.getLsbD 22) (piB w) i) (q.operand (w.getLsbD 23) (piC w) i)

/-- VSETL: VL ← min(COUNT − POS, 512) (R250). -/
def execVsetl (unit : Nat) (s : State) : Out :=
  pressStep unit 0x01 (fun d _ s => s.modPress unit fun q => { q with vl := min (pdCount d - q.pos) 512, pc := q.pc + 1 }) s

/-- PLD: VL elements from element POS, converted exactly to FP32, zeros above; poisoned data or a data error ends the
descriptor (R250, R255, R258). -/
def pressLoad (unit : Nat) (env : TransferEnv) (d : BitVec 3072) (w : BitVec 32) (s : State) : State :=
  let q := s.pressUnit unit
  let t := pdStream d (piSt w)
  let n := psWidth t
  let a := psBuffer t (pdGen d - 1) + q.pos * n
  let s := s.eccEvents env.ecc
  let r := s.fetch a (q.vl * n)
  if env.noValue.isSome then s.modPress unit fun q => q.fail causeData
  else if r.2 then s.modPress unit fun q => q.fail causePoison
  else s.modPress unit fun q => q.setLanes w fun i =>
    if i < q.vl then fp32.encode ((floatFmt (psFmt t)).decode (leNat ((r.1.drop (n * i)).take n))) else 0

/-- PLD (R250). -/
def execPld (unit : Nat) (env : TransferEnv) (s : State) : Out := pressStep unit 0x02 (pressLoad unit env) s

/-- The rounding of a PST's element (R47, R48, R252). -/
def pressRounding (d : BitVec 3072) (t : BitVec 256) (k : Nat) : Rounding :=
  if convRnd (psConv t) then
    .stochastic ((generator (pdSeed d) (pdStep d) (pdTensor d) ((pdElemBase d + k) % 2 ^ 40)).x0 % 65536)
  else .near

/-- Counts added. -/
def addClipCounts (a b : Nat × Nat × Nat) : Nat × Nat × Nat := (a.1 + b.1, a.2.1 + b.2.1, a.2.2 + b.2.2)

/-- PST: lanes 0 to VL − 1 of A converted, to be stored when the iteration ends (R250–R252). -/
def pressStore (unit : Nat) (d : BitVec 3072) (w : BitVec 32) (s : State) : State :=
  let t := pdStream d (piSt w)
  s.modPress unit fun q =>
    let conv := (List.range q.vl).map fun i =>
      convertFloat (floatFmt (psFmt t)) (convOvf (psConv t)) (pressRounding d t (q.pos + i)) (fp32.decode (q.lane (piA w) i))
    { q with
      stores := q.stores ++ [(psBuffer t (pdGen d) + q.pos * psWidth t, elementBytes (psWidth t) (conv.map (·.code)))]
      pendClips := addClipCounts q.pendClips (clipCount conv)
      pc := q.pc + 1 }

/-- PST (R250). -/
def execPst (unit : Nat) (s : State) : Out := pressStep unit 0x03 (pressStore unit) s

/-- PADD (R250). -/
def execPadd (unit : Nat) (s : State) : Out := pressLanes unit 0x08 (onAB addF32) s
/-- PSUB (R250). -/
def execPsub (unit : Nat) (s : State) : Out := pressLanes unit 0x09 (onAB subF32) s
/-- PMUL (R250). -/
def execPmul (unit : Nat) (s : State) : Out := pressLanes unit 0x0A (onAB mulF32) s
/-- PFMA (R250). -/
def execPfma (unit : Nat) (s : State) : Out := pressLanes unit 0x0B (onABC fmaF32) s
/-- PMIN (R142, R250). -/
def execPmin (unit : Nat) (s : State) : Out := pressLanes unit 0x0C (onAB minF32) s
/-- PMAX (R142, R250). -/
def execPmax (unit : Nat) (s : State) : Out := pressLanes unit 0x0D (onAB maxF32) s
/-- PSQRT (R250, R252). -/
def execPsqrt (unit : Nat) (s : State) : Out := pressLanes unit 0x0E (onA sqrtF32) s
/-- PRECIP (R250, R252). -/
def execPrecip (unit : Nat) (s : State) : Out := pressLanes unit 0x0F (onA recipF32) s

/-- PSIGN of a value: ±1, +0, or the canonical NaN (R250). -/
def signF32 (a : Nat) : Nat :=
  match fp32.decode a with
  | .nan => fp32.nanPat
  | v => if v.isZero then 0 else if v.isNeg then 0xBF800000 else 0x3F800000

/-- PSIGN (R250). -/
def execPsign (unit : Nat) (s : State) : Out := pressLanes unit 0x10 (onA signF32) s
/-- PABS (R142, R250). -/
def execPabs (unit : Nat) (s : State) : Out := pressLanes unit 0x11 (onA fun a => fp32.encode (fp32.decode a).abs) s
/-- PNEG (R142, R250). -/
def execPneg (unit : Nat) (s : State) : Out := pressLanes unit 0x12 (onA fun a => fp32.encode (fp32.decode a).negate) s

/-- PEND: the iteration's stores take effect, POS ← POS + VL, and the body runs again or the descriptor is done
(R250, R251). -/
def pressEnd (unit : Nat) (d : BitVec 3072) (s : State) : State :=
  let q := s.pressUnit unit
  let s := q.stores.foldl (fun s w => s.put w.1 w.2 false) s
  s.modPress unit fun q =>
    let pos := q.pos + q.vl
    { q with
      stores := [], clips := addClipCounts q.clips q.pendClips, pendClips := (0, 0, 0), pos := pos, pc := 0
      outcome := if pos < pdCount d then none else some { nothingMoved 0 0 with done := pdCount d } }

/-- PEND (R250). -/
def execPend (unit : Nat) (s : State) : Out := pressStep unit 0x00 (fun d _ s => pressEnd unit d s) s

/-! ## Completion (R257) -/

/-- A descriptor completes: its ring entry is written, the semaphore on CORE rises, and an error makes the press skip. -/
def completePress (unit p : Nat) (j : Job) (d : BitVec 3072) (o : DescOutcome) (s : State) : State :=
  let q := s.pressUnit unit
  let a := pressEntryAddr j unit q.readIndex.toNat
  let s := s.put (a + 120) (o.status :: o.cause :: leBytes 5 o.done) false
  let s := s.put (a + 320) (leBytes 8 q.clips.1 ++ leBytes 8 q.clips.2.1 ++ leBytes 8 q.clips.2.2) false
  let s := s.modPress unit fun q => { q with
    desc := none, prog := [], pc := 0, outcome := none, readIndex := q.readIndex + 1, available := q.available - 1
    skipping := q.skipping || !(o.status == 0 || o.status == 3), lastGen := pdGen d, heldOnce := false }
  let s := if s.corePart (pdCore d) = some p then s.signalDone (pdCore d) (pdSem d) else s
  s.disturb (some p)

/-- PRESS_COMPLETION: the descriptor of a press completes once its outcome is known. -/
def execPressCompletion (unit : Nat) (s : State) : Out :=
  match s.unitPart (unit / 2) with
  | none => .next s
  | some p =>
    match (s.part p).job, (s.pressUnit unit).desc, (s.pressUnit unit).outcome with
    | some j, some d, some o => .next (if s.pressHalted unit then s else completePress unit p j d o s)
    | _, _, _ => .next s

end Sys2Proof.Machine
end

