-- ==== Sys2Proof/Machine/Reset.lean ====
section
/-! DEFINITION. Core, row and partition resets, the hold of a takeover, and scrubs, as operations (R272, R304, R373,
R374, R441–R447, R456), with the RESET_CTL rows. -/

namespace Sys2Proof.Machine

/-! ## One core (R443, R447) -/

/-- A core reset begins: issue stops, what was issued completes, queued and interrupted descriptors and held effects go,
and the core's arrivals are discarded; a fabric transfer in progress goes on. -/
def beginCoreReset (c : CoreId) (s : State) : State :=
  let s := stopIssue c .stopped s
  let s := s.modCore c fun k => { k with flight := { k.flight with
    streams := Vector.replicate 4 .reset, knife := .reset, marks := [], held := [], answer := none, resetting := true } }
  discardArrivals c s

/-- A core at its core-reset values: instruction memory, fault log and FLT_HEAD stay, and its fabric engine passes the
entries that were not started (R304, R443, R447). -/
def Core.afterReset (k : Core) (produced : BitVec 32) : Core :=
  { Core.reset with
    ctl := { CoreCtl.reset with
      imem := k.ctl.imem, imemMark := k.ctl.imemMark, log := k.ctl.log, logRead := k.ctl.logRead, fltNext := k.ctl.fltNext
      fltOverwritten := k.ctl.fltOverwritten }
    flight := { CoreFlight.reset with fabric := { FabricRing.reset with consumed := produced } } }

/-- A core reset ends. -/
def finishCoreReset (c : CoreId) (s : State) : State :=
  let produced := s.fabricProduced c
  s.modCore c fun k => k.afterReset produced

/-- A core at the values a row or partition reset or a scrub leaves, with its local store zeroed (R447). -/
def clearCore (c : CoreId) (s : State) : State :=
  { s.zeroSpan (lsBase c) 0x800000 with cores := Tbl.del s.cores c.toNat }

/-! ## RESET_CTL (R442, R446) -/

/-- The cores of a core's row. -/
def rowCores (c : CoreId) : List CoreId := (List.range 16).map fun k => coreOf (dieOf c) (bits c.toNat 4 4) k

/-- The cores that the reset in progress of a page covers. -/
def ResetCtl.cores (q : ResetCtl) : List CoreId := if q.kind = 2 then rowCores q.core else [q.core]

/-- May a partition reset this core: it names one of its cores in a present unit (R16, R442)? -/
def State.mayReset (s : State) (p : Nat) (c : CoreId) : Bool := coreExists c && s.unitPresent (unitOf c) && s.corePart c == some p

/-- The reset page changed. -/
def State.modResetCtl (s : State) (p : Nat) (f : ResetCtl → ResetCtl) : State := s.modPart p fun q => { q with resetCtl := f q.resetCtl }

/-- A host access that R331 makes without effect is counted. -/
def State.countRefused (s : State) : State := { s with errors := { s.errors with hostRefused := s.errors.hostRefused + 1 } }

/-- Is a partition being scrubbed (R374)? -/
def Part.scrubbing (q : Part) : Bool := q.scrub == .pending || q.scrub == .running

/-- A write of RESET_CTL: CORE and KIND are stored, and GO starts the reset they name, unless one runs; a target outside
the partition is refused and recorded (R442); during a partition reset or scrub it has no effect (R331, R446). -/
def writeResetCtl (p : Nat) (core : CoreId) (kind : Nat) (go : Bool) (s : State) : State :=
  let q := s.part p
  if !q.layout.valid || q.resetting then s.countRefused
  else if q.scrubbing || (go && q.resetCtl.busy) then s
  else
    let s := s.modResetCtl p fun q => { q with core := core, kind := BitVec.ofNat 2 kind }
    if !go || kind = 0 then s
    else if kind = 3 || !s.mayReset p core then (s.modResetCtl p fun q => { q with result := 1 }).healthEvent 4 core.toNat
    else
      let s := s.modResetCtl p fun q => { q with busy := true }
      let s := wakeDomain (rowDomain core) s
      (if kind = 2 then rowCores core else [core]).foldl (fun s c => beginCoreReset c s) s

/-- A host write to the RESET_CTL page of a partition: one that reaches the page disturbs the iron sweep (R296, R330). -/
def hostResetCtl (p : Nat) (core : CoreId) (kind : Nat) (go : Bool) (s : State) : State :=
  writeResetCtl p core kind go (if (s.part p).layout.valid ∧ !(s.part p).resetting then s.disturb (some p) else s)

/-- CORE_RESET: RESET_CTL with KIND 1 and GO. -/
def execCoreReset (part : Nat) (core : CoreId) (s : State) : Out := .next (hostResetCtl part core 1 true s)

/-- ROW_RESET: RESET_CTL with KIND 2 and GO. -/
def execRowReset (part : Nat) (core : CoreId) (s : State) : Out := .next (hostResetCtl part core 2 true s)

/-- RESET_DRAIN_COMPLETE: the reset in progress of a partition's page ends once its cores have drained (R443). -/
def execResetDrainComplete (part : Nat) (s : State) : Out :=
  let q := (s.part part).resetCtl
  if !q.busy || !q.cores.all (coreDrained s) then .next s
  else
    let s := q.cores.foldl (fun s c => if q.kind = 2 then clearCore c s else finishCoreReset c s) s
    .next (s.modResetCtl part fun q => { q with busy := false, result := 0, count := q.count + 1 })

/-! ## Press units (R257, R444) -/

/-- One press instruction of a unit, as its row executes it. -/
def pressInstruction (unit : Nat) (w : BitVec 32) (s : State) : Out :=
  let env : TransferEnv := { noValue := none, ecc := [] }
  match piOp w with
  | 0x00 => execPend unit s
  | 0x01 => execVsetl unit s
  | 0x02 => execPld unit env s
  | 0x03 => execPst unit s
  | 0x08 => execPadd unit s
  | 0x09 => execPsub unit s
  | 0x0A => execPmul unit s
  | 0x0B => execPfma unit s
  | 0x0C => execPmin unit s
  | 0x0D => execPmax unit s
  | 0x0E => execPsqrt unit s
  | 0x0F => execPrecip unit s
  | 0x10 => execPsign unit s
  | 0x11 => execPabs unit s
  | 0x12 => execPneg unit s
  | _ => .next s

/-- The rest of the iteration that a press unit is in; `fuel` bounds the instructions. -/
def finishIteration (unit : Nat) : Nat → State → State
  | 0, s => s
  | fuel + 1, s =>
    let q := s.pressUnit unit
    match q.current with
    | some (_, w) =>
      if q.pc = 0 then s
      else match pressInstruction unit w s with
        | .next t => finishIteration unit fuel t
        | _ => s
    | none => s

/-- A press unit finishes its iteration, and its ring and registers are cleared (R444). -/
def clearPress (unit : Nat) (s : State) : State :=
  let s := finishIteration unit (s.pressUnit unit).prog.length s
  { s with press := Tbl.del s.press unit }

/-- The press units of a list of partition units. -/
def pressOf (units : List Nat) : List Nat := units.flatMap fun u => [2 * u, 2 * u + 1]

/-! ## Wheels, records and the job of a partition -/

/-- Every wheel of a partition freed, with no completion record (R226, R444). -/
def freeWheels (p : Nat) (s : State) : State := (s.wheelsOf p).foldl State.freeWheelEntry s

/-- The record in progress of every ring of a partition completes ABORTED (R346). -/
def abortRecords (p : Nat) (s : State) : State :=
  let s := (s.ringsOf p).foldl (fun s r => match (s.ring r).current with
    | some rcd => writeCompletion r rcd (cplStatus 0x12 0) s
    | none => s) s
  s.modPart p fun q => { q with releasing := none, job := q.job.map fun j => { j with stepRing := none } }

/-- Every ring of a partition takes its next records (R444). -/
def pumpRings (p : Nat) (s : State) : State := (s.ringsOf p).foldl (fun s r => pumpRing r s) s

/-- The HDM slots that a job's staging maps (R347). -/
def Job.hdmSlots (j : Job) (port : Nat) : List Nat := (List.range j.stagingGib).map fun n => 1024 * port + j.hdmSlot + n

/-- The job of a partition released: multicast groups, staging slots, reservation (R323, R345, R347). -/
def releaseJob (p : Nat) (s : State) : State :=
  let q := s.part p
  let slots := match q.job with
    | some j => j.hdmSlots q.layout.port
    | none => []
  { s with
    fabric := { s.fabric with mcast := s.fabric.mcast.filter fun g => g.2.1 != p }
    host := { s.host with hdm := s.host.hdm.filter fun h => !slots.contains h.1 }
    parts := Tbl.put s.parts p { q with job := none } }

/-! ## Scrubs (R373, R374, R456) -/

/-- The logical cores of a partition unit. -/
def unitCores (u : Nat) : List CoreId := allCores.filter fun c => unitOf c == u

/-- The scrub records of the flash store brought up to date, unless the guard holds them back: a unit whose scrub has begun has one
until it is complete (R374, R404). -/
def State.storeScrubs (s : State) : State :=
  let state := fun u => Tbl.getD s.rtp.unitScrub u .none
  let started := (s.rtp.unitScrub.map (·.1)).filter fun u => state u != .complete && state u != .none
  let records := started.foldl insertNum (s.rtp.scrubRecords.filter fun u => state u != .complete)
  if s.flashHeld || records == s.rtp.scrubRecords then s
  else State.flashWrote { s with rtp := { s.rtp with scrubRecords := records } } regionHistory

/-- The domains of a partition unit: its three rows and its stack (R18, R410). -/
def unitDomains (u : Nat) : List Nat := [16 * (u / 4) + 3 * (u % 4), 16 * (u / 4) + 3 * (u % 4) + 1, 16 * (u / 4) + 3 * (u % 4) + 2, 64 + u]

/-- A scrub of units of a partition begins: the RTP records the units, and their cores stop and drain as a core reset's do; it
goes on once they have drained (R373, R374). -/
def beginScrub (p : Nat) (units : List Nat) (s : State) : State :=
  let s := wakeFor (units.flatMap unitDomains) s
  let s := ((units.flatMap unitCores).filter fun c => !(s.core c).flight.resetting).foldl (fun s c => beginCoreReset c s) s
  let s := s.modPart p fun q => { q with scrub := .pending }
  advanceScrub p (State.storeScrubs { s with rtp := { s.rtp with
    unitScrub := units.foldl (fun t u => Tbl.put t u .pending)
      (s.rtp.unitScrub.filter fun e => e.2 == .failed || !(s.unitsOf p).contains e.1) } })

/-- The ranges of HBM of a unit that a scrub of its partition zeroes: the job's reservation and the peer grants. -/
def Part.hbmOf (q : Part) (u : Nat) : List (Nat × Nat) :=
  (match q.job with
    | some j => match Tbl.get? j.bases u with
      | some b => [(b, j.hbmBytes)]
      | none => []
    | none => []) ++ (q.grants.filter fun g => g.unit == u).map fun g => (g.base, g.bytes)

/-- Is a group-table key in the share of a unit (R302)? -/
def groupOfUnit (u key : Nat) : Bool := key / 256 == u / 4 && key % 256 / 64 == u % 4

/-- One unit scrubbed: cores, local stores, instruction memory, group-table entries, press units, and its HBM with raw
zeros. -/
def scrubUnit (p u : Nat) (s : State) : State :=
  let s := (unitCores u).foldl (fun s c => clearCore c s) s
  let s := ((s.part p).hbmOf u).foldl (fun s r => s.zeroSpan r.1 r.2) s
  { s with
    fabric := { s.fabric with groups := s.fabric.groups.filter fun g => !groupOfUnit u g.1 }
    press := (s.press.filter fun q => q.1 / 2 != u) }

/-- The items of a partition that a scrub zeroes as a whole: segments, multicast groups, wheels, the iron report and
schedule images, and the grants whose bytes are gone. -/
def scrubPart (p : Nat) (s : State) : State :=
  let s := freeWheels p (releaseJob p s)
  s.modPart p fun q => { q with segs := [], iron := .reset, grants := [] }

/-! ## Partition reset (R444) -/

/-- Traffic on its way into a partition whose reset begins or ends is absorbed: signals to its cores, and transfers from peers, which
fail at their senders with REMOTE (R304). -/
def absorbTraffic (p : Nat) (s : State) : State :=
  let s := { s with signals := s.signals.filter fun f => s.corePart f.target != some p }
  let open_ := s.fabric.incoming.filter fun x => x.accepted && x.part == p
  let s := { s with fabric := { s.fabric with
    incoming := s.fabric.incoming.map fun x => if x.accepted && x.part == p then { x with accepted := false } else x } }
  open_.foldl (fun s x => s.answerPeer x.sender x.tag 0x060C) s

/-- A partition reset begins: dozing domains of it wake (R446); the flag, the records, the cores, the drain, the press units, the wheels; a confidential
partition's scrub begins with it. -/
def beginPartitionReset (p : Nat) (s : State) : State :=
  let s := wakeFor ((s.unitsOf p).flatMap unitDomains) s
  let s := s.modPart p fun q => { q with resetting := true }
  let s := if (s.part p).resetCtl.busy then s.modResetCtl p fun q => { q with busy := false, result := 2 } else s
  let s := absorbTraffic p (abortRecords p s)
  let s := (s.coresOf p).foldl (fun s c => beginCoreReset c s) s
  let s := endDrain p s
  let s := (pressOf (s.unitsOf p)).foldl (fun s u => clearPress u s) s
  let s := freeWheels p s
  if (s.part p).layout.conf then beginScrub p (s.unitsOf p) s else s

/-- May a partition reset end: every core has drained, and a confidential partition's units are scrubbed? -/
def resetDue (s : State) (p : Nat) : Bool :=
  (s.part p).resetting && (s.coresOf p).all (coreDrained s) && (!(s.part p).layout.conf || (s.part p).scrub == .complete)

/-- A fresh XTS key of a partition, made and installed; none in the RTP's error state (R355, R359). -/
def newPartKey (p : Nat) (s : State) : State :=
  if s.rtp.error then s
  else
    let k := s.newKey
    k.2.modPart p fun q => { q with xtsKey := some k.1 }

/-- A partition reset ends: the job is released, segments cleared, barriers as loaded, memories zeroed; a confidential
partition has a new key; the rings go on. -/
def finishPartitionReset (p : Nat) (s : State) : State :=
  let s := (s.coresOf p).foldl (fun s c => clearCore c s) (absorbTraffic p s)
  let s := restoreBarriers p (releaseJob p s)
  let s := if (s.part p).layout.conf then newPartKey p s else s
  let s := s.modPart p fun q => { q with segs := [], grants := [], iron := { q.iron with sweeps := 0 }, resetting := false, fatal := false, held := false }
  pumpRings p s

end Sys2Proof.Machine
end

