-- ==== Sys2Proof/Machine/Checkpoint.lean ====
section
/-! DEFINITION. Checkpoints and takeovers: the schedule image as bytes, the slot a drain writes, the commit, and the
fence, hold, choice, restore and resume of a takeover (R263–R273). -/

namespace Sys2Proof.Machine

/-! ## The manifest (R264) -/

/-- BASE0 of a manifest entry. -/
def mfBase0 (e : BitVec 256) : Nat := field e 0 64
/-- BASE1 of a manifest entry. -/
def mfBase1 (e : BitVec 256) : Nat := field e 64 64
/-- The byte count of a manifest entry. -/
def mfBytes (e : BitVec 256) : Nat := field e 128 64
/-- BUF of a manifest entry. -/
def mfBuf (e : BitVec 256) : Bool := e.getLsbD 192
/-- Where a tensor of generation g lies (R263). -/
def mfAddr (e : BitVec 256) (g : Nat) : Nat := if mfBuf e && g % 2 == 1 then mfBase1 e else mfBase0 e

/-! ## The schedule image as bytes (R264, R265) -/

/-- The 128 bytes of a core record. -/
def coreRecord (i : CoreImage) : List Byte :=
  let loops : List Nat := i.loops.toList.map fun l => l.word.toNat
  let bounds : List Byte := i.loops.toList.flatMap fun l => leBytes 4 (l.endAt.toNat + l.start.toNat * 2 ^ 16)
  let sems : List Byte := i.sems.toList.flatMap fun v => leBytes 2 v.toNat
  leBytes 8 (i.pc.toNat + (if i.half then 2 ^ 14 else 0)) ++ leBytes 8 i.issueCount.toNat ++ wordBytes loops ++ bounds ++ sems

/-- The logical core of record n. -/
def recordCore (n : Nat) : CoreId := coreOf (n / 192) (n / 16 % 12) (n % 16)

/-- An image from byte 0x40 on. -/
def imageBody (m : SchedImage) : List Byte :=
  ((List.range 64).flatMap fun r => match Tbl.get? m.rings r with
      | some x => padTo 32 (leBytes 4 x.1.toNat ++ leBytes 4 x.2.1.toNat ++ leBytes 4 x.2.2.toNat)
      | none => zeroBytes 32)
    ++ ((List.range 1024).flatMap fun b => leBytes 2 (Tbl.getD m.epochs b 0).toNat)
    ++ zeroBytes 4032
    ++ ((List.range 768).flatMap fun n => match Tbl.get? m.cores (recordCore n).toNat with
      | some i => coreRecord i
      | none => zeroBytes 128)
    ++ ((List.range 32).flatMap fun u => match Tbl.get? m.press u with
      | some x => padTo 16 (leBytes 4 x.1.toNat ++ leBytes 4 x.2.toNat)
      | none => zeroBytes 16)
    ++ zeroBytes 3584
    ++ m.wheels.flatMap fun w => leBytes 128 w.2.toNat

/-- A schedule image as bytes (R264). -/
def imageBytes (m : SchedImage) : List Byte :=
  let body := imageBody m
  padTo 64 (leBytes 4 1 ++ leBytes 4 m.gen.toNat ++ leBytes 8 m.step.toNat
    ++ leBytes 4 (m.fabricId.toNat % 4096 + m.units.toNat * 2 ^ 16) ++ leBytes 4 m.wheels.length ++ leBytes 8 (64 + body.length)
    ++ leBytes 4 (crc32 body).toNat) ++ body

/-- A core record read back. -/
def readCoreRecord (l : List Byte) : CoreImage :=
  { pc := BitVec.ofNat 14 (bytesNat l 0 8), half := bit (bytesNat l 0 8) 14, issueCount := BitVec.ofNat 64 (bytesNat l 8 8)
    loops := Vector.ofFn fun i =>
      let w := bytesNat l (16 + 8 * i.val) 8
      let e := bytesNat l (48 + 4 * i.val) 4
      { active := bit w 63, index := BitVec.ofNat 21 (bits w 0 21), count := BitVec.ofNat 21 (bits w 21 21)
        endAt := BitVec.ofNat 14 e, start := BitVec.ofNat 14 (bits e 16 14) }
    sems := Vector.ofFn fun i => BitVec.ofNat 16 (bytesNat l (64 + 2 * i.val) 2) }

/-- A schedule image read back, with the wheel IDs given for its contexts in their order. -/
def readImage (l : List Byte) (wheels : List Nat) : SchedImage :=
  { gen := BitVec.ofNat 32 (bytesNat l 4 4), step := BitVec.ofNat 64 (bytesNat l 8 8), fabricId := BitVec.ofNat 16 (bytesNat l 16 2 % 4096)
    units := BitVec.ofNat 16 (bytesNat l 18 2)
    rings := (List.range 64).map fun r => (r, (BitVec.ofNat 32 (bytesNat l (64 + 32 * r) 4), BitVec.ofNat 32 (bytesNat l (68 + 32 * r) 4),
      BitVec.ofNat 32 (bytesNat l (72 + 32 * r) 4)))
    epochs := (List.range 1024).map fun b => (b, BitVec.ofNat 16 (bytesNat l (0x840 + 2 * b) 2))
    cores := (List.range 768).map fun n => ((recordCore n).toNat, readCoreRecord ((l.drop (0x2000 + 128 * n)).take 128))
    press := (List.range 32).map fun u => (u, (BitVec.ofNat 32 (bytesNat l (0x1A000 + 16 * u) 4), BitVec.ofNat 32 (bytesNat l (0x1A004 + 16 * u) 4)))
    wheels := wheels.zipIdx.map fun w => (w.1, BitVec.ofNat 1024 (bytesNat l (0x1B000 + 128 * w.2) 128)) }

/-! ## The slot (R266) -/

/-- A length rounded up to 4 KiB. -/
def pageUp (n : Nat) : Nat := (n + 4095) / 4096 * 4096

/-- Offsets of the tensors in a slot, in manifest order. -/
def tensorOffsets (start : Nat) : List Nat → List Nat
  | [] => []
  | n :: t => start :: tensorOffsets (start + pageUp n) t

/-- The tensor table of a slot. -/
def tensorTable (manifest : List (BitVec 256)) (offsets : List Nat) (tensors : List (List Byte)) : List Byte :=
  padTo 0x20000 ((manifest.zip (offsets.zip tensors)).flatMap fun e =>
    padTo 32 (leBytes 8 e.2.1 ++ leBytes 8 (mfBytes e.1) ++ leBytes 4 (crc32 e.2.2).toNat ++ leBytes 4 (if mfBuf e.1 then 1 else 0) ++ leBytes 8 (mfBase0 e.1)))

/-- The commit record of a slot. -/
def commitRecord (m : SchedImage) (count imageLength : Nat) (body : List Byte) : List Byte :=
  padTo 64 (leBytes 4 m.gen.toNat ++ leBytes 4 0 ++ leBytes 8 m.step.toNat ++ leBytes 4 (m.fabricId.toNat % 4096 + count % 65536 * 2 ^ 16)
    ++ leBytes 4 (crc32 body).toNat ++ leBytes 8 imageLength ++ leBytes 16 Config.serial.toNat ++ [1])

/-- Where the tensors of a job lie in a slot. -/
def slotOffsets (j : Job) (m : SchedImage) : List Nat := tensorOffsets (pageUp (0x21000 + (imageBytes m).length)) (j.manifest.map mfBytes)

/-- Bytes without marks. -/
def unmarked (l : List Byte) : List MByte := l.map fun b => (b, false)

/-- The writes of a drain before its commit record, in order, as offsets in the slot and bytes: the COMMITTED bit cleared, the
tensors, the image, the table (R266). -/
def slotWrites (j : Job) (m : SchedImage) (tensors : List (List MByte)) : List (Nat × List MByte) :=
  [(48, [(0, false)])] ++ (slotOffsets j m).zip tensors
    ++ [(0x21000, unmarked (imageBytes m)), (0x40, unmarked (tensorTable j.manifest (slotOffsets j m) (tensors.map plainBytes)))]

/-- What the commit record's CRC covers: the tensor table, the bytes after it, and the image (R266). -/
def slotBody (table image : List Byte) : List Byte := table ++ zeroBytes (0x21000 - 0x40 - 0x20000) ++ image

/-- The commit record of a job's drain (R266). -/
def drainRecord (j : Job) (m : SchedImage) (tensors : List (List Byte)) : List Byte :=
  let image := imageBytes m
  commitRecord m j.manifest.length image.length (slotBody (tensorTable j.manifest (slotOffsets j m) tensors) image)

/-- The bytes of a slot for a manifest and the length of an image. -/
def slotSize (manifest : List (BitVec 256)) (imageLength : Nat) : Nat :=
  (manifest.map mfBytes).foldl (fun n b => n + pageUp b) (pageUp (0x21000 + imageLength))

/-! ## The commit (R266–R269) -/

/-- POWER_FEED_ID. -/
def State.powerFeed (s : State) : Nat := s.dictNat 0x2010 1 0
/-- FEED_OVERRIDE. -/
def State.feedOverride (s : State) : Bool := s.dictNat 0x2010 2 0 != 0

/-- Are two power feeds independent: known, and different (R268)? -/
def feedsApart (a b : Nat) : Bool := a != 0 && b != 0 && a != b

/-- CKPT_INDEPENDENCE_PART of a partition (R269). -/
def State.independence (s : State) (p : Nat) : Nat :=
  match (s.part p).job with
  | some j => if j.slots.toList.any (·.isSome) then j.independence else 0
  | none => 0

/-- CKPT_INDEPENDENCE of the device (R269). -/
def State.deviceIndependence (s : State) : Nat :=
  let jobs := (List.range 16).filter fun p => (s.part p).job.isSome
  if jobs.any (fun p => s.independence p == 2) then 2
  else if jobs.any (fun p => (s.part p).job.any (fun j => j.partner != 0xFFFF) && s.independence p == 0) then 0
  else if jobs.any (fun p => s.independence p == 1) then 1
  else 0

/-- Packets of a drain: writes of the slot as puts to the partner's mirror reservation, poison marks with them. -/
def drainPackets (partner base : Nat) (enc : Bool) (tag : Nat) (writes : List (Nat × List MByte)) : List OutPacket :=
  writes.flatMap fun w => dataPackets 1 partner (base + w.1) tag w.2.length enc w.2

/-- Where the slot a drain uses begins in the partner's HBM region. -/
def Job.slotBase (j : Job) (m : SchedImage) : Nat :=
  j.mirrorOffset + if j.drainSlot = 0 then 0 else Config.secondSlot j.mirrorBytes (slotSize j.manifest (imageBytes m).length)

/-- Packets of a drain sent to the partner, over the first port toward it that carries traffic, and counted in the session. -/
def sendDrain (p : Nat) (j : Job) (m : SchedImage) (writes : List (Nat × List MByte)) (s : State) : State :=
  let peer := j.partner.toNat
  match s.portToward peer with
  | none => s
  | some port =>
    let tag := s.fresh
    let l := drainPackets peer (j.slotBase m) (s.confidential (some p)) (tag.1.toNat % 2 ^ 32) writes
    (tag.2.sendOn port (.drain p) l).countPackets p peer true l.length

/-- The drain that waits first begins, if none is in progress. -/
def nextDrain (p : Nat) (s : State) : State :=
  s.modJob p fun j => match j.draining, j.queued with
    | none, e :: rest => { j with draining := some e.1, drainImage := some e.2, drainSent := none, queued := rest }
    | _, _ => j

/-- The drain in progress sends all that goes before its commit record, as soon as its partner can be reached and, in a
confidential partition, the session is ready: COMMITTED of its slot is cleared first, so that the slot holds no committed
generation from then on (R266, R371). One whose partner cannot be reached ends (R267). -/
def sendDrains (p : Nat) (s : State) : State :=
  match (s.part p).job with
  | none => s
  | some j =>
    match j.draining, j.drainImage with
    | some g, some m =>
      if j.drainSent.isSome then s
      else if (s.routeTo j.partner.toNat).isEmpty then endDrain p s
      else if !s.sessionReady p j.partner.toNat then s
      else
        let tensors := j.manifest.map fun e => s.memBytes (mfAddr e g.toNat) (mfBytes e)
        (wakeFor (j.manifest.flatMap fun e => inboundDomains (mfAddr e g.toNat)) (sendDrain p j m (slotWrites j m tensors) s)).modJob p fun k => { k with
          drainSent := some (drainRecord j m (tensors.map plainBytes)), slots := k.slots.setIfInBounds j.drainSlot none }
    | _, _ => s

/-- A generation to be drained is queued, and the drain begins if none is in progress (R262, R263, R266). -/
def queueDrain (p : Nat) (g : BitVec 32) (m : SchedImage) (s : State) : State :=
  sendDrains p (nextDrain p (s.modJob p fun j => { j with queued := j.queued ++ [(g, m)] }))

/-- The commit of the generation being drained: its commit record is sent, its buffer leaves DRAINING, and the independence of
the copy is judged again; then the next drain begins. -/
def commitDrain (p : Nat) (j : Job) (g : BitVec 32) (m : SchedImage) (record : List Byte) (partner : PartnerInfo) (s : State) : State :=
  let s := sendDrain p j m [(0, unmarked record)] s
  let s := s.modJob p fun j => { j.settleBuffer g with
    draining := none, drainImage := none, drainSent := none
    slots := j.slots.setIfInBounds j.drainSlot (some g), newest := j.drainSlot
    independence := if feedsApart s.powerFeed partner.feed then 1 else 2 }
  sendDrains p (nextDrain p s)

/-- CHECKPOINT_COMMIT: every byte sent of the drain of a partition's job is visible at the partner, and the drain commits; or it
cannot finish and ends without a commit (R266, R267). One that has not yet sent its bytes sends them now, if it can. -/
def execCheckpointCommit (part : Nat) (ok : Bool) (partner : PartnerInfo) (s : State) : Out :=
  match (s.part part).job with
  | none => .next s
  | some j =>
    match j.draining, j.drainImage with
    | some g, some m =>
      if !ok ∨ (s.routeTo j.partner.toNat).isEmpty then .next (sendDrains part (nextDrain part (failDrain part s)))
      else match j.drainSent with
        | none => .next (sendDrains part s)
        | some record => .next (if s.sessionReady part j.partner.toNat then commitDrain part j g m record partner s else s)
    | _, _ => .next s

/-! ## The step boundary (R260–R265, R293) -/

/-- The release of a job's step barrier: G advances, its buffer becomes STABLE, a stable boundary has its image
captured and, where G is drained, its drain queued, an unstable one is logged, and the STEP in progress
completes (R261, R263, R264, R342). A drain of an earlier generation goes on past the boundary (R262). -/
def stepBoundary (p : Nat) (epoch : BitVec 16) (members : List CoreId) (s : State) : State :=
  match (s.part p).job with
  | none => s
  | some j =>
    let g := j.gen + 1
    let stable := boundaryStable s p j epoch members
    let drains := stable && j.interval != 0 && g.toNat % j.interval == 0
    let s := s.modPart p fun q => { q with job := q.job.map fun j => { j with
      gen := g
      bufs := j.bufs.setIfInBounds (g.toNat % 2) { gen := g, state := if drains then .draining else .stable }
      arrived := j.arrived.filter fun a => a.2 != epoch.toNat
      unstable := j.unstable.filter (· != epoch.toNat)
      stepRing := none } }
    let s := match j.stepRing with
      | some r => completeRecord r { cplOk with gen := g.toNat, stable := stable } s
      | none => s
    let image := captureImage s p j g epoch members
    let s := s.modPart p fun q => { q with job := q.job.map fun j => { j with
      image := if stable then some image else j.image
      arrivalImages := j.arrivalImages.filter fun i => i.1 % 65536 != epoch.toNat } }
    let s := if drains then queueDrain p g image s else s
    if stable then s else s.logError { source := 0x13, part := some p, unit := 0x20, core := 0x3FF, address := 0, detail := 0 }

/-- BARRIER_COMPLETION: the root completes the open epoch and sends the release; at the step barrier that is the
step boundary, and on the head the stragglers are judged (R261, R270, R293). -/
def execBarrierCompletion (part bid time : Nat) (s : State) : Out :=
  let b := s.barrier part bid
  if !completionDue s part b then .next s
  else
    let isStep := (s.part part).job.any fun j => j.stepBarrier == bid
    let judge := isStep && barScope b.entry && s.isHead
    let runs := straggleRuns b (s.dictNat 0x2520 1 20) (s.dictNat 0x2520 2 8)
    let s := s.modBarrier part bid fun b =>
      { b.complete (s.rootDie part) with
        releaseNo := (s.part part).releases
        lastRelease := some time, prevRelease := b.lastRelease, straggles := if judge then runs.1 else b.straggles }
    let s := s.modPart part fun q => { q with releases := q.releases + 1 }
    let s := if judge then runs.2.foldl (fun s d => s.healthEvent 1 d)
        { s with fabric := { s.fabric with takeover := { s.fabric.takeover with stragglers := runs.2 } } } else s
    .next (if isStep then stepBoundary part b.rootEpoch b.members s else s)

/-! ## Takeover (R270–R273) -/

/-- Does a partition run the ring group's job: is its job's step barrier a ring-group barrier? -/
def State.runsGroupJob (s : State) (p : Nat) : Bool := (s.part p).job.any fun j => barScope (s.barrier p j.stepBarrier).entry

/-- The partitions that a takeover holds. -/
def State.groupParts (s : State) : List Nat := (List.range 16).filter s.runsGroupJob

/-- A hold of a partition: its cores reset, its press units clear, its wheels stop, its records end ABORTED, its drain
ends (R272 step 2). -/
def holdPart (p : Nat) (s : State) : State :=
  let s := s.modPart p fun q => { q with held := true }
  let s := (s.coresOf p).foldl (fun s c => beginCoreReset c s) s
  let s := (pressOf (s.unitsOf p)).foldl (fun s u => clearPress u s) s
  endDrain p (abortRecords p s)

/-- Sessions with a device dropped. -/
def dropPeerSessions (peer : Nat) (s : State) : State :=
  { s with fabric := { s.fabric with sessions := s.fabric.sessions.filter fun x => x.peer != peer } }

/-- Does a spare qualify (R272 step 3)? -/
def spareOk (failed : FailedDevice) (x : SpareInfo) : Bool :=
  x.isOn && (failed.presentPu &&& x.presentPu) == failed.presentPu
    && (failed.partnerFeed != some x.feed || x.feedOverride)
    && failed.mirrorFeeds.all fun m => m.1 != x.feed || m.2

/-- The first spare in SPARE_ID order that qualifies (R272 step 3). -/
def State.chooseSpare (s : State) (failed : FailedDevice) (spares : List SpareInfo) : Option SpareInfo :=
  (List.range 8).findSome? fun i =>
    let id := s.dictNat 0x2520 (3 + i) 0xFFFF
    spares.find? fun x => x.id == id && spareOk failed x

/-- A takeover that stops: the group stays held, and the head's health range has the reason: 1 TAKEOVER_NONE,
2 TAKEOVER_KEYS, 3 RESTORE_CRC, 4 RESTORE_NONE (R273). -/
def stopTakeover (reason : Nat) (s : State) : State :=
  { s with fabric := { s.fabric with takeover := { s.fabric.takeover with phase := 2, reason := reason } } }.healthEvent 3 reason

/-- A fabric ID with the spare's put under the replaced one. -/
def renameId (failed spare n : Nat) : Nat := if n = spare then failed else n

/-- A link with its neighbour's new ID. -/
def FloodLink.rename (failed spare : Nat) (l : FloodLink) : FloodLink := { l with neighbour := renameId failed spare l.neighbour }
/-- A port with its neighbour's new ID. -/
def Port.rename (failed spare : Nat) (q : Port) : Port := { q with neighbour := BitVec.ofNat 12 (renameId failed spare q.neighbour.toNat) }

/-- The flooded port states with the spare's under the replaced ID. -/
def renameTopology (failed spare : Nat) (t : Tbl (List FloodLink)) : Tbl (List FloodLink) :=
  (t.filter fun e => e.1 != failed).foldl (fun t e => Tbl.put t (renameId failed spare e.1) (e.2.map (FloodLink.rename failed spare))) []

/-- The ports with their neighbours' new IDs; one that leads to the replaced device itself stays cut off (R272 step 1). -/
def renamePorts (failed spare : Nat) (l : Tbl Port) : Tbl Port :=
  l.map fun q => (q.1, if q.2.neighbour.toNat = failed then { q.2 with fenced := true } else q.2.rename failed spare)

/-- The members that remain, the spare's under its new ID and in the group (R325). -/
def renameMembers (failed spare group : Nat) (l : List DomainMember) : List DomainMember :=
  (l.filter fun m => m.id != failed).map fun m => if m.id = spare then { m with id := failed, group := group } else m

/-- Sessions with the spare under its new ID. -/
def renameSessions (failed spare : Nat) (l : List LinkSession) : List LinkSession :=
  l.map fun x => { x with peer := renameId failed spare x.peer }

/-- The spare takes the replaced device's ID: neighbours and links of the spare's ID are now under that ID, the spare is in the
group and the replaced device no longer, and the head distributes new routes (R272 step 4, R273, R325). -/
def takeIdentity (failed spare group : Nat) (s : State) : State :=
  let f := s.fabric
  let isSpare := s.fabricId == spare
  let s : State := { s with
    fabric := { f with
      topology := renameTopology failed spare f.topology
      assignedId := if isSpare then BitVec.ofNat 16 failed else f.assignedId
      replaced := ((f.members.filter fun m => m.id == failed).map (·.serial)).foldl insertNum f.replaced
      members := renameMembers failed spare group f.members
      ports := renamePorts failed spare f.ports
      sessions := renameSessions failed spare f.sessions
      takeover := { f.takeover with spare := some spare, dropped := f.takeover.dropped.filter (· != failed) } }
    dict := if isSpare then { s.dict with entries := Tbl.put s.dict.entries (256 * 0x2500 + 5) (leBytes 2 group) } else s.dict }
  let s := s.formGroup
  if s.isHead then distributeRoutes s else s

/-- The newest committed generation of a partition's job. -/
def Job.committedGen (j : Job) : Option Nat := ((j.slots[j.newest]?).getD none).map (·.toNat)

/-- The earlier of two generations by serial-number arithmetic (R260). -/
def earlierGen (a b : Nat) : Nat := if serialGe 32 a b then b else a

/-- The group commit generation: the lowest of the working devices' (R260, R271). -/
def groupGen (own : List (Option Nat)) (others : List (Option Nat)) : Option Nat :=
  let l := own ++ others
  if l.isEmpty || l.any (·.isNone) then none
  else (l.filterMap id).foldl (fun m g => some (match m with | some x => earlierGen x g | none => g)) none

/-- A core set to its record: Stopped at the recorded PC with its loops, count and semaphores, every other register at
its core-reset value (R262, R272 step 6). -/
def Core.restore (k : Core) (produced : BitVec 32) (i : CoreImage) : Core :=
  let r := k.afterReset produced
  { r with
    regs := { r.regs with loops := i.loops, sems := i.sems }
    sys := { r.sys with issueCount := i.issueCount }
    ctl := { r.ctl with pc := i.pc.toNat, half := i.half, loadedA := k.ctl.loadedA, loadedB := k.ctl.loadedB } }

/-- What a partition's restore uses: the image, the tensors where this device's own buffer no longer holds the
generation, and whether any of it comes from the partner's slot (R271). -/
structure RestoreSource where
  image : SchedImage
  tensors : Option (List (List Byte))
  fromSlot : Bool

/-- Does a slot hold the committed generation g (R266)? -/
def slotHolds (c : SlotCopy) (g : Nat) : Bool := bit (bytesNat c.record 48 1) 0 && bytesNat c.record 0 4 == g

/-- Do the CRCs of a slot hold: that of its commit record, that of its image, and each tensor's (R264, R266, R272 step 6)? -/
def slotSound (c : SlotCopy) : Bool :=
  bytesNat c.record 20 4 == (crc32 (slotBody c.table c.image)).toNat && bytesNat c.image 32 4 == (crc32 (c.image.drop 64)).toNat
    && c.tensors.zipIdx.all fun t => bytesNat c.table (32 * t.2 + 16) 4 == (crc32 t.1).toNat

/-- Where a job's restore of generation g takes its image and tensors from (R271), or why it stops: 4 RESTORE_NONE, 3
RESTORE_CRC (R273). `ids` are the wheel IDs for an image from a slot. -/
def restoreSource (j : Job) (g : Nat) (ids : Nat → List Nat) (copies : List SlotCopy) : Except Nat RestoreSource :=
  let held := ((j.bufs[g % 2]?).map (·.gen.toNat)) == some g
  let own := match j.image with
    | some m => if m.gen.toNat = g then some m else none
    | none => none
  match own, held with
  | some m, true => .ok { image := m, tensors := none, fromSlot := false }
  | _, _ =>
    match copies.filter (slotHolds · g) with
    | [] => .error 4
    | here => match here.find? slotSound with
      | none => .error 3
      | some c => .ok { image := own.getD (readImage c.image (ids (bytesNat c.image 20 4)))
                        tensors := if held then none else some c.tensors, fromSlot := true }

/-- The wheel IDs for the n contexts of an image that this device did not capture: those of its last image if that has as many,
else the lowest entries of the lowest-numbered stack of the partition, as OPEN takes them (R220, R272, log 172). -/
def State.restoredWheels (s : State) (p n : Nat) : List Nat :=
  let own := match (s.part p).job.bind (·.image) with
    | some m => m.wheels.map (·.1)
    | none => []
  if own.length = n then own
  else match (s.unitsOf p).filter s.unitPresent with
    | u :: _ => (List.range n).map (16384 * u + ·)
    | [] => []

/-- BF16 elements of FP32 ones, rounded to nearest with ties to even (R252, R272 step 6). -/
def bf16Copy (data : List Byte) : List Byte :=
  (pieces 4 (data.length / 4) data).flatMap fun e => leBytes 2 (convertFloat bf16 false .near (fp32.decode (leNat e))).code

/-- The BF16 working copies of a partition's job regenerated from the restored masters. -/
def regenerate (p : Nat) (g : Nat) (l : List WorkingCopy) (s : State) : State :=
  match (s.part p).job with
  | none => s
  | some j => (l.filter (·.part == p)).foldl (fun s w => match j.manifest[w.tensor]? with
      | some e => if isHbm w.addr && j.holdsHbm (stackOf w.addr) w.addr (mfBytes e / 2) then s.put w.addr (bf16Copy (s.peek (mfAddr e g) (mfBytes e))) false else s
      | none => s) s

/-- The barriers of a partition opened at the image's epochs (R272 step 6). -/
def restoreEpochs (p : Nat) (m : SchedImage) (s : State) : State :=
  s.modPart p fun q => { q with barriers := q.barriers.map fun b =>
    (b.1, match Tbl.get? m.epochs b.1 with
      | some e => Barrier.fresh b.2.entry b.2.members e
      | none => b.2) }

/-- The rings of a partition set from the image: consumer and completion index and the SEQ of the last record completed. -/
def restoreRings (p : Nat) (m : SchedImage) (s : State) : State :=
  (s.ringsOf p).foldl (fun s r => match Tbl.get? m.rings r with
    | some x => s.modRing r fun q => { q with
        consumed := x.1, cplNext := x.2.1, lastDone := x.2.2, lastSeq := if x.1 = 0 then none else some x.2.2, current := none }
    | none => s) s

/-- A wheel with the counts of its core ring as the ring holds them, where it has one (R238). -/
def State.ringCounts (s : State) (v : Wheel) : Wheel :=
  if v.codec.toNat < 4 ∧ rcRing v.recipe then
    { v with consumed := BitVec.ofNat 32 (s.peekNat (ringAddr v.recipe) 4), produced := BitVec.ofNat 32 (s.peekNat (ringAddr v.recipe + 4) 4) }
  else v

/-- The wheels of a partition set from the image; a wheel opened since is freed. -/
def restoreWheels (p : Nat) (m : SchedImage) (s : State) : State :=
  let old := s.intake.wheels
  let s := freeWheels p s
  m.wheels.foldl (fun s w =>
    (s.setWheel w.1 (s.ringCounts (Wheel.ofContext w.2 p ((Tbl.get? old w.1).map (·.recipe) |>.getD 0)))).saveWheel w.1) s

/-- A partition restored to a generation (R272 step 6). A job whose partner was the replaced device has no committed slot
left there (R269). -/
def restorePart (p : Nat) (g : Nat) (m : SchedImage) (tensors : Option (List (List Byte))) (s : State) : State :=
  match (s.part p).job with
  | none => s
  | some j =>
    let s := match tensors with
      | some l => (j.manifest.zip l).foldl (fun s e => s.put (mfAddr e.1 g) (e.2.take (mfBytes e.1)) false) s
      | none => s
    let s := wakeFor ((s.unitsOf p).flatMap unitDomains) s
    let s := restoreWheels p m (restoreEpochs p m (restoreRings p m s))
    let s := (pressOf (s.unitsOf p)).foldl (fun s u => match Tbl.get? m.press u with
      | some x => s.modPress u fun q => { q with readIndex := x.1, lastGen := x.2 }
      | none => s) s
    let s := (s.coresOf p).foldl (fun s c =>
      let produced := s.fabricProduced c
      s.modCore c fun k => match Tbl.get? m.cores c.toNat with
        | some i => k.restore produced i
        | none => k.afterReset produced) s
    s.modJob p fun j => { j with
      gen := BitVec.ofNat 32 g, bufs := j.bufs.setIfInBounds (g % 2) { gen := BitVec.ofNat 32 g, state := .stable }
      slots := if j.partner.toNat = s.fabric.takeover.failed then Vector.replicate 2 none else j.slots
      stepNo := m.step, stepRing := none, arrived := [], unstable := [], arrivalImages := [], image := some m, draining := none, drainImage := none
      drainSent := none, queued := [] }

/-- The reasons of a list of sources that stop the restore. -/
def restoreStops (l : List (Nat × Except Nat RestoreSource)) : List Nat :=
  l.filterMap fun x => match x.2 with
    | .error e => some e
    | .ok _ => none

/-- The restore of every held partition, or the reason it stops (R272 step 6, R273). -/
def restoreGroup (group : GroupView) (s : State) : State :=
  let parts := s.groupParts
  let own := if s.fabric.takeover.phase = 4 then [] else parts.map fun p => ((s.part p).job.bind Job.committedGen)
  match groupGen own group.gens with
  | none => stopTakeover 4 s
  | some g =>
    let sources := parts.map fun p => (p, match (s.part p).job with
      | some j => restoreSource j g (s.restoredWheels p) (group.slots.filter fun c => c.part == p)
      | none => .error 4)
    match restoreStops sources with
    | e :: _ => stopTakeover e s
    | [] =>
      let s := sources.foldl (fun s x => match x.2 with
        | .ok y => regenerate x.1 g group.copies (restorePart x.1 g y.image y.tensors s)
        | .error _ => s) s
      { s with fabric := { s.fabric with takeover := { s.fabric.takeover with phase := 1 } } }

/-- Fence and hold: traffic of the replaced device is dropped, and the group's partitions are held (R272 steps 1, 2). -/
def fenceAndHold (failed : Nat) (s : State) : State :=
  let s := { s with fabric := { s.fabric with takeover :=
    { s.fabric.takeover with phase := 3, failed := failed, spare := none, reason := 0, dropped := insertNum s.fabric.takeover.dropped failed } } }
  dropPeerSessions failed (s.groupParts.foldl (fun s p => holdPart p s) s)

/-- Are a confidential partition's keys installed for a spare that has taken the replaced ID: its host has laid the matching
partition out with CONF = 1 and the same TENANT, and its RTP has sessions with every member, this device's among them (R372)? -/
def keysInstalled (s : State) (failed : Nat) (x : SpareInfo) (p : Nat) : Bool :=
  x.layout.any (fun l => l.1 == p && l.2.1 && l.2.2 == (s.part p).layout.tenant) && (s.session p failed).isSome
    && s.otherMembers.all fun m => m.id == failed || x.sessions.contains m.id

/-- Choice, identity, tenancy and restore, once every held core has drained (R272 steps 3–6). -/
def chooseAndRestore (failed : FailedDevice) (spares : List SpareInfo) (group : GroupView) (s : State) : State :=
  match if s.isHead then (s.chooseSpare failed spares).map (·.id) else group.choice with
  | none => stopTakeover 1 s
  | some n =>
    let s := takeIdentity failed.id n failed.group s
    if (s.groupParts.filter fun p => s.confidential (some p)).all fun p => spares.any fun x => x.id == n && keysInstalled s failed.id x p then
      restoreGroup group s
    else stopTakeover 2 s

/-- May a head replace a working device: it has reported device-fatal, no port leads to it, or it straggled at the last step
boundary (R270)? -/
def State.mayReplace (s : State) (failed : FailedDevice) : Bool :=
  failed.fatal || (s.routeTo failed.id).isEmpty || s.fabric.takeover.stragglers.contains failed.id

/-- Does a device that only straggles keep working, for want of a spare (R270)? -/
def State.keepsWorking (s : State) (failed : FailedDevice) (spares : List SpareInfo) : Bool :=
  !failed.fatal && !(s.routeTo failed.id).isEmpty && (s.chooseSpare failed spares).isNone

/-- A spare that the head has chosen takes the replaced device's identity, and waits for its host to admit the jobs (R272 steps 4,
5). -/
def spareIdentity (failed : FailedDevice) (s : State) : State :=
  let s := takeIdentity failed.id s.fabricId failed.group s
  { s with fabric := { s.fabric with takeover := { s.fabric.takeover with phase := 4, failed := failed.id } } }

/-- A spare whose host has admitted the jobs of the group restores them (R272 step 6). -/
def spareRestore (group : GroupView) (s : State) : State :=
  if s.groupParts.isEmpty then s
  else restoreGroup group (s.groupParts.foldl (fun s p => s.modPart p fun q => { q with held := true }) s)

/-- TAKEOVER: fence, hold, choice, identity, tenancy and restore, on the head, on a member that follows it, or on the spare; while a
transfer that had started still runs, the hold stands and the takeover goes no further (R270, R272). -/
def execTakeover (failed : FailedDevice) (spares : List SpareInfo) (group : GroupView) (s : State) : Out :=
  let phase := s.fabric.takeover.phase
  if phase = 1 then .next s
  else if phase = 4 then .next (spareRestore group s)
  else if s.fabric.groupState ≠ 1 ∧ s.fabric.groupState ≠ 2 then
    .next (if s.fabric.groupState = 0 ∧ group.choice = some s.fabricId then spareIdentity failed s else s)
  else if phase ≠ 3 ∧ s.isHead ∧ !s.mayReplace failed then .next s
  else if phase ≠ 3 ∧ s.isHead ∧ s.keepsWorking failed spares then .next (s.healthEvent 1 failed.id)
  else
    let s := if phase = 3 then s else fenceAndHold failed.id s
    if s.groupParts.all fun p => (s.coresOf p).all (coreDrained s) then .next (chooseAndRestore failed spares group s) else .next s

/-- A core resumes issue at its recorded PC, as if the step barrier had just released (R272 step 7). -/
def resumeCore (c : CoreId) (s : State) : State :=
  s.modCore c fun k => { k with ctl := { k.ctl with state := .running, hold := .none, heldAt := BitVec.ofNat 14 k.ctl.pc, audit := s.auditMode c } }

/-- TAKEOVER_RESUME: the head releases the group; cores with a record issue again and the rings go on (R272 step 7). -/
def execTakeoverResume (s : State) : Out :=
  if s.fabric.takeover.phase ≠ 1 then .next s
  else
    let parts := s.groupParts.filter fun p => (s.part p).held
    let s := { s with fabric := { s.fabric with takeover := { s.fabric.takeover with phase := 0 } } }
    .next (parts.foldl (fun s p =>
      let members : List Nat := match (s.part p).job with
        | some j => (j.image.toList.flatMap fun m => m.cores.map (·.1))
        | none => []
      let s := s.modPart p fun q => { q with held := false }
      let s := ((s.coresOf p).filter fun c => members.contains c.toNat).foldl (fun s c => resumeCore c s) s
      pumpRings p s) s)

end Sys2Proof.Machine
end

