-- ==== Sys2Proof/Machine/Layout.lean ====
section
/-! DEFINITION. A layout image as SET_LAYOUT carries it, and the partitions it changes (R366, R368). -/

namespace Sys2Proof.Machine

/-- The 1,024 bits of a partition's record in a layout image. -/
def layoutRecord (image : List Byte) (k : Nat) : BitVec 1024 := BitVec.ofNat 1024 (bytesNat image (0x40 + 128 * k) 128)

/-- A partition record read from a layout image (R366). -/
def readPartRec (r : BitVec 1024) : PartRec :=
  { valid := r.getLsbD 0, conf := r.getLsbD 1, port := field r 2 1, engines := BitVec.ofNat 32 (field r 32 32)
    rings := BitVec.ofNat 64 (field r 64 64), tenant := BitVec.ofNat 384 (field r 128 384)
    grants := (List.range 4).map fun i => { base := field r (512 + 128 * i) 56, tier := field r (568 + 128 * i) 8, length := field r (576 + 128 * i) 64 } }

/-- The record of a partition in a layout image. -/
def imageRec (image : List Byte) (k : Nat) : PartRec := readPartRec (layoutRecord image k)

/-- The byte of a unit in PU_MAP. -/
def imageUnit (image : List Byte) (u : Nat) : Nat := ((image[u]?).getD 0).toNat

/-- The units that a layout image gives a partition. -/
def imageUnits (image : List Byte) (k : Nat) : List Nat := (List.range 16).filter fun u => imageUnit image u == k

/-- Does a partition change under a layout image (R368)? -/
def State.changes (s : State) (image : List Byte) (k : Nat) : Bool :=
  let old := (s.part k).layout
  let new := imageRec image k
  (old.valid || new.valid) && (old != new || s.unitsOf k != imageUnits image k)

/-- The partitions that a layout image changes. -/
def State.changed (s : State) (image : List Byte) : List Nat := (List.range 16).filter (s.changes image)

/-- Is a layout that changes a partition being applied (R368)? -/
def State.layoutTouches (s : State) (p : Nat) : Bool :=
  match s.rtp.background with
  | .layout image _ => s.changes image p
  | _ => false

end Sys2Proof.Machine
end

