-- ==== Sys2Proof/Machine/HostJobs.lean ====
section
/-! DEFINITION. The host attachment: rings and watch lines, the ADMIT, STEP, CONTROL and RELEASE records, the HDM window,
CAVE_MAP and link training (R174–R177, R185, R191, R195, R268, R286, R287, R302, R323, R327–R351). -/

namespace Sys2Proof.Machine

/-! ## Whether the device is On (R425) -/

/-- May a job ring run: the device is On, and not in Deep Rest (R416, R425)? -/
def State.ringsUp (s : State) : Bool := s.start.isOn && !s.power.deepRest

/-! ## Rings (R332, R333) -/

/-- PRODUCED of a ring read again from its producer line, and its records taken, while its port is linked (R328, R333). -/
def refetch (r : Nat) (s : State) : State :=
  if !s.reachable (s.ringPort r) then s else
  let s := s.modRing r fun q => { q with produced := BitVec.ofNat 32 (s.peekNat (hostAddr q.prodLine.toNat) 4) }
  pumpRing r s

/-- Bytes that the host stores into its own memory and the expanders. -/
def hostStores (l : List Host.Cell) (s : State) : State :=
  l.foldl (fun s c => if regionOf c.1 = .host then s.store c.1 [c.2] false else s) s

/-- WATCH_LINE_INVALIDATE: the host's stores, the last of them to a ring's producer line; an enabled ring reads the line
again (R333, R348). -/
def execWatchLineInvalidate (ring : Nat) (stores : List Host.Cell) (s : State) : Out :=
  let s := hostStores stores s
  .next (if (s.ring ring).enable then refetch ring s else s)

/-- The ring configuration's ENABLE set with the fields of its word: counts zero, STOPPED cleared, and the watch line read; a
reserved size is refused and counted, whatever else the write would meet (R332, R333, R335). -/
def enableRing (r : Nat) (msix : Bool) (vector : BitVec 11) (s : State) : State :=
  let q := s.ring r
  if q.enable then s
  else if 12 ≤ q.ringLog2.toNat ∨ 12 ≤ q.cplLog2.toNat then s.countRefused
  else if !s.ringsUp || (s.ringPart r).isNone then s
  else
    let s := s.modRing r fun q => { q with
      enable := true, msix := msix, vector := vector, stopped := false, consumed := 0, cplNext := 0, lastSeq := none, current := none, disabling := false }
    refetch r s

/-- RING_ENABLE: a write that sets ENABLE with MSIX and VECTOR. -/
def execRingEnable (ring : Nat) (msix : Bool) (vector : BitVec 11) (s : State) : Out :=
  .next (if s.reachable (s.ringPort ring) then enableRing ring msix vector s else s)

/-- ENABLE cleared: at once, or once the record in progress has completed (R332). -/
def disableRing (r : Nat) (s : State) : State :=
  s.modRing r fun q => if !q.enable then q else if q.current.isSome then { q with disabling := true } else { q with enable := false }

/-- RING_DISABLE: a write that clears ENABLE. -/
def execRingDisable (ring : Nat) (s : State) : Out := .next (if s.reachable (s.ringPort ring) then disableRing ring s else s)

/-! ## Records in progress -/

/-- A record in progress of a kind, and for CONTROL a subcommand, with its ring's partition. -/
def currentRecord (s : State) (r kind : Nat) (sub : Option Nat) : Option (Nat × BitVec 2048) :=
  match s.ringPart r, (s.ring r).current with
  | some p, some rcd => if recKind rcd = kind ∧ sub.all (recSub rcd == ·) then some (p, rcd) else none
  | _, _ => none

/-- The image address of a CONTROL record, or the address field of an ADMIT. -/
def recImage (r : BitVec 2048) : Nat := field r 192 64

/-- Bits of a CONTROL body between two places that are not all zero. -/
def bodyBits (r : BitVec 2048) (lo hi : Nat) : Bool := field r lo (hi - lo) != 0

/-- Does a CONTROL record set a bit that its subcommand does not name (R344)? The named operands are ranges. -/
def controlReserved (r : BitVec 2048) (named : List (Nat × Nat)) : Bool :=
  let whole := (r.toNat / 2 ^ 136) * 2 ^ 136
  named.foldl (fun n x => n - bits n x.1 (x.2 - x.1) * 2 ^ x.1) whole != 0

/-- A CONTROL record, a host write that reaches the partition's control window (R296, R330): reserved bits make it
BAD_RECORD; otherwise its body runs. -/
def controlRecord (r sub : Nat) (named : List (Nat × Nat)) (body : Nat → BitVec 2048 → State → State) (s : State) : Out :=
  match currentRecord s r 4 (some sub) with
  | none => .next s
  | some (p, rcd) => .next (if controlReserved rcd named then completeOpen r 0x01 (s.disturb (some p)) else body p rcd (s.disturb (some p)))

/-- A status with a DETAIL that completes a ring's record. -/
def refuse (r status detail : Nat) (s : State) : State := completeRecord r (cplStatus status detail) s

/-! ## HBM that can be granted (R20, R185, R191) -/

/-- The grantable bytes of a stack (R20, R22, R185). -/
def State.grantable (s : State) (u : Nat) : Nat :=
  0xFF0000000 - (if s.start.strongEcc then 0x100000000 else 0) - Tbl.getD s.start.mappedPcs u 0 * 0x40000000

/-- Ranges of a stack that are reserved: the reservations of admitted jobs and the peer grants (R191, R344). -/
def State.reservedRanges (s : State) (u : Nat) : List (Nat × Nat) := s.parts.flatMap fun p => p.2.hbmOf u

/-- Does a range keep clear of every reserved one? -/
def rangeFree (taken : List (Nat × Nat)) (a n : Nat) : Bool := taken.all fun t => decide (a + n ≤ t.1) || decide (t.1 + t.2 ≤ a)

/-- The place of n reserved bytes on a stack: the lowest 4 KiB boundary at which they fit (log 13). -/
def State.placeRange (s : State) (u n : Nat) : Option Nat :=
  let taken := s.reservedRanges u
  let starts := (hbmBase u :: taken.map fun t => hbmBase u + pageUp (t.1 + t.2 - hbmBase u)).filter fun a =>
    decide (a + n ≤ hbmBase u + s.grantable u) && rangeFree taken a n
  starts.foldl (fun m a => some (match m with | some x => min x a | none => a)) none

/-! ## ADMIT (R340, R341) -/

/-- The n-byte number at an offset of an admission block. -/
def blockNat (b : List Byte) (ofs n : Nat) : Nat := bytesNat b ofs n

/-- The present units of a partition. -/
def State.presentUnits (s : State) (p : Nat) : List Nat := (s.unitsOf p).filter s.unitPresent

/-- The bytes of a press ring pair. -/
def pressRingBytes (entries : Nat) : Nat := 2 * entries * 384

/-- The fields of an admission block that fail, by offset (R339 ADMIT_INVALID, R340). -/
def blockChecks (s : State) (p : Nat) (b : List Byte) : List (Nat × Bool) :=
  let n (ofs len : Nat) : Nat := blockNat b ofs len
  let hbm := n 0 8
  let ls := n 0x0C 4
  let staged := n 0x03B 1 != 0
  [(0x008, decide (hbm < n 0x008 4 * pageSize)),
   (0x010, decide (1024 ≤ n 0x010 2)),
   (0x018, (n 0x012 2 != 0 && n 0x018 2 == 0xFFFF) || (decide (4096 ≤ n 0x018 2) && n 0x018 2 != 0xFFFF)),
   (0x020, decide (4096 < n 0x020 2)),
   (0x024, n 0x024 4 % 256 != 0 || decide (ls < n 0x024 4 + 256)),
   (0x028, decide (32 ≤ n 0x028 1)),
   (0x02C, n 0x02C 4 % 64 != 0 || decide (ls < n 0x02C 4 + 0x40 + 64 * n 0x030 2)),
   (0x030, decide (n 0x030 2 < 2) || decide (256 < n 0x030 2)),
   (0x034, n 0x034 4 % 4096 != 0 || decide (hbm < n 0x034 4 + pressRingBytes (n 0x038 2))),
   (0x038, decide (n 0x038 2 < 2) || decide (1024 < n 0x038 2)),
   (0x03A, staged && !(s.presentUnits p).contains (n 0x03A 1)),
   (0x03B, decide (128 < n 0x03B 1)),
   (0x040, staged && decide (hbm < (n 0x040 4 + n 0x03B 1) * 2 ^ 30))]

/-- The partition unit that admission cannot grant, and where it puts the others (R191). -/
def placeJob (s : State) (p : Nat) (hbm ls : Nat) : Except Nat (Tbl Nat) :=
  (s.presentUnits p).foldl (fun r u => match r with
    | .error e => .error e
    | .ok t => match if ls ≤ 0x800000 then s.placeRange u hbm else none with
      | some a => .ok (Tbl.put t u a)
      | none => .error u) (.ok [])

/-- The job that an admission block declares (R260, R263, R340). -/
def jobOf (tag : BitVec 32) (r : Nat) (b : List Byte) (manifest : List (BitVec 256)) (bases : Tbl Nat) : Job :=
  let n (ofs len : Nat) : Nat := blockNat b ofs len
  let g := BitVec.ofNat 32 (n 0x014 4)
  let other : BufRec := { gen := g - 1, state := .stable }
  let window := match bases with
    | (_, a) :: _ => a + (n 0 8 - n 0x008 4 * pageSize) / 4096 * 4096
    | [] => 0
  { tag := tag, ring := r, hbmBytes := n 0 8, caveSlots := n 0x008 4, lsBytes := n 0x0C 4, stepBarrier := n 0x010 2, interval := n 0x012 2
    partner := BitVec.ofNat 16 (n 0x018 2), mirrorTag := BitVec.ofNat 32 (n 0x01C 4), manifest := manifest, mailboxOfs := n 0x024 4
    mailboxSem := BitVec.ofNat 5 (n 0x028 1), fabricOfs := n 0x02C 4, fabricEntries := n 0x030 2, pressOfs := n 0x034 4, pressEntries := n 0x038 2
    stagingPu := n 0x03A 1, stagingGib := n 0x03B 1, hdmSlot := n 0x03C 1, stagingOfs := n 0x040 4, bases := bases, caveWindow := window
    cavePages := [], caveWaits := [], migrated := 0, gen := g
    bufs := (Vector.replicate 2 other).setIfInBounds (g.toNat % 2) { gen := g, state := .stable }
    stepNo := 0, stepRing := none, arrived := [], unstable := [], arrivalImages := [], image := none, draining := none, drainImage := none
    drainSent := none, queued := [], mirrorBytes := 0, mirrorOffset := 0
    slots := Vector.replicate 2 none, newest := 0, independence := 0 }

/-- The status with which a job's partner is refused, if it is (R268, R313, R372). -/
def partnerRefusal (s : State) (p : Nat) (j : Job) (partner : PartnerInfo) : Option Nat :=
  if j.partner = 0xFFFF then none
  else if !feedsApart s.powerFeed partner.feed && !s.feedOverride then some 0x07
  else if s.fabric.joinStatus != 0 || decide (partner.mirrorBytes < 2 * slotSize j.manifest 0x1B000)
      || (s.confidential (some p) && !partner.confidential) then some 0x08
  else none

/-- Slots of the HDM window mapped onto consecutive GiB of the staging unit's reservation (R347). -/
def mapStaging (p : Nat) (j : Job) (s : State) : State :=
  let base := Tbl.getD j.bases j.stagingPu 0 + j.stagingOfs * 2 ^ 30
  { s with host := { s.host with
    hdm := (j.hdmSlots (s.part p).layout.port).zipIdx.foldl (fun t h => Tbl.put t h.1 (base + h.2 * 2 ^ 30)) s.host.hdm } }

/-- A core's mailbox and fabric ring zeroed, its fabric engine at the start of the ring (R341). -/
def clearJobStore (j : Job) (s : State) (c : CoreId) : State :=
  let s := wakeFor (inboundDomains (lsBase c)) (s.put (lsBase c + j.mailboxOfs) (zeroBytes 256) false)
  let s := s.put (lsBase c + j.fabricOfs) (zeroBytes (0x40 + 64 * j.fabricEntries)) false
  s.modFabricRing c fun _ => .reset

/-- An accepted admission: the job, its staging slots, its mailboxes and rings, and what is written back (R340, R341). -/
def grantJob (r p block : Nat) (j : Job) (s : State) : State :=
  let s := s.modPart p fun q => { q with job := some j }
  let s := mapStaging p j s
  let s := (s.coresOf p).foldl (clearJobStore j) s
  let s := (pressOf (s.unitsOf p)).foldl (fun s u => { s with press := Tbl.del s.press u }) s
  let back := (List.range 16).flatMap (fun u => leBytes 8 (Tbl.getD j.bases u 0)) ++ leBytes 8 j.caveWindow
  completeRecord r cplOk (s.put (hostAddr (block + 0x100)) back false)

/-- An ADMIT record of a partition (R339–R341); a partition that is being scrubbed, or that a layout being applied changes, admits no
job (R368, R374; the status is a DESIGN CHOICE, log 176). -/
def admitJob (r p : Nat) (rcd : BitVec 2048) (partner : PartnerInfo) (s : State) : State :=
  let block := field rcd 128 64
  let manifestAt := recImage rcd
  if (s.part p).job.isSome || (s.part p).scrubbing || s.layoutTouches p then completeOpen r 0x04 s
  else if !s.hostGranted p block 512 then completeOpen r 0x11 s
  else
    let b := s.peek (hostAddr block) 512
    match (blockChecks s p b).find? (·.2) with
    | some f => refuse r 0x06 f.1 s
    | none =>
      let n := blockNat b 0x020 2
      if n ≠ 0 ∧ !s.hostGranted p manifestAt (32 * n) then completeOpen r 0x11 s
      else
        let manifest := (List.range n).map fun i => BitVec.ofNat 256 (s.peekNat (hostAddr (manifestAt + 32 * i)) 32)
        match placeJob s p (blockNat b 0 8) (blockNat b 0x0C 4) with
        | .error u => refuse r 0x05 u s
        | .ok bases =>
          let j := { jobOf (BitVec.ofNat 32 (recJob rcd)) r b manifest bases with mirrorBytes := partner.mirrorBytes, mirrorOffset := partner.mirrorOffset }
          match partnerRefusal s p j partner with
          | some status => completeOpen r status s
          | none =>
            match (j.hdmSlots (s.part p).layout.port).find? fun h => (Tbl.get? s.host.hdm h).isSome with
            | some h => refuse r 0x09 (h % 1024) s
            | none => grantJob r p block j s

/-- ADMIT (R340). -/
def execJobAdmit (ring : Nat) (partner : PartnerInfo) (s : State) : Out :=
  match currentRecord s ring 1 none with
  | none => .next s
  | some (p, rcd) => .next (admitJob ring p rcd partner s)

/-! ## STEP (R342) -/

/-- The 216 bytes that a STEP writes into a mailbox. -/
def mailboxBytes (rcd : BitVec 2048) : List Byte :=
  leBytes 8 (field rcd 128 64) ++ leBytes 4 (recSeq rcd).toNat ++ zeroBytes 4 ++ leBytes 200 (field rcd 192 1600)

/-- A STEP record of a job: every mailbox, then every mailbox semaphore; it completes at the next step boundary. -/
def stepJob (r p : Nat) (j : Job) (rcd : BitVec 2048) (s : State) : State :=
  if j.stepRing.isSome then refuse r 0x0F 0 s
  else
    let cores := s.coresOf p
    let s := s.modJob p fun j => { j with stepRing := some r, stepNo := BitVec.ofNat 64 (field rcd 128 64) }
    let s := cores.foldl (fun s c => wakeFor (inboundDomains (lsBase c)) (s.put (lsBase c + j.mailboxOfs) (mailboxBytes rcd) false)) s
    cores.foldl (fun s c => s.signalDone c j.mailboxSem.toNat) s

/-- STEP (R342). A STEP already begun waits for its boundary. -/
def execJobStep (ring : Nat) (s : State) : Out :=
  match currentRecord s ring 2 none with
  | none => .next s
  | some (p, rcd) =>
    match (s.part p).job with
    | none => .next (completeOpen ring 0x03 s)
    | some j =>
      if badJob s ring rcd then .next (completeOpen ring 0x03 s)
      else if j.stepRing = some ring then .next s
      else .next (stepJob ring p j rcd s)

/-! ## CONTROL: segments (R176, R177, R195) -/

/-- The bytes of metadata or pack index that a wax descriptor needs. -/
def metaBytes (d : BitVec 256) : Nat := (segLimit d + 4096) / 4096 * (if segPacked d then 8 else 1)

/-- Does a device address range lie in the job's reservation of a partition? -/
def State.inReservation (s : State) (p a n : Nat) : Bool := (s.part p).job.any fun j => isHbm a && j.holdsHbm (stackOf a) a n

/-- The conditions of R176 that a descriptor fails, by number. -/
def segmentChecks (s : State) (p : Nat) (d : BitVec 256) : List (Nat × Bool) :=
  let n := segLimit d + 1
  let wax := segWax d
  [(1, tierOf (regionOf (segBase d)) != some (segTier d)),
   (2, !(if segTier d = 5 then inPeerWindow (segBase d) n && s.fabric.joinStatus == 0 else s.inPart (some p) (segBase d) n)),
   (3, segTier d == 3 && segWr d),
   (4, (wax && !(segTier d == 2 || segTier d == 3)) || (segPacked d && (!wax || segWr d)) || (segTier d == 3 && wax && !(segPacked d && segRes d))),
   (5, wax && !segPacked d && (segBase d % 4096 != 0 || n % 4096 != 0)),
   (6, wax && !s.inReservation p (segMeta d) (metaBytes d)),
   (7, segRes d && (segTier d != 3 || !(s.part p).job.any fun j => j.caveSlots != 0)),
   (8, (segEnc d && segTier d != 2) || (s.confidential (some p) && segTier d == 2 && !segEnc d)),
   (9, segExec d && !(segTier d == 0 || segTier d == 2 || segTier d == 4))]

/-- Descriptor i of a table image in host memory. -/
def imageEntry (s : State) (a i : Nat) : BitVec 256 := BitVec.ofNat 256 (s.peekNat (hostAddr (a + 32 * i)) 32)

/-- A descriptor put into a partition's table: a migrating one's pages are discarded, a writable wax one's metadata says
ZERO (R177, R195). -/
def loadSegment (p : Nat) (i : Nat) (d : BitVec 256) (s : State) : State :=
  let old := Tbl.getD (s.part p).segs i 0
  let s := discardPages p old s
  let s := s.modPart p fun q => { q with segs := Tbl.put q.segs i d }
  if segValid d && segWax d && !segPacked d then s.put (segMeta d) (List.replicate (metaBytes d) 0x10) false else s

/-- The numbers below n whose bit of a mask at a place of a body is set. -/
def maskBits (rcd : BitVec 2048) (lo n : Nat) : List Nat := (List.range n).filter fun i => rcd.toNat.testBit (lo + i)

/-- A segment load of a partition. -/
def loadSegments (r p : Nat) (rcd : BitVec 2048) (s : State) : State :=
  let a := recImage rcd
  if !s.hostGranted p a 8192 then completeOpen r 0x11 s
  else
    let new := (maskBits rcd 256 256).map fun i => (i, imageEntry s a i)
    let bad := new.findSome? fun e => if segValid e.2 then ((segmentChecks s p e.2).find? (·.2)).map fun c => (e.1, c.1) else none
    match bad with
    | some (i, c) => refuse r 0x0A (i + c * 256) s
    | none => completeRecord r cplOk (new.foldl (fun s e => loadSegment p e.1 e.2 s) s)

/-- Segment load (R176). -/
def execSegmentLoad (ring : Nat) (s : State) : Out := controlRecord ring 1 [(192, 512)] (loadSegments ring) s

/-! ## CONTROL: barriers (R286, R287) -/

/-- The member-set word of a die in a barrier entry. -/
def barWord (e : BitVec 256) (die : Nat) : Nat := field e (64 + 32 * die) 32

/-- The members of a barrier entry. -/
def barMembers (s : State) (e : BitVec 256) : List CoreId := (List.range 4).flatMap fun d => s.memberCores d (barWord e d)

/-- Does a KIND 2 word of a die name a valid entry in the share of a unit that the partition holds there (R287, R302)? -/
def groupWordOk (s : State) (p die w : Nat) : Bool :=
  groupValid (s.groupEntry die w) && s.unitPart (4 * die + bits w 2 8 / 64) == some p

/-- Does the tree of a barrier hold an arrival of its open epoch or of the next? -/
def Barrier.holdsArrivals (b : Barrier) : Bool := b.nodes.toList.any fun n => !n.counted.isEmpty || !n.early.isEmpty

/-- The conditions of R287 that an entry fails, by number. -/
def barrierChecks (s : State) (p bid : Nat) (e : BitVec 256) : List (Nat × Bool) :=
  let words := (List.range 4).map fun d => (d, barWord e d)
  let n := barDevices e
  [(1, field e 2 14 != 0 || field e 32 32 != 0 || field e 198 58 != 0 || words.any (fun w => memberReserved w.2)
        || words.all fun w => memberKind w.2 == 0
          || ((memberKind w.2 == 1 || (memberKind w.2 == 2 && groupValid (s.groupEntry w.1 w.2))) && (s.memberCores w.1 w.2).isEmpty)),
   (2, words.any (fun w => memberKind w.2 == 2 && !groupWordOk s p w.1 w.2)
        || (barMembers s e).any fun c => !(coreExists c && s.corePart c == some p && s.unitPresent (unitOf c))),
   (3, if barScope e then decide (n < 2) || decide (32 < n) || !(s.fabric.groupState == 1 || s.fabric.groupState == 2) else n != 1),
   (4, (s.barrier p bid).holdsArrivals)]

/-- The lowest entry that fails a condition for which a test holds, and its lowest such condition. -/
def badBarrier (s : State) (p : Nat) (new : List (Nat × BitVec 256)) (test : Nat → Bool) : Option (Nat × Nat) :=
  new.findSome? fun e => if barValid e.2 then ((barrierChecks s p e.1 e.2).find? fun c => c.2 && test c.1).map fun c => (e.1, c.1) else none

/-- A barrier load of a partition. -/
def loadBarriers (r p : Nat) (rcd : BitVec 2048) (s : State) : State :=
  let a := recImage rcd
  if !s.hostGranted p a 32768 then completeOpen r 0x11 s
  else
    let new := (maskBits rcd 256 1024).map fun i => (i, imageEntry s a i)
    match badBarrier s p new (· < 4) with
    | some (i, c) => refuse r 0x0B (i + c * 1024) s
    | none =>
      match badBarrier s p new (· == 4) with
      | some (i, _) => refuse r 0x0C i s
      | none => completeRecord r cplOk (new.foldl (fun s e => s.modBarrier p e.1 fun _ =>
          Barrier.fresh e.2 (if barValid e.2 then barMembers s e.2 else []) (barEpoch e.2)) s)

/-- Barrier load (R286). -/
def execBarrierLoad (ring : Nat) (s : State) : Out := controlRecord ring 2 [(192, 1280)] (loadBarriers ring) s

/-! ## CONTROL: group tables and multicast groups (R302, R323) -/

/-- Is a group-table entry refused: not in the partition's share, or in use with a core outside it or a bit above 191? -/
def groupRefused (s : State) (p die i : Nat) (e : BitVec 256) : Bool :=
  s.unitPart (4 * die + i / 64) != some p
    || (groupValid e && (field e 193 63 != 0 || (maskCores die e).any fun c => s.corePart c != some p))

/-- A group load of a partition. -/
def loadGroups (r p : Nat) (rcd : BitVec 2048) (s : State) : State :=
  let a := recImage rcd
  let die := field rcd 256 8
  if 4 ≤ die then completeOpen r 0x01 s
  else if !s.hostGranted p a 8192 then completeOpen r 0x11 s
  else
    let new := (maskBits rcd 320 256).map fun i => (i, imageEntry s a i)
    match new.find? fun e => groupRefused s p die e.1 e.2 with
    | some e => refuse r 0x0D e.1 s
    | none => completeRecord r cplOk { s with fabric := { s.fabric with groups := new.foldl (fun t e => Tbl.put t (256 * die + e.1) e.2) s.fabric.groups } }

/-- Group load (R302). -/
def execGroupLoad (ring : Nat) (s : State) : Out := controlRecord ring 3 [(192, 264), (320, 576)] (loadGroups ring) s

/-- Are the members of a multicast group in number and order as R323 asks? -/
def mcastOk (e : BitVec 512) : Bool :=
  let ids := mcastIds e
  decide (1 ≤ ids.length) && decide (ids.length ≤ 32) && (ids.zip ids.tail).all fun x => decide (x.1 < x.2)

/-- A multicast allocation of a partition: the lowest free number. -/
def allocateMcast (r p : Nat) (rcd : BitVec 2048) (s : State) : State :=
  let a := recImage rcd
  if !s.hostGranted p a 64 then completeOpen r 0x11 s
  else
    let e := BitVec.ofNat 512 (s.peekNat (hostAddr a) 64)
    match (List.range 1024).find? fun g => (Tbl.get? s.fabric.mcast g).isNone with
    | none => refuse r 0x0E 0 s
    | some g =>
      if mcastOk e then
        completeRecord r { cplOk with result := g } { s with fabric := { s.fabric with mcast := Tbl.put s.fabric.mcast g (p, e) } }
      else refuse r 0x0D g s

/-- Multicast allocate (R323). -/
def execMulticastAllocate (ring : Nat) (s : State) : Out := controlRecord ring 4 [(192, 256)] (allocateMcast ring) s

/-- A multicast group of a partition freed. -/
def freeMcast (r p : Nat) (rcd : BitVec 2048) (s : State) : State :=
  let g := field rcd 256 10
  if (Tbl.get? s.fabric.mcast g).any fun e => e.1 == p then
    completeRecord r cplOk { s with fabric := { s.fabric with mcast := Tbl.del s.fabric.mcast g } }
  else completeOpen r 0x01 s

/-- Multicast free (R323). -/
def execMulticastFree (ring : Nat) (s : State) : Out := controlRecord ring 5 [(192, 266)] (freeMcast ring) s

/-! ## CONTROL: peer grants (R320, R344) -/

/-- A peer grant of a partition. -/
def grantPeer (r p : Nat) (rcd : BitVec 2048) (s : State) : State :=
  let u := field rcd 268 8
  let n := field rcd 320 64
  match if (s.presentUnits p).contains u then s.placeRange u n else none with
  | none => refuse r 0x05 u s
  | some a =>
    let g : PeerGrant := { sender := field rcd 256 12, unit := u, tag := BitVec.ofNat 32 (field rcd 288 32), bytes := n, base := a }
    completeRecord r { cplOk with result := a } (s.modPart p fun q => { q with grants := q.grants ++ [g] })

/-- Peer grant (R344). -/
def execPeerGrant (ring : Nat) (s : State) : Out := controlRecord ring 6 [(192, 276), (288, 384)] (grantPeer ring) s

/-- Does an incoming transfer use a grant? -/
def State.grantInUse (s : State) (g : PeerGrant) : Bool :=
  s.fabric.incoming.any fun x => x.accepted && x.sender == g.sender && decide (g.base ≤ x.base) && decide (x.base < g.base + g.bytes)

/-- A peer grant revoked; while a transfer uses it the record waits. -/
def revokePeer (r p : Nat) (rcd : BitVec 2048) (s : State) : State :=
  let tag := BitVec.ofNat 32 (field rcd 288 32)
  match (s.part p).grants.find? fun g => g.tag == tag with
  | none => completeOpen r 0x01 s
  | some g =>
    if s.grantInUse g then s
    else completeRecord r cplOk (s.modPart p fun q => { q with grants := q.grants.filter fun x => x != g })

/-- Peer revoke (R344). -/
def execPeerRevoke (ring : Nat) (s : State) : Out := controlRecord ring 7 [(192, 256), (288, 320)] (revokePeer ring) s

/-! ## RELEASE (R345) -/

/-- Is the work of a partition done: no transfer, press descriptor, drain or wheel is left (R345)? -/
def releaseReady (s : State) (p : Nat) : Bool :=
  !s.transfersBusy p && (s.wheelsOf p).isEmpty && !(s.part p).job.any fun j => j.draining.isSome

/-- The STEP of a job that its release ends completes ABORTED on its own ring. -/
def endStep (r p : Nat) (s : State) : State :=
  match (s.part p).job.bind (·.stepRing) with
  | some q => if q = r then s else completeRecord q (cplStatus 0x12 0) s
  | none => s

/-- RELEASE_COMPLETE: once the work is done, the job is released; in a confidential partition the scrub comes first. -/
def execReleaseComplete (ring : Nat) (s : State) : Out :=
  match currentRecord s ring 5 none with
  | none => .next s
  | some (p, _) =>
    let q := s.part p
    if q.releasing ≠ some ring ∨ !releaseReady s p then .next s
    else if q.layout.conf ∧ q.job.isSome then
      .next (if q.scrubbing || q.scrub == .failed then s else beginScrub p (s.unitsOf p) (endStep ring p s))
    else
      let s := endStep ring p s
      .next (completeRecord ring cplOk ((releaseJob p s).modPart p fun q => { q with releasing := none }))

/-! ## The HDM window (R347–R350, R449) -/

/-- Does CXL.mem reach the device through a port: in whey mode a link carries CXL.io alone (R329)? -/
def State.memLinked (s : State) (port : Nat) : Bool := s.reachable port && !s.start.whey

/-- The slots of a port's HDM window: up to 128 GiB per port when bifurcated (R329, R347). -/
def State.hdmSlots (s : State) : Nat := if s.start.bifurcated then 128 else 1024

/-- The device address that an offset of a port's HDM window maps to. -/
def State.hdmAddr (s : State) (port addr : Nat) : Option Nat :=
  if addr / 2 ^ 30 < s.hdmSlots then (Tbl.get? s.host.hdm (1024 * port + addr / 2 ^ 30)).map fun a => a + addr % 2 ^ 30 else none

/-- The parts of n bytes at an offset of the window that lie in one slot each: offset and bytes. -/
def hdmParts (addr n : Nat) : List (Nat × Nat) :=
  if n = 0 then []
  else (List.range' (addr / 2 ^ 30) ((addr + n - 1) / 2 ^ 30 + 1 - addr / 2 ^ 30)).map fun k =>
    let lo := max addr (k * 2 ^ 30)
    (lo, min (addr + n) ((k + 1) * 2 ^ 30) - lo)

/-- The part of a host write that lies in one slot: discarded and counted where the slot is unmapped, absorbed in a partition
that is being reset, and otherwise stored with its mark (R304, R350, R449, R455). -/
def hdmWritePart (port addr : Nat) (data : List Byte) (poisoned : Bool) (s : State) : State :=
  match s.hdmAddr port addr with
  | none => s.countRefused
  | some a =>
    let p := s.unitPart (stackOf a)
    if p.any fun q => (s.part q).resetting then s
    else
      let s := wakeFor (inboundDomains a) (s.put a data poisoned)
      if poisoned then s.logError { source := 0x0E, part := p, unit := 0x10 + stackOf a, core := 0x3FF, address := a, detail := 0 } else s

/-- HDM_WRITE: a host write to the window through a linked port, slot by slot. -/
def execHdmWrite (port addr : Nat) (data : List Byte) (poisoned : Bool) (s : State) : Out :=
  .next (if !s.memLinked port then s
    else (hdmParts addr data.length).foldl (fun s x => hdmWritePart port x.1 ((data.drop (x.1 - addr)).take x.2) poisoned s) s)

/-- What a host read of the part of the window in one slot brings, with its poison: an unmapped slot gives poison, with data no
rule fixes, and is counted (R350, R450). -/
def hdmReadPart (port addr len : Nat) (s : State) : (List Byte × Bool) × State :=
  match s.hdmAddr port addr with
  | none => (((List.range len).map fun i => Config.freeByte (s.free + i), true), { s.countRefused with free := s.free + len })
  | some a => ((s.peek a len, s.marked a len), wakeFor (inboundDomains a) s)

/-- HDM_READ: a host read of the window through a linked port, slot by slot. -/
def execHdmRead (port addr len : Nat) (s : State) : Out :=
  .next (if !s.memLinked port then s
    else (hdmParts addr len).foldl (fun s x =>
        let r := hdmReadPart port x.1 x.2 s
        { r.2 with host := { r.2.host with hdmData := r.2.host.hdmData ++ r.1.1, hdmMarked := r.2.host.hdmMarked || r.1.2 } })
      { s with host := { s.host with hdmData := [], hdmMarked := false } })

/-! ## CAVE_MAP and the links (R328, R329, R351) -/

/-- An entry of a port's CAVE_MAP written; discarded while any job is admitted, and by a port that is not linked. -/
def writeCaveMap (port entry : Nat) (value : BitVec 256) (s : State) : State :=
  if !s.reachable port || decide (8 ≤ entry) || s.parts.any (fun p => p.2.job.isSome) then s
  else { s with host := { s.host with caveMap := s.host.caveMap.setIfInBounds (8 * port + entry) value } }

/-- CAVE_MAP_WRITE (R351). -/
def execCaveMapWrite (port entry : Nat) (value : BitVec 256) (s : State) : Out :=
  .next (writeCaveMap port entry value s)

/-- The full width of a port (R328); x4 in whey mode (R329, R437). -/
def State.portWidth (s : State) : Nat := if s.start.whey then 4 else if s.start.bifurcated then 8 else 16

/-- The widest link of a port that its lanes allow: one that a defect has taken away narrows it (R328, R429, R435). -/
def State.laneWidth (s : State) (port : Nat) : Nat := if s.start.cxlLaneLost port then s.portWidth / 2 else s.portWidth

/-- May a port's link stand at a rate and a width: the port exists, and they are of R328's, no wider than its lanes allow (R328, R329, R435)? -/
def State.mayLink (s : State) (port rate width : Nat) : Bool :=
  s.hasPort port && decide (1 ≤ rate) && decide (rate ≤ 4) && (width == 4 || width == 8 || width == 16) && decide (width ≤ s.laneWidth port)

/-- CXL_LINK_TRAIN: the width and rate a port's link has trained to; one without 256-byte flits or narrower than x4
leaves it unlinked, a slower or narrower one is reported (R328, R455). A rate or width at which the port does not train is no
event. -/
def execCxlLinkTrain (port rate width : Nat) (flit256 : Bool) (s : State) : Out :=
  let set (w r : Nat) (s : State) : State := { s with host := { s.host with
    linkWidth := s.host.linkWidth.setIfInBounds port w, linkRate := s.host.linkRate.setIfInBounds port r } }
  .next (if !s.hasPort port then s
    else if !flit256 || decide (width < 4) then set 0 0 s
    else if !s.mayLink port rate width then s
    else
      let t := set width rate s
      if rate < 4 ∨ width < s.portWidth then
        t.logError { source := 0x0C, part := none, unit := 0x20, core := 0x3FF, address := 0, detail := port } else t)

end Sys2Proof.Machine
end

