-- ==== Sys2Proof/Machine/CoreCtl.lean ====
section
/-! DEFINITION. The host's accesses to control windows, control pages and BAR0 registers, and the events of a core's
control block (R89–R95, R100–R104, R330–R332, R338, R425, R442). -/

namespace Sys2Proof.Machine

/-! ## Accesses through BAR2 (R330, R331) -/

/-- Does a host access of a port reach a core: the port is linked, the device is On, the core is of a partition of the port whose
row is out of reset, and no partition reset runs (R328, R331, R407, R425)? -/
def State.reachesCore (s : State) (port : Nat) (c : CoreId) : Bool :=
  s.reachable port && s.ringsUp && s.domainUp (rowDomain c) && (match s.corePart c with
    | some p => (s.part p).layout.port == port && !(s.part p).resetting
    | none => false)

/-- A host access without effect (R331): it is counted when it reaches the device. -/
def State.missed (s : State) (port : Nat) : State := if s.reachable port then s.countRefused else s

/-- A host write that reaches a core's window, its domain woken (R414) and the iron sweep disturbed (R296); one that
reaches none is counted (R331). -/
def hostWindow (port : Nat) (c : CoreId) (f : State → State) (s : State) : State :=
  if s.reachesCore port c then f ((wakeDomain (rowDomain c) s).disturb (s.corePart c)) else s.missed port

/-- A write to CORE_CTL with one W1 bit, DUMP_LS as given, and the stored HALF and ENTRY written back. -/
def coreCtlWord (k : CoreCtl) (w1 : Nat) (dumpLs : Bool) : Nat :=
  2 ^ w1 + (if k.ctlHalf then 2 ^ 2 else 0) + k.ctlEntry.toNat * 2 ^ 3 + (if dumpLs then 2 ^ 18 else 0)

/-- CORE_CTL_START: a write to CORE_CTL with START (R95). -/
def execCoreCtlStart (port : Nat) (core : CoreId) (half : Bool) (entry : BitVec 14) (dumpLs : Bool) (s : State) : Out :=
  .next (hostWindow port core (writeCoreCtl core (1 + (if half then 2 ^ 2 else 0) + entry.toNat * 2 ^ 3 + (if dumpLs then 2 ^ 18 else 0))) s)

/-- CORE_CTL_STOP: a write to CORE_CTL with STOP (R95). -/
def execCoreCtlStop (port : Nat) (core : CoreId) (s : State) : Out :=
  .next (hostWindow port core (fun s => writeCoreCtl core (coreCtlWord (s.core core).ctl 1 (s.core core).ctl.ctlDumpLs) s) s)

/-- CORE_CTL_DUMP: a write to CORE_CTL with DUMP (R95, R103). -/
def execCoreCtlDump (port : Nat) (core : CoreId) (dumpLs : Bool) (s : State) : Out :=
  .next (hostWindow port core (fun s => writeCoreCtl core (coreCtlWord (s.core core).ctl 17 dumpLs) s) s)

/-- CORE_CTL_CONTINUE: a write to CORE_CTL with CONTINUE (R95). -/
def execCoreCtlContinue (port : Nat) (core : CoreId) (s : State) : Out :=
  .next (hostWindow port core (fun s => writeCoreCtl core (coreCtlWord (s.core core).ctl 19 (s.core core).ctl.ctlDumpLs) s) s)

/-- IMEM_LOADED_SET: a write to IMEM_CTL that sets one LOADED flag (R90). -/
def execImemLoadedSet (port : Nat) (core : CoreId) (half : Bool) (s : State) : Out :=
  .next (hostWindow port core (fun s => s.writeWindow core 0x40000 (if half then 4 else 2) false) s)

/-- A host write of a word of a control window, refused and logged where it aims at the half being fetched (R91, R94). -/
def hostWriteWord (core : CoreId) (ofs : Nat) (v : Word) (mark : Bool) (s : State) : State :=
  if s.imemRefused core ofs 8 then s.logImemActive core (windowBase core + ofs) else s.writeWindow core ofs v.toNat mark

/-- IMEM_WRITE (R91, R94, R449). -/
def execImemWrite (port : Nat) (core : CoreId) (half : Bool) (index : BitVec 14) (value : Word) (poisoned : Bool) (s : State) : Out :=
  .next (hostWindow port core (hostWriteWord core (8 * imemKey half index.toNat) value poisoned) s)

/-- FLT_HEAD_WRITE: clears the count of overwritten entries (R100). -/
def execFltHeadWrite (port : Nat) (core : CoreId) (s : State) : Out :=
  .next (hostWindow port core (fun s => s.writeWindow core 0x40028 0 false) s)

/-- What the last host read of a register brought. -/
def State.answerRead (s : State) (v : Word) : State := { s with host := { s.host with lastRead := v } }

/-- FAULT_LOG_READ: a host read of a word of the fault log; its entry counts as read (R100). A refused read returns all
ones (R331). -/
def execFaultLogRead (port : Nat) (core : CoreId) (word : BitVec 6) (s : State) : Out :=
  if s.reachesCore port core then
    let ofs := 0x40100 + 8 * word.toNat
    let s := wakeDomain (rowDomain core) s
    .next ((s.answerRead (BitVec.ofNat 64 (s.windowWord core ofs).1)).noteRead core ofs)
  else .next ((s.missed port).answerRead (BitVec.allOnes 64))

/-! ## Events of the control block -/

/-- START_FETCH_BEGIN: a waiting START finds its half loaded, `elapsed` held cycles later, and issue begins at its entry
(R94, R95). -/
def execStartFetchBegin (core : CoreId) (elapsed : Nat) (s : State) : Out :=
  let k := s.core core
  match k.ctl.hold, k.ctl.state with
  | .start half entry, .waiting =>
    if k.ctl.loaded half then
      .next ((s.modCore core fun k => { k with
        ctl := { k.ctl with state := .running, hold := .none, half := half, pc := entry.toNat }
        flight := { k.flight with now := k.flight.now + clockedCycles core elapsed s } }).countPerf core 0x03 (clockedCycles core elapsed s))
    else .next s
  | _, _ => .next s

/-- SWAPI_RESUME: `elapsed` cycles after its issue a waiting SWAPI finds the inactive half loaded; that half becomes
active and its entry issues three cycles later (R92, R93). -/
def execSwapiResume (core : CoreId) (elapsed : Nat) (s : State) : Out :=
  let k := s.core core
  match k.ctl.hold, k.ctl.state with
  | .swapi entry, .waiting =>
    let T := heldCycle core elapsed s
    let s' := runTo core T s
    if (s'.core core).ctl.state ≠ .waiting then .next (drain core s')
    else if k.ctl.loaded (!k.ctl.half) then
      .next ((s'.modCore core fun k => { k with
        ctl := { k.ctl with state := .running, hold := .none, half := !k.ctl.half, pc := entry.toNat }
        flight := { k.flight with now := T + 3 } }).countPerf core 0x03 (max 1 (clockedCycles core elapsed s)))
    else .next s
  | _, _ => .next s

/-- RTC_STOP: a core whose ISSUE_COUNT equals its limit, with every queued descriptor complete and no effect held behind
a fence, completes what it has issued and is Stopped at count; a POISON row found as it completes halts it (R96, R101). -/
def execRtcStop (core : CoreId) (s : State) : Out :=
  let k := s.core core
  .next (if k.ctl.state = .running ∧ k.ctl.hold = .none ∧ k.atCount ∧ k.flight.queuesEmpty ∧ k.flight.held = [] ∧ !s.confidential (s.corePart core) then
    stopIssue core .stoppedAtCount s else s)

/-- DUMP_DONE: the dump in progress is written (R103). -/
def execDumpDone (core : CoreId) (s : State) : Out :=
  .next (if (s.core core).ctl.state = .dumping then finishDump core s else s)

/-! ## Other registers (R330, R332, R338, R351) -/

/-- A write of word w of a ring's configuration block: fields other than ENABLE are discarded while ENABLE is 1 (R332). -/
def writeRingConfig (r w : Nat) (v : Word) (s : State) : State :=
  let msix := v.getLsbD 1
  let vector := BitVec.ofNat 11 (bits v.toNat 2 11)
  if w = 0 ∧ v.getLsbD 0 then enableRing r msix vector s
  else if (s.ring r).enable then (if w = 0 then disableRing r s else s)
  else match w with
    | 0 => s.modRing r fun q => { q with msix := msix, vector := vector }
    | 1 => s.modRing r fun q => { q with ringBase := v }
    | 2 => s.modRing r fun q => { q with prodLine := v }
    | 3 => s.modRing r fun q => { q with cplBase := v }
    | 4 => s.modRing r fun q => { q with ringLog2 := BitVec.ofNat 4 (bits v.toNat 0 4), cplLog2 := BitVec.ofNat 4 (bits v.toNat 4 4) }
    | _ => s

/-- A write of a word of the MSI-X table; a pending vector that it unmasks is sent (R338, PCIe: log 10). -/
def writeMsixTable (port word : Nat) (v : Word) (s : State) : State :=
  let s := { s with host := { s.host with msixTable := Tbl.put s.host.msixTable (msixKey port word) v } }
  let n := (word - 0x8000) / 2
  let p := 0xA000 + n / 64
  if word % 2 = 1 ∧ !v.getLsbD 32 ∧ (s.msixWord port p).toNat.testBit (n % 64) then
    let s := { s with host := { s.host with msixTable := Tbl.put s.host.msixTable (msixKey port p) (s.msixWord port p &&& ~~~(1#64 <<< (n % 64))) } }
    s.sendMsix port n
  else s

/-- A write to BAR0 of a port: a ring's configuration, the MSI-X table, CAVE_MAP; other offsets discard it. -/
def writeBar0 (port ofs : Nat) (v : Word) (s : State) : State :=
  let ring := (ofs - 0x1000) / 64
  if !s.reachable port || ofs % 8 != 0 then s
  else if 0x1000 ≤ ofs ∧ ofs < 0x2000 then
    if s.ringPort ring = port then writeRingConfig ring (ofs % 64 / 8) v s else s
  else if 0x40000 ≤ ofs ∧ ofs < 0x40410 then writeMsixTable port (ofs / 8) v s
  else if 0x60000 ≤ ofs ∧ ofs < 0x60100 then
    let e := (ofs - 0x60000) / 32
    let old := (s.host.caveMap[8 * port + e]?).getD 0
    writeCaveMap port e (BitVec.ofNat 256 (putField old.toNat (64 * (ofs % 32 / 8)) 64 v.toNat)) s
  else s

/-- A write to a partition control page: RESET_CTL is its one writable register (R330, R442). -/
def writePage (port ofs : Nat) (v : Word) (s : State) : State :=
  let p := ofs / 0x10000
  let q := s.part p
  if !s.reachable port || !s.ringsUp || ofs % 8 != 0 || decide (16 ≤ p) || !q.layout.valid || q.layout.port != port then s.missed port
  else
    let s := s.disturb (some p)
    if ofs % 0x10000 = 8 then writeResetCtl p (BitVec.ofNat 10 (bits v.toNat 0 10)) (bits v.toNat 10 2) (v.getLsbD 12) s else s

/-- The word of a RESET_CTL page (R442); GO reads 0. -/
def ResetCtl.word (q : ResetCtl) : Nat :=
  q.core.toNat + q.kind.toNat * 2 ^ 10 + (if q.busy then 2 ^ 13 else 0) + q.result.toNat * 2 ^ 14 + q.count.toNat * 2 ^ 32

/-- PART_STATE: the present units of a partition, whether a job is admitted, whether a partition reset runs, and the job's tag
(R330). -/
def State.partState (s : State) (p : Nat) : Nat :=
  let q := s.part p
  ((s.presentUnits p).map fun u => 2 ^ u).foldl (· + ·) 0 + (if q.resetting then 2 ^ 17 else 0)
    + (match q.job with | some j => 2 ^ 16 + j.tag.toNat * 2 ^ 32 | none => 0)

/-- What a host read of a word of a partition control page brings: PART_STATE, RESET_CTL, the iron report at 0x1000; all ones
outside the port's partitions (R297, R330, R331, R425). -/
def State.pageWord (s : State) (port ofs : Nat) : Word :=
  let p := ofs / 0x10000
  let o := ofs % 0x10000
  let q := s.part p
  if !s.ringsUp || ofs % 8 != 0 || decide (16 ≤ p) || !q.layout.valid || q.layout.port != port then BitVec.allOnes 64
  else if o = 0 then BitVec.ofNat 64 (s.partState p)
  else if o = 8 then BitVec.ofNat 64 q.resetCtl.word
  else if 0x1000 ≤ o ∧ o < 0x1000 + 64 + 16 * 768 then BitVec.ofNat 64 (s.peekNat (s.ironAt p + (o - 0x1000)) 8)
  else 0

/-- What a host read of word w of a ring's configuration block brings (R332). -/
def State.ringWord (s : State) (r w : Nat) : Word :=
  let q := s.ring r
  match w with
  | 0 => BitVec.ofNat 64 ((if q.enable then 1 else 0) + (if q.msix then 2 else 0) + q.vector.toNat * 4 + (if q.stopped then 2 ^ 13 else 0)
      + (s.ringPart r).getD 0 * 2 ^ 14)
  | 1 => q.ringBase
  | 2 => q.prodLine
  | 3 => q.cplBase
  | 4 => BitVec.ofNat 64 (q.ringLog2.toNat + q.cplLog2.toNat * 16)
  | 5 => BitVec.ofNat 64 (q.consumed.toNat + q.cplNext.toNat * 2 ^ 32)
  | _ => 0

/-- A write of a word of a port's CXL configuration space or HDM decoders, which it answers before On too (R327, R425). -/
def writeConfig (port ofs : Nat) (v : Word) (s : State) : State :=
  if !s.reachable port || ofs % 8 != 0 then s
  else { s with host := { s.host with config := Tbl.put s.host.config (msixKey port (ofs / 8)) v } }

/-- CONTROL_REGISTER_WRITE: an 8-byte host write at an offset of a BAR, or of the configuration space and HDM decoders, which are no BAR
and are named by BAR number 7 (R327, R330–R332; DESIGN CHOICE, log 173). -/
def execControlRegisterWrite (port bar offset : Nat) (value : Word) (s : State) : Out :=
  .next (match bar with
    | 0 => writeBar0 port offset value s
    | 2 =>
      let c := BitVec.ofNat 10 (offset / 0x100000)
      if offset % 8 ≠ 0 ∨ 0x40000000 ≤ offset then s.missed port
      else hostWindow port c (hostWriteWord c (offset % 0x100000) value false) s
    | 4 => writePage port offset value s
    | 7 => writeConfig port offset value s
    | _ => s)

end Sys2Proof.Machine
end

