-- ==== Sys2Proof/Machine/Entries.lean ====
section
/-! DEFINITION. The tables of the object dictionary: every index, its subs, and each entry's length, access, persistence,
default and range (R2, R269, R270, R326, R329, R377–R380, R394, R397, R398, R400, R423, R434, R460). -/

namespace Sys2Proof.Machine

/-- The Access column (R379). -/
inductive EntryAccess where
  | ro
  | rw (role : Role)
  | wo (role : Role)
  | rtp
deriving DecidableEq, Repr

/-- The Persistence column (R380); none for an entry that holds nothing. -/
inductive EntryKeep where
  | fused | persistent | retained | volatile | none
deriving DecidableEq, Repr

/-- The values an entry takes (R378): any bytes, a BOOLEAN, a device ID or 0xFFFF (R270, R313), a number in a range, a
two's-complement number in a range. -/
inductive EntryValue where
  | bytes
  | bool
  | deviceId
  | nat (lo hi : Nat)
  | int (lo hi : Int)
deriving DecidableEq, Repr

/-- An entry of the dictionary; `default` is the number its bytes hold. -/
structure Entry where
  len : Nat
  access : EntryAccess
  keep : EntryKeep
  default : Nat
  value : EntryValue
deriving DecidableEq, Repr

/-- A read-only entry. -/
def Entry.ro (len : Nat) : Entry := { len := len, access := .ro, keep := .volatile, default := 0, value := .bytes }

/-- An unsigned number that an Operator sets, of a persistence class and a default. -/
def Entry.number (len : Nat) (keep : EntryKeep) (default lo hi : Nat) : Entry :=
  { len := len, access := .rw .operator, keep := keep, default := default, value := .nat lo hi }

/-- A BOOLEAN that an Operator sets. -/
def Entry.flag (keep : EntryKeep) (default : Nat) : Entry :=
  { len := 1, access := .rw .operator, keep := keep, default := default, value := .bool }

/-- Bytes that a role sets, Retained. -/
def Entry.retained (len : Nat) (access : EntryAccess) : Entry :=
  { len := len, access := access, keep := .retained, default := 0, value := .bytes }

/-- An entry written for its effect alone. -/
def Entry.act (len : Nat) (role : Role) (value : EntryValue) : Entry :=
  { len := len, access := .wo role, keep := .none, default := 0, value := value }

/-- The limit of a calibration quantity's overlay (R400). -/
def overlayLimit (index : Nat) : Option Int :=
  if 0x3000 ≤ index ∧ index ≤ 0x3003 then some 5000
  else if 0x3004 ≤ index ∧ index ≤ 0x3008 then some 20000
  else if 0x3010 ≤ index ∧ index ≤ 0x3014 then some 2000
  else if index = 0x3020 ∨ index = 0x3021 then some 10000
  else if index = 0x3022 then some 5000
  else none

/-- The highest sub of each index that exists (R377). -/
def highestSub (index : Nat) : Option Nat :=
  match index with
  | 0x1000 => some 7 | 0x1100 => some 1 | 0x1101 => some 4 | 0x1102 => some 16 | 0x1110 => some 7 | 0x1120 => some 3
  | 0x11F0 => some 2 | 0x1210 => some 2 | 0x1211 => some 1
  | 0x2000 => some 6 | 0x2001 => some 2 | 0x2002 => some 4 | 0x2003 => some 5 | 0x2010 => some 3 | 0x2011 => some 16
  | 0x2100 => some 4 | 0x2101 => some 21 | 0x2200 => some 3
  | 0x2300 => some 7 | 0x2301 => some 64 | 0x2302 => some 3 | 0x2303 => some 3
  | 0x2400 => some 8 | 0x2401 => some 16 | 0x2402 => some 5 | 0x2404 => some 128 | 0x2405 => some 128
  | 0x2500 => some 8 | 0x2501 => some 24 | 0x2502 => some 24 | 0x2503 => some 24 | 0x2504 => some 24
  | 0x2520 => some 10 | 0x2541 => some 128 | 0x2542 => some 1
  | 0x2600 => some 16 | 0x2601 => some 16 | 0x2602 => some 16
  | 0x2700 => some 1 | 0x2701 => some 10 | 0x2702 => some 32 | 0x2800 => some 4 | 0x2801 => some 16
  | 0x4000 => some 2 | 0x4001 => some 16
  | n => if (overlayLimit n).isSome then some 4 else none

/-- Identity and management entries: 0x1000–0x1211. -/
def entry1 (index sub : Nat) : Entry :=
  match index, sub with
  | 0x1000, 1 | 0x1000, 3 => Entry.ro 16
  | 0x1000, 2 | 0x1000, 7 => Entry.ro 2
  | 0x1000, 4 => Entry.ro 6
  | 0x1000, 5 => { Entry.ro 1 with default := 0xFF }
  | 0x1000, _ => Entry.ro 48
  | 0x1100, _ => Entry.ro 1024
  | 0x1101, 4 => { len := 1, access := .rw .calibrator, keep := .retained, default := 0, value := .bool }
  | 0x1101, _ => Entry.retained 48 (.rw .calibrator)
  | 0x1102, _ => Entry.retained 20 (.rw .calibrator)
  | 0x1110, 1 => Entry.number 1 .persistent 0xFF 0 255
  | 0x1110, 2 => Entry.number 1 .persistent 8 0 255
  | 0x1110, 3 => { len := 1, access := .rw .calibrator, keep := .retained, default := 1, value := .bool }
  | 0x1110, 4 => { len := 1, access := .rw .calibrator, keep := .retained, default := 2, value := .nat 1 2 }
  | 0x1110, 6 => Entry.ro 16
  | 0x1110, 7 => { Entry.ro 1 with default := 3 }
  | 0x1110, _ => Entry.ro 1
  | 0x1120, 1 => Entry.number 1 .persistent 0 0 1
  | 0x1120, _ => Entry.ro 2
  | 0x11F0, 1 => { len := 1, access := .rtp, keep := .retained, default := 0, value := .bool }
  | 0x11F0, _ => Entry.retained 16 .rtp
  | 0x1210, 1 => Entry.act 4 .calibrator .bytes
  | 0x1210, _ => Entry.ro 4
  | _, _ => Entry.ro 1

/-- Power, thermal, health and start entries: 0x2000–0x2405. -/
def entry2 (index sub : Nat) : Entry :=
  match index, sub with
  | 0x2000, 1 => Entry.number 1 .persistent 1 0 2
  | 0x2000, 2 | 0x2000, 3 => Entry.number 1 .persistent 0 0 1
  | 0x2000, 5 => Entry.number 1 .volatile 0 0 2
  | 0x2000, _ => Entry.flag .persistent 1
  | 0x2001, 2 => Entry.act 1 .operator (.nat 0 255)
  | 0x2001, _ => Entry.ro 1
  | 0x2002, 1 => Entry.flag .persistent 1
  | 0x2002, 2 => Entry.number 2 .persistent 100 10 60000
  | 0x2002, 3 => Entry.ro 1
  | 0x2002, _ => Entry.ro 8
  | 0x2003, 5 => Entry.ro 1
  | 0x2003, _ => Entry.ro 2
  | 0x2010, 1 => Entry.number 4 .persistent 0 0 0xFFFFFFFF
  | 0x2010, 2 => Entry.flag .volatile 0
  | 0x2010, _ => Entry.ro 1
  | 0x2011, _ => Entry.ro 1
  | 0x2100, 1 => { len := 2, access := .rw .operator, keep := .persistent, default := 760, value := .int 480 840 }
  | 0x2100, 2 => { Entry.ro 2 with default := 880 }
  | 0x2100, 4 => { Entry.ro 2 with default := 0xFFFF }
  | 0x2100, _ => Entry.ro 2
  | 0x2101, _ => Entry.ro 2
  | 0x2200, 3 => Entry.ro 1
  | 0x2200, _ => Entry.ro 2
  | 0x2300, 1 => Entry.ro 4
  | 0x2300, _ => Entry.ro 8
  | 0x2301, _ => Entry.ro 32
  | 0x2302, 1 => Entry.ro 1
  | 0x2302, _ => Entry.ro 4
  | 0x2303, 1 => Entry.ro 32
  | 0x2303, 2 => Entry.act 1 .operator .bool
  | 0x2303, _ => Entry.ro 4
  | 0x2400, 1 | 0x2400, 2 | 0x2400, 4 => Entry.ro 1
  | 0x2400, _ => Entry.ro 2
  | 0x2401, _ => Entry.ro 16
  | 0x2402, 3 => Entry.act 4 .operator .bytes
  | 0x2402, 4 => Entry.act 1 .operator .bool
  | 0x2402, 5 => Entry.ro 4
  | 0x2402, _ => Entry.ro 1
  | 0x2404, _ | 0x2405, _ => Entry.ro 1024
  | _, _ => Entry.ro 1

/-- Fabric, stack, intake, telemetry, calibration and partition entries: 0x2500–0x4001. -/
def entry3 (index sub : Nat) : Entry :=
  match index, sub with
  | 0x2500, 1 => { Entry.number 2 .persistent 0xFFFF 0 0xFFFF with value := .deviceId }
  | 0x2500, 5 => Entry.number 2 .persistent 0xFFFF 0 0xFFFF
  | 0x2500, 2 | 0x2500, 8 => { Entry.ro 2 with default := 0xFFFF }
  | 0x2500, 3 | 0x2500, 6 => Entry.flag .persistent 0
  | 0x2500, _ => Entry.ro 1
  | 0x2501, _ => Entry.ro 4
  | 0x2502, _ => Entry.flag .persistent 0
  | 0x2503, _ => Entry.act 1 .operator .bool
  | 0x2504, _ => Entry.ro 8
  | 0x2520, 1 => Entry.number 1 .persistent 20 0 255
  | 0x2520, 2 => Entry.number 1 .persistent 8 0 255
  | 0x2520, _ => { Entry.number 2 .persistent 0xFFFF 0 0xFFFF with value := .deviceId }
  | 0x2541, _ => Entry.ro 128
  | 0x2542, _ => Entry.ro 4
  | 0x2600, _ => Entry.ro 4
  | 0x2601, _ | 0x2602, _ => Entry.ro 8
  | 0x2700, _ => Entry.ro 4
  | 0x2701, _ | 0x2702, _ => Entry.ro 8
  | 0x2800, 1 => Entry.ro 2
  | 0x2800, _ => Entry.ro 8
  | 0x2801, _ => Entry.number 2 .volatile 0 0 0xFFFF
  | 0x4000, 1 => Entry.ro 16
  | 0x4000, _ => Entry.ro 48
  | 0x4001, _ => Entry.ro 64
  | n, 2 =>
    let l := (overlayLimit n).getD 0
    { len := 4, access := .rw .calibrator, keep := .persistent, default := 0, value := .int (-l) l }
  | _, 3 => { len := 1, access := .rw .calibrator, keep := .persistent, default := 0, value := .bool }
  | _, _ => Entry.ro 4

/-- The entry at an index that exists and a sub its tables define. -/
def entryOf (index sub : Nat) : Entry :=
  if sub = 0 then Entry.ro 1
  else if index < 0x2000 then entry1 index sub
  else if index < 0x2500 then entry2 index sub
  else entry3 index sub

/-- The key of an entry in a table of entries. -/
def entryKey (index sub : Nat) : Nat := 256 * index + sub

/-- How long the entry of a key keeps its value (R380). -/
def keyKeep (key : Nat) : EntryKeep := (entryOf (key / 256) (key % 256)).keep

/-- Is the value of a key's entry held in the flash journal (R380)? -/
def keyJournalled (key : Nat) : Bool := keyKeep key == .persistent || keyKeep key == .retained

/-- A value within an entry's codes or range (R378). -/
def EntryValue.accepts (v : EntryValue) (len n : Nat) : Bool :=
  match v with
  | .bytes => true
  | .bool => decide (n < 2)
  | .deviceId => decide (n < 0x1000) || n == 0xFFFF
  | .nat lo hi => decide (lo ≤ n) && decide (n ≤ hi)
  | .int lo hi => decide (lo ≤ signed (8 * len) n) && decide (signed (8 * len) n ≤ hi)

/-- The stored bytes of an entry, or its default. -/
def State.stored (s : State) (index sub : Nat) : List Byte :=
  match Tbl.get? s.dict.entries (entryKey index sub) with
  | some b => b
  | none => leBytes (entryOf index sub).len (entryOf index sub).default

/-- An entry's bytes put in the table of entries. -/
def State.putEntry (s : State) (index sub : Nat) (data : List Byte) : State :=
  { s with dict := { s.dict with entries := Tbl.put s.dict.entries (entryKey index sub) data } }

end Sys2Proof.Machine
end

