-- ==== Sys2Proof/Machine/Domains.lean ====
section
/-! DEFINITION. Power domains: their rails, what each loses with its power, and when each is idle (R299, R300, R406–R408, R410–R413,
R468, R478). -/

namespace Sys2Proof.Machine

/-! ## Domains and their rails (R406, R407, R410) -/

/-- The root-of-trust domain. -/
def domRtp : Nat := 80
/-- The always-on domain. -/
def domAlwaysOn : Nat := 81
/-- The CXL port domain. -/
def domCxl : Nat := 82
/-- The clock-source domain. -/
def domClock : Nat := 83

/-- A domain put into a state. -/
def State.setDomain (s : State) (d : Nat) (v : DomState) : State := { s with power := { s.power with domains := Tbl.put s.power.domains d v } }

/-- Is a domain that of a row of cores? -/
def isRowDomain (d : Nat) : Bool := decide (d < 64) && decide (d % 16 < 12)

/-- The domains of R413 that doze on their own. -/
def canDoze (d : Nat) : Bool := decide (d < 80) && !(decide (d < 64) && d % 16 == 13)

/-- The 16 logical cores of a row domain. -/
def domainCores (d : Nat) : List CoreId := rowCores (coreOf (d / 16) (d % 16) 0)

/-- The least operating voltage of each rail in mV, the rails numbered as R406 lists them: 0–3 VDD_CORE_C0–C3, 4 VDD_SRAM, 5 VDD_HUB,
6 VDD_AON, 7 VDD_SERDES_L, 8 VDD_SERDES_H, 9 VDDC_M, 10 VDDQ_M, 11 VPP_M, 12 VDD_IO18. -/
def railMinimum : List Nat := [600, 600, 600, 600, 720, 720, 720, 720, 1140, 1000, 720, 1710, 1710]

/-- The rails that feed a domain, by what each domain holds and each rail feeds; DEDUCED (R406, R410; log 185). -/
def domainRails (d : Nat) : List Nat :=
  if d < 64 then
    let die := d / 16
    if d % 16 < 12 then [die, 4] else if d % 16 = 13 then [die, 7, 8] else if d % 16 = 14 then [die] else [die, 7]
  else if d < 80 then [7, 9, 10, 11]
  else if d = domAlwaysOn then [6]
  else if d = domCxl then [5, 7, 8]
  else [5]

/-- Is every rail of a domain at or above its operating minimum, by the voltages of the rails (R407)? -/
def railsGood (d : Nat) (millivolts : List Nat) : Bool :=
  (domainRails d).all fun r => decide ((railMinimum[r]?).getD 0 ≤ (millivolts[r]?).getD 0)

/-- Does a rail at a voltage take a domain back into reset: it feeds it, and lies more than 20 mV below its minimum (R407)? -/
def railLost (d rail millivolt : Nat) : Bool :=
  (domainRails d).contains rail && decide (millivolt + 20 < (railMinimum[rail]?).getD 0)

/-! ## What a domain loses with its power (R407, R408, R411) -/

/-- The row of a domain: cores, local stores and core islands at their reset values. -/
def loseRow (d : Nat) (s : State) : State :=
  (domainCores d).foldl (fun s c =>
    let t := clearCore c s
    { t with power := { t.power with islands := Tbl.del t.power.islands c.toNat } }) s

/-- The mesh of a die: the signals and arrivals of its cores. -/
def loseMesh (die : Nat) (s : State) : State :=
  { s with
    signals := s.signals.filter fun f => dieOf f.sender != die && dieOf f.target != die
    arrivals := s.arrivals.filter fun a => dieOf a.core != die }

/-- The fabric ports of a die, and its fabric engines. -/
def loseFabric (die : Nat) (s : State) : State :=
  { s with
    fabric := { s.fabric with ports := s.fabric.ports.filter fun q => q.1 / 6 != die }
    cores := s.cores.map fun k => if dieOf (BitVec.ofNat 10 k.1) = die then (k.1, { k.2 with flight := { k.2.flight with fabric := .reset } }) else k }

/-- The die services: the rennet nodes and the group table of the die. -/
def loseServices (die : Nat) (s : State) : State :=
  { s with
    fabric := { s.fabric with groups := s.fabric.groups.filter fun g => g.1 / 256 != die }
    parts := s.parts.map fun p => (p.1, { p.2 with barriers := p.2.barriers.map fun b => (b.1, { b.2 with nodes := b.2.nodes.setIfInBounds die .reset }) }) }

/-- A stack: its contents, its press units with their islands, and the wheel contexts it holds. -/
def loseStack (stack : Nat) (s : State) : State :=
  let s := s.zeroSpan (hbmBase stack) 0x1000000000
  { s with
    press := s.press.filter fun q => q.1 / 2 != stack
    power := { s.power with engineIslands := s.power.engineIslands.filter fun i => i.1 / 2 != stack }
    intake := { s.intake with wheels := s.intake.wheels.filter fun w => w.1 / 16384 != stack } }

/-- The root of trust: every key of the key SRAM, the sessions, and the layout, which it alone holds (R355, R368). -/
def loseRtp (s : State) : State :=
  { s with
    fabric := { s.fabric with sessions := [] }
    rtp := { Rtp.reset with
      minSvn := s.rtp.minSvn, signing := s.rtp.signing, signingHash := s.rtp.signingHash, identityKey := s.rtp.identityKey
      ownerSlots := s.rtp.ownerSlots, scrubRecords := s.rtp.scrubRecords, spdmNext := s.rtp.spdmNext, drbgCount := s.rtp.drbgCount
      drbgSeeds := s.rtp.drbgSeeds + 1 }
    parts := s.parts.map fun p => (p.1, { p.2 with layout := Part.reset.layout, xtsKey := none }) }

/-- The CXL port: configuration, links and rings, the intake engines and the wheel table's controller. -/
def loseCxl (s : State) : State :=
  { s with
    host := { HostIf.reset with msix := s.host.msix }
    intake := { s.intake with resident := [], busyCycles := [] }
    power := { s.power with engineIslands := Tbl.del s.power.engineIslands 32 } }

/-- A domain's registers and contents lost: they are at their reset values, memory at zero, as a start leaves them before the domain
is used again; DESIGN CHOICE (R408, R427; log 186). -/
def loseContents (d : Nat) (s : State) : State :=
  if 64 ≤ d then
    if d < 80 then loseStack (d - 64) s
    else if d = domRtp then loseRtp s
    else if d = domCxl then loseCxl s
    else if d = domClock then { s with start := { s.start with refclkLocked := false } }
    else s
  else if d % 16 < 12 then loseRow d s
  else if d % 16 = 12 then loseMesh (d / 16) s
  else if d % 16 = 13 then loseFabric (d / 16) s
  else if d % 16 = 14 then loseServices (d / 16) s
  else s

/-- A domain in reset or off. -/
def loseDomain (v : DomState) (s : State) (d : Nat) : State := (loseContents d s).setDomain d v

/-! ## Idle islands and domains (R412, R413) -/

/-- Has a core no descriptor, transfer or scheduled access in progress? -/
def Core.quiet (k : Core) : Bool :=
  k.flight.sched.isEmpty && k.flight.streams.toList.all (fun q => q.jobs.isEmpty) && k.flight.knife.jobs.isEmpty
    && k.flight.fabric.current.isNone && !k.flight.resetting

/-- Is a core's island Idle, its clock gated: the core does not issue, and its results and queues are done (R412)? -/
def Core.islandIdle (k : Core) : Bool :=
  k.quiet && (match k.ctl.state with
    | .stopped | .stoppedAtCount | .halted | .waiting => true
    | _ => false)

/-- The state of a domain as R411 names it: a row whose domain is On is Idle while every island of it is. -/
def State.domainShown (s : State) (d : Nat) : DomState :=
  if isRowDomain d && s.domain d == .on && (domainCores d).all (fun c => (s.core c).islandIdle) then .idle else s.domain d

/-- The segments of the descriptors that a core's engines have in progress: the first of each queue, and the fabric transfer. -/
def State.segsInUse (s : State) (c : CoreId) (k : Core) : List (BitVec 256) :=
  (k.flight.streams.toList.flatMap fun q => (q.jobs.take 1).flatMap fun j => [j.srcSeg, j.dstSeg])
    ++ ((k.flight.knife.jobs.take 1).flatMap fun j => [j.indexSeg, j.tableSeg, j.denseSeg])
    ++ (match k.flight.fabric.current with
      | some j => [s.segOf (s.corePart c) (fdSrc j.raw), j.dstSeg]
      | none => [])

/-- The transfers in progress, each as the core it is of and a segment it reads or writes. -/
def State.traffic (s : State) : List (CoreId × BitVec 256) :=
  s.cores.flatMap fun k =>
    let c : CoreId := BitVec.ofNat 10 k.1
    (s.segsInUse c k.2).map fun d => (c, d)

/-- Does a segment have bytes between two addresses? -/
def segTouches (d : BitVec 256) (lo hi : Nat) : Bool := segValid d && decide (segBase d < hi) && decide (lo ≤ segBase d + segLimit d)

/-- Is an access from an engine or from the fabric to bytes between two addresses in progress? -/
def State.accessing (s : State) (lo hi : Nat) : Bool :=
  s.traffic.any (fun t => segTouches t.2 lo hi) || s.fabric.incoming.any fun x => x.accepted && decide (lo ≤ x.base) && decide (x.base < hi)

/-- Is a row idle: every core Stopped, and no access to its local stores in progress? -/
def rowIdle (s : State) (d : Nat) : Bool :=
  (domainCores d).all fun c =>
    let k := s.core c
    k.ctl.state == .stopped && k.flight.sched.isEmpty && !k.flight.resetting && !s.accessing (lsBase c) (lsBase c + 0x800000)

/-- The die at which a core's packets reach an address: that of its core or stack, otherwise the core's own. -/
def dieAt (c : CoreId) (a : Nat) : Nat :=
  match regionOf a with
  | .hbm => stackOf a / 4
  | .localStore | .window => dieUnit (coreAt a)
  | _ => dieUnit c

/-- Is the mesh of a die empty: no signal, arrival or transfer in progress crosses it (R413)? -/
def meshIdle (s : State) (die : Nat) : Bool :=
  !s.signals.any (fun f => (pathDies (dieUnit f.sender) (dieUnit f.target)).contains die) && !s.arrivals.any (fun a => dieUnit a.core == die)
    && !s.traffic.any fun t => segValid t.2 && !inOwnStore t.1 (segBase t.2) 1 && (pathDies (dieUnit t.1) (dieAt t.1 (segBase t.2))).contains die

/-- Has a die's steward work: a mode change, a scrub or reset of its units, or an island it holds (R419, R422)? -/
def stewardWorks (s : State) (die : Nat) : Bool :=
  s.power.target.isSome || s.rtp.unitScrub.any (fun u => u.1 / 4 == die && (u.2 == .pending || u.2 == .running))
    || s.cores.any (fun k => dieUnit (BitVec.ofNat 10 k.1) == die && k.2.flight.resetting)
    || s.power.islands.any fun i => dieUnit (BitVec.ofNat 10 i.1) == die && i.2.held

/-- Are the rennet nodes of a die empty: no arrival is counted or held? -/
def nodesIdle (s : State) (die : Nat) : Bool :=
  s.parts.all fun p => p.2.barriers.all fun b => (b.2.node die).counted.isEmpty && (b.2.node die).early.isEmpty

/-- Does a wheel of a partition that holds the stack work on a group? -/
def State.intakeAt (s : State) (stack : Nat) : Bool :=
  s.intake.wheels.any fun w => !w.2.running.isEmpty && (s.unitsOf w.2.part).contains stack

/-- Is no request outstanding on a stack's memory link? -/
def State.linkIdle (s : State) (stack : Nat) : Bool := !s.accessing (hbmBase stack) (hbmBase (stack + 1)) && !s.intakeAt stack

/-- Has a stack nothing to do: no access, press descriptor, drain or wax work? -/
def stackIdle (s : State) (stack : Nat) : Bool :=
  s.linkIdle stack
    && [2 * stack, 2 * stack + 1].all (fun u => match Tbl.get? s.press u with
      | some q => q.desc.isNone && q.available == 0
      | none => true)
    && s.parts.all (fun p => !(s.unitsOf p.1).contains stack || !p.2.job.any fun j => j.draining.isSome)

/-- Is a domain idle (R413)? -/
def domainIdle (s : State) (d : Nat) : Bool :=
  if 64 ≤ d then stackIdle s (d - 64)
  else if d % 16 < 12 then rowIdle s d
  else if d % 16 = 12 then meshIdle s (d / 16)
  else if d % 16 = 14 then nodesIdle s (d / 16) && !stewardWorks s (d / 16)
  else (List.range 4).all fun g => s.linkIdle (4 * (d / 16) + g)

end Sys2Proof.Machine
end

