-- ==== Sys2Proof/Machine/Power.lean ====
section
/-! DEFINITION. Power domains, doze and Deep Rest, clock islands, thermal limits, mode changes, and device-fatal errors
(R22–R25, R404, R406–R423, R458). -/

namespace Sys2Proof.Machine

/-! ## Device-fatal errors (R458) -/

/-- A core stopped with its work in flight discarded. -/
def Core.halted (k : Core) : Core :=
  { k with
    ctl := { k.ctl with state := .stopped, hold := .none }
    flight := { CoreFlight.reset with now := k.flight.now } }

/-- Every core stops, and all work in flight, every transfer and every record is discarded; the device is no longer On. -/
def haltDevice (s : State) : State :=
  { s with
    cores := s.cores.map fun k => (k.1, k.2.halted)
    signals := [], arrivals := []
    press := []
    fabric := { s.fabric with sent := [], incoming := [] }
    host := { s.host with rings := s.host.rings.map fun r => (r.1, { r.2 with current := none }) }
    start := { s.start with isOn := false } }

/-- LAST_FATAL written with the newest log entry, unless the guard is active (R458, R461). -/
def writeLastFatal (s : State) : State :=
  if s.guardActive then s else State.flashWrote { s with errors := { s.errors with lastFatal := s.errors.log.head? } } regionJournal

/-- A device-fatal error: logged, LAST_FATAL written, every core stopped, and a warm reset to come (R458). -/
def deviceError (e : ErrorEvent) (s : State) : State :=
  let s := haltDevice (writeLastFatal (s.logError e))
  { s with start := { s.start with warmPending := true } }

/-! ## Doze (R413–R415, R423) -/

/-- Every dozing domain wakes. -/
def wakeAll (s : State) : State := wakeFor (s.power.domains.map (·.1)) s

/-- DOZE_ENABLE as it stands: STATE_REQUEST 1 holds it FALSE until it is next written (R415). -/
def State.dozeEnabled (s : State) : Bool := !s.power.dozeOffUntilWrite && s.dictNat 0x2002 1 1 != 0

/-- DOZE_ENTRY: a domain that has stayed idle for DOZE_DELAY dozes, while DOZE_ENABLE is TRUE (R413). -/
def execDozeEntry (domain : Nat) (s : State) : Out :=
  .next (if s.start.isOn && !s.power.deepRest && s.dozeEnabled && canDoze domain && s.domain domain == .on && domainIdle s domain then
    s.setDomain domain .doze else s)

/-- A core whose next instruction waits for a domain goes on, so many of its core cycles later: the instruction issues in
that cycle, and what is in flight proceeds meanwhile (R82, R83). -/
def resumeDozed (domain : Nat) (elapsed : List (Nat × Nat)) (c : CoreId) (s : State) : State :=
  if (s.core c).ctl.hold = .doze domain then
    let n := ((elapsed.find? fun e => e.1 == c.toNat).map (·.2)).getD 0
    (s.modCore c fun k => { k with ctl := { k.ctl with hold := .none }, flight := { k.flight with now := k.flight.now + n } }).countPerf c 0x03 n
  else s

/-- DOZE_WAKE: an access has reached a dozing domain, which is On again; the cores held at it go on, each after its elapsed
core cycles (R83, R414). -/
def execDozeWake (domain : Nat) (elapsed : List (Nat × Nat)) (s : State) : Out :=
  let s := wakeDomain domain s
  .next (if !s.domainRuns domain then s
    else (s.cores.map fun k => BitVec.ofNat 10 k.1).foldl (fun s c => resumeDozed domain elapsed c s) s)

/-! ## The device state (R398, R415) -/

/-- Is any core Running? -/
def State.anyRunning (s : State) : Bool := s.cores.any fun k => k.2.ctl.state == .running

/-- DEVICE_STATE, where the spec gives it a code; a device stopped by a device-fatal error has none. -/
def State.deviceState (s : State) : Option Nat :=
  if s.rtp.error then some 7
  else if s.start.whey then some 5
  else if s.start.isOn then
    if s.power.deepRest then some 0
    else if s.anyRunning then some 1
    else if (List.range 80).all (fun d => !canDoze d || s.domain d == .doze) then some 3
    else some 2
  else if s.start.step = 4 then some 6
  else if s.power.tripped || s.start.warmPending then none
  else if s.start.step = 11 then some 1
  else some 0

/-- Do the always-on domain's transports answer: it is out of reset, and its oscillator runs (R395, R416, R473)? -/
def State.answers (s : State) : Bool := decide (2 ≤ s.start.step) && !s.power.oscillatorStopped

/-! ## Deep Rest (R415–R417) -/

/-- Is a request for Deep Rest refused (R415)? It is too while a start is in progress (log). -/
def State.restRefused (s : State) : Bool :=
  !s.start.isOn || s.start.whey || s.rtp.error || s.rtp.owner.isSome
    || s.parts.any (fun p => p.2.job.isSome || p.2.resetting || p.2.scrubbing)
    || s.rtp.unitScrub.any (fun u => u.2 == .running || u.2 == .pending)
    || s.fabric.takeover.phase == 1 || s.fabric.takeover.phase == 3
    || s.host.rings.any fun r => r.2.enable

/-- Deep Rest entered: ports out and routes redrawn, CXL links idle, every domain but the always-on one at rest, the
oscillator stopped (R416). -/
def enterDeepRest (s : State) : State :=
  let s := { s with fabric := { s.fabric with ports := s.fabric.ports.map fun q => (q.1, { q.2 with width := 0, wanted := false, retraining := false }) } }
  let s := redrawRoutes s
  { s with
    host := { s.host with
      restLink := Vector.ofFn fun i => (s.host.linkRate[i], s.host.linkWidth[i])
      linkWidth := Vector.replicate 2 0, linkRate := Vector.replicate 2 0 }
    start := { s.start with refclkLocked := false }
    power := { s.power with
      domains := s.power.domains.map fun d => (d.1, if d.1 = domAlwaysOn ∨ d.2 = .off ∨ d.2 = .inReset then d.2 else .deepRest)
      deepRest := true, oscillatorStopped := true } }

/-- The UNIT code of a domain (R432). -/
def domainUnit (d : Nat) : Nat := if d < 64 then d / 16 else if d < 80 then 0x10 + (d - 64) else 0x20

/-- A Hjelis Link port retrains after the wake, one at a time (R312, R417). -/
def wakePorts (s : State) : State :=
  (List.range 24).foldl (fun s p => if (Tbl.get? s.fabric.ports p).isSome then askRetrain p s else s) s

/-- A CXL port linked again after a wake, at its previous rate and width or narrower, which is reported (R328, R417). -/
def relinkPort (narrowed : List (Nat × Nat × Nat)) (s : State) (p : Nat) : State :=
  let before := (s.host.restLink[p]?).getD (0, 0)
  let now := match narrowed.find? fun n => n.1 == p with
    | some n => (min n.2.1 before.1, min n.2.2 before.2)
    | none => before
  let now := if now.2 < 4 then (0, 0) else now
  let s := { s with host := { s.host with
    linkRate := s.host.linkRate.setIfInBounds p now.1, linkWidth := s.host.linkWidth.setIfInBounds p now.2 } }
  if now = before then s else s.logError { source := 0x0C, part := none, unit := 0x20, core := 0x3FF, address := 0, detail := p }

/-- A domain whose supply a wake finds out of its range: in reset without its contents, and reported (R407, R417). R455 gives the
event no code of its own: it is logged as 0x17 without being device-fatal; DESIGN CHOICE (log 187). -/
def wakeFails (s : State) (d : Nat) : State :=
  let v := s.fresh
  ((loseDomain .inReset v.2 d).logError { source := 0x17, part := none, unit := domainUnit d, core := 0x3FF, address := 0,
                                          detail := v.1.toNat % 2 ^ 32 }).healthEvent 5 d

/-- DEEP_REST_WAKE_COMPLETE: clocks lock, domains return with their contents, the CXL links and then the Hjelis Link ports retrain;
domains whose supply is out of range stay in reset and are reported (R417). -/
def execDeepRestWakeComplete (badDomains : List Nat) (narrowed : List (Nat × Nat × Nat)) (s : State) : Out :=
  if !s.power.deepRest || s.power.oscillatorStopped then .next s
  else
    let bad := badDomains.filter fun d => s.domain d == .deepRest
    let s := { s with
      start := { s.start with refclkLocked := true }
      power := { s.power with
        domains := s.power.domains.map fun d => (d.1, if d.2 = .deepRest then .on else d.2)
        deepRest := false } }
    let s := (List.range 2).foldl (relinkPort narrowed) s
    .next (wakePorts (bad.foldl wakeFails s))

/-- I3C_WAKE: an address header that matches the target's address wakes the device (R395, R417). -/
def execI3cWake (address : BitVec 7) (s : State) : Out :=
  let own := match s.dict.i3cDynamic with
    | some a => a
    | none => 0x50 + s.dict.i3cStrap.setWidth 7
  .next (if s.power.oscillatorStopped ∧ address = own then { s with power := { s.power with oscillatorStopped := false } } else s)

/-! ## Clock islands (R418–R420) -/

/-- The island of a core. -/
def State.island (s : State) (c : CoreId) : Island := Tbl.getD s.power.islands c.toNat .reset

/-- An island changed. -/
def State.modIsland (s : State) (c : CoreId) (f : Island → Island) : State :=
  { s with power := { s.power with islands := Tbl.put s.power.islands c.toNat (f (s.island c)) } }

/-- Is an island active: it serves a logical core of a present unit (R419)? -/
def State.activeIsland (s : State) (c : CoreId) : Bool := coreExists c && s.unitPresent (unitOf c)

/-- The step k of an island (R419, R420). -/
def Island.step (i : Island) : Nat := if i.held then 4 else min i.thermal (min i.power i.rail)

/-- The step an island runs at: the lowest, until its die's regulator has acknowledged the voltage that the start requests, and while
the island serves no core of a present unit (R409, R419). -/
def State.islandStep (s : State) (c : CoreId) : Nat :=
  if !s.activeIsland c || (s.power.target.isNone && s.power.ackWaiting.contains (dieUnit c)) then 4 else (s.island c).step

/-- The physical column that serves a logical core: the row's spare for a bad core (R14, R435). -/
def State.physCol (s : State) (c : CoreId) : Nat :=
  if s.start.badCores.contains (dieOf c, bits c.toNat 4 4, bits c.toNat 0 4) then 16 else bits c.toNat 0 4

/-- The logical cores next to a core's physical place, in its row or its column (R419). -/
def State.neighbours (s : State) (c : CoreId) : List CoreId :=
  let row := bits c.toNat 4 4
  let col := s.physCol c
  (allCores.filter fun d => dieOf d == dieOf c && d != c).filter fun d =>
    let r := bits d.toNat 4 4
    let k := s.physCol d
    (r == row && (k == col + 1 || k + 1 == col)) || (k == col && (r == row + 1 || r + 1 == row))

/-- How far an island's temperature lies above that of its coolest active neighbour, in 0.125 °C. -/
def State.overNeighbours (s : State) (c : CoreId) : Int :=
  match (s.island c).temp with
  | none => 0
  | some t => ((s.neighbours c).filterMap fun d => if s.activeIsland d then (s.island d).temp else none).foldl (fun m x => max m (t - x)) 0

/-- THROTTLE_TEMP (R397). -/
def State.throttleTemp (s : State) : Int := s.dictNat 0x2100 1 760

/-- SHUTDOWN_TEMP (R397). -/
def shutdownTemp : Int := 880

/-- A sample's effect on the thermal limit (R420). -/
def Island.sampled (i : Island) (temp throttle : Int) : Island :=
  { i with
    temp := some temp
    thermal := if throttle ≤ temp then max 4 (i.thermal - 1) else if temp ≤ throttle - 24 then min 16 (i.thermal + 1) else i.thermal }

/-- A neighbour hold begins above 25 °C, with one corrected event, and ends within 20 °C (R419). -/
def checkHold (c : CoreId) (s : State) : State :=
  let gap := s.overNeighbours c
  if (s.island c).held then (if gap ≤ 160 then s.modIsland c fun i => { i with held := false } else s)
  else if 200 < gap then
    (s.modIsland c fun i => { i with held := true }).logError
      { source := 0x14, part := s.corePart c, unit := dieUnit c, core := c.toNat, address := 0, detail := 0 }
  else s

/-- The thermal trip: THERMTRIP_N, every core stopped, power removed from all but the always-on and root-of-trust
domains, and a device-fatal error without the warm reset (R421, R458). -/
def thermalTrip (e : ErrorEvent) (s : State) : State :=
  let s := haltDevice s
  let s := { s with power := { s.power with tripped := true, thermtripAsserted := true } }
  let s := ((List.range 84).filter fun d => d != domAlwaysOn && d != domRtp).foldl (loseDomain .off) s
  writeLastFatal (s.logError e)

/-- The UNIT code of a sub of UNIT_TEMP: dies C0–C3, the hub die, stacks M0–M15 (R397, R432). -/
def sensorUnit (sub : Nat) : Nat := if sub ≤ 4 then sub - 1 else if sub = 5 then 0x20 else 0x10 + (sub - 6)

/-- The event of a sensor that trips: DETAIL is the UNIT_TEMP sub of its die or stack, CORE a core island's (R421, R459). -/
def tripEvent (sensor : Sensor) (s : State) : ErrorEvent :=
  match sensor with
  | .engine n =>
    if n < 32 then { source := 0x16, part := s.unitPart (n / 2), unit := 0x10 + n / 2, core := 0x3FF, address := 0, detail := 6 + n / 2 }
    else { source := 0x16, part := none, unit := 0x20, core := 0x3FF, address := 0, detail := 5 }
  | .core c => { source := 0x16, part := s.corePart c, unit := dieUnit c, core := c.toNat, address := 0, detail := dieOf c + 1 }
  | .unit n => { source := 0x16, part := if 6 ≤ n then s.unitPart (n - 6) else none, unit := sensorUnit n, core := 0x3FF, address := 0, detail := n }

/-- THERMAL_SAMPLE: a sensor at SHUTDOWN_TEMP trips the device; a core island's moves its thermal limit and the holds around it; a press
unit's or the intake's moves that of its island; a die's or stack's is what UNIT_TEMP shows (R397, R418–R421). -/
def execThermalSample (sensor : Sensor) (temp : Int) (s : State) : Out :=
  if !s.start.refclkLocked || s.power.tripped || s.power.deepRest then .next s
  else match sensor with
    | .unit n =>
      if n = 0 ∨ 21 < n then .next s
      else if shutdownTemp ≤ temp then .next (thermalTrip (tripEvent sensor s) s)
      else .next { s with power := { s.power with unitTemps := Tbl.put s.power.unitTemps n temp } }
    | .engine n =>
      if 32 < n then .next s
      else if shutdownTemp ≤ temp then .next (thermalTrip (tripEvent sensor s) s)
      else
        let i := (Tbl.getD s.power.engineIslands n .reset).sampled temp s.throttleTemp
        .next { s with power := { s.power with engineIslands := Tbl.put s.power.engineIslands n i } }
    | .core c =>
      if !coreExists c then .next s
      else if shutdownTemp ≤ temp then .next (thermalTrip (tripEvent sensor s) s)
      else if !s.activeIsland c then .next s
      else
        let s := s.modIsland c fun i => i.sampled temp s.throttleTemp
        .next ((c :: s.neighbours c).foldl (fun s d => if s.activeIsland d then checkHold d s else s) s)

/-- A limit one step lower or higher. -/
def stepLimit (lower : Bool) (k : Nat) : Nat := if lower then max 4 (k - 1) else min 16 (k + 1)

/-- The core clock of a mode in MHz (R23). -/
def modeClock (mode : Nat) : Nat := if mode = 0 then 1250 else if mode = 1 then 1000 else 800

/-- What a mode allows each part of the package, in W: compute dies, stacks, hub and link SerDes, the remainder (R24). -/
def partCeilings (mode : Nat) : List Nat :=
  if mode = 0 then [1700, 950, 250, 100] else if mode = 1 then [1150, 900, 250, 100] else [650, 800, 250, 100]

/-- The package power ceiling of a mode, in W (R23, R24). -/
def modeCeiling (mode : Nat) : Nat := (partCeilings mode).foldl (· + ·) 0

/-- The ceiling in effect: during a mode change the higher of the two (R422). -/
def State.powerCeiling (s : State) : Nat :=
  match s.power.target with
  | some m => max (modeCeiling s.power.mode) (modeCeiling m)
  | none => modeCeiling s.power.mode

/-- The VDD_CORE voltage that a mode requests, in mV (R409). -/
def modeMillivolts (mode : Nat) : Nat := if mode = 0 then 850 else if mode = 1 then 780 else 720

/-- The current of a VDD_CORE rail at which its die's islands are lowered, in A (R420). -/
def railCurrentLimit : Nat := 900

/-- Is a core's island the one to change next: of the active islands concerned that can still change, none has a higher demand, where
they are lowered, or a lower one, where they are raised (R25, R420)? -/
def State.nextInDemand (s : State) (c : CoreId) (lower railLimit : Bool) (demand : List (Nat × Nat)) : Bool :=
  let want := fun d : CoreId => ((demand.find? fun e => e.1 == d.toNat).map (·.2)).getD 0
  let limit := fun d => if railLimit then (s.island d).rail else (s.island d).power
  let open' := fun d => if lower then decide (4 < limit d) else decide (limit d < 16)
  open' c && allCores.all fun d =>
    !s.activeIsland d || (railLimit && dieUnit d != dieUnit c) || !open' d || (if lower then decide (want d ≤ want c) else decide (want c ≤ want d))

/-- POWER_LIMIT_ADJUST: the stewards lower an island one step while the load would go above the limit, in descending order of demand,
and raise it while it does not, in the reverse order: package power in W against the mode's ceiling, or the current of the die's
VDD_CORE rail in A against 900 A (R25, R420). -/
def execPowerLimitAdjust (core : CoreId) (lower railLimit : Bool) (load : Nat) (demand : List (Nat × Nat)) (s : State) : Out :=
  let exceeded := if railLimit then decide (railCurrentLimit ≤ load) else decide (s.powerCeiling < load)
  .next (if !s.start.isOn || s.power.deepRest || !s.activeIsland core || lower != exceeded || !s.nextInDemand core lower railLimit demand then s
    else s.modIsland core fun i => if railLimit then { i with rail := stepLimit lower i.rail } else { i with power := stepLimit lower i.power })

/-- The clock of a press unit's or the intake's island in kHz: 1.00 GHz less its own steps (R418, R420). -/
def State.engineClock (s : State) (n : Nat) : Nat := 1000000 * (Tbl.getD s.power.engineIslands n .reset).step / 16

/-- The clock of a core's island in kHz: the mode clock at its step (R418). -/
def State.islandClock (s : State) (c : CoreId) : Nat := 1000 * modeClock s.power.mode * s.islandStep c / 16

/-! ## Mode changes (R409, R422) -/

/-- POWER_MODE. -/
def State.powerMode (s : State) : Nat := s.dictNat 0x2000 1 1

/-- The voltage of a mode requested of every die's regulator over AVSBus (R409). -/
def State.requestRails (s : State) (mode : Nat) : State :=
  { s with power := { s.power with railRequest := Vector.replicate 4 (modeMillivolts mode) } }

/-- The dies whose regulator answers AVSBus, and so has a request to acknowledge (R409, R423). -/
def State.answeringRails (s : State) : List Nat := (List.range 4).filter fun d => !s.power.railSilent.contains d

/-- A mode asked for: at once before clocks run; after a change in progress; otherwise a change begins. To raise the mode the device
first requests the new voltage, and waits for the regulators that answer (R409, R422). -/
def State.requestMode (s : State) (mode : Nat) : State :=
  if !s.start.refclkLocked then { s with power := { s.power with mode := mode } }
  else if s.power.target.isSome then { s with power := { s.power with pendingModes := s.power.pendingModes ++ [mode] } }
  else if mode = s.power.mode then s
  else if mode < s.power.mode then
    let t := s.requestRails mode
    { t with power := { t.power with target := some mode, ackWaiting := t.answeringRails } }
  else { s with power := { s.power with target := some mode, ackWaiting := [] } }

/-- MODE_CHANGE_COMPLETE: the new mode is in effect; a lower one requests its voltage once the clocks are down; and the values
written since are carried out in order (R422). -/
def execModeChangeComplete (s : State) : Out :=
  match s.power.target with
  | none => .next s
  | some mode =>
    if !s.power.ackWaiting.isEmpty then .next s
    else
      let t := s.requestRails mode
      .next (s.power.pendingModes.foldl State.requestMode
        { t with power := { t.power with mode := mode, target := none, pendingModes := [] } })

/-- AVSBUS_ACK: a regulator acknowledges a voltage; the wait for it ends with the voltage requested (R409, R423). -/
def execAvsbusAck (die millivolt : Nat) (s : State) : Out :=
  .next (if !s.answers then s else { s with power := { s.power with
    railMv := s.power.railMv.setIfInBounds die millivolt
    railSilent := s.power.railSilent.filter fun d => d != die
    ackWaiting := s.power.ackWaiting.filter fun d => d != die || millivolt != (s.power.railRequest[die]?).getD 0 } })

end Sys2Proof.Machine
end

