-- ==== Sys2Proof/Machine/Start.lean ====
section
/-! DEFINITION. The start sequence, repair, failed starts and whey mode, device resets, what survives them, and the power
and hardware events that end a domain's service (R403, R407, R408, R424–R441, R445–R447, R455, R473). -/

namespace Sys2Proof.Machine

/-! ## The flash store (R402, R403) -/

/-- What the flash store holds now. -/
def State.flashStore (s : State) : FlashStore :=
  { entries := s.dict.entries.filter fun e => keyJournalled e.1
    eyeMap := s.start.eyeMap, saved := s.dict.saved, savedInvalid := s.dict.savedInvalid, history := s.start.history
    failedStarts := s.start.failedStarts, failReason := s.start.failReason, failStep := s.start.failStep
    interrupted := s.start.interrupted, scrubRecords := s.rtp.scrubRecords, number := s.start.number, refusals := s.start.refusals, lastFatal := s.errors.lastFatal
    rowWatchAdded := s.errors.rowWatchAdded, guardEvents := s.dict.guardEvents, interruptedWrites := s.dict.interruptedWrites
    restoreCount := s.dict.restoreCount }

/-- The state with what a flash store holds in effect. -/
def State.withFlash (s : State) (f : FlashStore) : State :=
  let volatileOnes := s.dict.entries.filter fun e => !keyJournalled e.1
  { s with
    dict := { s.dict with
      entries := f.entries.foldl (fun t e => Tbl.put t e.1 e.2) volatileOnes
      saved := f.saved, savedInvalid := f.savedInvalid, guardEvents := f.guardEvents
      interruptedWrites := f.interruptedWrites, restoreCount := f.restoreCount }
    start := { s.start with
      eyeMap := f.eyeMap, history := f.history, failedStarts := f.failedStarts, failReason := f.failReason, failStep := f.failStep
      interrupted := f.interrupted, number := f.number, refusals := f.refusals }
    rtp := { s.rtp with scrubRecords := f.scrubRecords }
    errors := { s.errors with lastFatal := f.lastFatal, rowWatchAdded := f.rowWatchAdded } }

/-- What an absent store gives: factory defaults, an empty eye map, no saved settings; FAILED_STARTS as the always-on
domain counts it (R403, R436). -/
def FlashStore.absent (failed : BitVec 8) : FlashStore :=
  { entries := [], eyeMap := [], saved := none, savedInvalid := false, history := [], refusals := [], failedStarts := failed, failReason := 0
    failStep := 0, interrupted := none, scrubRecords := [], number := 0, lastFatal := none, rowWatchAdded := 0, guardEvents := 0, interruptedWrites := 0
    restoreCount := 0 }

/-- A store with one region's contents taken from another. -/
def FlashStore.withRegion (f g : FlashStore) (region : Nat) : FlashStore :=
  match region with
  | 0 => { f with eyeMap := g.eyeMap }
  | 1 => { f with saved := g.saved }
  | 2 => { g with eyeMap := f.eyeMap, saved := f.saved, history := f.history, refusals := f.refusals, scrubRecords := f.scrubRecords }
  | _ => { f with history := g.history, refusals := g.refusals, scrubRecords := g.scrubRecords }

/-- The copies of a region as a start finds them: copy A as the device wrote it, copy B where it is or where a write left it; a
damaged copy holds no valid record. -/
def State.flashCopies (s : State) (damaged : List (Nat × Bool)) (region : Nat) : Option FlashCopy × Option FlashCopy :=
  let a : FlashCopy := { seq := (s.dict.flashSeq[region]?).getD 0, store := s.flashStore }
  (if damaged.contains (region, false) then none else some a, if damaged.contains (region, true) then none else some ((Tbl.get? s.dict.behind region).getD a))

/-- A region read at a start: the newest valid record of either copy, by serial-number arithmetic; a copy whose newest record is
missing or fails is rewritten from the other. With no valid record in either, the region holds what an absent store gives (R403,
R405; log 181). -/
def readRegion (damaged : List (Nat × Bool)) (s : State) (region : Nat) : State :=
  let c := s.flashCopies damaged region
  let taken := match c.1, c.2 with
    | some a, some b => some (if serialGe 32 a.seq.toNat b.seq.toNat then a else b)
    | some a, none => some a
    | none, b => b
  match taken with
  | none => s.withFlash (s.flashStore.withRegion (FlashStore.absent s.start.failedStarts) region)
  | some x =>
    let torn := c.1.isNone || c.2.isNone || s.dict.spoiled.contains region || (Tbl.get? s.dict.behind region).isSome
    let t := s.withFlash (s.flashStore.withRegion x.store region)
    { t with dict := { t.dict with
      flashSeq := t.dict.flashSeq.setIfInBounds region x.seq, behind := Tbl.del t.dict.behind region
      spoiled := t.dict.spoiled.filter (· != region), flashRepaired := t.dict.flashRepaired || torn } }

/-- Does a part answer discovery as the device needs it, with 64 MiB, pages of 256 bytes, sectors of 64 KiB and a page program of at
most 1.5 ms? One that does not is treated as absent (R402, R476). -/
def flashMissing (part : Option FlashPart) : Bool :=
  match part with
  | some f => !(f.bytes == flashBytes && f.page == flashPage && f.sector == flashSector && decide (f.programMicros ≤ 1500))
  | none => true

/-- A start reads the store: an absent one gives the defaults (R403, R476); of the others each region on its own. -/
def readFlash (absent : Bool) (damaged : List (Nat × Bool)) (s : State) : State :=
  if absent then
    let kept := if s.dict.flashAbsent then s.dict.stash else some s.flashStore
    let t := s.withFlash (FlashStore.absent s.start.failedStarts)
    { t with dict := { t.dict with flashAbsent := true, stash := kept } }
  else
    let t := match s.dict.stash with
      | some f => s.withFlash f
      | none => s
    (List.range 4).foldl (readRegion damaged) { t with dict := { t.dict with flashAbsent := false, stash := none } }

/-- Does the saved-settings record pass its CRC in a copy (R428)? -/
def settingsCrc (absent : Bool) (damaged : List (Nat × Bool)) : Bool :=
  !absent && !(damaged.contains (regionSettings, false) && damaged.contains (regionSettings, true))

/-- Volatile counts and records at their defaults, as restoring the factory settings leaves them (R380; log 180). -/
def clearVolatile (s : State) : State :=
  { s with
    errors := { s.errors with
      counts := Vector.replicate 4 0, log := [], security := 0, hostRefused := 0, notResident := 0, pressDiscarded := 0, pressHolds := 0
      intakeTotals := Vector.replicate 10 0, eccCorrected := [] }
    intake := { s.intake with busyCycles := [] }
    power := { s.power with dozeWakes := 0 }
    fabric := { s.fabric with ports := s.fabric.ports.map fun q => (q.1, { q.2 with framesReplayed := 0 }) } }

/-- A flash record in effect: an entry's new value, the factory settings, or what WHEY_EXIT records (R401, R403, R438). -/
def storeRecord (r : JournalRecord) (s : State) : State :=
  match r with
  | .entry index sub data => s.putEntry index sub data
  | .factory =>
    let s := clearVolatile s
    { s with dict := { s.dict with
      entries := s.dict.entries.filter (fun e => keyKeep e.1 != .persistent && keyKeep e.1 != .volatile), restoreCount := s.dict.restoreCount + 1 } }
  | .wheyExit => { s with dict := { s.dict with savedInvalid := true }, start := { s.start with failedStarts := 0 } }

/-- A record stored in copy A alone: copy B stays at its last valid record, and the next start repairs it; INTERRUPTED_WRITES
counts it (R405). -/
def halfStored (r : JournalRecord) (s : State) : State :=
  let b := (Tbl.get? s.dict.behind regionJournal).getD { seq := (s.dict.flashSeq[regionJournal]?).getD 0, store := s.flashStore }
  let t := (storeRecord r s).flashWrote regionJournal
  { t with dict := { t.dict with interruptedWrites := t.dict.interruptedWrites + 1, behind := Tbl.put t.dict.behind regionJournal b } }

/-- A record that did not complete in copy A: the earlier one holds, and the next start repairs the copy (R405). -/
def notStored (s : State) : State :=
  { s with dict := { s.dict with spoiled := insertNum s.dict.spoiled regionJournal } }

/-- A reset meets a dictionary write in progress: it has one of its two outcomes, a free value; those behind it have not
begun (R405, R446). -/
def abandonWrites (s : State) : State :=
  match s.dict.queue with
  | [] => s
  | w :: _ =>
    let v := s.fresh
    let t := { v.2 with dict := { v.2.dict with queue := [] } }
    if v.1.getLsbD 0 then halfStored w.rcd t else notStored t

/-! ## Boot history (R439, R440) -/

/-- The kind of a start, coded as LAST_START (R439). -/
def Start.kind (t : Start) : Nat := if t.whey then 4 else if !t.fast then 1 else if t.fellBack then 3 else 2

/-- The spare rows of a macro are used up: two defects of a kind in one group of 32 rows or columns (R435). -/
def storeOverflow (l : List (BitVec 128)) (e : BitVec 128) : Bool :=
  let same := fun x : BitVec 128 => field x 0 16 == field e 0 16 && field x 16 15 == field e 16 15 && field x 36 5 == field e 36 5
  (field e 0 8 == 1 || field e 0 8 == 2) && decide (2 ≤ (l.filter same).length)

/-- The bad cores by die, row and physical column: CORE entries, and cores whose store cannot be repaired (R435). -/
def Start.badCoresOf (t : Start) : List (Nat × Nat × Nat) :=
  let l := t.defects
  ((l.filter fun e => (field e 0 8 == 3 || storeOverflow l e) && decide (field e 8 8 < 4)).map
    fun e => (field e 8 8, field e 16 4, field e 20 5)).eraseDups

/-- The pseudo-channels of a stack mapped out: HBM_PC entries, and those of a bank with more than 8 bad rows (R435). -/
def Start.badPcs (t : Start) (stack : Nat) : List Nat :=
  let l := t.defects.filter fun e => field e 8 8 == 0x10 + stack
  let rows := l.filter fun e => field e 0 8 == 6
  ((l.filter fun e => field e 0 8 == 5 ||
      (field e 0 8 == 6 && decide (8 < (rows.filter fun x => field x 16 10 == field e 16 10).length))).map fun e => field e 16 6).eraseDups

/-- Is a unit present: no row of it has two bad cores, its stack has trained, and at most 8 of its pseudo-channels are out
(R21, R435)? -/
def Start.unitOk (t : Start) (bad : List (Nat × Nat × Nat)) (u : Nat) : Bool :=
  !t.failedStacks.contains u && decide ((t.badPcs u).length ≤ 8)
    && (List.range 3).all fun i => decide ((bad.filter fun b => b.1 == u / 4 && b.2.1 == 3 * (u % 4) + i).length < 2)

/-- The present units that the repairs so far leave. -/
def Start.presentOf (t : Start) : BitVec 16 :=
  let bad := t.badCoresOf
  BitVec.ofNat 16 (((List.range 16).map fun u => if t.unitOk bad u then 2 ^ u else 0).foldl (· + ·) 0)

/-- The entry of the start in progress; DURATION is time, a free value (R440). -/
def State.bootEntry (s : State) (outcome : Nat) (reason : BitVec 16) : BootEntry × State :=
  let v := s.fresh
  ({ number := s.start.number, kind := s.start.kind, outcome := outcome, step := s.start.step, reason := reason
     eyeAdded := min 65535 s.start.eyeAdded, present := s.start.presentOf, duration := v.1.toNat % 2 ^ 24 }, v.2)

/-- An entry put in front of the boot history, which keeps 16. -/
def State.addHistory (s : State) (e : BootEntry) : State :=
  State.flashWrote { s with start := { s.start with history := (e :: s.start.history).take 16 } } regionHistory

/-- The start fails with a reason: recorded, and a warm reset to come (R426, R436, R439). While the guard is active the record
waits, and the reset after it; DESIGN CHOICE (R404, R440; log 182). -/
def failStart (reason : BitVec 16) (s : State) : State :=
  if s.flashHeld then { s with start := { s.start with failing := some reason } }
  else
    let r := s.bootEntry 1 reason
    let s := r.2.addHistory r.1
    { s with start := { s.start with failReason := reason, failStep := s.start.step, ended := true, failing := none, warmPending := true } }

/-- A reset that meets steps 5–11 leaves the start interrupted (R436, R440, R446). -/
def noteInterrupted (s : State) : State :=
  if s.start.step < 5 || s.start.ended then s
  else
    let r := s.bootEntry 2 0x0007
    { r.2 with start := { r.2.start with failReason := 0x0007, failStep := r.2.start.step, interrupted := some r.1 } }

/-! ## Device resets (R441, R445, R447) -/

/-- The RTP after a reset: fuses and the scrub records of the flash store are kept, and the DRBG is seeded anew (R355, R445). -/
def Rtp.afterReset (r : Rtp) : Rtp :=
  { Rtp.reset with
    minSvn := r.minSvn, signing := r.signing, signingHash := r.signingHash, identityKey := r.identityKey, ownerSlots := r.ownerSlots
    drbgCount := r.drbgCount, drbgSeeds := r.drbgSeeds + 1, scrubRecords := r.scrubRecords, spdmNext := r.spdmNext }

/-- The dictionary after a reset: Volatile entries at their defaults, sessions ended, accesses that waited discarded with the write
they waited for; a cold reset takes the dynamic address too. -/
def Dict.afterReset (d : Dict) (cold : Bool) : Dict :=
  { d with
    entries := d.entries.filter fun e => keyJournalled e.1
    queue := [], flashUsed := false, flashRepaired := false, sessions := [], cert := none, saveDue := false
    i3cDynamic := if cold then none else d.i3cDynamic
    i3c := if cold then none else d.i3c
    i3cNext := [], plcaState := 3, plcaMuted := false }

/-- The start after a reset: the eye map, history and counts of the flash store are kept, and the start resumes at step 3,
or waits for step 2 after a cold reset. -/
def Start.afterReset (t : Start) (cold flashAbsent bifurcate strong : Bool) : Start :=
  { Start.reset with
    step := if cold then 0 else 3
    number := t.number, history := t.history, refusals := t.refusals, interrupted := t.interrupted, eyeMap := t.eyeMap
    failedStarts := if cold && flashAbsent then 0 else t.failedStarts
    failReason := t.failReason, failStep := t.failStep
    strongEcc := strong
    bifurcated := if cold then bifurcate else t.bifurcated }

/-- A device warm or cold reset. Local stores and HBM are zeroed in steps 7 and 10 of the start that follows (R427). -/
def resetDevice (cold : Bool) (s : State) : State :=
  let s := noteInterrupted (abandonWrites s)
  { s with
    cores := [], signals := [], arrivals := [], parts := [], intake := .reset, press := [], fabric := .reset
    host := { HostIf.reset with msix := s.host.msix }
    rtp := s.rtp.afterReset
    dict := s.dict.afterReset cold
    power := { Power.reset with mode := s.powerMode, domains := if cold then [] else [(domAlwaysOn, .on)] }
    start := s.start.afterReset cold s.dict.flashAbsent (s.dictNat 0x1120 1 0 != 0) (s.dictNat 0x2000 2 0 != 0)
    errors := { Errors.reset with lastFatal := s.errors.lastFatal, rowWatchAdded := s.errors.rowWatchAdded } }

/-- COLD_RESET: every domain resets, and MGMT_ID is sampled at its end (R441, R473). -/
def execColdReset (strap : BitVec 4) (s : State) : Out :=
  let s := resetDevice true s
  .next { s with dict := { s.dict with i3cStrap := strap } }

/-- DEVICE_WARM_RESET: a warm reset that has been requested takes effect (R445, R458). -/
def execDeviceWarmReset (s : State) : Out := .next (if s.start.warmPending then resetDevice false s else s)

/-! ## Step 5: the start kind and the attempt (R428, R436, R437) -/

/-- SAVED_SETTINGS_VALID: the record passes its CRC, names the bundle's training image and the protection in effect, and
is not marked invalid (R428). -/
def State.settingsValid (s : State) : Bool :=
  s.start.savedCrc && s.start.savedOwn && !s.dict.savedInvalid && s.dict.saved == some ((s.rtp.digests[4]?).getD 0, if s.start.strongEcc then 1 else 0)

/-- The interrupted start's entry is written before the new start's own (R440). -/
def writeInterrupted (s : State) : State :=
  match s.start.interrupted with
  | some e => let t := s.addHistory e; { t with start := { t.start with interrupted := none } }
  | none => s

/-- The start attempt counted in the flash store (R436). -/
def countAttempt (s : State) : State :=
  if s.start.counted then s
  else State.flashWrote { s with start := { s.start with counted := true, failedStarts := s.start.failedStarts + 1 } } regionJournal

/-- Whey mode: the accepted bundle's runtime runs, port 0 alone links at x4, every other domain is held in reset (R437). -/
def enterWhey (s : State) : State :=
  let s := { s with start := { s.start with
    whey := true, lastStart := 4, wheyReason := s.start.failReason, wheyStep := s.start.failStep, ended := true } }
  let w := (s.host.linkWidth[0]?).getD 0
  let kept : Tbl DomState := s.power.domains.filter fun d => d.1 == domRtp || d.1 == domAlwaysOn || d.1 == domCxl || d.1 == domClock
  { s with
    host := { s.host with linkWidth := #v[min w 4, 0], linkRate := #v[(s.host.linkRate[0]?).getD 0, 0] }
    power := { s.power with domains := kept } }

/-- The runtime of an accepted bundle starts: its attestation key, and outside whey mode the management certificate (R355,
R384). -/
def startFirmware (s : State) : State :=
  let k := s.newKey
  let s := { k.2 with rtp := { k.2.rtp with attestKey := some k.1, bundleLoaded := true } }
  if s.start.whey then s else { s with dict := { s.dict with cert := some k.1 } }

/-- The flash records of step 5: the entry of an interrupted start, START_NUMBER, and the attempt or the entry of whey mode. They
wait while the guard is active (R404, R436, R440). -/
def recordStep5 (s : State) : State :=
  if s.start.step ≠ 5 ∨ s.start.entered ∨ s.flashHeld then s
  else
    let s := writeInterrupted s
    let s := State.flashWrote { s with start := { s.start with entered := true, number := s.start.number + 1 } } regionJournal
    if s.start.whey then
      let r := s.bootEntry 3 0
      r.2.addHistory r.1
    else countAttempt s

/-- Step 5 begins with an accepted bundle: the start's kind is chosen on FAILED_STARTS as read, its records are stored, and three
failed starts in a row lead to whey mode. -/
def beginStep5 (s : State) : State :=
  let valid := s.settingsValid
  let failed := s.start.failedStarts
  let s := { s with start := { s.start with step := 5, savedValid := valid, fast := s.dictNat 0x2000 6 1 != 0 && failed == 0 && valid } }
  recordStep5 (startFirmware (if 3 ≤ failed.toNat then enterWhey s else s))

/-! ## The steps (R426, R427, R433, R435) -/

/-- The domains that a step is the first to need. -/
def stepNeeds (step d : Nat) : Bool :=
  match step with
  | 2 => d == domAlwaysOn
  | 3 => d == domRtp || d == domCxl
  | 5 => (decide (d < 64) && d % 16 == 14) || (decide (64 ≤ d) && decide (d < 80))
  | 6 => d == domClock
  | 7 => isRowDomain d
  | 8 => decide (d < 64) && d % 16 == 12
  | 9 => decide (d < 64) && (d % 16 == 13 || d % 16 == 15)
  | _ => false

/-- Have the domains that a step and those before it need reached power-good? -/
def State.stepPowered (s : State) (step : Nat) : Bool :=
  (List.range 84).all fun d => !(List.range (step + 1)).any (fun k => stepNeeds k d) || s.domainUp d

/-- Step 6 ends: every island at its lowest step, and the mode's voltage requested of the regulators; those that answer AVSBus are
waited for before an island's clock rises (R409, R426). -/
def startClocks (o : StepOutcome) (s : State) : State :=
  let s := { s with
    start := { s.start with refclkLocked := true }
    power := { s.power with mode := s.powerMode, islands := [], engineIslands := [], railSilent := o.silentRails } }
  let s := s.requestRails s.power.mode
  { s with power := { s.power with
    ackWaiting := s.answeringRails.filter fun d => (s.power.railMv[d]?).getD 0 != modeMillivolts s.power.mode } }

/-- A defect of a step recorded and counted; a full map leaves it to this start alone (R433). -/
def recordDefect (s : State) (d : Defect) : State :=
  let e := eyeEntry d.kind d.unit d.location s.start.step d.point s.start.number
  if d.kind = 0 ∨ 9 < d.kind ∨ s.start.defects.any (fun x => eyeKey x == eyeKey e) then s
  else
    let s := { s with start := { s.start with eyeAdded := s.start.eyeAdded + 1 } }
    if 16384 ≤ s.start.eyeMap.length then { s with start := { s.start with unrecorded := s.start.unrecorded ++ [e] } } else s.addEye e

/-- Every local store zeroed (R427). -/
def zeroLocalStores (s : State) : State :=
  { s with mem := s.mem.filter (fun c => decide (0x0200000000 ≤ c.1)), marks := s.marks.filter fun l => decide (0x0200000000 ≤ 64 * l) }

/-- Every granule of every stack zeroed, the reserved regions included; what a scrub left over is done with (R374, R427,
R456). -/
def zeroHbm (s : State) : State :=
  State.storeScrubs { s with
    mem := s.mem.filter (fun c => !isHbm c.1), marks := s.marks.filter (fun l => !isHbm (64 * l)), sealed := []
    rtp := { s.rtp with unitScrub := s.rtp.scrubRecords.map fun u => (u, .complete) } }

/-- The intake engines that no defect takes away (R435). -/
def Start.enginesOf (t : Start) : BitVec 32 :=
  BitVec.ofNat 32 (((List.range 32).map fun e =>
    if t.defects.any (fun x => field x 0 8 == 9 && field x 16 5 == e) then 0 else 2 ^ e).foldl (· + ·) 0)

/-- The device enters On: the repair map is fixed, the present units are reported, FAILED_STARTS is 0, and the training
settings are to be saved (R426, R431, R436). -/
def enterOn (s : State) : State :=
  let t := s.start
  let s := { s with
    start := { t with
      isOn := true, lastStart := t.kind, failedStarts := 0, ended := true, present := t.presentOf, badCores := t.badCoresOf
      mappedPcs := ((List.range 16).filter fun k => !(t.badPcs k).isEmpty).map fun k => (k, (t.badPcs k).length) }
    intake := { s.intake with enginesPresent := t.enginesOf }
    dict := { s.dict with saveDue := true } }
  let r := (s.flashWrote regionJournal).bootEntry 0 0
  redrawRoutes (r.2.addHistory r.1)

/-- What a step's end leaves: the next step, or the failure of the start (R426, R435). -/
def finishStep (o : StepOutcome) (s : State) : State :=
  let next := { s with start := { s.start with step := s.start.step + 1 } }
  match s.start.step with
  | 2 =>
    let s := readFlash (flashMissing o.flash) o.damaged s
    { s with dict := { s.dict with calInvalid := !o.calibrationOk }, start := { s.start with
      step := 3, savedCrc := settingsCrc (flashMissing o.flash) o.damaged, savedOwn := !o.settingsForeign } }
  | 3 =>
    let s := readFlash (flashMissing o.flash) o.damaged s
    let s := { s with dict := { s.dict with calInvalid := !o.calibrationOk }, start := { s.start with
      savedCrc := settingsCrc (flashMissing o.flash) o.damaged, savedOwn := !o.settingsForeign } }
    match o.selfTestFailed with
    | some n => rtpFails n s
    | none => { s with start := { s.start with step := 4 } }
  | 5 =>
    let s := recordStep5 s
    if s.start.entered then { s with start := { s.start with step := 6 } } else s
  | 6 => startClocks o next
  | 7 => if s.start.presentOf = 0 then failStart 0x0005 s else zeroLocalStores next
  | 8 => if o.hubLost then failStart 0x0006 s else if s.start.presentOf = 0 then failStart 0x0005 s else next
  | 9 =>
    if o.bridgeLost then failStart 0x0004 s
    else
      let s := { s with start := { s.start with
        failedStacks := o.stacksFailed.foldl insertNum s.start.failedStacks, fellBack := s.start.fellBack || (s.start.fast && o.fallback) } }
      let s := o.ports.foldl (fun s p => trainPort p.1 p.2 false s) s
      if s.start.presentOf = 0 then failStart 0x0005 s else { s with start := { s.start with step := 10 } }
  | 10 => if s.start.presentOf = 0 then failStart 0x0005 s else zeroHbm next
  | 11 => if s.flashHeld then s else enterOn s
  | _ => s

/-- Is a timed step of a start in progress? -/
def State.starting (s : State) : Bool :=
  !s.start.isOn && !s.start.whey && !s.start.ended && !s.rtp.error && !s.power.tripped && !s.start.warmPending && s.start.failing.isNone

/-- START_SEQUENCE: the always-on domain has left reset, and step 2 begins (R426, R473). -/
def execStartSequence (s : State) : Out :=
  .next (if s.start.step = 0 then
    let s := s.setDomain domAlwaysOn .on
    { s with start := { s.start with step := 2, strongEcc := s.dictNat 0x2000 2 0 != 0 } }
  else s)

/-- START_STEP_COMPLETE: the defects a step found are recorded, and it ends, once the domains it needs are powered and the
flash has taken its entries (R426, R433). -/
def execStartStepComplete (outcome : StepOutcome) (s : State) : Out :=
  if !s.starting || !s.stepPowered s.start.step || (s.flashHeld && !outcome.defects.isEmpty) then .next s
  else
    let s := if 7 ≤ s.start.step ∧ s.start.step ≤ 10 then outcome.defects.foldl recordDefect s else s
    .next (finishStep outcome s)

/-- START_SUPPLY_TIMEOUT: a domain that a step needs is not good 1 s after its start (R426, R439). -/
def execStartSupplyTimeout (domain : Nat) (s : State) : Out :=
  .next (if s.starting && decide (5 ≤ s.start.step) && stepNeeds s.start.step domain && !s.domainUp domain then failStart 0x0001 s else s)

/-- STEWARD_TIMEOUT: a die steward is not ready 1 s after step 5 began (R439). -/
def execStewardTimeout (s : State) : Out := .next (if s.starting && s.start.step == 5 then failStart 0x0002 s else s)

/-- CLOCK_LOCK_TIMEOUT: a clock has not locked in step 6 (R439). -/
def execClockLockTimeout (s : State) : Out := .next (if s.starting && s.start.step == 6 then failStart 0x0003 s else s)

/-- TRAINING_SAVE: the settings in effect are written once after On, and later where a value has moved beyond its tolerance with an
hour passed since, or tried again once the guard clears (R431). -/
def execTrainingSave (moved : Bool) (s : State) : Out :=
  if !s.start.isOn || s.dict.flashAbsent || !(s.dict.saveDue || moved) then .next s
  else if s.guardActive then .next { s with dict := { s.dict with saveDue := true } }
  else .next (State.flashWrote { s with dict := { s.dict with
    saved := some ((s.rtp.digests[4]?).getD 0, if s.start.strongEcc then 1 else 0), savedInvalid := false, saveDue := false, flashUsed := true } } regionSettings)

/-- FLASH_RESET_N: low while the always-on domain is in reset (R473). -/
def State.flashInReset (s : State) : Bool := decide (s.start.step < 2)

/-- SECTOR_ERASE: a spent sector is erased, unless the guard is active (R403, R404). -/
def execSectorErase (s : State) : Out :=
  .next (if !s.flashInReset && s.flashReady then { s with dict := { s.dict with flashUsed := true } } else s)

/-! ## Domains that gain or lose power (R407, R408, R421, R437) -/

/-- May a domain leave reset: the always-on domain is out of it, no trip or whey mode holds it? -/
def State.mayPower (s : State) (d : Nat) : Bool :=
  decide (2 ≤ s.start.step) && (!s.power.tripped || d == domRtp)
    && (!s.start.whey || d == domRtp || d == domCxl || d == domClock)

/-- DOMAIN_POWER_GOOD: the rails that feed a domain have been good for 100 µs, and it leaves reset; a row that returns while On has its
local stores zeroed as at a start (R407, R408, R427). The voltages are those of the rails as R406 lists them, in mV. -/
def execDomainPowerGood (domain : Nat) (millivolts : List Nat) (s : State) : Out :=
  .next (if s.mayPower domain && !s.domainUp domain && railsGood domain millivolts then loseDomain .on s domain else s)

/-- Is every core of a die Stopped? -/
def dieStopped (s : State) (die : Nat) : Bool := allCores.all fun c => dieOf c != die || (s.core c).ctl.state == .stopped

/-- DOMAIN_POWER_LOSS: a rail that feeds a domain falls more than 20 mV below its minimum; the domain resets and loses its contents.
While On that is device-fatal, but for a row domain of a die whose VDD_CORE falls while its cores are all Stopped; the always-on domain
takes the whole device with it (R407, R408). -/
def execDomainPowerLoss (domain rail millivolt : Nat) (s : State) : Out :=
  if !railLost domain rail millivolt then .next s
  else if domain = domAlwaysOn then .next (if s.start.step = 0 then s else resetDevice true s)
  else if !s.domainUp domain then .next s
  else
    let spared := isRowDomain domain && rail == domain / 16 && dieStopped s (domain / 16)
    let part := if isRowDomain domain then s.commonPart (domainCores domain)
      else if 64 ≤ domain ∧ domain < 80 then s.unitPart (domain - 64) else none
    let t := loseDomain .inReset s domain
    if !s.start.isOn || s.power.deepRest then .next t
    else if spared then
      .next (t.logError { source := 0x14, part := part, unit := domainUnit domain, core := 0x3FF, address := 0, detail := 0 })
    else
      .next (deviceError { source := 0x17, part := part, unit := domainUnit domain, core := 0x3FF, address := 0, detail := (Config.railCode rail).toNat } t)

/-! ## Links, mesh and stewards (R430, R453, R455) -/

/-- Do the die stewards run: past step 5, or On, with no trip? -/
def State.stewardsRun (s : State) : Bool := (s.start.isOn || decide (5 < s.start.step)) && !s.start.whey && !s.power.tripped

/-- A memory link lost: partition-fatal for its unit's partition (R455, R457). -/
def loseMemoryLink (stack : Nat) (s : State) : State :=
  let s := { s with errors := { s.errors with stacksLost := insertNum s.errors.stacksLost stack } }
  s.partError { source := 0x08, part := s.unitPart stack, unit := 0x10 + stack, core := 0x3FF, address := 0, detail := 0 }

/-- MEMORY_LINK_LOST. -/
def execMemoryLinkLost (stack : Nat) (s : State) : Out := .next (if s.stewardsRun then loseMemoryLink stack s else s)

/-- MEMORY_LINK_RETRAIN: a retrain only delays the link's requests; one that fails loses the link (R430, R453). -/
def execMemoryLinkRetrain (stack : Nat) (ok : Bool) (s : State) : Out :=
  .next (if s.stewardsRun && !ok then loseMemoryLink stack s else s)

/-- MESH_FAILURE: device-fatal (R455). -/
def execMeshFailure (die : Nat) (s : State) : Out :=
  .next (if s.stewardsRun then deviceError { source := 0x09, part := none, unit := die, core := 0x3FF, address := 0, detail := 0 } s else s)

/-- STEWARD_SILENT: a die steward silent for 10 ms is device-fatal (R455). -/
def execStewardSilent (unit : Nat) (s : State) : Out :=
  .next (if s.stewardsRun then deviceError { source := 0x19, part := none, unit := unit, core := 0x3FF, address := 0, detail := 0 } s else s)

/-- CYCLE_COUNT_WRAP: the count passes 2^48, wraps, and sets its sticky bit (R71, R464). -/
def execCycleCountWrap (core : CoreId) (s : State) : Out :=
  let k := s.core core
  .next (if k.flight.now - k.sys.cycZero < 2 ^ 48 then s
    else s.modCore core fun k => { k with sys := { k.sys with cycZero := k.sys.cycZero + 2 ^ 48, cycWrap := true } })

end Sys2Proof.Machine
end

