-- ==== Sys2Proof/Machine/Dict.lean ====
section
/-! DEFINITION. The dictionary engine: reads, rights, writes and their effects, and writes that wait on the flash (R376–R383,
R386, R396–R405, R415, R422, R423, R438, R445, R459). -/

namespace Sys2Proof.Machine

/-! ## Status codes (R382) -/

/-- A result with a status alone. -/
def dictStatus (status : Nat) : DictResult := { status := BitVec.ofNat 8 status, detail := 0, data := [] }
/-- OK with data. -/
def dictData (data : List Byte) : DictResult := { status := 0, detail := 0, data := data }
/-- OK. -/
def dictOk : DictResult := dictStatus 0x00
/-- SUPPLY with a detail (R405). -/
def dictSupply (detail : Nat) : DictResult := { dictStatus 0x08 with detail := BitVec.ofNat 8 detail }

/-! ## Values that other parts of the device hold -/

/-- A BOOLEAN as a number. -/
def flagNat (b : Bool) : Nat := if b then 1 else 0

/-- Does a port, host link, stack or partition unit of an On device run reduced (R399)? -/
def State.degraded (s : State) : Bool :=
  s.start.isOn && (s.start.present != 0xFFFF || !s.start.mappedPcs.isEmpty || !s.errors.stacksLost.isEmpty
    || s.fabric.ports.any (fun p => p.2.width == 1 || p.2.width == 2)
    || (List.range 2).any (fun p => s.linked p && (decide ((s.host.linkWidth[p]?).getD 0 < s.portWidth) || decide ((s.host.linkRate[p]?).getD 0 < 4)))
    || (List.range 84).any fun d => s.domain d == .inReset && s.errors.healthEvents.contains (5, d))

/-- HEALTH (R399). -/
def State.health (s : State) : Nat :=
  flagNat s.degraded + flagNat s.dict.calInvalid * 2 + flagNat s.guardActive * 4 + flagNat s.rtp.error * 8 + flagNat s.start.whey * 16
    + flagNat s.dict.flashRepaired * 32 + flagNat s.dict.flashAbsent * 64
    + flagNat ((List.range 16).any fun p => s.independence p == 2) * 128 + flagNat (s.fabric.takeover.phase == 2) * 256

/-- The 32 bytes of an error-log entry (R459). -/
def ErrEntry.bytes (e : ErrEntry) : List Byte :=
  leBytes 32 (e.source.toNat + e.cls.toNat * 2 ^ 8 + (match e.part with | some p => 2 ^ 10 + p.toNat * 2 ^ 12 | none => 0)
    + (if e.redacted then 2 ^ 11 else 0) + e.unit.toNat * 2 ^ 16 + e.core.toNat * 2 ^ 24 + e.address.toNat * 2 ^ 64
    + e.count.toNat * 2 ^ 128 + e.detail.toNat * 2 ^ 160 + e.number.toNat * 2 ^ 192)

/-- The 16 bytes of a boot-history entry (R440). -/
def BootEntry.bytes (e : BootEntry) : List Byte :=
  leBytes 16 (e.number.toNat + e.kind % 16 * 2 ^ 32 + e.outcome % 16 * 2 ^ 36 + e.step % 256 * 2 ^ 40 + e.reason.toNat * 2 ^ 48
    + e.eyeAdded % 2 ^ 16 * 2 ^ 64 + e.present.toNat * 2 ^ 80 + e.duration % 2 ^ 24 * 2 ^ 96)

/-- PORT_STATE (R326). -/
def Port.stateWord (q : Port) : Nat :=
  q.width + flagNat q.gateway * 2 ^ 3 + flagNat q.retraining * 2 ^ 4 + q.neighbour.toNat * 2 ^ 5 + min 255 q.retrains * 2 ^ 17

/-- The partition record of R376 as a requester sees it: the tenant's own, or another's confidential one redacted. Before any
layout it reads zero, as its reset column and R397 say; DEDUCED (log 175). -/
def State.partitionRecord (s : State) (k : Nat) (own : Bool) : List Byte :=
  let q := s.part k
  if s.rtp.layoutImage.isEmpty then leBytes 64 0
  else
    let shown := flagNat q.layout.valid * 2 ^ 4 + flagNat q.layout.conf * 2 ^ 5 + ((s.unitsOf k).map fun u => 2 ^ (8 + u)).foldl (· + ·) 0 + q.layout.tenant.toNat * 2 ^ 128
    let rest := k + q.layout.port * 2 ^ 6 + flagNat q.job.isSome * 2 ^ 24 + flagNat (q.scrubbing || q.scrub == .failed) * 2 ^ 25
      + flagNat (q.scrub == .complete) * 2 ^ 26 + q.scrubs.toNat * 2 ^ 32 + s.independence k * 2 ^ 64
    leBytes 64 (if q.layout.conf && !own then shown else shown + rest)

/-- SHA-384 of the applied layout image; zero while none is applied (R376, R397). -/
def State.layoutDigest (s : State) : List Byte := if s.rtp.layoutImage.isEmpty then leBytes 48 0 else leBytes 48 (Config.sha384 s.rtp.layoutImage).toNat

/-- The link-local address formed from the MAC address as a modified EUI-64 (R387). -/
def linkLocal : List Byte :=
  let m := leBytes 6 Config.macAddress.toNat
  [0xFE, 0x80, 0, 0, 0, 0, 0, 0] ++ ((m.take 1).map fun b => b ^^^ 0x02) ++ (m.drop 1).take 2 ++ [0xFF, 0xFE] ++ m.drop 3

/-- The hottest core island that has been sampled, of the rows that are powered (R381, R397). -/
def State.hottest (s : State) : Option (Nat × Int) :=
  (s.power.islands.filter fun i => s.domainUp (rowDomain (BitVec.ofNat 10 i.1))).foldl (fun m i => match i.2.temp, m with
    | some t, some (c, x) => if x < t then some (i.1, t) else some (c, x)
    | some t, none => some (i.1, t)
    | none, _ => m) none

/-- THROTTLED_ISLANDS: active islands below step 16 (R398, R420). -/
def State.throttled (s : State) : Nat :=
  if s.start.refclkLocked then (allCores.filter fun c => s.activeIsland c && decide (s.islandStep c < 16)).length else 0

/-- PACKAGE_POWER_W: what the package draws is time and data, a free value; it never exceeds the ceiling (R23, R25). -/
def State.packagePower (s : State) (v : Word) : Nat := if s.start.isOn then min (v.toNat % 2 ^ 16) s.powerCeiling else 0

/-- FACTORY of a calibration quantity (R400). -/
def State.factory (s : State) (index : Nat) : BitVec 32 := if s.dict.calInvalid then Config.factoryCoarse index else Config.factory index

/-- EFFECTIVE of a calibration quantity (R400). -/
def State.effective (s : State) (index : Nat) : BitVec 32 :=
  if s.dictNat index 3 0 != 0 then s.factory index + BitVec.ofNat 32 (s.dictNat index 2 0) else s.factory index

/-- Eye-map entries from an index on, as one sub shows them (R434). -/
def State.eyeBytes (s : State) (first : Nat) : List Byte :=
  (List.range 64).flatMap fun i => leBytes 16 ((s.start.eyeMap[first + i]?).getD 0).toNat

/-! ## Reads -/

/-- The unit that an entry belongs to is absent or powered off, so that it reads its reset value (R381). -/
def State.unitGone (s : State) (index sub : Nat) : Bool :=
  if index = 0x2600 ∨ index = 0x2601 ∨ index = 0x2602 then !s.unitPresent (sub - 1) || !s.domainUp (64 + (sub - 1))
  else if index = 0x2101 then
    !s.domainUp (if sub ≤ 4 then 16 * (sub - 1) + 14 else if sub = 5 then domCxl else 64 + (sub - 6))
  else if index = 0x2501 ∨ index = 0x2504 then !s.domainUp (16 * ((sub - 1) / 6) + 13)
  else if index = 0x2702 then !s.intake.enginesPresent.toNat.testBit (sub - 1) || !s.domainUp domCxl
  else if (index = 0x1120 ∧ sub ≠ 1) ∨ index = 0x2700 ∨ index = 0x2701 then !s.domainUp domCxl
  else if index = 0x2200 then !s.domainUp domClock
  else if index = 0x4000 ∨ index = 0x4001 then !s.domainUp domRtp
  else false

/-- Identity, management and start entries that the device computes. -/
def computed1 (s : State) (v : Word) (index sub : Nat) : Option (List Byte) :=
  match index, sub with
  | 0x1000, 1 => some (padTo 16 [0x48, 0x4A, 0x44, 0x4D, 0x31, 0x2D, 0x41])
  | 0x1000, 2 => some (leBytes 2 0x00B0)
  | 0x1000, 3 => some (leBytes 16 Config.serial.toNat)
  | 0x1000, 4 => some (leBytes 6 Config.macAddress.toNat)
  | 0x1000, 5 => some (leBytes 1 s.rtp.svn.toNat)
  | 0x1000, 6 => some (leBytes 48 s.rtp.headerDigest.toNat)
  | 0x1000, 7 => some (leBytes 2 1)
  | 0x1100, 1 => some (match s.dict.cert with | some n => padTo 1024 (Config.mgmtCert n) | none => padTo 1024 [])
  | 0x1110, 5 => some (leBytes 1 (0x50 + s.dict.i3cStrap.toNat))
  | 0x1110, 6 => some linkLocal
  | 0x1110, 7 => some (leBytes 1 s.dict.plcaState)
  | 0x1120, 2 => some (leBytes 2 ((s.host.linkWidth[0]?).getD 0 + (s.host.linkRate[0]?).getD 0 * 32))
  | 0x1120, 3 => some (leBytes 2 ((s.host.linkWidth[1]?).getD 0 + (s.host.linkRate[1]?).getD 0 * 32))
  | 0x1210, 2 => some (leBytes 4 s.dict.restoreCount.toNat)
  | 0x1211, 1 => some (leBytes 1 (if s.dict.flashUsed then v.toNat % 256 else 0))
  | 0x2001, 1 => some (leBytes 1 (match s.deviceState with | some n => n | none => v.toNat % 256))
  | 0x2002, 1 => some (leBytes 1 (flagNat s.dozeEnabled))
  | 0x2002, 3 => some (leBytes 1 (s.power.domains.filter fun d => d.2 == .doze).length)
  | 0x2002, 4 => some (leBytes 8 s.power.dozeWakes.toNat)
  | 0x2003, 5 => some (leBytes 1 (flagNat s.power.target.isSome))
  | 0x2003, n => let mv := (s.power.railMv[n - 1]?).getD 0
                 some (leBytes 2 (if s.power.railSilent.contains (n - 1) then 850 else mv))
  | 0x2010, 3 => some (leBytes 1 s.deviceIndependence)
  | 0x2011, n => some (leBytes 1 (s.independence (n - 1)))
  | 0x2100, 2 => some (leBytes 2 880)
  | 0x2100, 3 => some (leBytes 2 (match s.hottest with | some h => wrapInt 16 h.2 | none => 0))
  | 0x2100, 4 => some (leBytes 2 (match s.hottest with
      | some h => if s.confidential (s.corePart (BitVec.ofNat 10 h.1)) then 0 else h.1
      | none => 0xFFFF))
  | 0x2101, n => some (leBytes 2 (wrapInt 16 (Tbl.getD s.power.unitTemps n 0)))
  | 0x2200, 1 => some (leBytes 2 (if s.start.refclkLocked then modeClock s.power.mode else 0))
  | 0x2200, 2 => some (leBytes 2 s.throttled)
  | 0x2200, 3 => some (leBytes 1 (flagNat s.start.refclkLocked))
  | 0x2400, 1 => some (leBytes 1 s.start.lastStart)
  | 0x2400, 2 => some (leBytes 1 s.start.failedStarts.toNat)
  | 0x2400, 3 => some (leBytes 2 s.start.wheyReason.toNat)
  | 0x2400, 4 => some (leBytes 1 s.start.wheyStep)
  | 0x2400, 5 => some (leBytes 2 s.start.refusal.toNat)
  | 0x2400, 6 => some (leBytes 2 s.rtp.selfTestFailed.toNat)
  | 0x2400, 7 => some (leBytes 2 s.start.eyeMap.length)
  | 0x2400, 8 => some (leBytes 2 s.start.present.toNat)
  | 0x2401, n => some (match s.start.history[n - 1]? with | some e => e.bytes | none => leBytes 16 0)
  | 0x2402, 1 => some (leBytes 1 (if s.start.isOn then v.toNat % 256 else s.start.step))
  | 0x2402, 2 => some (leBytes 1 (flagNat s.start.savedValid))
  | 0x2402, 5 => some (leBytes 4 s.start.number.toNat)
  | 0x2404, n => some (s.eyeBytes (64 * (n - 1)))
  | 0x2405, n => some (s.eyeBytes (8192 + 64 * (n - 1)))
  | _, _ => none

/-- Health, fabric, stack, intake, calibration and partition entries that the device computes. PU_MAP reads 0xFF for an absent unit as
for one that no partition holds, since no rule gives it a code of its own: PRESENT_PU tells them apart; DESIGN CHOICE (R21, R366;
log 188). -/
def computed2 (s : State) (v : Word) (index sub : Nat) : Option (List Byte) :=
  match index, sub with
  | 0x2300, 1 => some (leBytes 4 s.health)
  | 0x2300, 6 => some (leBytes 8 s.errors.security.toNat)
  | 0x2300, 7 => some (leBytes 8 s.errors.hostRefused.toNat)
  | 0x2300, n => some (leBytes 8 ((s.errors.counts[n - 2]?).getD 0).toNat)
  | 0x2301, n => some (match s.errors.log[n - 1]? with | some e => e.bytes | none => leBytes 32 0)
  | 0x2302, 1 => some (leBytes 1 (flagNat s.guardActive))
  | 0x2302, 2 => some (leBytes 4 s.dict.guardEvents.toNat)
  | 0x2302, 3 => some (leBytes 4 s.dict.interruptedWrites.toNat)
  | 0x2303, 1 => some (match s.errors.lastFatal with | some e => e.bytes | none => leBytes 32 0)
  | 0x2303, 3 => some (leBytes 4 s.errors.rowWatchAdded.toNat)
  | 0x2500, 2 => some (leBytes 2 s.fabric.assignedId.toNat)
  | 0x2500, 4 => some (leBytes 1 s.fabric.joinStatus)
  | 0x2500, 7 => some (leBytes 1 s.fabric.groupState)
  | 0x2500, 8 => some (leBytes 2 s.fabric.headId.toNat)
  | 0x2501, n => some (leBytes 4 (s.port (n - 1)).stateWord)
  | 0x2504, n => some (leBytes 8 (s.port (n - 1)).framesReplayed.toNat)
  | 0x2541, n => some ((List.range 32).flatMap fun i => leBytes 4 (Tbl.getD s.fabric.routes (32 * (n - 1) + i) routeNone).toNat)
  | 0x2542, _ => some (leBytes 4 s.fabric.routeEpoch.toNat)
  | 0x2600, _ => some (leBytes 4 v.toNat)
  | 0x2601, n => some (leBytes 8 (s.grantable (n - 1)))
  | 0x2602, n => some (leBytes 8 (Tbl.getD s.errors.eccCorrected (n - 1) 0).toNat)
  | 0x2700, _ => some (leBytes 4 s.intake.enginesPresent.toNat)
  | 0x2701, n => some (leBytes 8 ((s.errors.intakeTotals[n - 1]?).getD 0).toNat)
  | 0x2702, n => some (leBytes 8 (Tbl.getD s.intake.busyCycles (n - 1) 0).toNat)
  | 0x2800, 1 => some (leBytes 2 (s.packagePower v))
  | 0x2800, 2 => some (leBytes 8 s.errors.notResident.toNat)
  | 0x2800, 3 => some (leBytes 8 s.errors.pressDiscarded.toNat)
  | 0x2800, 4 => some (leBytes 8 s.errors.pressHolds.toNat)
  | 0x4000, 1 => some (s.rtp.puMap.toList)
  | 0x4000, 2 => some s.layoutDigest
  | 0x4001, n => some (s.partitionRecord (n - 1) false)
  | n, 1 => if (overlayLimit n).isSome then some (leBytes 4 (s.factory n).toNat) else none
  | n, 4 => if (overlayLimit n).isSome then some (leBytes 4 (s.effective n).toNat) else none
  | _, _ => none

/-- The bytes of an entry; `v` is the free value of an entry whose content has none stated. -/
def State.entryBytes (s : State) (v : Word) (index sub : Nat) : List Byte :=
  if sub = 0 then leBytes 1 ((highestSub index).getD 0)
  else if s.unitGone index sub then leBytes (entryOf index sub).len (entryOf index sub).default
  else match (if index < 0x2300 ∨ (0x2400 ≤ index ∧ index < 0x2500) then computed1 s v index sub else computed2 s v index sub) with
    | some b => b
    | none => s.stored index sub

/-- Does an index exist, and does its table define the sub (R377)? -/
def badEntry (index sub : Nat) : Option DictResult :=
  match highestSub index with
  | none => some (dictStatus 0x01)
  | some n => if n < sub then some (dictStatus 0x02) else none

/-- A read of one entry (R377, R379). -/
def dictRead (index sub : Nat) (s : State) : DictResult × State :=
  match badEntry index sub with
  | some r => (r, s)
  | none =>
    match (entryOf index sub).access with
    | .wo _ => (dictStatus 0x03, s)
    | _ =>
      let v := s.fresh
      (dictData (s.entryBytes v.1 index sub), v.2)

/-! ## Rights (R379, R385, R386, R394) -/

/-- A role's rank (R379). -/
def roleRank (r : Role) : Nat :=
  match r with
  | .observer => 1
  | .operator => 2
  | .calibrator => 3

/-- PROVISION_LOCK. -/
def State.provisionLocked (s : State) : Bool := s.dictNat 0x1101 4 0 != 0

/-- The anchors and I3C_ROLE, which I3C may write while the lock is off (R386). -/
def provisioned (index sub : Nat) : Bool := (index == 0x1101 && decide (1 ≤ sub) && decide (sub ≤ 3)) || (index == 0x1110 && sub == 4)

/-- May an access write an entry: nothing, or the status that refuses it. -/
def State.mayWrite (s : State) (via : Via) (index sub : Nat) (e : Entry) : Option Nat :=
  if sub = 0 then some 0x03
  else match via, e.access with
    | _, .ro => some 0x03
    | .mailbox owner, .rtp => if owner then none else some 0x04
    | .mailbox _, _ => some 0x03
    | _, .rtp => some 0x03
    | .oap role, .rw need => if roleRank role < roleRank need then some 0x04 else none
    | .oap role, .wo need => if roleRank role < roleRank need then some 0x04 else none
    | .i3c, .rw need =>
      if provisioned index sub || index == 0x1102 then
        (if s.provisionLocked then some 0x0A else if index = 0x1102 then some 0x04 else none)
      else if min 2 (s.dictNat 0x1110 4 2) < roleRank need then some 0x04 else none
    | .i3c, .wo need => if min 2 (s.dictNat 0x1110 4 2) < roleRank need then some 0x04 else none

/-! ## Effects of writes -/

/-- The effect of an entry's new value beside holding it (R398, R415, R422, R423). -/
def entryEffect (index sub : Nat) (data : List Byte) (s : State) : State :=
  if index = 0x2000 ∧ sub = 1 then s.requestMode (leNat data)
  else if index = 0x2002 ∧ sub = 1 then
    let s := { s with power := { s.power with dozeOffUntilWrite := false } }
    if leNat data = 0 then wakeAll s else s
  else s

/-- What a stored record's values do: each reverted entry as though its default had just been written (R401). -/
def takeEffect (r : JournalRecord) (s : State) : State :=
  match r with
  | .entry index sub data => entryEffect index sub data s
  | .factory => entryEffect 0x2000 1 [1] (entryEffect 0x2002 1 [1] s)
  | .wheyExit => { s with start := { s.start with warmPending := true } }

/-- A flash record takes effect. -/
def takeRecord (r : JournalRecord) (s : State) : State := takeEffect r (storeRecord r s)

/-- The ASCII bytes "FACT". -/
def textFact : List Byte := [0x46, 0x41, 0x43, 0x54]
/-- The ASCII bytes "WARM". -/
def textWarm : List Byte := [0x57, 0x41, 0x52, 0x4D]

/-- Is any job admitted? -/
def State.anyJob (s : State) : Bool := s.parts.any fun p => p.2.job.isSome

/-- What an entry's own table refuses a value for: RANGE or STATE (R378, R398, R401, R415, R438, R445). -/
def State.refusesValue (s : State) (index sub : Nat) (e : Entry) (data : List Byte) : Option Nat :=
  let n := leNat data
  if !e.value.accepts e.len n then some 0x06
  else if index = 0x1210 then (if data = textFact then none else some 0x06)
  else if index = 0x2402 ∧ sub = 3 then (if data = textWarm then none else some 0x06)
  else if index = 0x2402 ∧ sub = 4 then (if n = 0 then some 0x06 else if s.start.whey then none else some 0x07)
  else if index = 0x2001 then (if n = 1 then none else if n = 4 then (if s.restRefused then some 0x07 else none) else some 0x06)
  else if index = 0x2000 ∧ sub = 2 ∧ s.anyJob then some 0x07
  else none

/-- A write of an entry that holds nothing, or whose value the always-on domain holds, takes effect (R312, R398, R415, R445,
R459). -/
def liveWrite (index sub : Nat) (data : List Byte) (s : State) : State :=
  if index = 0x2402 then { s with start := { s.start with warmPending := true } }
  else if index = 0x2303 then (if leNat data = 1 then { s with errors := { s.errors with log := [] } } else s)
  else if index = 0x2503 then (if leNat data = 1 then askRetrain (sub - 1) s else s)
  else if index = 0x2001 then
    (if leNat data = 1 then wakeAll { s with power := { s.power with dozeOffUntilWrite := true } } else enterDeepRest s)
  else s.putEntry index sub data

/-- The record that a write of an entry puts in the flash, if it does (R380, R401, R438). -/
def recordOf (index sub : Nat) (e : Entry) (data : List Byte) : Option JournalRecord :=
  if index = 0x1210 then some .factory
  else if index = 0x2402 ∧ sub = 4 then some .wheyExit
  else if e.keep == .persistent || e.keep == .retained then some (.entry index sub data)
  else none

/-- A write of one entry: its result, or none while it waits on the flash (R377–R382, R403–R405). -/
def dictWrite (via : Via) (origin : Origin) (index sub : Nat) (data : List Byte) (s : State) : Option DictResult × State :=
  match badEntry index sub with
  | some r => (some r, s)
  | none =>
    let e := entryOf index sub
    match s.mayWrite via index sub e with
    | some n => (some (dictStatus n), s)
    | none =>
      if data.length ≠ e.len then (some (dictStatus 0x05), s)
      else match s.refusesValue index sub e data with
        | some n => (some (dictStatus n), s)
        | none =>
          match recordOf index sub e data with
          | none => (some dictOk, liveWrite index sub data s)
          | some r =>
            if s.guardActive then (some (dictSupply 0), s)
            else if 16 ≤ s.dict.queue.length then (some (dictStatus 0x09), s)
            else (none, { s with dict := { s.dict with queue := s.dict.queue ++ [{ rcd := r, origin := origin }], flashUsed := true } })

/-! ## Results -/

/-- The output payload of DICT_ACCESS: the RTP status OK, the dictionary status, and the data from byte 8 (R396). R405 gives SUPPLY
a DETAIL and R396 no byte for it: it is byte 3; DESIGN CHOICE (log 179). -/
def dictPayload (r : DictResult) : List Byte := padTo 8 [0, 0, r.status, r.detail] ++ r.data

/-- An OAP response sent to the request's own address and port (R387, R388). -/
def sendOap (h : OapHeader) (tagged : Bool) (r : DictResult) (s : State) : State :=
  { s with dict := { s.dict with oap := some { header := { h with opcode := h.opcode ||| 0x80 }, result := r, tagged := tagged } } }

/-- The result of an access given to the one that asked for it. -/
def deliver (o : Origin) (r : DictResult) (s : State) : State :=
  match o with
  | .command => { s with dict := { s.dict with last := r } }
  | .oap h =>
    let s := sendOap h true r s
    { s with dict := { s.dict with
      sessions := s.dict.sessions.map fun x => if x.id = h.session ∧ x.lastSeq = h.seq then { x with response := some r } else x } }
  | .i3c => { s with dict := { s.dict with i3c := some r } }
  | .i3cLost => s
  | .mailbox => { s with rtp := { s.rtp with output := dictPayload r } }

/-- A write as an access of its own, with its result given at once when it does not wait. -/
def writeEntry (via : Via) (origin : Origin) (index sub : Nat) (data : List Byte) (s : State) : State :=
  match dictWrite via origin index sub data s with
  | (some r, s) => deliver origin r s
  | (none, s) => s

/-- Does the device answer over OAP: the dictionary answers, OAP_ENABLE is TRUE, and PLCA leaves it a turn? The PHY is off
until a wake from Deep Rest is complete (R387, R395). -/
def State.oapUp (s : State) : Bool := s.answers && !s.power.deepRest && !s.dict.plcaMuted && s.dictNat 0x1110 3 1 != 0

/-- Does the RTP answer over CXL: its domain and the CXL port's are up and a port is linked, past step 2 and not at rest (R328)? -/
def State.rtpUp (s : State) : Bool :=
  (s.reachable 0 || s.reachable 1) && decide (3 ≤ s.start.step) && !s.power.deepRest && s.domainUp domRtp && s.domainUp domCxl

/-- May a transport carry a write now: nothing while it does not answer, AUTH for OAP without a management certificate or a
session of the role (R384, R391). -/
def State.carries (s : State) (via : Via) : Option (Option DictResult) :=
  match via with
  | .i3c => if s.answers then some none else none
  | .oap role =>
    if !s.oapUp then none
    else some (if s.dict.cert.isSome && s.dict.sessions.any (fun x => x.proven && x.role == role) then none else some (dictStatus 0x0A))
  | .mailbox _ => if s.rtpUp && !s.rtp.error && s.rtp.background == .none then some none else none

/-- A write that comes as a command of its own, over a transport that answers. -/
def commandWrite (via : Via) (index sub : Nat) (data : List Byte) (s : State) : Out :=
  .next (match s.carries via with
    | none => s
    | some (some r) => deliver .command r s
    | some none => writeEntry via .command index sub data s)

/-! ## I3C accesses that wait for one before them (R393) -/

/-- A result that the transport can carry: at most 255 bytes of data (R393). -/
def i3cLimit (r : DictResult) : DictResult := if 255 < r.data.length then dictStatus 0x05 else r

/-- Does an I3C access wait on the flash? -/
def State.i3cWaits (s : State) : Bool := s.dict.queue.any fun w => w.origin == .i3c || w.origin == .i3cLost

/-- An I3C access performed; the result of one that another has replaced is lost. -/
def startI3c (origin : Origin) (a : I3cAccess) (s : State) : State :=
  if a.isWrite then
    (if 255 < a.data.length then deliver origin (dictStatus 0x05) s else writeEntry .i3c origin a.index.toNat a.sub.toNat a.data s)
  else
    let r := dictRead a.index.toNat a.sub.toNat s
    deliver origin (i3cLimit r.1) r.2

/-- I3C accesses performed in their order, each once no earlier one waits on the flash; all but the last have been replaced. -/
def pumpI3c : List I3cAccess → State → State
  | [], s => s
  | a :: rest, s =>
    if s.i3cWaits then { s with dict := { s.dict with i3cNext := a :: rest } }
    else pumpI3c rest (startI3c (if rest.isEmpty then .i3c else .i3cLost) a s)

/-- The I3C accesses that waited go on. -/
def resumeI3c (s : State) : State := pumpI3c s.dict.i3cNext { s with dict := { s.dict with i3cNext := [] } }

/-! ## The flash (R403–R405) -/

/-- JOURNAL_STORED: both copies hold the record at the front of the queue, and it completes. -/
def execJournalStored (s : State) : Out :=
  match s.dict.queue with
  | [] => .next s
  | w :: rest =>
    .next (resumeI3c (deliver w.origin dictOk (takeRecord w.rcd (State.flashWrote { s with dict := { s.dict with queue := rest } } regionJournal))))

/-- Writes that the guard stops: the one in progress by whether copy A is complete, those behind it with nothing done. -/
def stopWrites (copyADone : Bool) (s : State) : State :=
  match s.dict.queue with
  | [] => s
  | w :: rest =>
    let s := { s with dict := { s.dict with queue := [] } }
    let s := if copyADone then deliver w.origin (dictSupply 1) (takeEffect w.rcd (halfStored w.rcd s))
      else deliver w.origin (dictSupply 0) (notStored s)
    resumeI3c (rest.foldl (fun s w => deliver w.origin (dictSupply 0) s) s)

/-- A monitor's offset in µV, while its overlay is on: what it adds to the voltage that the factory calibration gives, which the
command carries; DESIGN CHOICE (R400, R404; log 178). -/
def State.monitorOffset (s : State) (index : Nat) : Int :=
  if s.dictNat index 3 0 != 0 then signed 32 (s.dictNat index 2 0) else 0

/-- Is a rail below a limit in mV, after its monitor's calibration (R404)? -/
def State.railLow (s : State) (index millivolt limit : Nat) : Bool :=
  decide ((millivolt : Int) * 1000 + s.monitorOffset index < (limit : Int) * 1000)

/-- THERMTRIP_N: driven low after a trip while VDD_AON and VDD_IO18 are there; without one of them, at 0 V, it is released (R421, R473). -/
def State.tripPin (present : Bool) (s : State) : State :=
  { s with power := { s.power with thermtripAsserted := s.power.tripped && present && (s.power.thermtripAsserted || !s.guardActive) } }

/-- SUPPLY_GUARD_ACTIVATE: a rail below its limit, as the calibrated monitors measure it, or PWR_WARN_N (R404, R405). -/
def execSupplyGuardActivate (cause : GuardCause) (copyADone : Bool) (s : State) : Out :=
  let was := s.guardActive
  let s := match cause with
    | .io18 mv => if s.railLow 0x3021 mv 1710 then State.tripPin (mv != 0) { s with dict := { s.dict with guardIo18 := true } } else s
    | .aon mv => if s.railLow 0x3022 mv 690 then State.tripPin (mv != 0) { s with dict := { s.dict with guardAon := true } } else s
    | .pwrWarn => { s with dict := { s.dict with guardWarn := true } }
  if was || !s.guardActive then .next s
  else .next (stopWrites copyADone { s with dict := { s.dict with guardEvents := s.dict.guardEvents + 1 } })

/-- SUPPLY_GUARD_CLEAR: every supply has been good for 1 ms, and what waited is stored: the records of step 5, of a failed start,
of scrubs, and rows with many corrected events (R374, R404, R436, R460). -/
def execSupplyGuardClear (s : State) : Out :=
  let s := recordStep5 (State.tripPin true { s with dict := { s.dict with guardIo18 := false, guardAon := false, guardWarn := false } })
  let s := match s.start.failing with
    | some r => failStart r s
    | none => s
  .next ((s.errors.rowCorrected.map (·.1)).foldl State.watchRow s.storeScrubs)

/-! ## Writes with a row of their own -/

/-- DICT_WRITE: any entry that has no row of its own. -/
def execDictWrite (via : Via) (index : BitVec 16) (sub : BitVec 8) (data : List Byte) (s : State) : Out :=
  commandWrite via index.toNat sub.toNat data s

/-- RESTORE_FACTORY (R401). -/
def execRestoreFactory (via : Via) (text : List Byte) (s : State) : Out := commandWrite via 0x1210 1 text s

/-- WARM_RESET (R445). -/
def execWarmReset (via : Via) (text : List Byte) (s : State) : Out := commandWrite via 0x2402 3 text s

/-- WHEY_EXIT (R438). -/
def execWheyExit (via : Via) (value : BitVec 8) (s : State) : Out := commandWrite via 0x2402 4 [value] s

/-- STATE_REQUEST 1 (R415). -/
def execStateRequestOn (via : Via) (s : State) : Out := commandWrite via 0x2001 2 [1] s

/-- STATE_REQUEST 4 (R415, R416). -/
def execStateRequestDeepRest (via : Via) (s : State) : Out := commandWrite via 0x2001 2 [4] s

/-- POWER_MODE (R422). -/
def execPowerMode (via : Via) (value : BitVec 8) (s : State) : Out := commandWrite via 0x2000 1 [value] s

/-- HBM_PROTECTION (R398). -/
def execHbmProtection (via : Via) (value : BitVec 8) (s : State) : Out := commandWrite via 0x2000 2 [value] s

/-- LINK_FEC (R310, R398). -/
def execLinkFec (via : Via) (value : BitVec 8) (s : State) : Out := commandWrite via 0x2000 3 [value] s

/-- WAX_ENABLE (R398). -/
def execWaxEnable (via : Via) (value : BitVec 8) (s : State) : Out := commandWrite via 0x2000 4 [value] s

/-- AUDIT_MODE (R87, R398). -/
def execAuditMode (via : Via) (value : BitVec 8) (s : State) : Out := commandWrite via 0x2000 5 [value] s

/-- DOZE_ENABLE (R423). -/
def execDozeEnable (via : Via) (value : BitVec 8) (s : State) : Out := commandWrite via 0x2002 1 [value] s

/-- ERROR_LOG_CLEAR (R459). -/
def execErrorLogClear (via : Via) (value : BitVec 8) (s : State) : Out := commandWrite via 0x2303 2 [value] s

/-- PORT_RETRAIN: sub p + 1 is port p (R312, R326). -/
def execPortRetrain (via : Via) (port : Nat) (value : BitVec 8) (s : State) : Out := commandWrite via 0x2503 (port + 1) [value] s

/-- PROVISION_LOCK (R386). -/
def execProvisionLock (via : Via) (value : BitVec 8) (s : State) : Out := commandWrite via 0x1101 4 [value] s

/-- OVERLAY of a calibration quantity (R400). -/
def execOverlay (via : Via) (index : BitVec 16) (value : BitVec 32) (s : State) : Out :=
  commandWrite via index.toNat 2 (leBytes 4 value.toNat) s

end Sys2Proof.Machine
end

