-- ==== Sys2Proof/Machine/Intake.lean ====
section
/-! DEFINITION. The intake's commands and its scheduling: OPEN, FEED, CLOSE, QUERY, groups on engines, ring slots,
completion records (R212–R214, R220–R229, R238–R246). -/

namespace Sys2Proof.Machine

open Sys2Proof.Config (StreamInfo SourcePicture DecodedGroup)

/-! ## The command (R223, R224) -/

/-- WHEEL. -/
def icWheel (r : BitVec 2048) : Nat := field r 192 18
/-- ADDR_A. -/
def icAddrA (r : BitVec 2048) : Nat := field r 224 64
/-- ADDR_B. -/
def icAddrB (r : BitVec 2048) : Nat := field r 288 64
/-- ADDR_C. -/
def icAddrC (r : BitVec 2048) : Nat := field r 352 64
/-- ADDR_D. -/
def icAddrD (r : BitVec 2048) : Nat := field r 416 64
/-- SIZE. -/
def icSize (r : BitVec 2048) : Nat := field r 480 64
/-- The clip count of a FEED. -/
def icCount (r : BitVec 2048) : Nat := field r 480 16
/-- DPB_SIZE. -/
def icDpbSize (r : BitVec 2048) : Nat := field r 544 32
/-- CPL_COUNT. -/
def icCplCount (r : BitVec 2048) : Nat := field r 576 16
/-- F0: INPUT, RESUME, ABORT or CLEAR. -/
def icF0 (r : BitVec 2048) : Bool := r.getLsbD 136
/-- F1: SRC_RES. -/
def icF1 (r : BitVec 2048) : Bool := r.getLsbD 137
/-- F2: SRC_CLOSED. -/
def icF2 (r : BitVec 2048) : Bool := r.getLsbD 138
/-- POLICY. -/
def icPolicy (r : BitVec 2048) : Nat := field r 144 2
/-- PAR. -/
def icPar (r : BitVec 2048) : Nat := field r 146 3
/-- CODEC. -/
def icCodec (r : BitVec 2048) : Nat := field r 152 4
/-- PID. -/
def icPid (r : BitVec 2048) : Nat := field r 160 13

/-- Is a reserved field of a command nonzero (R10, R223)? -/
def icReserved (r : BitVec 2048) : Bool :=
  field r 139 5 != 0 || field r 149 3 != 0 || field r 156 4 != 0 || field r 173 19 != 0 || field r 210 14 != 0 || field r 592 48 != 0

/-- A refused command: STATUS INTAKE with a result code; the field byte is that of the code's own field, none here (R339). -/
def refuseIntake (ring code : Nat) (s : State) : State := completeRecord ring (cplStatus 0x10 code) s

/-- RECIPE_INVALID: which number names the failing field is open (R224, log 11). -/
def refuseRecipe (ring : Nat) (s : State) : State :=
  let v := s.fresh
  completeRecord ring (cplStatus 0x10 (5 + v.1.toNat % 256 * 256)) v.2

/-- The record in progress of a ring when it is an intake command of a kind, with the flag F0 as the row has it, and its
partition and job. -/
def intakeRecord (s : State) (ring cmd : Nat) (f0 : Option Bool) : Option (Nat × BitVec 2048) :=
  match currentRecord s ring 3 none with
  | some (p, r) => if recCmd r = cmd ∧ f0.all (icF0 r == ·) then some (p, r) else none
  | none => none

/-- An intake command: BAD_JOB, a reserved field, or its body, which for OPEN looks at the engines first (R213, R224, R336,
R343). -/
def intakeCommand (ring cmd : Nat) (f0 : Option Bool) (body : Nat → Job → BitVec 2048 → State → State) (s : State) : Out :=
  match intakeRecord s ring cmd f0 with
  | none => .next s
  | some (p, r) =>
    match (s.part p).job with
    | none => .next (completeOpen ring 0x03 s)
    | some j =>
      if badJob s ring r then .next (completeOpen ring 0x03 s)
      else if cmd != 1 && icReserved r then .next (refuseIntake ring 0x01 s)
      else .next (body p j r s)

/-! ## Ranges an intake names (R214) -/

/-- Do bytes lie in a job's HBM reservation? -/
def inJobHbm (j : Job) (a n : Nat) : Bool := n == 0 || (isHbm a && isHbm (a + n - 1) && j.holdsHbm (stackOf a) a n)

/-- Do bytes that the intake reads lie in the partition's cave, HBM or host grants? -/
def State.sourceRange (s : State) (p a n : Nat) : Bool :=
  n == 0 || (match spanRegion a n with
    | .hbm => s.inPart (some p) a n || (s.part p).grantHolds a n
    | .cave | .host => s.inPart (some p) a n
    | _ => false)

/-! ## OPEN (R220, R225, R231, R245) -/

/-- Is a codec code one that decodes? -/
def isDecode (codec : Nat) : Bool := decide (codec < 4)

/-- The lowest free entry on the lowest-numbered stack of the partition's present units (R220). -/
def State.freeWheel (s : State) (p : Nat) : Option Nat :=
  (s.presentUnits p).foldl (fun r u => match r with
    | some w => some w
    | none => ((List.range 16384).find? fun e => (s.wheel (16384 * u + e)).state == 0).map (16384 * u + ·)) none

/-- Fields of encode parameters out of their ranges (R245). -/
def encodeBad (codec : Nat) (e : BitVec 512) : Bool :=
  let n (lo len : Nat) : Nat := field e lo len
  outside (n 0 16) 64 3840 || n 0 16 % 8 != 0 || outside (n 16 16) 64 2160 || n 16 16 % 8 != 0 || n 33 2 == 3
    || (n 33 2 != 0 && n 35 2 == 0) || decide (2 ≤ n 37 2) || (n 37 2 == 0 && codec == 8 && decide (51 < n 40 8))
    || outside (n 80 16) 1 600 || (codec == 9 && n 96 2 != 0) || outside (n 98 8) 1 60

/-- Bytes of one input picture under INFMT (R246). -/
def inputBytes (e : BitVec 512) : Nat :=
  let luma := field e 0 16 * field e 16 16
  match field e 33 2 with
  | 0 => luma * 3 / 2 * (if e.getLsbD 32 then 2 else 1)
  | 1 => luma * 12
  | _ => luma * 6

/-- The working region of an encode wheel (R222). -/
def encodeRegion (par : Nat) (e : BitVec 512) : Nat :=
  65536 + (par + 1) * 5 * toPages (field e 0 16 * field e 16 16 * 3 / 2 * (if e.getLsbD 32 then 2 else 1))

/-- The first of R224's causes that an OPEN meets before its recipe is read; a partition with no engine has every OPEN
refused with NO_ENGINE (R213). -/
def openRefusal (s : State) (p : Nat) (j : Job) (r : BitVec 2048) : Option Nat :=
  let codec := icCodec r
  let decoding := isDecode codec
  if (s.part p).layout.engines == 0 then some 0x03
  else if icReserved r || !(decoding || codec == 8 || codec == 9) || icPolicy r == 3 || icCplCount r == 0 || (decoding && icPar r != 0 && !icF2 r)
      || (codec == 3 && !icF0 r) || icWheel r != 0 then some 0x01
  else if (s.freeWheel p).isNone then some 0x02
  else if (decoding && !s.sourceRange p (icAddrA r) (icSize r)) || !s.sourceRange p (icAddrB r) (if decoding then 128 else 64)
      || !inJobHbm j (icAddrC r) (4096 * icDpbSize r) || !inJobHbm j (icAddrD r) (32 * icCplCount r) then some 0x04
  else none

/-- The wheel that an OPEN makes (R221). -/
def openedWheel (p : Nat) (units : List Nat) (j : Job) (r : BitVec 2048) (recipe : BitVec 1024) : Wheel :=
  { Wheel.reset with
    state := 1, codec := BitVec.ofNat 4 (icCodec r), input := icF0 r, srcRes := icF1 r, srcClosed := icF2 r, pid := BitVec.ofNat 13 (icPid r)
    policy := BitVec.ofNat 2 (icPolicy r), par := BitVec.ofNat 3 (icPar r), puMask := BitVec.ofNat 16 (units.foldl (fun n u => n + 2 ^ u) 0)
    part := p, srcBase := BitVec.ofNat 64 (icAddrA r), srcSize := BitVec.ofNat 64 (icSize r), dpbBase := BitVec.ofNat 64 (icAddrC r)
    dpbSize := BitVec.ofNat 32 (icDpbSize r), job := j.tag, cplBase := BitVec.ofNat 64 (icAddrD r), cplCount := BitVec.ofNat 16 (icCplCount r)
    recipe := recipe }

/-- An accepted OPEN: the lowest free entry, and a ring's counts and reserved bytes zero (R220, R238). RESULT is the wheel. -/
def openWheel (ring p : Nat) (j : Job) (r : BitVec 2048) (recipe : BitVec 1024) (s : State) : State :=
  match s.freeWheel p with
  | none => s
  | some w =>
    let s := s.setWheel w (openedWheel p (s.unitsOf p) j r recipe)
    let s := if isDecode (icCodec r) && rcRing recipe then s.put (ringAddr recipe) (zeroBytes 64) false else s
    completeRecord ring { cplOk with result := w } (s.saveWheel w)

/-- OPEN: its checks in the order of R224's codes, the recipe read once. DESIGN CHOICE (log 169): CORE is checked where the
recipe uses it, for its ring or its signal, and otherwise left unread. -/
def openCommand (ring p : Nat) (j : Job) (r : BitVec 2048) (s : State) : State :=
  match openRefusal s p j r with
  | some code => refuseIntake ring code s
  | none =>
    if isDecode (icCodec r) then
      let recipe := BitVec.ofNat 1024 ((s.seenBy (some p)).peekNat (icAddrB r) 128)
      let others := s.intake.wheels.map fun w => w.2
      if (rcRing recipe || rcSig recipe) && s.corePart (rcCore recipe) != some p then refuseIntake ring 0x04 s
      else if recipeBad recipe || others.any (fun w => w.state != 0 && isDecode w.codec.toNat && ringsOverlap w.recipe recipe) then refuseRecipe ring s
      else openWheel ring p j r recipe s
    else
      let e := BitVec.ofNat 512 ((s.seenBy (some p)).peekNat (icAddrB r) 64)
      if encodeBad (icCodec r) e then refuseRecipe ring s
      else if 4096 * icDpbSize r < encodeRegion (icPar r) e then refuseIntake ring 0x08 s
      else openWheel ring p j r (e.setWidth 1024) s

/-- OPEN (R224). -/
def execWheelOpen (ring : Nat) (s : State) : Out := intakeCommand ring 1 none (openCommand ring) s

/-! ## Wheels in use -/

/-- The wheel a command names, when it is the partition's, neither free nor closing (R224, R226). -/
def State.usableWheel (s : State) (p w : Nat) : Option Wheel :=
  let v := s.wheel w
  if v.state = 0 ∨ v.state = 3 ∨ v.part ≠ p then none else some v

/-- Event counter n of a wheel advanced, and its total of the dictionary (R221, R397). -/
def countWheel (w n k : Nat) (s : State) : State :=
  let s := s.modWheel w fun v => { v with counters := v.counters.setIfInBounds n (BitVec.ofNat 16 (min 0xFFFF (((v.counters[n]?).getD 0).toNat + k))) }
  { s with errors := { s.errors with intakeTotals := s.errors.intakeTotals.setIfInBounds n ((s.errors.intakeTotals[n]?).getD 0 + BitVec.ofNat 64 k) } }

/-- STATE and ENGINE of a wheel as its work leaves them (R221). -/
def Wheel.settleState (v : Wheel) : Wheel :=
  { v with
    state := if v.state = 0 ∨ v.state = 3 ∨ v.state = 4 then v.state else if v.running.isEmpty && v.run.isNone then 1 else 2
    engine := BitVec.ofNat 8 (v.running.foldl (fun m g => if g.finished then m else min m g.engine) 0xFF) }

/-! ## Completion records (R241) -/

/-- What a clip's completion record says. -/
structure ClipReport where
  status : Nat
  grain : Bool
  events : Nat
  decoded : Nat
  kept : Nat
  tubelets : Nat
  sat : Nat
  unf : Nat
  groups : Nat

/-- The report of a clip that never began. -/
def ClipReport.none (status : Nat) : ClipReport :=
  { status := status, grain := false, events := 0, decoded := 0, kept := 0, tubelets := 0, sat := 0, unf := 0, groups := 0 }

/-- The 32 bytes of a completion record. -/
def clipRecord (tag : BitVec 32) (c : ClipReport) : List Byte :=
  leBytes 4 tag.toNat ++ leBytes 2 (c.status + (if c.grain then 2 ^ 8 else 0)) ++ leBytes 2 (min 0xFFFF c.events) ++ leBytes 4 c.decoded
    ++ leBytes 4 c.kept ++ leBytes 4 c.tubelets ++ leBytes 4 c.sat ++ leBytes 4 c.unf ++ leBytes 4 c.groups

/-- A clip's completion record written, then under DEST = 0 with SIG the semaphore (R240, R241). -/
def writeClip (w : Nat) (tag : BitVec 32) (c : ClipReport) (s : State) : State :=
  let v := s.wheel w
  let s := s.put (v.cplBase.toNat + 32 * (v.cplIndex.toNat % v.cplCount.toNat)) (clipRecord tag c) false
  let s := s.modWheel w fun v => { v with cplIndex := v.cplIndex + 1, pendingCount := v.pendingCount - 1 }
  let s := if isDecode v.codec.toNat && !rcRing v.recipe && rcSig v.recipe then s.signalDone (rcCore v.recipe) (rcSem v.recipe) else s
  s.disturb (some v.part)

/-- A clip-list entry. -/
def clipOf (n : BitVec 256) : Clip :=
  { start := BitVec.ofNat 64 (field n 0 64), groups := BitVec.ofNat 16 (field n 64 16), skip := BitVec.ofNat 32 (field n 96 32)
    frames := BitVec.ofNat 32 (field n 128 32), tag := BitVec.ofNat 32 (field n 160 32), dest := BitVec.ofNat 64 (field n 192 64) }

/-- The clip-list entry of a partition's wheel at an address, as memory holds it now (R225). -/
def State.clipEntry (s : State) (p a : Nat) : Clip := clipOf (BitVec.ofNat 256 ((s.seenBy (some p)).peekNat a 32))

/-- Every pending clip of a wheel completes with one status, in order. -/
def endPending (w status : Nat) (s : State) : State :=
  let v := s.wheel w
  let s := s.modWheel w fun v => { v with clips := [] }
  v.clips.foldl (fun s a => writeClip w (s.clipEntry v.part a).tag (ClipReport.none status) s) s

/-- KEPT of an encode record has no stated meaning: a free value (R241). -/
def reportOf (v : Wheel) (r : ClipRun) (status : Nat) (kept : Nat) : ClipReport :=
  { status := status, grain := r.grain, events := r.events, decoded := r.pictures, kept := if isDecode v.codec.toNat then r.kept else kept
    tubelets := r.written, sat := r.sat, unf := r.unf, groups := r.groupsDone }

/-- The clip in progress completes; after FAILED the wheel stops, and later clips are skipped (R241, R242). -/
def finishClip (w : Nat) (r : ClipRun) (status : Nat) (s : State) : State :=
  let v := s.wheel w
  let k := if isDecode v.codec.toNat then (0, s) else (s.fresh.1.toNat % 2 ^ 32, s.fresh.2)
  let s := writeClip w r.clip.tag (reportOf v r status k.1) k.2
  let s := s.modWheel w fun v => { v with run := none, state := if status = 0x08 ∧ v.state ≠ 3 then 4 else v.state }
  if status = 0x08 then endPending w 0x09 s else s

/-- The clip in progress completes if it has ended and nothing of it waits; a closing wheel with nothing left is freed
(R226). -/
def settleWheel (w : Nat) (s : State) : State :=
  let s := match (s.wheel w).run with
    | some r => match r.status with
      | some st => if r.ready.isEmpty then finishClip w r st s else s
      | none => s
    | none => s
  let v := s.wheel w
  let s := if v.run.isNone ∧ v.closing = some true then endPending w 0x07 s else s
  let v := s.wheel w
  if v.closing.isSome ∧ v.run.isNone ∧ v.clips.isEmpty ∧ v.running.isEmpty then s.freeWheelEntry w
  else s.modWheel w Wheel.settleState

/-! ## FEED (R225, R242, R246): the check reads the entries, and each is read again when its clip begins -/

/-- Bytes of a decode clip's destination (R236). -/
def destBytes (recipe : BitVec 1024) (c : Clip) : Nat := c.frames.toNat / rcPt recipe * rcNx recipe * rcNy recipe * rcTb recipe

/-- The code with which an entry refuses a FEED to a decode wheel. -/
def decodeEntry (v : Wheel) (j : Job) (c : Clip) : Option Nat :=
  if c.groups = 0 ∨ c.frames = 0 ∨ c.frames.toNat % rcPt v.recipe ≠ 0 ∨ v.srcSize.toNat ≤ c.start.toNat then some 0x01
  else if !rcRing v.recipe && !inJobHbm j c.dest.toNat (destBytes v.recipe c) then some 0x04
  else none

/-- The code with which an entry refuses a FEED to an encode wheel. -/
def encodeEntry (s : State) (v : Wheel) (j : Job) (c : Clip) : Option Nat :=
  let size := inputBytes (v.recipe.setWidth 512)
  if c.groups = 0 ∨ c.frames.toNat < size ∨ c.frames.toNat % 64 ≠ 0 ∨ c.start.toNat % 64 ≠ 0 ∨ c.dest.toNat % 64 ≠ 0 ∨ c.skip.toNat < 4096 then some 0x01
  else
    let span := (c.groups.toNat - 1) * c.frames.toNat + size
    if !(regionOf c.start.toNat != .cave && s.sourceRange v.part c.start.toNat span) || !inJobHbm j c.dest.toNat c.skip.toNat then some 0x04
    else none

/-- The entries of a FEED appended; on a wheel stopped after an error they complete skipped unless the FEED resumes it. -/
def appendClips (w : Nat) (resume : Bool) (clips : List Nat) (s : State) : State :=
  let s := s.modWheel w fun v => { v with clips := v.clips ++ clips, pendingCount := v.pendingCount + BitVec.ofNat 32 clips.length }
  if (s.wheel w).state = 4 then if resume then s.modWheel w fun v => { v with state := 1 } else endPending w 0x09 s
  else s

/-- FEED: the whole check happens at once (R224, R225, R246). -/
def feedCommand (ring p : Nat) (j : Job) (r : BitVec 2048) (s : State) : State :=
  let w := icWheel r
  let n := icCount r
  match s.usableWheel p w with
  | none => refuseIntake ring 0x06 s
  | some v =>
    if n = 0 ∨ 4096 < n then refuseIntake ring 0x01 s
    else if !s.sourceRange p (icAddrA r) (32 * n) then refuseIntake ring 0x04 s
    else
      let clips := (List.range n).map fun i => icAddrA r + 32 * i
      let check (c : Clip) : Option Nat := if isDecode v.codec.toNat then decodeEntry v j c else encodeEntry s v j c
      match clips.findSome? fun a => check (s.clipEntry p a) with
      | some code => refuseIntake ring code s
      | none =>
        if 65535 < v.pendingCount.toNat + n then refuseIntake ring 0x07 s
        else completeRecord ring cplOk (appendClips w (icF0 r) clips s)

/-- FEED with RESUME = 0 (R225). -/
def execFeed (ring : Nat) (s : State) : Out := intakeCommand ring 2 (some false) (feedCommand ring) s

/-- FEED with RESUME = 1 (R242). -/
def execFeedResume (ring : Nat) (s : State) : Out := intakeCommand ring 2 (some true) (feedCommand ring) s

/-! ## Formation and delivery (R229, R237, R240, R243) -/

/-- A group's work on a clip as it goes: the run, the counter increments, whether the rest of the group is skipped, whether
the clip has stopped. -/
structure GroupWork where
  run : ClipRun
  bumps : List Nat
  skipping : Bool
  stopped : Bool

/-- The counter of a damage cause: 1 syntax, 2 reference, 3 bytes removed (none), 4 poison, 5 watchdog (R243). -/
def causeCounter (cause : Nat) : Option Nat :=
  match cause with
  | 1 => some 0
  | 2 => some 1
  | 4 => some 4
  | 5 => some 5
  | _ => none

/-- A tubelet step is complete: its tubelets wait for delivery (R236). -/
def closeStep (r : BitVec 1024) (x : ClipRun) : ClipRun :=
  if x.step.length < rcPt r then x
  else
    let t := stepTubelets r (x.tubelets / (rcNx r * rcNy r)) x.step
    { x with ready := x.ready ++ t, tubelets := x.tubelets + t.length, sat := x.sat + x.stepClips.1, unf := x.unf + x.stepClips.2, step := [], stepClips := (0, 0) }

/-- An output picture is counted, and kept where its number is one to keep (R229). -/
def outputPicture (r : BitVec 1024) (affected : Bool) (i : StreamInfo) (planes : List (List (List Nat))) (x : ClipRun) : ClipRun :=
  let j := x.outputs
  let x := { x with outputs := j + 1, last := some (i, planes) }
  if x.clip.skip.toNat ≤ j ∧ (j - x.clip.skip.toNat) % rcStride r = 0 ∧ x.kept < x.clip.frames.toNat then
    let c := processPicture r i planes
    let k := clipCount (c.flatMap fun row => row.flatten)
    closeStep r { x with
      kept := x.kept + 1
      step := x.step ++ [{ codes := c.map fun row => row.map fun px => px.map (·.code), affected := affected }]
      stepClips := (x.stepClips.1 + k.2.1, x.stepClips.2 + k.2.2) }
  else x

/-- One output picture of a group under the wheel's POLICY (R243). -/
def takePicture (v : Wheel) (g : GroupWork) (o : OutPicture) : GroupWork :=
  if g.stopped then g
  else
    let damaged := o.causes.filter (· != 0)
    let x := { g.run with pictures := g.run.pictures + o.causes.length, events := g.run.events + damaged.length, grain := g.run.grain || o.info.grain }
    let g := { g with run := x, bumps := g.bumps ++ damaged.filterMap causeCounter }
    if g.skipping then { g with bumps := g.bumps ++ [7] }
    else if !o.damaged then { g with run := outputPicture v.recipe false o.info o.planes x }
    else match v.policy.toNat with
      | 0 =>
        let copy := x.last.getD (o.info, greyPicture o)
        { g with run := outputPicture v.recipe true copy.1 copy.2 { x with degraded := true }, bumps := g.bumps ++ [6] }
      | 1 => { g with run := { x with degraded := true }, bumps := g.bumps ++ [7], skipping := true }
      | _ => { g with run := { x with degraded := true, status := some 0x02 }, bumps := g.bumps ++ [8], stopped := true }

/-- Places of a range of the stream that a list holds. -/
def hitsRange (l : List Nat) (lo hi : Nat) : Bool := l.any fun n => decide (lo ≤ n) && decide (n < hi)

/-- The first cause of damage of a coded picture, in the order of R243's list. -/
def damageCause (p : SourcePicture) (gaps poisoned : List Nat) (expired : Bool) : Nat :=
  if p.cause = 1 ∨ p.cause = 2 then p.cause
  else if hitsRange gaps p.first p.past then 3
  else if hitsRange poisoned p.first p.past then 4
  else if expired then 5 else 0

/-- The source of a clip from its START as its wheel reads it: cave pages that were migrated for it stand in for the
expander's bytes. -/
def State.clipSource (s : State) (v : Wheel) (start : Nat) : Demux :=
  let t := s.caveView (some v.part) v.cave
  demux (!v.input) v.pid.toNat start (t.peek (v.srcBase.toNat + start) (v.srcSize.toNat - start))

/-- Is a source byte delivered with a poison mark, or not at all because its cave page met an error (R451, R452)? -/
def State.sourcePoisoned (s : State) (v : Wheel) (ofs : Nat) : Bool :=
  s.marked (v.srcBase.toNat + ofs) 1 || (v.srcRes && v.cave.bad.contains (v.srcBase.toNat + ofs / pageSize * pageSize))

/-- Stream positions from one on, counted from it. -/
def fromPlace (at' : Nat) (l : List Nat) : List Nat := (l.filter (at' ≤ ·)).map (· - at')

/-- The group at a place of a clip's stream: what the decoder makes of it, the places of lost and of poisoned bytes. Without
SRC_CLOSED its pictures may reference those before it in the clip (R228); `ended` are the places of the stream at which a
picture begins that the watchdog ended. -/
def State.groupAt (s : State) (v : Wheel) (d : Demux) (at' : Nat) (ended : List Nat) : DecodedGroup × List Nat × List Nat :=
  let stream := d.stream.map (·.1)
  let base := if v.srcClosed then at' else 0
  let poisoned := (d.stream.zipIdx.filter fun b => s.sourcePoisoned v b.1.2).map (·.2)
  let group := (stream.drop at').take (groupExtent v.codec.toNat (stream.drop at'))
  (Config.decodeGroup v.codec.toNat v.policy.toNat ((stream.take at').drop base) group (fromPlace base (d.gaps ++ poisoned)) (fromPlace base ended),
   fromPlace at' d.gaps, fromPlace at' poisoned)

/-- The stream information in force at picture n of a group. -/
def infoAt (l : List (Nat × StreamInfo)) (n : Nat) : StreamInfo := ((l.filter (·.1 ≤ n)).getLast?.map (·.2)).getD default

/-- The first activation of a group that ends the clip: its place and the clip's status (R216, R222, R231). -/
def badActivation (v : Wheel) (l : List (Nat × StreamInfo)) : Option (Nat × Nat) :=
  l.findSome? fun a =>
    if unsupportedStream v.codec.toNat a.2 || cropMisfit v.recipe a.2 then some (a.1, 0x04)
    else if 4096 * v.dpbSize.toNat < regionNeed v.codec.toNat v.par.toNat a.2 then some (a.1, 0x05) else none

/-- Does the activation that ends a clip fail R216 itself, which the UNSUPPORTED counter counts? -/
def countsUnsupported (v : Wheel) (l : List (Nat × StreamInfo)) : Bool :=
  match l.find? fun a => unsupportedStream v.codec.toNat a.2 || cropMisfit v.recipe a.2 || decide (4096 * v.dpbSize.toNat < regionNeed v.codec.toNat v.par.toNat a.2) with
  | some a => unsupportedStream v.codec.toNat a.2
  | none => false

/-- The coded pictures of a group up to the activation that ends the clip, each with its information and its damage;
`expired` are the places at which the pictures begin that the watchdog ended. -/
def codedPictures (v : Wheel) (g : DecodedGroup × List Nat × List Nat) (expired : List Nat) : List CodedPicture :=
  let l := match badActivation v g.1.activations with
    | some x => g.1.pictures.take x.1
    | none => g.1.pictures
  l.zipIdx.map fun p => (p.1, infoAt g.1.activations p.2, damageCause p.1 g.2.1 g.2.2 (expired.contains p.1.first))

/-- The places in a group at which the pictures begin whose decoding the watchdog ends (R244). -/
def State.groupExpiries (s : State) (v : Wheel) (d : Demux) (at' : Nat) (ended : List Nat) : List Nat :=
  let t := s.groupAt v d at' ended
  let l := codedPictures v t []
  (l.filter (watchdogExpires l t.1.declared)).map fun p => p.1.first

/-- The places in a clip's stream at which pictures of earlier groups begin that the watchdog ended, when a group is of the
clip in progress. -/
def Wheel.endedBefore (v : Wheel) (g : GroupRun) : List Nat := match v.run with
  | some x => if x.seq = g.seq then x.ended else []
  | none => []

/-- A group on an engine as the engine decodes it: the group with its lost and poisoned places, and its expiries. Pictures
that reference one the watchdog ended are decoded without it (R243). -/
def State.decodedGroup (s : State) (v : Wheel) (g : GroupRun) : (DecodedGroup × List Nat × List Nat) × List Nat :=
  let d := s.clipSource v g.start
  let expired := s.groupExpiries v d g.pos (v.endedBefore g)
  (s.groupAt v d g.pos (v.endedBefore g ++ expired.map (g.pos + ·)), expired)

/-- The pictures of a group on an engine. -/
def State.groupPictures (s : State) (v : Wheel) (g : GroupRun) : List CodedPicture :=
  let t := s.decodedGroup v g
  codedPictures v t.1 t.2

/-- Intake cycles of a group: every picture decoded costs its full amount (R217). -/
def groupCycles (codec : Nat) (l : List CodedPicture) : Nat :=
  (l.map fun p => pictureCost codec p.2.1 p.1.parity.isSome (p.1.past - p.1.first)).foldl (· + ·) 0

/-- Tubelets of a list that can be written now under DEST = 0: all of them, or for K blocks the full groups of ROWS unless
the clip has ended. -/
def writable (r : BitVec 1024) (ended : Bool) (n : Nat) : Nat := if ended || !rcBlocked r then n else n / rcRows r * rcRows r

/-- Tubelets written one K-block group after another from an offset on; `fuel` bounds the groups. -/
def hbmGroups (r : BitVec 1024) : Nat → List Tubelet → List (Nat × List Byte)
  | 0, _ => []
  | fuel + 1, l =>
    match l with
    | [] => []
    | t :: _ =>
      let n := if rcBlocked r then rcRows r else l.length
      (t.index * rcTb r, layoutGroup r ((l.take n).map (·.bytes))) :: hbmGroups r fuel (l.drop n)

/-- Under DEST = 0, tubelets written to the clip's destination (R237, R240). -/
def flushHbm (w : Nat) (s : State) : State :=
  let v := s.wheel w
  match v.run with
  | none => s
  | some x =>
    if rcRing v.recipe then s
    else
      let n := writable v.recipe x.status.isSome x.ready.length
      let s := (hbmGroups v.recipe n (x.ready.take n)).foldl (fun s c => wakeFor (inboundDomains (x.clip.dest.toNat + c.1)) (s.put (x.clip.dest.toNat + c.1) c.2 false)) s
      s.modWheel w fun v => { v with run := some { x with ready := x.ready.drop n, written := x.written + n } }

/-- The status with which a clip ends after a group, if it does (R226, R229, R241). -/
def endStatus (v : Wheel) (x : ClipRun) (atEnd : Bool) : Option Nat :=
  if x.status.isSome then x.status
  else if v.closing = some true then some 0x07
  else if x.kept = x.clip.frames.toNat then some (if x.degraded then 0x01 else 0x00)
  else if x.groupsDone = x.clip.groups.toNat ∨ atEnd then some 0x03
  else none

/-- PHASE: output pictures to skip before the next kept one (R221). -/
def phaseOf (v : Wheel) (x : ClipRun) : Nat :=
  if x.outputs ≤ x.clip.skip.toNat then x.clip.skip.toNat - x.outputs
  else (rcStride v.recipe - (x.outputs - x.clip.skip.toNat) % rcStride v.recipe) % rcStride v.recipe

/-- ERR_TS and ERR_SYNC events of a range of the source counted (R219). -/
def countDemux (w : Nat) (d : Demux) (lo hi : Nat) (s : State) : State :=
  let n (l : List Nat) : Nat := (l.filter fun o => decide (lo ≤ o) && decide (o < hi)).length
  countWheel w 3 (n d.syncErrors) (countWheel w 2 (n d.tsErrors) s)

/-- Intake cycles of an engine counted (R217, R397). -/
def countBusy (engine cycles : Nat) (s : State) : State :=
  { s with intake := { s.intake with busyCycles := Tbl.put s.intake.busyCycles engine (Tbl.getD s.intake.busyCycles engine 0 + BitVec.ofNat 64 cycles) } }

/-- A group of the clip in progress delivered: its pictures formed, sampled and converted, its tubelets written or made
ready, its counts kept, and the clip ended where it ends (R229, R243). The source before a clip's first group counts with
that group (R219). -/
def deliverDecoded (w : Nat) (x : ClipRun) (g : GroupRun) (s : State) : State :=
  let v := s.wheel w
  let d := s.clipSource v g.start
  let u := s.decodedGroup v g
  let t := u.1
  let stop := badActivation v t.1.activations
  let coded := s.groupPictures v g
  let pics := if rcFields v.recipe then formFields coded else formFrames coded
  let r := pics.foldl (takePicture v) { run := x, bumps := [], skipping := false, stopped := false }
  let lo := if g.pos = 0 then g.start else d.source v.srcSize.toNat g.pos
  let hi := d.source v.srcSize.toNat (g.pos + g.size)
  let ended : Option Nat := if r.run.status.isSome then r.run.status else stop.map fun (y : Nat × Nat) => y.2
  let x : ClipRun := { r.run with groupsDone := r.run.groupsDone + 1, ended := x.ended ++ u.2.map (g.pos + ·), status := ended }
  let x : ClipRun := { x with status := endStatus v x (decide (d.stream.length ≤ g.pos + g.size)) }
  let s := r.bumps.foldl (fun s n => countWheel w n 1 s) s
  let s := if !r.stopped && countsUnsupported v t.1.activations then countWheel w 9 1 s else s
  let s := countDemux w d lo hi s
  let s := s.modWheel w fun v => { v with run := some x, pos := BitVec.ofNat 64 hi, phase := BitVec.ofNat 32 (phaseOf v x), stateNo := v.stateNo + 1 }
  flushHbm w s

/-- A destination, recipe-copy or working-region error ends the clip FAILED (R242, R455). -/
def failClip (w : Nat) (x : ClipRun) (s : State) : State :=
  let v := s.wheel w
  let ringed := isDecode v.codec.toNat && rcRing v.recipe
  let a := if ringed then ringAddr v.recipe else x.clip.dest.toNat
  let s := s.logError { source := 0x10, part := some v.part, unit := if ringed then dieUnit (rcCore v.recipe) else 0x10 + stackOf a,
                        core := 0x3FF, address := a, detail := 0 }
  s.modWheel w fun v => { v with run := some { x with groupsDone := x.groupsDone + 1, ready := [], status := some 0x08 } }

/-- Finished groups at the head of a wheel's groups delivered in order, the wheel's entry written at the boundary that each
makes; those of a clip that has ended are dropped, and on a held partition all are (R226, R228, R272). `fuel` bounds
them. -/
def deliverGroups (w : Nat) : Nat → State → State
  | 0, s => s
  | fuel + 1, s =>
    let v := s.wheel w
    match v.running with
    | [] => s
    | g :: rest =>
      if !g.finished then s
      else
        let s := s.modWheel w fun v => { v with running := rest }
        let s := match v.run with
          | some x =>
            if x.seq ≠ g.seq ∨ x.status.isSome ∨ (s.part v.part).held then s
            else
              let s := settleWheel w (if g.fails then failClip w x s else deliverDecoded w x g s)
              if (s.wheel w).state = 0 then s else s.saveWheel w
          | none => s
        deliverGroups w fuel s

/-! ## Scheduling (R227, R228, R239) -/

/-- Is an engine at work on a group of any wheel? -/
def State.engineBusy (s : State) (e : Nat) : Bool := s.intake.wheels.any fun w => w.2.running.any fun g => g.engine == e && !g.finished

/-- May an engine take a group of a wheel: granted to its partition, present, and idle (R213, R227)? -/
def State.engineFree (s : State) (v : Wheel) (e : Nat) : Bool :=
  (s.part v.part).layout.engines.toNat.testBit e && s.intake.enginesPresent.toNat.testBit e && !s.engineBusy e

/-- Is the ring of a wheel full, as the intake last read CONSUMED (R239)? -/
def Wheel.ringFull (v : Wheel) : Bool := rcRing v.recipe && decide (rcSlots v.recipe ≤ (v.produced - v.consumed).toNat)

/-- Groups a wheel may run at once (R228). -/
def Wheel.groupLimit (v : Wheel) : Nat := if v.srcClosed then v.par.toNat + 1 else 1

/-- Groups of a wheel that engines work on: those that are finished and wait for delivery are none (R227). -/
def Wheel.atWork (v : Wheel) : Nat := (v.running.filter fun g => !g.finished).length

/-- A clip that begins. -/
def startClip (c : Clip) (seq : BitVec 32) : ClipRun :=
  { clip := c, seq := seq, groupsDone := 0, started := 0, nextAt := 0, pictures := 0, outputs := 0, kept := 0, events := 0, tubelets := 0, written := 0
    sat := 0, unf := 0, degraded := false, grain := false, step := [], stepClips := (0, 0), last := none, ready := [], ended := [], status := none }

/-- A wheel with its next clip begun, if none is in progress: its entry is read now, and its number is the count of clips
begun with it (R221, R225, R238). -/
def State.beginClip (s : State) (v : Wheel) : Wheel :=
  match v.run, v.clips with
  | none, a :: rest => { v with run := some (startClip (s.clipEntry v.part a) (v.clipSeq + 1)), clips := rest, clipSeq := v.clipSeq + 1 }
  | _, _ => v

/-- May a wheel begin work: it is not stopped, its partition runs, and no CLOSE with ABORT was accepted? -/
def State.wheelRuns (s : State) (v : Wheel) : Bool :=
  let q := s.part v.part
  v.state != 0 && v.state != 4 && v.closing != some true && !q.held && !q.fatal && !q.resetting

/-- The contexts an engine keeps, with a wheel's the most recent; of more than 128 the last is written back (R227). -/
def State.useResident (s : State) (w e : Nat) : State :=
  let l := (w :: (Tbl.getD s.intake.resident e []).filter (· != w)).take 128
  { s with intake := { s.intake with resident := Tbl.put s.intake.resident e l } }

/-- A wheel waits for cave pages: counted, and their migrations may start (R188, R218). -/
def wheelCaveWait (p : Nat) (waits : List Nat) (new : Nat) (s : State) : State :=
  let s := s.modPart p fun q => { q with job := q.job.map fun j => { j with
    caveWaits := waits.foldl (fun l w => if j.cavePages.any (·.page == w) then l else insertNum l w) j.caveWaits } }
  { s with errors := { s.errors with notResident := s.errors.notResident + BitVec.ofNat 64 new } }

/-- The cave pages that a range of a wheel's source lies in, aligned from SRC_BASE (R188, R218). -/
def sourcePages (v : Wheel) (lo hi : Nat) : List Nat :=
  if !v.srcRes || !isCave v.srcBase.toNat || hi ≤ lo then []
  else (List.range' (lo / pageSize) ((hi - 1) / pageSize + 1 - lo / pageSize)).map fun k => v.srcBase.toNat + pageSize * k

/-- A group of the clip in progress starts on an engine, or waits for the cave pages it reads. -/
def startGroup (w e : Nat) (x : ClipRun) (s : State) : State :=
  let v := s.wheel w
  let d := s.clipSource v x.clip.start.toNat
  let size := max 1 (groupExtent v.codec.toNat ((d.stream.drop x.nextAt).map (·.1)))
  let lo := d.source v.srcSize.toNat x.nextAt
  let hi := d.source v.srcSize.toNat (x.nextAt + size)
  let g := s.gatherPages (some v.part) (sourcePages v lo hi) v.cave
  if !g.1.waits.isEmpty then wheelCaveWait v.part g.1.waits g.2 (s.modWheel w fun v => { v with cave := g.1 })
  else
    let run : GroupRun := { engine := e, seq := x.seq, start := x.clip.start.toNat, pos := x.nextAt, size := size, finished := false, fails := false, expiries := [] }
    let s := s.modWheel w fun v => { v with
      cave := g.1, rapPos := BitVec.ofNat 64 lo, running := v.running ++ [run], run := some { x with started := x.started + 1, nextAt := x.nextAt + size } }
    wakeFor (stackDomains (w / 16384)) (s.useResident w e)

/-- GROUP_START: the controller puts the next ready group of a decode wheel on an engine (R227). A group that is not ready
stays where it is. -/
def execGroupStart (wheel engine : Nat) (s : State) : Out :=
  let v := s.wheel wheel
  if !s.wheelRuns v || !isDecode v.codec.toNat || !s.engineFree v engine || v.ringFull || v.groupLimit ≤ v.atWork then .next s
  else
    let v' := s.beginClip v
    match v'.run with
    | none => .next s
    | some x =>
      let d := s.clipSource v' x.clip.start.toNat
      if x.status.isSome ∨ x.clip.groups.toNat ≤ x.started ∨ (0 < x.started ∧ d.stream.length ≤ x.nextAt) then .next s
      else .next ((startGroup wheel engine x (s.setWheel wheel v')).modWheel wheel Wheel.settleState)

/-- The next picture of a group on an engine that the watchdog ends, by the place at which it begins (R244). -/
def State.expiryDue (s : State) (v : Wheel) (g : GroupRun) : Option Nat :=
  (s.decodedGroup v g).2.find? fun n => !g.expiries.contains n

/-- WATCHDOG_EXPIRY: the watchdog ends the next picture of an engine's group that R244 has it end. The counts alone decide
which those are (R244), so the group's delivery finds the same damage; an expiry that the counts do not give cannot
come. -/
def execWatchdogExpiry (wheel engine : Nat) (s : State) : Out :=
  let v := s.wheel wheel
  if v.running.any fun g => g.engine == engine && !g.finished then
    .next (s.modWheel wheel fun v => { v with
      running := v.running.map fun g =>
        if g.engine = engine ∧ !g.finished then { g with expiries := g.expiries ++ (s.expiryDue v g).toList } else g })
  else .next s

/-- GROUP_COMPLETE: an engine finishes its group, whose cycles count whether or not its output is delivered (R217); output is
delivered in clip and picture order (R228, R229). -/
def execGroupComplete (wheel engine : Nat) (destinationFails : Bool) (s : State) : Out :=
  let v := s.wheel wheel
  match v.running.find? fun g => g.engine == engine && !g.finished with
  | some g =>
    let s := countBusy engine (groupCycles v.codec.toNat (s.groupPictures v g)) s
    let s := s.modWheel wheel fun v => { v with
      running := v.running.map fun g => if g.engine = engine ∧ !g.finished then { g with finished := true, fails := destinationFails } else g }
    let s := deliverGroups wheel v.running.length s
    .next (if (s.wheel wheel).state = 0 then s else settleWheel wheel s)
  | none => .next s

/-! ## Ring slots (R238, R239) -/

/-- The 64-byte header of a slot. -/
def slotHeader (tag seq : BitVec 32) (first count : Nat) (isLast degraded : Bool) : List Byte :=
  leBytes 64 (tag.toNat + seq.toNat * 2 ^ 32 + first % 2 ^ 32 * 2 ^ 64 + count % 2 ^ 16 * 2 ^ 96 + (if isLast then 2 ^ 112 else 0)
    + (if degraded then 2 ^ 113 else 0))

/-- A slot of tubelets written: data, header, PRODUCED, then the semaphore. -/
def writeSlot (w : Nat) (x : ClipRun) (l rest : List Tubelet) (s : State) : State :=
  let v := s.wheel w
  let r := v.recipe
  let a := ringAddr r + 0x40 + v.produced.toNat % rcSlots r * rcSlotBytes r
  let isLast := x.status.isSome && rest.isEmpty
  let degraded := l.any (·.affected) || (isLast && x.status == some 0x02)
  let first := match l with
    | t :: _ => t.index
    | [] => 0
  let s := s.put (a + 64) (layoutGroup r (l.map (·.bytes))) false
  let s := s.put a (slotHeader x.clip.tag x.seq first l.length isLast degraded) false
  let s := wakeFor (inboundDomains (ringAddr r)) (s.put (ringAddr r + 4) (leBytes 4 (v.produced + 1).toNat) false)
  let s := s.modWheel w fun v => { v with produced := v.produced + 1, run := some { x with ready := rest, written := x.written + l.length } }
  s.signalDone (rcCore r) (rcSem r)

/-- SLOT_WRITE: the next slot of a wheel's ring, once its tubelets are known: ROWS of them with more to follow, or the last
of a clip that has ended. Nothing is written while the ring is full. -/
def execSlotWrite (wheel : Nat) (s : State) : Out :=
  let v := s.wheel wheel
  match v.run with
  | none => .next s
  | some x =>
    let n := rcRows v.recipe
    if !rcRing v.recipe || v.ringFull || x.ready.isEmpty || (s.part v.part).held || (x.status.isNone && decide (x.ready.length ≤ n)) then .next s
    else .next (settleWheel wheel (writeSlot wheel x (x.ready.take n) (x.ready.drop n) s))

/-- CONSUMED_REREAD: the intake reads a ring's CONSUMED again (R239). -/
def execConsumedReread (wheel : Nat) (s : State) : Out :=
  let v := s.wheel wheel
  .next (if v.state ≠ 0 ∧ isDecode v.codec.toNat ∧ rcRing v.recipe then
    s.modWheel wheel fun v => { v with consumed := BitVec.ofNat 32 (s.peekNat (ringAddr v.recipe) 4) } else s)

/-! ## Encode (R245, R246) -/

/-- One GOP of the clip in progress encoded and written, unless it would not fit the rest of the buffer. -/
def encodeNext (w e : Nat) (x : ClipRun) (s : State) : State :=
  let v := s.wheel w
  let pr := v.recipe.setWidth 512
  let size := inputBytes pr
  let n := min (field pr 80 16) (x.clip.groups.toNat - x.pictures)
  let addr (i : Nat) : Nat := x.clip.start.toNat + (x.pictures + i) * x.clip.frames.toNat
  let input := (List.range n).map fun i => (s.seenBy (some v.part)).fetch (addr i) size
  let pics := Config.encodeGop v.codec.toNat pr (input.map fun i => inputPicture pr i.1)
  let out := pics.flatten
  let bad := (input.filter (·.2)).length
  let s := countBusy e ((pics.map fun b => max (2 * (field pr 0 16 * field pr 16 16)) (4 * b.length)).foldl (· + ·) 0) s
  let s := countWheel w 4 bad s
  let x := if x.clip.skip.toNat < x.written + out.length then { x with events := x.events + bad, status := some 0x06 }
    else { x with events := x.events + bad, pictures := x.pictures + n, written := x.written + out.length, groupsDone := x.groupsDone + 1 }
  let s := if x.status.isSome then s
    else wakeFor (inboundDomains x.clip.dest.toNat) (s.put (x.clip.dest.toNat + (x.written - out.length)) out false)
  let status := if x.status.isSome then x.status else if x.pictures = x.clip.groups.toNat then some (if 0 < x.events then 0x01 else 0x00) else none
  let s := s.modWheel w fun v => { v with
    run := some { x with status := status }, pos := BitVec.ofNat 64 (addr n - x.clip.start.toNat), stateNo := v.stateNo + 1 }
  s.useResident w e

/-- ENCODE_GOP: an engine encodes the next GOP of a wheel's clip into its buffer; an error in its destination or its working
region ends the clip FAILED (R241, R242). -/
def execEncodeGop (wheel engine : Nat) (destinationFails : Bool) (s : State) : Out :=
  let v := s.wheel wheel
  if !s.wheelRuns v || isDecode v.codec.toNat || !s.engineFree v engine then .next s
  else
    let v' := s.beginClip v
    match v'.run with
    | none => .next s
    | some x =>
      let s := s.setWheel wheel v'
      let s := settleWheel wheel (if destinationFails then failClip wheel x s else encodeNext wheel engine x s)
      .next (if (s.wheel wheel).state = 0 then s else s.saveWheel wheel)

/-! ## CLOSE and QUERY (R226) -/

/-- A wheel begins to close; with ABORT a clip between groups ends at once, and pending clips with it. -/
def closeWheel (w : Nat) (abort : Bool) (s : State) : State :=
  let s := s.modWheel w fun v => { v with state := 3, closing := some abort }
  let s := s.modWheel w fun v => match v.run with
    | some x => if abort ∧ x.status.isNone ∧ !v.running.any (fun g => g.seq == x.seq) then { v with run := some { x with status := some 0x07 } } else v
    | none => v
  settleWheel w (flushHbm w s)

/-- CLOSE: the record completes when the command is accepted (R343). -/
def closeCommand (abort : Bool) (ring p : Nat) (_ : Job) (r : BitVec 2048) (s : State) : State :=
  match s.usableWheel p (icWheel r) with
  | none => refuseIntake ring 0x06 s
  | some _ => completeRecord ring cplOk (closeWheel (icWheel r) abort s)

/-- CLOSE with ABORT = 0. -/
def execClose (ring : Nat) (s : State) : Out := intakeCommand ring 3 (some false) (closeCommand false ring) s

/-- CLOSE with ABORT = 1. -/
def execCloseAbort (ring : Nat) (s : State) : Out := intakeCommand ring 3 (some true) (closeCommand true ring) s

/-- The 256 bytes of a wheel as at its most recent group boundary: between groups as it stands, and while a group is in
progress as its entry has it (R226). -/
def State.boundaryContext (s : State) (w : Nat) : List Byte :=
  let v := s.wheel w
  if v.running.isEmpty then v.entryBytes else s.peek (wheelAddr w) 256

/-- QUERY: the 256-byte context written to host memory or the job's HBM; with CLEAR its counters are zeroed, and those of the
entry (R221, R226). -/
def queryCommand (clear : Bool) (ring p : Nat) (j : Job) (r : BitVec 2048) (s : State) : State :=
  let w := icWheel r
  let a := icAddrA r
  match s.usableWheel p w with
  | none => refuseIntake ring 0x06 s
  | some _ =>
    if !(inJobHbm j a 256 || (spanRegion a 256 == .host && s.inPart (some p) a 256)) then refuseIntake ring 0x04 s
    else
      let s := s.put a (s.boundaryContext w) false
      completeRecord ring cplOk
        (if clear then (s.modWheel w fun v => { v with counters := Vector.replicate 10 0 }).put (wheelAddr w + 84) (zeroBytes 20) false else s)

/-- QUERY with CLEAR = 0. -/
def execQuery (ring : Nat) (s : State) : Out := intakeCommand ring 4 (some false) (queryCommand false ring) s

/-- QUERY with CLEAR = 1. -/
def execQueryClear (ring : Nat) (s : State) : Out := intakeCommand ring 4 (some true) (queryCommand true ring) s

/-! ## RELEASE begins (R345) -/

/-- RELEASE: the cores stop, and the wheels close as by CLOSE with ABORT = 1. -/
def releaseBegin (r p : Nat) (s : State) : State :=
  let s := (s.coresOf p).foldl (fun s c => stopCore c s) s
  let s := (s.wheelsOf p).foldl (fun s w => closeWheel w true s) s
  s.modPart p fun q => { q with releasing := some r }

/-- RELEASE (R345). -/
def execJobRelease (ring : Nat) (s : State) : Out :=
  match currentRecord s ring 5 none with
  | none => .next s
  | some (p, rcd) =>
    if badJob s ring rcd then .next (completeOpen ring 0x03 s)
    else if (s.part p).releasing.isSome then .next s
    else .next (releaseBegin ring p s)

end Sys2Proof.Machine
end

