-- ==== Sys2Proof/Machine/Rtp.lean ====
section
/-! DEFINITION. The root of trust: the mailbox and its owner commands, bundles, the partition layout, partition reset,
ZEROIZE and scrubs, DICT_ACCESS, and SPDM (R352–R376, R396, R444, R456). -/

namespace Sys2Proof.Machine

/-! ## The mailbox (R356–R359) -/

/-- An answer: the RTP status in bytes 0–1 and what follows it, with the CXL return code Success (R358). -/
def rtpAnswer (status : Nat) (data : List Byte) (s : State) : State :=
  { s with rtp := { s.rtp with output := leBytes 2 status ++ data, lastCode := 0 } }

/-- A command of the mailbox: Busy while a background operation runs; unanswered in the error state (R358, R359). -/
def mailbox (body : State → State) (s : State) : State :=
  if !s.rtpUp then s
  else if s.rtp.background ≠ .none then { s with rtp := { s.rtp with lastCode := 1 } }
  else if s.rtp.error then s
  else body s

/-- A command that carries a signature: its nonce is consumed, and it is authenticated when the nonce is the one given and
the current owner key verifies it (R356, R357). -/
def ownerCommand (auth : OwnerAuth) (body : State → State) (s : State) : State :=
  mailbox (fun s =>
    let t := { s with rtp := { s.rtp with nonce := none } }
    if !s.rtp.ownerSlots.isEmpty && s.rtp.nonce == some auth.nonce && auth.signatureOk then body t else rtpAnswer 0x0002 [] t) s

/-- GET_STATUS, which the error state answers with SELFTEST and the failed test's number (R358, R359). -/
def execGetStatus (s : State) : Out :=
  let fields : List Nat := [flagNat s.rtp.error, s.rtp.selfTestFailed.toNat, flagNat s.rtp.bundleLoaded, s.rtp.ownerSlots.length]
  .next (if !s.rtpUp then s
    else if s.rtp.background ≠ .none then { s with rtp := { s.rtp with lastCode := 1 } }
    else rtpAnswer (if s.rtp.error then 0x0009 else 0) (Config.statusPayload fields) s)

/-- GET_NONCE: a fresh nonce replaces any not yet used (R357); where a test of the entropy source fails, the RTP enters its error
state and answers nothing (R359). -/
def execGetNonce (testFailed : Option Nat) (s : State) : Out :=
  .next (mailbox (fun s =>
    if testFailed.isSome then rtpFails (testFailed.getD 0) s else
    let k := s.newKey
    let nonce := Config.drbg k.1
    rtpAnswer 0 (leBytes 48 nonce.toNat) { k.2 with rtp := { k.2.rtp with nonce := some nonce } }) s)

/-- A new owner key's hash burned into the next free slot (R358, R404). -/
def burnOwner (keyHash : BitVec 384) (s : State) : State :=
  if 4 ≤ s.rtp.ownerSlots.length then rtpAnswer 0x0006 [] s
  else if s.guardActive then rtpAnswer 0x0007 [] s
  else rtpAnswer 0 [] { s with rtp := { s.rtp with ownerSlots := s.rtp.ownerSlots ++ [keyHash] } }

/-- TAKE_OWNERSHIP: anyone's while no slot is used, then the owner's (R358). -/
def execTakeOwnership (keyHash : BitVec 384) (auth : OwnerAuth) (s : State) : Out :=
  .next (if s.rtp.ownerSlots.isEmpty then mailbox (burnOwner keyHash) s else ownerCommand auth (burnOwner keyHash) s)

/-- SELF_TEST: a failure is the RTP's error state and a device-fatal error (R359, R455). -/
def execSelfTest (failed : Option Nat) (s : State) : Out :=
  .next (mailbox (fun s => match failed with
    | none => rtpAnswer 0 [] s
    | some n =>
      let s := rtpFails n s
      rtpAnswer 0x0009 [] (deviceError { source := 0x18, part := none, unit := 0x20, core := 0x3FF, address := 0, detail := 0 } s)) s)

/-- ADVANCE_SVN: the minimum rises to the running bundle's SVN and never falls (R363). -/
def execAdvanceSvn (auth : OwnerAuth) (s : State) : Out :=
  .next (ownerCommand auth (fun s =>
    if !s.rtp.bundleLoaded then rtpAnswer 0x0003 [] s
    else if s.rtp.svn.toNat ≤ s.rtp.minSvn.toNat then rtpAnswer 0 [] s
    else if s.guardActive then rtpAnswer 0x0007 [] s
    else rtpAnswer 0 [] { s with rtp := { s.rtp with minSvn := BitVec.ofNat 6 s.rtp.svn.toNat } }) s)

/-! ## Bundles (R360–R362) -/

/-- How far the chunks cover a bundle without a gap from an offset on; `fuel` bounds the chunks used. -/
def chunkReach (l : List (Nat × List Byte)) : Nat → Nat → Nat
  | 0, at' => at'
  | fuel + 1, at' =>
    match l.find? fun c => decide (c.1 ≤ at') && decide (at' < c.1 + c.2.length) with
    | some c => chunkReach l fuel (c.1 + c.2.length)
    | none => at'

/-- A byte of a bundle: the newest chunk that holds it gives it. -/
def chunkByte (l : List (Nat × List Byte)) (i : Nat) : Byte :=
  match l.find? fun c => decide (c.1 ≤ i) && decide (i < c.1 + c.2.length) with
  | some c => (c.2[i - c.1]?).getD 0
  | none => 0

/-- The bytes of a bundle's header. -/
def bundleHeaderSize : Nat := 0x4A0

/-- The bundle length that a header states. -/
def bundleLength (h : List Byte) : Nat := bytesNat h 0x10 8

/-- An entry of the image table: type, reserved, length, offset, digest. -/
def bundleImage (h : List Byte) (i : Nat) : Nat × Nat × Nat × Nat × Nat :=
  let o := 0x40 + 64 * i
  (bytesNat h o 2, bytesNat h (o + 2) 2, bytesNat h (o + 4) 4, bytesNat h (o + 8) 8, bytesNat h (o + 16) 48)

/-- The used entries of the image table. -/
def bundleImages (h : List Byte) : List (Nat × Nat × Nat × Nat × Nat) := (List.range (min 16 (bytesNat h 0x0C 2))).map (bundleImage h)

/-- Do two images overlap? -/
def imagesOverlap (a b : Nat × Nat × Nat × Nat × Nat) : Bool :=
  decide (a.2.2.2.1 < b.2.2.2.1 + b.2.2.1) && decide (b.2.2.2.1 < a.2.2.2.1 + a.2.2.1)

/-- FORMAT (R361, R362): magic, version, SVN, count, lengths and offsets, no overlap, reserved and unused bytes zero. -/
def bundleFormat (h : List Byte) : Bool :=
  let n := bytesNat h 0x0C 2
  let l := bundleImages h
  bytesNat h 0 4 == 0x4E424A48 && bytesNat h 4 2 == 1 && decide (bytesNat h 8 4 ≤ 63) && decide (5 ≤ n) && decide (n ≤ 16)
    && bytesNat h 0x0F 1 == 0 && bytesNat h 0x18 40 == 0 && decide (bundleHeaderSize ≤ bundleLength h)
    && l.all (fun e => e.2.1 == 0 && decide (e.2.2.2.1 + e.2.2.1 ≤ bundleLength h))
    && l.zipIdx.all (fun e => l.zipIdx.all fun f => e.2 == f.2 || !imagesOverlap e.1 f.1)
    && bytesNat h (0x40 + 64 * n) (0x400 - 64 * n) == 0

/-- Does each of the image types 1–5 appear exactly once? -/
def bundleComplete (h : List Byte) : Bool := (List.range 5).all fun t => ((bundleImages h).filter fun e => e.1 == t + 1).length == 1

/-- The first check of R362 that a bundle fails, as the detail of its refusal. -/
def bundleRefusal (s : State) (h : List Byte) (v : BundleVerdict) : Option Nat :=
  let slot := bytesNat h 0x0E 1
  let fuses := s.rtp.signing.toNat
  if !bundleFormat h then some 0x01
  else if bytesNat h 6 2 ≠ 0x00B0 then some 0x02
  else if 4 ≤ slot || !fuses.testBit slot || fuses.testBit (4 + slot) then some 0x03
  else if v.keyHash != (s.rtp.signingHash[slot]?).getD 0 || !v.signatureOk then some 0x04
  else if bytesNat h 8 4 < s.rtp.minSvn.toNat then some 0x05
  else match v.badDigest with
    | some i => some (0x06 + 256 * i)
    | none => if bundleComplete h then none else some 0x07

/-- The digest of the image of a type. -/
def imageDigest (h : List Byte) (type : Nat) : BitVec 384 :=
  match (bundleImages h).find? fun e => e.1 == type with
  | some e => BitVec.ofNat 384 e.2.2.2.2
  | none => 0

/-- A bundle that the chunks cover is checked: accepted, it starts step 5; refused, it is discarded in full, and the detail goes
to the bring-up range and, where the flash can be written, to the boot-failure history (R362, R404). A pairwise-consistency test
that the attestation key fails is the RTP's error state (R359). The answer is the RTP status and its detail. -/
def checkBundle (h : List Byte) (v : BundleVerdict) (s : State) : (Nat × Nat) × State :=
  let s := { s with rtp := { s.rtp with owner := none, chunks := [] } }
  match bundleRefusal s h v with
  | some d =>
    let detail := BitVec.ofNat 16 d
    let s := { s with start := { s.start with refusal := detail } }
    ((0x0005, d), if s.flashReady then State.flashWrote { s with start := { s.start with refusals := detail :: s.start.refusals } } regionHistory else s)
  | none =>
    let s := { s with rtp := { s.rtp with
      digests := Vector.ofFn fun i => imageDigest h (i.val + 1)
      headerDigest := Config.sha384 h, svn := BitVec.ofNat 8 (bytesNat h 8 4) } }
    ((0, 0), if v.testFailed.isSome then rtpFails (v.testFailed.getD 0) s else beginStep5 s)

/-- A chunk taken by the transport that owns the load; the chunks that cover the bundle are checked (R360). -/
def bundleStep (owner : LoadOwner) (offset : Nat) (data : List Byte) (v : BundleVerdict) (s : State) : (Nat × Nat) × State :=
  let chunks := (offset, data) :: s.rtp.chunks
  let s := { s with rtp := { s.rtp with owner := some owner, chunks := chunks } }
  let reach := chunkReach chunks chunks.length 0
  if reach < 0x18 then ((0, 0), s)
  else
    let h := (List.range bundleHeaderSize).map (chunkByte chunks)
    if reach < bundleLength h then ((0, 0), s) else checkBundle h v s

/-- LOAD_BUNDLE (R358, R360–R362). -/
def execLoadBundle (offset : Nat) (data : List Byte) (verdict : BundleVerdict) (s : State) : Out :=
  .next (mailbox (fun s =>
    if s.deviceState ≠ some 6 then rtpAnswer 0x0003 [] s
    else if s.rtp.owner = some .oap then rtpAnswer 0x0004 [] s
    else if 4088 < data.length then rtpAnswer 0x0001 [] s
    else
      let r := bundleStep .mailbox offset data verdict s
      rtpAnswer r.1.1 (if r.1.1 = 0x0005 then leBytes 2 r.1.2 else []) r.2) s)

/-! ## The partition layout (R366–R368) -/

/-- The units that leave a partition. -/
def State.leaving (s : State) (image : List Byte) (k : Nat) : List Nat := (s.unitsOf k).filter fun u => !(imageUnits image k).contains u

/-- Is a grant of a record outside what its tier allows (R367, detail 0x05)? -/
def badGrant (s : State) (port : Nat) (g : GrantRange) : Bool :=
  (g.tier == 3 && !(decide (caveBase ≤ g.base) && decide (g.base + g.length ≤ 0x03400000000000) && (s.seenFrom port).caveCovers 9 g.base g.length))
    || (g.tier == 4 && !(decide (0x04000000000000 ≤ g.base) && decide (g.base + g.length ≤ 0x05000000000000)))

/-- The rings of a port (R329). -/
def State.portRings (s : State) (port : Nat) : BitVec 64 :=
  if !s.start.bifurcated then BitVec.allOnes 64 else if port = 0 then 0xFFFFFFFF else 0xFFFFFFFF00000000

/-- The least number below n that a test holds of. -/
def firstBelow (n : Nat) (test : Nat → Bool) : Option Nat := (List.range n).find? test

/-- The conditions of R367 in the order of their codes, each with the first partition or unit concerned. -/
def layoutRefusals (s : State) (image : List Byte) : List (Nat × Option Nat) :=
  let recs := fun k => imageRec image k
  let valid := fun k => (recs k).valid
  [ (0x01, if bytesNat image 0x10 48 = 0 then none else some 0),
    (0x01, firstBelow 16 fun k => field (layoutRecord image k) 3 29 != 0 || (recs k).grants.any (fun g => g.tier != 0 && g.tier != 3 && g.tier != 4)
      || ((recs k).port == 1 && !s.start.bifurcated)),
    (0x01, firstBelow 16 fun u => imageUnit image u != 0xFF && (decide (16 ≤ imageUnit image u) || !valid (imageUnit image u))),
    (0x02, firstBelow 16 fun u => imageUnit image u != 0xFF && !s.unitPresent u),
    (0x03, firstBelow 16 fun k => valid k && (imageUnits image k).isEmpty),
    (0x04, firstBelow 16 fun k => valid k && ((recs k).rings &&& ~~~(s.portRings (recs k).port) != 0
      || (List.range k).any fun j => valid j && ((recs j).engines &&& (recs k).engines != 0 || (recs j).rings &&& (recs k).rings != 0))),
    (0x05, firstBelow 16 fun k => valid k && (recs k).grants.any (badGrant s (recs k).port)),
    (0x06, firstBelow 16 fun k => valid k && (recs k).conf && (recs k).tenant == 0),
    (0x07, firstBelow 16 fun k => s.changes image k && ((s.part k).job.isSome || (s.part k).scrubbing || (s.part k).resetting)),
    (0x07, firstBelow 16 fun u => imageUnit image u != 0xFF
      && (match Tbl.get? s.rtp.unitScrub u with | some .failed | some .running => true | _ => false)) ]

/-- The first refusal of a layout: code and partition or unit. -/
def layoutRefusal (s : State) (image : List Byte) : Option (Nat × Nat) :=
  (layoutRefusals s image).findSome? fun r => r.2.map fun k => (r.1, k)

/-- Once the rings of every changed partition are disabled, the units that leave are scrubbed (R368, step 2). -/
def scrubLeaving (image : List Byte) (s : State) : State :=
  let changed := s.changed image
  if changed.any (fun k => (s.ringsOf k).any fun r => (s.ring r).enable) then s
  else
    let s := changed.foldl (fun s k => if (s.leaving image k).isEmpty then s else beginScrub k (s.leaving image k) s) s
    { s with rtp := { s.rtp with background := .layout image true } }

/-- A layout begins to be applied: the rings of changed partitions are disabled, each once its record in progress has completed
(R332, R368, step 1). -/
def beginLayout (image : List Byte) (s : State) : State :=
  let s := (s.changed image).foldl (fun s k => (s.ringsOf k).foldl (fun s r => disableRing r s) s) s
  scrubLeaving image { s with rtp := { s.rtp with background := .layout image false } }

/-- SET_LAYOUT (R358, R366–R368, R437). -/
def execSetLayout (image : List Byte) (auth : OwnerAuth) (s : State) : Out :=
  .next (ownerCommand auth (fun s =>
    if !s.start.isOn then rtpAnswer 0x0003 [] s
    else if image.length ≠ 2112 then rtpAnswer 0x0001 [] s
    else match layoutRefusal s image with
      | some r => rtpAnswer 0x0008 (leBytes 2 (r.1 + 256 * r.2)) s
      | none => beginLayout image s) s)

/-- Run-to-count off in a core: a confidential partition has none (R104, R369). -/
def Core.noLimit (k : Core) : Core := { k with ctl := { k.ctl with rtcEnable := false, rtcLimit := 0 } }

/-- A changed partition's new record, with a new key (R368, steps 3 and 4); run-to-count is off in the cores of a confidential one
(R104). -/
def applyRecord (image : List Byte) (s : State) (k : Nat) : State :=
  let new := imageRec image k
  let s := dropSessions k s
  let s := if new.conf then (s.coresOf k).foldl (fun s c => s.modCore c Core.noLimit) s else s
  if new.valid then newPartKey k (s.modPart k fun q => { q with layout := new, xtsKey := none })
  else s.modPart k fun q => { Part.reset with scrub := q.scrub, scrubs := q.scrubs }

/-- The intake engines that leave a partition, scrubbed of their resident wheels (R213, R368). -/
def leavingEngines (s : State) (image : List Byte) : List Nat :=
  (List.range 32).filter fun e => (List.range 16).any fun k =>
    (s.part k).layout.valid && (s.part k).layout.engines.toNat.testBit e && !((imageRec image k).valid && (imageRec image k).engines.toNat.testBit e)

/-- The layout in effect. -/
def finishLayout (image : List Byte) (s : State) : State :=
  let engines := leavingEngines s image
  let s := (s.changed image).foldl (applyRecord image) s
  rtpAnswer 0 [] { s with
    intake := { s.intake with resident := s.intake.resident.filter fun e => !engines.contains e.1 }
    rtp := { s.rtp with
      puMap := Vector.ofFn fun u => (image[u.val]?).getD 0xFF, layoutImage := image, background := .none } }

/-- LAYOUT_APPLY_COMPLETE: every ring of a changed partition is disabled, and every unit that leaves has been scrubbed; one whose
scrub failed is not assigned (R368, R456). Where an XTS engine's known-answer test or a conditional test fails, the RTP enters its
error state, in which it installs no key (R359). -/
def execLayoutApplyComplete (testFailed : Option Nat) (s : State) : Out :=
  match s.rtp.background with
  | .layout image begun =>
    let s := if begun then s else scrubLeaving image s
    let units := (s.changed image).flatMap (s.leaving image)
    let scrubOf := fun u => Tbl.getD s.rtp.unitScrub u .none
    if s.rtp.error || s.rtp.background != .layout image true || units.any (fun u => scrubOf u == .running || scrubOf u == .pending) then .next s
    else if testFailed.isSome then .next (rtpFails (testFailed.getD 0) s)
    else match units.find? fun u => scrubOf u == .failed && imageUnit image u != 0xFF with
      | some u =>
        let s := { s with rtp := { s.rtp with background := .none } }
        .next (rtpAnswer 0x0008 (leBytes 2 (0x07 + 256 * u)) s)
      | none => .next (finishLayout image s)
  | _ => .next s

/-! ## Partition reset (R358, R444) -/

/-- PARTITION_RESET. -/
def execPartitionReset (part : Nat) (auth : OwnerAuth) (s : State) : Out :=
  .next (ownerCommand auth (fun s =>
    if !s.start.isOn then rtpAnswer 0x0003 [] s
    else if !(s.part part).layout.valid then rtpAnswer 0x0001 [] s
    else if (s.part part).scrubbing then rtpAnswer 0x0003 [] s
    else
      let s := beginPartitionReset part s
      { s with rtp := { s.rtp with background := .reset part } }) s)

/-- PARTITION_RESET_COMPLETE: the traffic has drained and any scrub is done; a confidential partition needs a key, which the RTP does
not make in its error state (R359). -/
def execPartitionResetComplete (part : Nat) (s : State) : Out :=
  .next (if s.rtp.background = .reset part ∧ resetDue s part ∧ !(s.rtp.error && s.confidential (some part)) then
    let s := { s with rtp := { s.rtp with background := .none } }
    rtpAnswer 0 [] (finishPartitionReset part s)
  else s)

/-! ## ZEROIZE and scrubs (R358, R373, R374, R456) -/

/-- A partition stopped as its reset stops it, its rings disabled. -/
def stopPartition (s : State) (p : Nat) : State :=
  let s := abortRecords p s
  let s := (s.ringsOf p).foldl (fun s r => disableRing r s) s
  let s := (s.coresOf p).foldl (fun s c => beginCoreReset c s) s
  let s := endDrain p s
  let s := (pressOf (s.unitsOf p)).foldl (fun s u => clearPress u s) s
  beginScrub p (s.unitsOf p) (freeWheels p s)

/-- Every key destroyed and the layout gone; the device waits for a new bundle (R358). -/
def finishZeroize (s : State) : State :=
  let t := s.start.afterReset false s.dict.flashAbsent false (s.dictNat 0x2000 2 0 != 0)
  rtpAnswer 0 [] { s with
    parts := [], cores := []
    fabric := { s.fabric with sessions := [] }
    rtp := s.rtp.afterReset
    start := { t with step := 4, savedCrc := s.start.savedCrc, savedOwn := s.start.savedOwn } }

/-- Is a scrub of some unit pending or running? -/
def State.scrubRuns (s : State) : Bool := s.rtp.unitScrub.any fun u => u.2 == .running || u.2 == .pending

/-- ZEROIZE: every partition stops, and every present unit is scrubbed. -/
def execZeroize (auth : OwnerAuth) (s : State) : Out :=
  .next (ownerCommand auth (fun s =>
    if !s.start.isOn && !s.start.whey && s.start.step != 4 then rtpAnswer 0x0003 [] s
    else
      let s := ((List.range 16).filter fun p => (s.part p).layout.valid).foldl stopPartition s
      let units := (List.range 16).filter fun u => s.unitPresent u && (s.unitPart u).isNone
      let s := State.storeScrubs { s with
        start := { s.start with isOn := false }
        rtp := { s.rtp with
          background := .zeroize, unitScrub := units.foldl (fun t u => Tbl.put t u .running) s.rtp.unitScrub } }
      if s.scrubRuns then s else finishZeroize s) s)

/-- GET_SCRUB: a scrub that failed stays pending (R374, R456). -/
def execGetScrub (s : State) : Out :=
  let code := fun q : Part => match q.scrub with
    | .none => 0
    | .pending | .failed => 1
    | .running => 2
    | .complete => 3
  .next (mailbox (fun s => rtpAnswer 0 (Config.scrubPayload ((List.range 16).map fun k => (code (s.part k), (s.part k).scrubs.toNat))) s) s)

/-- The scrub of a partition ends when no unit of it is being scrubbed any more: complete, and over all its units as a
whole, or failed (R373, R374, R456). -/
def endScrub (p : Nat) (s : State) : State :=
  let state := fun u => Tbl.getD s.rtp.unitScrub u .none
  let units := s.unitsOf p
  if (s.part p).scrub ≠ .running || units.any (fun u => state u == .running || state u == .pending) then s
  else if units.any (fun u => state u == .failed) then s.modPart p fun q => { q with scrub := .failed }
  else
    let s := if units.all (fun u => state u == .complete) then
        newPartKey p (scrubPart p s)
      else s
    s.modPart p fun q => { q with scrub := .complete, scrubs := q.scrubs + 1 }

/-- SCRUB_COMPLETE: a unit's scrub has zeroed it, or a granule could not be written and it stays pending (R373, R374, R456). -/
def execScrubComplete (unit : Nat) (ok : Bool) (s : State) : Out :=
  if Tbl.getD s.rtp.unitScrub unit .none ≠ .running then .next s
  else
    let owner := s.unitPart unit
    let s := if ok then
        let t := scrubUnit (owner.getD 16) unit s
        State.storeScrubs { t with rtp := { t.rtp with unitScrub := Tbl.put t.rtp.unitScrub unit .complete } }
      else
        let t := s.logError { source := 0x15, part := owner, unit := 0x10 + unit, core := 0x3FF, address := 0, detail := 0 }
        { t with rtp := { t.rtp with unitScrub := Tbl.put t.rtp.unitScrub unit .failed } }
    let s := match owner with
      | some p => endScrub p s
      | none => s
    .next (if s.rtp.background = .zeroize && !s.scrubRuns then finishZeroize s else s)

/-! ## DICT_ACCESS (R396) -/

/-- DICT_ACCESS with a read: reserved bits and a length that is not zero are BAD_INPUT (R358, R396). -/
def execDictAccessRead (index : BitVec 16) (sub : BitVec 8) (reserved : BitVec 23) (length : BitVec 16) (s : State) : Out :=
  .next (mailbox (fun s =>
    if reserved ≠ 0 ∨ length ≠ 0 then rtpAnswer 0x0001 [] s
    else
      let r := dictRead index.toNat sub.toNat s
      deliver .mailbox r.1 { r.2 with rtp := { r.2.rtp with lastCode := 0 } }) s)

/-- DICT_ACCESS with a write, the owner's: reserved bits, and a length other than that of the data that follows, are BAD_INPUT
(R358, R396). -/
def execDictAccessWrite (index : BitVec 16) (sub : BitVec 8) (reserved : BitVec 23) (length : BitVec 16) (data : List Byte) (auth : OwnerAuth)
    (s : State) : Out :=
  .next (ownerCommand auth (fun s =>
    if reserved ≠ 0 ∨ length.toNat ≠ data.length then rtpAnswer 0x0001 [] s
    else writeEntry (.mailbox true) .mailbox index.toNat sub.toNat data { s with rtp := { s.rtp with lastCode := 0 } }) s)

/-! ## SPDM (R355, R356, R375, R376) -/

/-- Does the RTP answer SPDM: it runs firmware, whose key signs, and is not in its error state? -/
def State.spdmUp (s : State) : Bool := s.rtpUp && !s.rtp.error && s.rtp.attestKey.isSome

/-- An SPDM message sent. -/
def spdmAnswer (data : List Byte) (s : State) : State := { s with rtp := { s.rtp with spdmOutput := data } }

/-- Does an offer hold every algorithm of R375? -/
def offerSuits (o : SpdmOffer) : Bool := o.ecdsaP384 && o.sha384 && o.secp384r1 && o.aes256Gcm

/-- The chain of certificate slot 0: device root, device identity, and the attestation certificate that the identity key issued at
the firmware's start (R355, R375). -/
def State.certChain (s : State) : List Byte :=
  Config.rootCert ++ Config.identityCert Config.serial ++ (match s.rtp.attestKey with
    | some k => Config.attestCert s.rtp.identityKey k s.rtp.headerDigest s.rtp.digests.toList
    | none => [])

/-- GET_VERSION: version 1.2, coded 0x12, and no other, and the algorithms of R375 out of the requester's offer; with them the chain
of certificate slot 0 goes out, which the row stands for too (R375; DESIGN CHOICE, log 177). -/
def execGetVersion (version : Nat) (offer : SpdmOffer) (s : State) : Out :=
  .next (if !s.rtpUp || s.rtp.error then s
    else
      let agreed := version == 0x12 && offerSuits offer
      spdmAnswer (Config.spdmMessage [0x04, flagNat (version == 0x12), flagNat (offerSuits offer)] ++ (if agreed then s.certChain else []))
        { s with rtp := { s.rtp with spdmVersion := agreed } })

/-- Is a key the tenant's of a partition, by the TENANT hash of its layout record as it stands now (R356)? -/
def State.isTenant (s : State) (hash : BitVec 384) (k : Nat) : Bool :=
  (s.part k).layout.valid && hash != 0 && (s.part k).layout.tenant == hash

/-- A session with its key. -/
def openSpdm (tenant : Option (BitVec 384)) (s : State) : State :=
  let k := s.newKey
  let id := k.2.rtp.spdmNext
  spdmAnswer (Config.spdmMessage [0x64, id])
    { k.2 with rtp := { k.2.rtp with spdm := k.2.rtp.spdm ++ [{ id := id, tenant := tenant, key := k.1 }], spdmNext := id + 1 } }

/-- KEY_EXCHANGE: a session under the algorithms negotiated, a tenant's when the requester's key is a partition's TENANT (R355,
R356, R375); a conditional test that the device's key pair fails is the RTP's error state (R359). -/
def execKeyExchange (tenant : Option (BitVec 384)) (ok : Bool) (testFailed : Option Nat) (s : State) : Out :=
  .next (if !s.spdmUp then s
    else if !ok || !s.rtp.spdmVersion || tenant.any (fun h => !(List.range 16).any (s.isTenant h)) then spdmAnswer (Config.spdmMessage [0x7F]) s
    else if testFailed.isSome then rtpFails (testFailed.getD 0) s
    else openSpdm tenant s)

/-- Block 0x10, the fuse summary (R376). -/
def State.fuseSummary (s : State) : List Byte :=
  let n := s.rtp.ownerSlots.length
  leBytes 16 (s.rtp.signing.toNat + s.rtp.minSvn.toNat * 2 ^ 8 + (n - 1) * 2 ^ 14 + flagNat (n != 0) * 2 ^ 16 + flagNat Config.productionLock * 2 ^ 17)
    ++ leBytes 48 (match s.rtp.ownerSlots.getLast? with | some h => h.toNat | none => 0)

/-- Block 0x11, the debug state of a production part (R376). -/
def State.debugState (s : State) : List Byte :=
  leBytes 8 (flagNat (s.dictNat 0x2000 5 0 != 0) * 4 + flagNat s.feedOverride * 8 + flagNat s.rtp.errorSinceStart * 16)

/-- The content of a measurement block, for a requester in a session of a tenant or outside one (R376). -/
def State.measurement (s : State) (tenant : Option (BitVec 384)) (block : Nat) : Option (List Byte) :=
  if block = 1 then some (leBytes 48 Config.starterDigest.toNat)
  else if 2 ≤ block ∧ block ≤ 6 then some (leBytes 48 ((s.rtp.digests[block - 2]?).getD 0).toNat)
  else if block = 7 then some (leBytes 48 s.rtp.headerDigest.toNat)
  else if block = 0x10 then some s.fuseSummary
  else if block = 0x11 then some s.debugState
  else if block = 0x12 then some (s.rtp.puMap.toList ++ s.layoutDigest)
  else if 0x20 ≤ block ∧ block < 0x30 then some (s.partitionRecord (block - 0x20) (tenant.any fun h => s.isTenant h (block - 0x20)))
  else none

/-- A measurement block in the DMTF measurement format of SPDM 1.2 (an outside standard): its index, the specification, its size,
and its value's type and size; the SHA-384 digests of blocks 1–7 are digests, the others raw bit streams (R376). -/
def measurementBlock (block : Nat) (value : List Byte) : List Byte :=
  let type := (Config.measurementType block).toNat + (if block ≤ 7 then 0 else 0x80)
  [BitVec.ofNat 8 block, 1] ++ leBytes 2 (value.length + 3) ++ [BitVec.ofNat 8 type] ++ leBytes 2 value.length ++ value

/-- The tenant's key hash of a session; none for a session that is not open. -/
def State.spdmTenant (s : State) (session : Option Nat) : Option (Option (BitVec 384)) :=
  match session with
  | none => some none
  | some id => (s.rtp.spdm.find? fun x => x.id == id).map (·.tenant)

/-- GET_MEASUREMENTS: one block, and the attestation key's signature over the requester's nonce and it (R375, R376). -/
def execGetMeasurements (block : Nat) (nonce : BitVec 256) (session : Option Nat) (s : State) : Out :=
  .next (if !s.spdmUp then s
    else match if s.rtp.spdmVersion then s.spdmTenant session else none with
      | none => spdmAnswer (Config.spdmMessage [0x7F]) s
      | some tenant => match s.measurement tenant block with
        | some b =>
          let response := measurementBlock block b
          spdmAnswer (response ++ leBytes 96 (Config.ecdsaSign (s.rtp.attestKey.getD 0) (leBytes 32 nonce.toNat ++ response)).toNat) s
        | none => spdmAnswer (Config.spdmMessage [0x7F]) s)

/-- END_SESSION: the session's keys are destroyed (R355). -/
def execEndSession (session : Nat) (s : State) : Out :=
  .next { s with rtp := { s.rtp with spdm := s.rtp.spdm.filter fun x => x.id != session } }

end Sys2Proof.Machine
end

