-- ==== Sys2Proof/Machine/Transports.lean ====
section
/-! DEFINITION. The dictionary's transports: the Object Access Protocol over 10BASE-T1S with its sessions, and the I3C
sideband (R384–R395). -/

namespace Sys2Proof.Machine

/-! ## The management network (R387–R392) -/

/-- PLCA_NODE_ID, or the strap value where it reads 0xFF (R387). -/
def State.plcaNode (s : State) : Nat :=
  let n := s.dictNat 0x1110 1 0xFF
  if n = 0xFF then s.dict.i3cStrap.toNat else n

/-- PLCA_BEACON: what a beacon period shows of this node's place on the segment (R387, R398). -/
def execPlcaBeacon (beacon : Beacon) (s : State) : Out :=
  let node := s.plcaNode
  let r : Nat × Bool := if node = 0 then (0, false)
    else match beacon with
      | .none => (3, false)
      | .seen count opportunity => if count ≤ node then (2, true) else (if opportunity then 1 else 2, false)
  .next { s with dict := { s.dict with plcaState := r.1, plcaMuted := r.2 } }

/-- What a response repeats of a request. -/
def oapHeader (req : OapRequest) : OapHeader :=
  { peer := req.source, port := req.port, opcode := req.opcode, session := req.session, seq := req.seq, index := req.index, sub := req.sub }

/-- An OAP response that no session protects. -/
def oapAnswer (req : OapRequest) (r : DictResult) (s : State) : State := sendOap (oapHeader req) false r s

/-- Is an IPv6 address link-local, fe80::/10? Addresses read as the 16 bytes in order, the first the lowest (R387). -/
def isLinkLocal (a : BitVec 128) : Bool := field a 0 8 == 0xFE && field a 14 2 == 2

/-- Is a datagram taken: both addresses are link-local, and VERSION is 1 (R387, R388)? -/
def oapTaken (req : OapRequest) : Bool := isLinkLocal req.source && isLinkLocal req.dest && req.version == 1

/-- A status that refuses a header: an opcode that R388 does not list, or a LENGTH above 1,024 or other than that of the data, which
no rule names; LENGTH is a DESIGN CHOICE (log 184). -/
def oapMisfit (req : OapRequest) (opcode bytes : Nat) : Option Nat :=
  if req.opcode.toNat ≠ opcode then some 0x06
  else if 1024 < req.length.toNat ∨ req.length.toNat ≠ bytes then some 0x05
  else none

/-- A security event counted (R389). -/
def countSecurity (s : State) : State := { s with errors := { s.errors with security := s.errors.security + 1 } }

/-- A session by its ID. -/
def State.oapSession (s : State) (id : BitVec 32) : Option OapSession := s.dict.sessions.find? fun x => x.id == id

/-- A session ended. -/
def dropOapSession (id : BitVec 32) (s : State) : State := { s with dict := { s.dict with sessions := s.dict.sessions.filter fun x => x.id != id } }

/-- A session changed. -/
def modOapSession (id : BitVec 32) (f : OapSession → OapSession) (s : State) : State :=
  { s with dict := { s.dict with sessions := s.dict.sessions.map fun x => if x.id = id then f x else x } }

/-- A request within a session: a bad tag discards it and counts; the last SEQ again has the stored response again; the
next SEQ is executed; any other is discarded; the last SEQ of all ends the session (R389, R390). -/
def inSession (req : OapRequest) (opcode bytes : Nat) (x : OapSession) (body : State → State) (s : State) : State :=
  if !req.tagOk then countSecurity s
  else if req.seq = x.lastSeq ∧ x.response.isSome then
    match x.response with
    | some r => sendOap (oapHeader req) true r s
    | none => s
  else if req.seq ≠ x.lastSeq + 1 then s
  else
    let s := modOapSession req.session (fun x => { x with lastSeq := req.seq, response := none }) s
    let s := match oapMisfit req opcode bytes with
      | some n => deliver (.oap (oapHeader req)) (dictStatus n) s
      | none => body s
    if req.seq = 0xFFFFFFFF then dropOapSession req.session s else s

/-- A request over OAP: within its session, or outside one (R387–R391). -/
def oapRequest (req : OapRequest) (opcode bytes : Nat) (within : OapSession → State → State) (outside : State → State) (s : State) : State :=
  if !s.oapUp || !oapTaken req then s
  else match s.oapSession req.session with
    | some x => if req.session ≠ 0 ∧ x.proven then inSession req opcode bytes x (within x) s else oapAnswer req (dictStatus 0x0A) s
    | none =>
      match oapMisfit req opcode bytes with
      | some n => oapAnswer req (dictStatus n) s
      | none => if req.session = 0 then outside s else oapAnswer req (dictStatus 0x0A) s

/-- READ (R391). -/
def execRead (req : OapRequest) (s : State) : Out :=
  let run := fun (o : DictResult → State → State) (s : State) =>
    let r := dictRead req.index.toNat req.sub.toNat s
    o r.1 r.2
  .next (oapRequest req 0x01 req.data.length (fun _ s => run (deliver (.oap (oapHeader req))) s)
    (fun s => if req.index = 0x1000 ∨ (req.index = 0x1100 ∧ req.sub = 1) then run (oapAnswer req) s else oapAnswer req (dictStatus 0x0A) s) s)

/-- WRITE (R391). -/
def execWrite (req : OapRequest) (s : State) : Out :=
  .next (oapRequest req 0x02 req.data.length (fun x s => writeEntry (.oap x.role) (.oap (oapHeader req)) req.index.toNat req.sub.toNat req.data s)
    (oapAnswer req (dictStatus 0x0A)) s)

/-- The role whose anchor a certificate's issuer hashes to (R385). -/
def State.anchorRole (s : State) (cert : OperatorCert) : Option Role :=
  let is := fun sub => cert.issuerHash != 0 && leNat (s.stored 0x1101 sub) == cert.issuerHash.toNat
  if is 3 then some .calibrator else if is 2 then some .operator else if is 1 then some .observer else none

/-- Is a serial number on the deny list (R385)? -/
def State.denied (s : State) (serial : BitVec 160) : Bool :=
  serial != 0 && (List.range 16).any fun i => leNat (s.stored 0x1102 (i + 1)) == serial.toNat

/-- The device's ephemeral key, its nonce and its signature, as SESSION_OPEN answers them (R389): free values. -/
def sessionOffer (s : State) : List Byte × State :=
  ((List.range 241).map fun i => Config.freeByte (s.free + i), { s with free := s.free + 241 })

/-- SESSION_OPEN (R384, R385, R389): outside a session, a certificate of at most 900 bytes and the 97-byte key. -/
def openSession (req : OapRequest) (cert : OperatorCert) (s : State) : State :=
  if s.dict.cert.isNone then oapAnswer req (dictStatus 0x0A) s
  else if req.data.length < 98 ∨ 997 < req.data.length then oapAnswer req (dictStatus 0x05) s
  else if 8 ≤ s.dict.sessions.length then oapAnswer req (dictStatus 0x09) s
  else match (if cert.valid && !s.denied cert.serial then s.anchorRole cert else none) with
    | none => oapAnswer req (dictStatus 0x0A) (countSecurity s)
    | some role =>
      let offer := sessionOffer s
      let id := s.dict.nextSession
      let s := { offer.2 with dict := { offer.2.dict with
        nextSession := if id = 0xFFFFFFFF then 1 else id + 1
        sessions := offer.2.dict.sessions ++ [{ id := id, role := role, proven := false, lastSeq := 0, response := none }] } }
      oapAnswer req (dictData (leBytes 4 id.toNat ++ offer.1)) s

/-- SESSION_OPEN. -/
def execSessionOpen (req : OapRequest) (cert : OperatorCert) (s : State) : Out :=
  .next (oapRequest req 0x03 req.data.length (fun _ s => deliver (.oap (oapHeader req)) (dictStatus 0x0A) s) (openSession req cert) s)

/-- SESSION_PROVE: the client's signature opens the session; a bad one ends the exchange (R389). -/
def execSessionProve (req : OapRequest) (signatureOk : Bool) (s : State) : Out :=
  if !s.oapUp || !oapTaken req then .next s
  else match oapMisfit req 0x04 req.data.length with
    | some n => .next (oapAnswer req (dictStatus n) s)
    | none =>
      match s.oapSession req.session with
      | none => .next (oapAnswer req (dictStatus 0x0A) s)
      | some x =>
        if x.proven then .next (oapAnswer req (dictStatus 0x0A) s)
        else if signatureOk then .next (oapAnswer req dictOk (modOapSession req.session (fun x => { x with proven := true }) s))
        else .next (oapAnswer req (dictStatus 0x0A) (countSecurity (dropOapSession req.session s)))

/-- SESSION_CLOSE: the last response of the session is tagged (R389). -/
def execSessionClose (req : OapRequest) (s : State) : Out :=
  .next (oapRequest req 0x05 req.data.length (fun _ s => dropOapSession req.session (deliver (.oap (oapHeader req)) dictOk s))
    (oapAnswer req (dictStatus 0x0A)) s)

/-- SESSION_TIMEOUT: 600 s without a valid request (R389). -/
def execSessionTimeout (session : BitVec 32) (s : State) : Out := .next (dropOapSession session s)

/-- A bundle chunk over OAP: BUNDLE_OVER_OAP, the source address BUNDLE_SOURCE, and a device that waits for a bundle (R392). -/
def takeChunk (source : BitVec 128) (offset : Nat) (data : List Byte) (verdict : BundleVerdict) (s : State) : DictResult × State :=
  if s.dictNat 0x11F0 1 0 = 0 ∨ leNat (s.stored 0x11F0 2) ≠ source.toNat ∨ s.deviceState ≠ some 6 then (dictStatus 0x07, s)
  else if s.rtp.owner = some .mailbox then (dictStatus 0x09, s)
  else (dictOk, (bundleStep .oap offset data verdict s).2)

/-- BUNDLE_CHUNK (R391, R392). -/
def execBundleChunk (req : OapRequest) (offset : Nat) (data : List Byte) (verdict : BundleVerdict) (s : State) : Out :=
  let run := fun (o : DictResult → State → State) (s : State) =>
    let r := takeChunk req.source offset data verdict s
    o r.1 r.2
  .next (oapRequest req 0x06 (8 + data.length) (fun _ s => run (deliver (.oap (oapHeader req))) s) (run (oapAnswer req)) s)

/-! ## The I3C sideband (R393–R395) -/

/-- The I3C access before this one has its result lost (R393). -/
def loseI3c (s : State) : State :=
  { s with dict := { s.dict with
    i3c := none
    queue := s.dict.queue.map fun w => if w.origin = .i3c then { w with origin := .i3cLost } else w } }

/-- PRIVATE_WRITE: an access that replaces the one before it, once that one no longer waits on the flash (R393). -/
def execI3cPrivateWrite (index : BitVec 16) (sub : BitVec 8) (isWrite : Bool) (data : List Byte) (s : State) : Out :=
  .next (if s.answers then
      let s := loseI3c s
      pumpI3c (s.dict.i3cNext ++ [{ index := index, sub := sub, isWrite := isWrite, data := data }]) { s with dict := { s.dict with i3cNext := [] } }
    else s)

/-- PRIVATE_READ: the result is taken; it is NACKed while there is none, or an access still waits on the flash (R393). -/
def execI3cPrivateRead (s : State) : Out :=
  if !s.answers then .next s
  else if s.i3cWaits then .next { s with dict := { s.dict with i3cRead := none } }
  else .next { s with dict := { s.dict with i3cRead := s.dict.i3c, i3c := none } }

/-- A dynamic address is assigned to a target that has none. -/
def assignDynamic (address : BitVec 7) (s : State) : State :=
  if !s.answers || s.dict.i3cDynamic.isSome then s else { s with dict := { s.dict with i3cDynamic := some address } }

/-- SETDASA (R393). -/
def execSetdasa (address : BitVec 7) (s : State) : Out := .next (assignDynamic address s)

/-- ENTDAA (R393). -/
def execEntdaa (address : BitVec 7) (s : State) : Out := .next (assignDynamic address s)

end Sys2Proof.Machine
end

