-- ==== Sys2Proof/Machine/Vat.lean ====
section
/-! DEFINITION. The matrix unit: TLD and TST on the tile pipe; WLD, MMT and MMS on the array; and the halt a
poisoned row causes after issue (R105–R133, R451). -/

namespace Sys2Proof.Machine

/-! ## Fields (R122, R123, R124, R129) -/

/-- The row count M of ROWS. -/
def tRows (w : Nat) : Nat := bits w 34 5 + 1
/-- Row bytes of RBYTES. -/
def tBytes (w : Nat) : Nat := 16 * (bits w 39 3 + 1)
/-- FMT of a matrix-unit instruction. -/
def tFmt (w : Nat) : Nat := bits w 42 4
/-- TR of a TLD or TST. -/
def tTrans (w : Nat) : Bool := bit w 46
/-- FIRST of a TLD or TST. -/
def tFirst (w : Nat) : Nat := bits w 47 5
/-- The stride of a TLD or TST in bytes; 0 means RBYTES. -/
def tStride (w : Nat) : Nat := if bits w 96 16 = 0 then tBytes w else 16 * bits w 96 16
/-- WFMT. -/
def mWfmt (w : Nat) : Nat := bits w 46 4
/-- KEEP. -/
def mKeep (w : Nat) : Bool := bit w 50
/-- ORIENT: row form. -/
def mOrient (w : Nat) : Bool := bit w 51
/-- ACC. -/
def mAcc (w : Nat) : Bool := bit w 52
/-- ATR. -/
def mAtr (w : Nat) : Bool := bit w 53
/-- WSCL. -/
def mWscl (w : Nat) : Nat := bits w 54 6
/-- OFMT. -/
def mOfmt (w : Nat) : Nat := bits w 60 2
/-- OBLK. -/
def mOblk (w : Nat) : Bool := bit w 62
/-- ATILE. -/
def mAtile (w : Nat) : Nat := bits w 64 6
/-- ASCL. -/
def mAscl (w : Nat) : Nat := bits w 70 6
/-- The low address operand: ADDR of a TLD or TST, SRCADDR of an MMS. -/
def mSrcOp (w : Nat) : Nat := bits w 64 32
/-- OUTADDR of an MMS. -/
def mOutOp (w : Nat) : Nat := bits w 96 32

/-- The palette entry of a tile register as it stands at issue (R72, R109). -/
def CoreRegs.pal (g : CoreRegs) (n : Nat) : BitVec 13 := (g.tpal[n]?).getD 0

/-! ## The rules of R115 -/

/-- A rule code when its condition fails. -/
def breaks (cond : Bool) (code : Nat) : Option Nat := if cond then some code else none

/-- TSHAPE with the lowest of the codes that the failed rules have (R116). -/
def lowestTshape (l : List (Option Nat)) : Option FaultReq :=
  match l.filterMap id with
  | [] => none
  | h :: t => some (tshape (t.foldl min h))

/-- The checks of R109 on a tile, with the highest row touched. -/
def paletteCodes (p : BitVec 13) (h : Nat) : List (Option Nat) := [breaks (!palOk p) 0x0B, breaks (palOk p && !palFits p h) 0x0C]

/-- The rows of a tile accessed from a first cycle on, one a cycle. -/
def rowUses (p : BitVec 13) (array : Bool) (first count cycle : Nat) : List BankUse :=
  (List.range count).map fun i => { cycle := cycle + i, pair := rowPair p (first + i), array := array }

/-- Do two accesses need one pair in one half-cycle (R132, R133)? -/
def BankUse.clash (a b : BankUse) : Bool := a.cycle == b.cycle && a.pair == b.pair && a.array == b.array

/-- Does a list of accesses collide with itself? -/
def selfClash : List BankUse → Bool
  | [] => false
  | h :: t => t.any h.clash || selfClash t

/-- BANK: the accesses of an instruction collide among themselves or with those still to come from its pipe's
instruction before it (R132, R133). -/
def bankClash (k : Core) (uses : List BankUse) : Bool :=
  selfClash uses || uses.any fun u => k.flight.banks.any u.clash

/-- The device address a program address forms, if it forms one (R178). -/
def State.deviceAddress (s : State) (c : CoreId) (a : Word) : Option Nat :=
  let d := s.segOf (s.corePart c) a
  if segValid d && reservedZero a then some (segBase d + offsetOf a) else none

/-- ALIGN: the device address of a local-store address is no multiple of 16 (R115, R178). -/
def misaligned (x : Issue) (a : Word) : Bool :=
  match x.st.deviceAddress x.core a with
  | some d => d % 16 != 0
  | none => false

/-- The first failing access of several, by check and then by order (R178, R479). -/
def spansFault (l : List (Word × Except AccessFault Nat)) : Option FaultReq :=
  [AccessFault.scope, .limit, .rights, .align].findSome? fun f =>
    (l.find? fun p => match p.2 with | .error e => e == f | .ok _ => false).map fun p => accessFault f p.1

/-- The local-store offset of a resolved access. -/
def spanOffset (x : Issue) (r : Except AccessFault Nat) : Nat :=
  match r with
  | .ok d => d - lsBase x.core
  | .error _ => 0

/-- POISON from an address operand whose base is a marked X register (R451). -/
def operandPoison (x : Issue) (op : Nat) : Option FaultReq :=
  if (addressOperand x.k.regs op).2 then some (poisonReg (bits op 5 5)) else none

/-- The audit names an address operand reads. -/
def operandReads (op : Nat) : List Nat := if bit op 4 then [] else [auditX (bits op 5 5)]

/-! ## TLD and TST (R129, R130) -/

/-- A matrix-unit row of an opcode: the tile pipe or the array. -/
def matrixRow (opc unit : Nat) (legal : Nat → Bool) : CoreRow :=
  { eng := 2, opc := opc, long := true, picks := fun _ _ => true, legal := fun _ w => legal w, unit := unit, reaches := reachesNothing }

/-- The shape rules of a TLD or TST (R115, R130). -/
def tileShape (x : Issue) (p : BitVec 13) (load : Bool) (addr : Word) (uses : List BankUse) : Option FaultReq :=
  let w := x.w
  let fmt := tFmt w
  let size := storageBits fmt
  lowestTshape ([
    breaks (decide (13 < fmt)) 0x01,
    breaks (tTrans w && load && isBlocked fmt) 0x03,
    breaks (decide (fmt ≤ 13) && tBytes w % groupBytes fmt != 0) 0x06,
    breaks (decide (32 < tFirst w + tRows w)) 0x07,
    breaks (tTrans w && (!load || size == 4 || tRows w != 32 || tFirst w != 0 || tBytes w != 4 * size)) 0x09,
    breaks (misaligned x addr) 0x0A]
    ++ paletteCodes p (tFirst w + tRows w - 1)
    ++ [breaks (bankClash x.k uses) 0x0D])

/-- A tile move: its checks in the order of R479, then its rows. -/
def tileMove (load : Bool) (x : Issue) : Except FaultReq Effect :=
  let w := x.w
  let g := x.k.regs
  let p := g.pal (if load then wDst w else wSrc1 w)
  let addr := (addressOperand g (mSrcOp w)).1
  let uses := rowUses p false (tFirst w) (tRows w) (x.now + if load then 6 else 1)
  let sources := (List.range (tRows w)).map fun i =>
    let a := addOffset addr (i * tStride w : Nat)
    (a, x.st.ownAccess x.core a (tBytes w) (if load then .rd else .wr) 1)
  let ports := (List.range (tRows w)).map fun i =>
    ({ cycle := x.now + (if load then 1 else 2) + i, bytes := tBytes w, write := !load } : PortUse)
  let move : TileMove := {
    tpal := p, first := tFirst w, rows := tRows w, rbytes := tBytes w, stride := tStride w
    addr := spanOffset x (x.st.ownAccess x.core addr (tBytes w) (if load then .rd else .wr) 1)
    esize := if load && tTrans w then some (storageBits (tFmt w) / 8) else none }
  checked [operandPoison x (mSrcOp w),
      tileShape x p load addr uses,
      spansFault sources,
      if !load && (List.range (tRows w)).any (fun i => g.tileMarked p (tFirst w + i)) then some (poisonReg (wSrc1 w)) else none,
      lsPort x.k x.now ports]
    { x.plain with
      occupancy := tRows w, reads := operandReads (mSrcOp w), banks := uses, ports := ports
      acts := [(x.now + 1, phaseRead, if load then .tldRow move 0 else .tstRow move 0)] }

/-- TLD (R121, R129). -/
def execTld (c : CoreId) (s : State) : Out := issueOut (matrixRow 0x01 2 fun _ => true) c (tileMove true) s

/-- TST (R121, R129). -/
def execTst (c : CoreId) (s : State) : Out := issueOut (matrixRow 0x02 2 fun _ => true) c (tileMove false) s

/-! ## The array (R114, R118–R128, R132, R133) -/

/-- Which of WLD, MMT and MMS an array instruction is. -/
inductive ArrayOp where
  | wld | mmt | mms
deriving DecidableEq, Repr

/-- Does an array instruction load weights (R120, R122)? -/
def loadsWeights (o : ArrayOp) (w : Nat) : Bool := o == .wld || !mKeep w

/-- The slot class of an array instruction, if its formats have one (R37). -/
def arraySlot (w : Nat) : Option SlotClass :=
  match slotOf? (tFmt w), slotOf? (mWfmt w) with
  | some a, some b => some (widest a b)
  | _, _ => none

/-- The stream parameters of an MMS (R124). -/
def mmsParams (x : Issue) : Word := x.x (wDst x.w)

/-- The row count of an array instruction. -/
def arrayRows (o : ArrayOp) (x : Issue) : Nat :=
  match o with
  | .wld => 0
  | .mmt => tRows x.w
  | .mms => bits (mmsParams x).toNat 0 16

/-- CONV of an MMS. -/
def mmsConv (x : Issue) : Nat := bits (mmsParams x).toNat 16 8

/-- The rows of each weight tile that a load reads (R118). -/
def weightTileRows (c : SlotClass) (w : Nat) : Nat := 2 * quarterBytes c (mWfmt w) / 128

/-- The rows of the weight scale tile that a load reads (R119). -/
def scaleTileRows (w : Nat) : Nat :=
  if mWfmt w = 5 then 4 else if hasZeroPoint (mWfmt w) then 12 else if isBlocked (mWfmt w) then 8 else 0

/-- The tiles an array instruction uses, each with the highest row it touches (R109). -/
def arrayTiles (o : ArrayOp) (x : Issue) (c : SlotClass) : List (Nat × Nat) :=
  let w := x.w
  (if loadsWeights o w then
      [(wSrc1 w, weightTileRows c w - 1), (wSrc2 w, weightTileRows c w - 1)]
        ++ (if scaleTileRows w = 0 then [] else [(mWscl w, scaleTileRows w - 1)])
    else [])
  ++ (if o == .mmt && wDst w % 4 == 0 then
      (mAtile w, tRows w - 1) :: ((if isBlocked (tFmt w) then [(mAscl w, tRows w - 1)] else [])
        ++ (List.range 4).map fun d => (wDst w + d, tRows w - 1))
    else [])

/-- Are the groups of several tiles pairwise different? -/
def groupsApart (g : CoreRegs) (tiles : List Nat) : Bool := decide ((tiles.map fun t => palGroup (g.pal t)).Nodup)

/-- The bank accesses of an array instruction (R79, R118, R119, R125). -/
def arrayUses (o : ArrayOp) (x : Issue) (c : SlotClass) : List BankUse :=
  let w := x.w
  let g := x.k.regs
  let weight (t rows per : Nat) : List BankUse :=
    (List.range rows).map fun r => { cycle := x.now + r / per, pair := rowPair (g.pal t) r, array := true }
  let o8 := if loadsWeights o w then 8 else 0
  (if loadsWeights o w then
      weight (wSrc1 w) (weightTileRows c w) 4 ++ weight (wSrc2 w) (weightTileRows c w) 4 ++ weight (mWscl w) (scaleTileRows w) 2
    else [])
  ++ (if o == .mmt then
      rowUses (g.pal (mAtile w)) true 0 (tRows w) (x.now + 1 + o8)
        ++ (if isBlocked (tFmt w) then rowUses (g.pal (mAscl w)) true 0 (tRows w) (x.now + 1 + o8) else [])
        ++ (List.range 4).flatMap fun d =>
          (if mAcc w then rowUses (g.pal (wDst w + d)) true 0 (tRows w) (x.now + 4 + o8) else [])
            ++ rowUses (g.pal (wDst w + d)) true 0 (tRows w) (x.now + 5 + o8)
    else [])

/-- A placement rule of R132 fails. -/
def misplaced (o : ArrayOp) (x : Issue) : Bool :=
  let w := x.w
  let g := x.k.regs
  let scale := if scaleTileRows w = 0 then [] else [mWscl w]
  let rowTiles := mAtile w :: ((if isBlocked (tFmt w) then [mAscl w] else []) ++ (List.range 4).map (wDst w + ·))
  (loadsWeights o w
      && (palWidth (g.pal (wSrc1 w)) != 4 || palWidth (g.pal (wSrc2 w)) != 4
        || scale.any (fun t => palWidth (g.pal t) == 1) || !groupsApart g (wSrc1 w :: wSrc2 w :: scale)))
    || (o == .mmt
      && (!groupsApart g rowTiles || (mAcc w && (List.range 4).any fun d => palWidth (g.pal (wDst w + d)) == 1)))

/-- The shape rules of an array instruction (R115). The tile rules apply once its formats give it a slot. -/
def arrayShape (o : ArrayOp) (x : Issue) (src out : Word) : Option FaultReq :=
  let w := x.w
  let fmt := tFmt w
  let m := arrayRows o x
  let keep := !loadsWeights o w
  let l := x.k.regs.latches
  let mms := o == .mms
  let shape := match arraySlot w with
    | none => []
    | some c =>
      [breaks (o != .wld && tBytes w != actRowBytes c fmt) 0x05,
       breaks (keep && (BitVec.ofNat 4 (mWfmt w) != l.wfmt || c != l.slot)) 0x08]
      ++ (arrayTiles o x c).flatMap (fun t => paletteCodes (x.k.regs.pal t.1) t.2)
      ++ [breaks (misplaced o x || bankClash x.k (arrayUses o x c)) 0x0D]
  lowestTshape ([
    breaks (decide (13 < fmt) || decide (13 < mWfmt w)) 0x01,
    breaks (fmt == 0 || mWfmt w == 0 || (o == .mmt && wDst w % 4 != 0) || (mms && mAcc w && mOfmt w != 0)) 0x02,
    breaks (mms && mAtr w && isBlocked fmt) 0x03,
    breaks (mms && mOfmt w != 0 && bit (mmsConv x) 1) 0x04,
    breaks (mms && m == 0) 0x07,
    breaks (mms && mAtr w && !isBlocked fmt
      && (tBytes w != 64 || !((storageBits fmt == 16 && m % 32 == 0) || (storageBits fmt == 8 && m % 64 == 0)))) 0x09,
    breaks (mms && (misaligned x src || misaligned x out)) 0x0A] ++ shape)

/-- The weight load of an instruction (R118, R119). -/
def weightLoad (x : Issue) (c : SlotClass) : WLoad :=
  let w := x.w
  let g := x.k.regs
  { w0 := g.pal (wSrc1 w), w1 := g.pal (wSrc2 w), wscl := if scaleTileRows w = 0 then none else some (g.pal (mWscl w))
    q := quarterBytes c (mWfmt w), rowForm := mOrient w, wfmt := BitVec.ofNat 4 (mWfmt w), slot := c }

/-- The weight load's first stage, read in the issue cycle, and its next: the acts and the rows read (R79). -/
def startWeights (x : Issue) (c : SlotClass) : List (Nat × Nat × Act) × List Nat :=
  let l := weightLoad x c
  let r := weightRows x.k.regs l 0 { Latches.reset with rowForm := l.rowForm, wfmt := l.wfmt, slot := c }
  ([(x.now + 1, phaseRead, .wlRows l 1 r.1)], r.2)

/-- The acts and reads of an array instruction's weight phase. -/
def weightPhase (o : ArrayOp) (x : Issue) : List (Nat × Nat × Act) × List Nat :=
  match arraySlot x.w with
  | some c => if loadsWeights o x.w then startWeights x c else ([], [])
  | none => ([], [])

/-- The bank uses of an array instruction whose formats have a slot. -/
def arrayBanks (o : ArrayOp) (x : Issue) : List BankUse :=
  match arraySlot x.w with
  | some c => arrayUses o x c
  | none => []

/-- WLD: the weights, and nothing else, for 8 core cycles (R79, R118). -/
def loadWeights (x : Issue) : Except FaultReq Effect :=
  let p := weightPhase .wld x
  checked [arrayShape .wld x 0 0] { x.plain with occupancy := 8, acts := p.1, reads := p.2, banks := arrayBanks .wld x }

/-- WLD (R121). -/
def execWld (c : CoreId) (s : State) : Out := issueOut (matrixRow 0x10 3 fun _ => true) c loadWeights s

/-- MMT: tile mode (R125). -/
def tileMode (x : Issue) : Except FaultReq Effect :=
  let w := x.w
  let g := x.k.regs
  let p := weightPhase .mmt x
  let o8 := if loadsWeights .mmt w then 8 else 0
  let run : MmtRun := {
    d := (List.range 4).map fun d => g.pal (wDst w + d), a := g.pal (mAtile w)
    ascl := if isBlocked (tFmt w) then some (g.pal (mAscl w)) else none
    rows := tRows w, rbytes := tBytes w, fmt := BitVec.ofNat 4 (tFmt w), acc := mAcc w }
  checked [arrayShape .mmt x 0 0]
    { x.plain with
      occupancy := o8 + tRows w, reads := p.2, banks := arrayBanks .mmt x
      acts := p.1 ++ [(x.now + 1 + o8, phaseRead, .mmtRow run 0)] }

/-- MMT (R121). -/
def execMmt (c : CoreId) (s : State) : Out := issueOut (matrixRow 0x11 3 fun _ => true) c tileMode s

/-- The port bytes of an MMS (R128, R180). -/
def mmsPorts (x : Issue) (o8 m size : Nat) : List PortUse :=
  let w := x.w
  (List.range m).flatMap fun i =>
    ({ cycle := x.now + 7 + o8 + i, bytes := tBytes w + (if isBlocked (tFmt w) then 16 else 0), write := false } : PortUse)
      :: ((if mAcc w then [{ cycle := x.now + 10 + o8 + i, bytes := 512, write := false }] else [])
        ++ [{ cycle := x.now + 11 + o8 + i, bytes := 128 * size, write := true }])

/-- MMS: stream mode (R126–R128). -/
def streamMode (x : Issue) : Except FaultReq Effect :=
  let w := x.w
  let g := x.k.regs
  let p := weightPhase .mms x
  let o8 := if loadsWeights .mms w then 8 else 0
  let m := arrayRows .mms x
  let size := storageBits (ofmtCode (mOfmt w)) / 8
  let src := (addressOperand g (mSrcOp w)).1
  let out := (addressOperand g (mOutOp w)).1
  let input := x.st.ownAccess x.core src (m * tBytes w + if isBlocked (tFmt w) then 16 * m else 0) .rd 1
  let held := x.st.ownAccess x.core out (128 * m * size) .rd 1
  let output := x.st.ownAccess x.core out (128 * m * size) .wr 1
  let ports := mmsPorts x o8 m size
  let run : MmsRun := {
    src := spanOffset x input, out := spanOffset x output, rows := m, rbytes := tBytes w, fmt := BitVec.ofNat 4 (tFmt w)
    acc := mAcc w, atr := mAtr w, ofmt := mOfmt w, oblk := mOblk w, conv := BitVec.ofNat 8 (mmsConv x)
    oscale := BitVec.ofNat 32 (bits (mmsParams x).toNat 32 32) }
  checked [poisonX g [wDst w], operandPoison x (mSrcOp w), operandPoison x (mOutOp w),
      arrayShape .mms x src out,
      spansFault ((src, input) :: ((if mAcc w then [(out, held)] else []) ++ [(out, output)])),
      lsPort x.k x.now ports]
    { x.plain with
      occupancy := o8 + m, banks := arrayBanks .mms x, ports := ports
      reads := auditX (wDst w) :: (operandReads (mSrcOp w) ++ operandReads (mOutOp w) ++ p.2)
      acts := p.1 ++ [(x.now + 7 + o8, phaseRead, .mmsRow run 0)] }

/-- MMS (R121). -/
def execMms (c : CoreId) (s : State) : Out := issueOut (matrixRow 0x20 3 fun w => field32 (wDst w)) c streamMode s

/-! ## A poisoned row met after issue (R96, R451) -/

/-- POISON_ROW_HALT: the cycle in which a poisoned row of a TST or converting MMS would be written halts the
core; without one ahead of the next issue nothing happens. -/
def execPoisonRowHalt (c : CoreId) (s : State) : Out :=
  let s' := runPending c s
  .next (if ((s.core c).ctl.state = .running ∨ (s.core c).ctl.state = .waiting) ∧ (s'.core c).ctl.state = .halted then s' else s)

end Sys2Proof.Machine
end

