-- ==== Sys2Proof/Machine/VectorMem.lean ====
section
/-! DEFINITION. The vector loads and stores, gathers and scatters (R153–R160). -/

namespace Sys2Proof.Machine

/-- ADDR of a vector memory form. -/
def vmAddr (w : Nat) : Nat := bits w 64 32
/-- ISH of a gather or scatter. -/
def vmIsh (w : Nat) : Nat := bits w 96 4

/-- How a form's element addresses are made: n fields in a row, a stride register, or an index register (R154). -/
inductive MemForm where
  | unit (n : Nat)
  | strided
  | indexed
deriving DecidableEq, Repr

/-- The fields an element has. -/
def MemForm.fields (m : MemForm) : Nat :=
  match m with
  | .unit n => n
  | _ => 1

/-- The stores among the vector memory opcodes, which have no destination element and so do not use ZM (R138, R153). -/
def storesOpc (opc : Nat) : Bool := decide (opc ∈ [0x81, 0x83, 0x87, 0x88, 0x89, 0x8E])

/-- A vector memory row: 128 bits; unused fields zero, registers in range (R139, R153, R154). -/
def vmemRow (opc : Nat) (m : MemForm) : CoreRow :=
  { eng := 1, opc := opc, long := true, picks := fun _ _ => true, unit := 1, reaches := reachesNothing,
    legal := fun _ w =>
      bareForm w && wSrc3 w == 0 && decide (wDst w + m.fields ≤ 32) && !(vZm w && storesOpc opc)
        && (match m with
          | .unit _ => wSrc1 w == 0 && wSrc2 w == 0 && vmIsh w == 0
          | .strided => wSrc1 w == 0 && field32 (wSrc2 w) && vmIsh w == 0
          | .indexed => field32 (wSrc1 w) && wSrc2 w == 0 && decide (vmIsh w ≤ 12) && decide (2 ≤ vEsz w)) }

/-- The offset from the base to field f of element i (R154). -/
def memOffset (x : Issue) (m : MemForm) (i f : Nat) : Int :=
  match m with
  | .unit n => ((i * n + f) * vSize x.w : Nat)
  | .strided => (i : Int) * (x.x (wSrc2 x.w)).toInt
  | .indexed => (bits (x.k.regs.readV (wSrc1 x.w)).toNat (8 * vSize x.w * i) (8 * vSize x.w) * 2 ^ vmIsh x.w : Nat)

/-- The program address of field f of element i (R154). -/
def memAddress (x : Issue) (m : MemForm) (i f : Nat) : Word :=
  addOffset (addressOperand x.k.regs (vmAddr x.w)).1 (memOffset x m i f)

/-- The resolved fields of an element, or its fault: that of the earliest check any field fails, with the
first such field's address (R155). -/
def elementAccess (x : Issue) (m : MemForm) (r : Right) (i : Nat) : Except (AccessFault × Word) (List Nat) :=
  let fs := (List.range m.fields).map fun f => (memAddress x m i f, x.st.ownAccess x.core (memAddress x m i f) (vSize x.w) r (vSize x.w))
  match [AccessFault.scope, .limit, .rights, .align].findSome? fun a => (fs.find? fun p => match p.2 with | .error e => e == a | .ok _ => false).map fun p => (a, p.1) with
  | some e => .error e
  | none => .ok (fs.map fun p => match p.2 with | .ok d => d - lsBase x.core | .error _ => 0)

/-- The first element: VSTART on a reissue, otherwise 0 (R156). -/
def firstElement (x : Issue) : Nat := if x.reissue then x.k.regs.vstart.toNat else 0

/-- The active elements from the first on, in ascending order (R155). -/
def activeElements (x : Issue) : List Nat :=
  ((activeBits x.k.regs x.w (vl (vSize x.w))).zipIdx.filter fun p => p.1 && decide (firstElement x ≤ p.2)).map (·.2)

/-- What the checks of R155 find: the elements that resolve below the first failing one, with their
local-store offsets, and that element with its failed check and address. -/
structure MemCheck where
  good : List (Nat × List Nat)
  bad : Option (Nat × AccessFault × Word)

/-- The active elements checked in order up to the first that fails (R155). -/
def checkElements (x : Issue) (m : MemForm) (r : Right) : List Nat → MemCheck
  | [] => { good := [], bad := none }
  | i :: t =>
    match elementAccess x m r i with
    | .error e => { good := [], bad := some (i, e) }
    | .ok offs => let rest := checkElements x m r t; { rest with good := (i, offs) :: rest.good }

/-- POISON from the registers that give addresses: the base, the stride or the index register (R451). -/
def memPoison (x : Issue) (m : MemForm) : Option FaultReq :=
  if (addressOperand x.k.regs (vmAddr x.w)).2 then some (poisonReg (bits (vmAddr x.w) 5 5))
  else match m with
    | .strided => poisonX x.k.regs [wSrc2 x.w]
    | .indexed => poisonV x.k.regs [wSrc1 x.w]
    | .unit _ => none

/-- The registers a form's reads are audited under. -/
def memReads (x : Issue) (m : MemForm) : List Nat :=
  (if bit (vmAddr x.w) 4 then [] else [auditX (bits (vmAddr x.w) 5 5)])
    ++ (match m with | .strided => [auditX (wSrc2 x.w)] | .indexed => [auditV (wSrc1 x.w)] | .unit _ => [])

/-- The port bytes of a form: 128 per field at t + 1 and at t + 2, whatever its elements (R180). -/
def memPorts (x : Issue) (m : MemForm) (write : Bool) : List PortUse :=
  [{ cycle := x.now + 1, bytes := 128 * m.fields, write := write }, { cycle := x.now + 2, bytes := 128 * m.fields, write := write }]

/-- The fault of the first active element checked, when it is the one that fails (R155). -/
def firstElementFault (k : MemCheck) : Option FaultReq :=
  match k.bad with
  | some (_, f, a) => if k.good.isEmpty then some (accessFault f a) else none
  | none => none

/-- ELEMENT for a later element (R155). -/
def elementFault (k : MemCheck) : Option FaultReq :=
  match k.bad with
  | some (i, f, a) => if k.good.isEmpty then none else some { code := 0x0C, detail := f.code, addr := a, aux := i }
  | none => none

/-- The end of what an instruction does with its elements: below the failing one, or all (R155). -/
def elementEnd (x : Issue) (k : MemCheck) : Nat :=
  match k.bad with
  | some (i, _, _) => i
  | none => vl (vSize x.w)

/-- An instruction with ELEMENT beside its partial effect: VSTART holds the element (R155). In a handler
nothing of it takes place: it is DOUBLE_FAULT (R157). -/
def withElement (x : Issue) (f : Option FaultReq) (e : Effect) : Except FaultReq Effect :=
  match f with
  | none => .ok e
  | some q =>
    if x.k.ctl.handler then .error q
    else .ok { e with fault := some q, st := e.st.modRegs x.core fun g => { g with vstart := BitVec.ofNat 64 q.aux } }

/-- VSTART zero from the next cycle, when a reissue completes (R155, R156). -/
def vstartDone (x : Issue) : List (Nat × Nat × Act) := if x.reissue then [(x.now + 1, phaseResult, .wVstart 0)] else []

/-- A vector load (R154–R156, R180): the lower half of the elements at t + 1, the upper at t + 2, the result at
its latency; a first-fault form writes FFR then and takes no trap (R152). -/
def vectorLoad (m : MemForm) (latency : Nat) (ff : Bool) (x : Issue) : Except FaultReq Effect :=
  let s := vSize x.w
  let n := vl s
  let ports := memPorts x m false
  let plain := { x.vplain (memReads x m) [] with ports := ports }
  if n ≤ firstElement x then checked [memPoison x m, lsPort x.k x.now ports] { plain with acts := [(x.now + 1, phaseResult, .wVstart 0)] }
  else
    let k := checkElements x m .rd (activeElements x)
    let stop := elementEnd x k
    let written := (activeBits x.k.regs x.w n).zipIdx.map fun p => decide (firstElement x ≤ p.2) && decide (p.2 < stop) && (p.1 || vZm x.w)
    let mask := BitVec.ofNat 256 (packFields s (written.map fun b => if b then 2 ^ s - 1 else 0))
    let regs := (List.range m.fields).map (wDst x.w + ·)
    let moves (l : List (Nat × List Nat)) : List Move :=
      l.flatMap fun p => p.2.zipIdx.map fun o => { reg := wDst x.w + o.2, pos := s * p.1, addr := o.1, len := s }
    let lower := k.good.filter fun p => decide (p.1 < n / 2)
    let upper := k.good.filter fun p => decide (n / 2 ≤ p.1)
    let ffr := if k.bad.isSome then packPred ((List.range n).map fun i => (activeBits x.k.regs x.w n).getD i false && decide (i < stop)) else packPred (activeBits x.k.regs x.w n)
    let acts := (x.now + 1, phaseRead, Act.vRead (moves lower) (moves upper) (regs.map fun r => (r, 0)) (regs.map fun r => (r, mask)) [] (x.now + latency))
      :: ((if ff then [(x.now + latency, phaseResult, .wFfr ffr)] else []) ++ (if k.bad.isSome then [] else vstartDone x))
    match firstFault [memPoison x m, firstElementFault k, lsPort x.k x.now ports] with
    | some f => .error f
    | none => withElement x (if ff then none else elementFault k) { plain with acts := acts }

/-- A vector store (R154–R156, R158, R180): the lower half of the elements written at t + 1, the upper at t + 2. -/
def vectorStore (m : MemForm) (x : Issue) : Except FaultReq Effect :=
  let s := vSize x.w
  let n := vl s
  let ports := memPorts x m true
  let regs := (List.range m.fields).map (wDst x.w + ·)
  let plain := { x.vplain (memReads x m ++ regs.map auditV) [] with ports := ports }
  if n ≤ firstElement x then
    checked [memPoison x m, lsPort x.k x.now ports] { plain with acts := [(x.now + 1, phaseResult, .wVstart 0)] }
  else
    let k := checkElements x m .wr (activeElements x)
    let runs (l : List (Nat × List Nat)) : List (Nat × List Byte) :=
      l.flatMap fun p => p.2.zipIdx.map fun o => (o.1, leBytes s (bits (x.k.regs.readV (wDst x.w + o.2)).toNat (8 * s * p.1) (8 * s)))
    let acts := [(x.now + 1, phaseWrite, Act.lsWrite (runs (k.good.filter fun p => decide (p.1 < n / 2))) false),
      (x.now + 2, phaseWrite, .lsWrite (runs (k.good.filter fun p => decide (n / 2 ≤ p.1))) false)]
    match firstFault [memPoison x m, firstElementFault k, poisonV x.k.regs regs, lsPort x.k x.now ports] with
    | some f => .error f
    | none => withElement x (elementFault k) { plain with acts := acts ++ (if k.bad.isSome then [] else vstartDone x) }

/-- VLD (R154). -/
def execVld (c : CoreId) (s : State) : Out := issueOut (vmemRow 0x80 (.unit 1)) c (vectorLoad (.unit 1) 7 false) s

/-- VST (R154). -/
def execVst (c : CoreId) (s : State) : Out := issueOut (vmemRow 0x81 (.unit 1)) c (vectorStore (.unit 1)) s

/-- VLDS (R154). -/
def execVlds (c : CoreId) (s : State) : Out := issueOut (vmemRow 0x82 .strided) c (vectorLoad .strided 9 false) s

/-- VSTS (R154). -/
def execVsts (c : CoreId) (s : State) : Out := issueOut (vmemRow 0x83 .strided) c (vectorStore .strided) s

/-- VLD2 (R154). -/
def execVld2 (c : CoreId) (s : State) : Out := issueOut (vmemRow 0x84 (.unit 2)) c (vectorLoad (.unit 2) 9 false) s

/-- VLD3 (R154). -/
def execVld3 (c : CoreId) (s : State) : Out := issueOut (vmemRow 0x85 (.unit 3)) c (vectorLoad (.unit 3) 9 false) s

/-- VLD4 (R154). -/
def execVld4 (c : CoreId) (s : State) : Out := issueOut (vmemRow 0x86 (.unit 4)) c (vectorLoad (.unit 4) 9 false) s

/-- VST2 (R154). -/
def execVst2 (c : CoreId) (s : State) : Out := issueOut (vmemRow 0x87 (.unit 2)) c (vectorStore (.unit 2)) s

/-- VST3 (R154). -/
def execVst3 (c : CoreId) (s : State) : Out := issueOut (vmemRow 0x88 (.unit 3)) c (vectorStore (.unit 3)) s

/-- VST4 (R154). -/
def execVst4 (c : CoreId) (s : State) : Out := issueOut (vmemRow 0x89 (.unit 4)) c (vectorStore (.unit 4)) s

/-- VLDFF (R152, R154). -/
def execVldff (c : CoreId) (s : State) : Out := issueOut (vmemRow 0x8A (.unit 1)) c (vectorLoad (.unit 1) 7 true) s

/-- VGATHER (R154, R160). -/
def execVgather (c : CoreId) (s : State) : Out := issueOut (vmemRow 0x8C .indexed) c (vectorLoad .indexed 12 false) s

/-- VGATHERFF (R152, R160). -/
def execVgatherff (c : CoreId) (s : State) : Out := issueOut (vmemRow 0x8D .indexed) c (vectorLoad .indexed 12 true) s

/-- VSCATTER: ascending element order, the higher element's bytes remain (R158). -/
def execVscatter (c : CoreId) (s : State) : Out := issueOut (vmemRow 0x8E .indexed) c (vectorStore .indexed) s

end Sys2Proof.Machine
end

