-- ==== Sys2Proof/Machine/Dispatch.lean ====
section
/-! DEFINITION. The meaning of each command: one arm per row of the table. -/

namespace Sys2Proof.Machine

/-- What a command does to everything but the queue. -/
def exec (i : Instr) (s : State) : Host.Outcome State Fault Refusal :=
  match i with
  -- scalar and control instructions of a core (03)
  | .nop core => Sys2Proof.Machine.execNop core s
  | .add core => Sys2Proof.Machine.execAdd core s
  | .sub core => Sys2Proof.Machine.execSub core s
  | .and core => Sys2Proof.Machine.execAnd core s
  | .or core => Sys2Proof.Machine.execOr core s
  | .xor core => Sys2Proof.Machine.execXor core s
  | .shl core => Sys2Proof.Machine.execShl core s
  | .shr core => Sys2Proof.Machine.execShr core s
  | .sar core => Sys2Proof.Machine.execSar core s
  | .addi core => Sys2Proof.Machine.execAddi core s
  | .movi core => Sys2Proof.Machine.execMovi core s
  | .shli core => Sys2Proof.Machine.execShli core s
  | .ori core => Sys2Proof.Machine.execOri core s
  | .mul core => Sys2Proof.Machine.execMul core s
  | .mulh core => Sys2Proof.Machine.execMulh core s
  | .div core => Sys2Proof.Machine.execDiv core s
  | .rem core => Sys2Proof.Machine.execRem core s
  | .divu core => Sys2Proof.Machine.execDivu core s
  | .remu core => Sys2Proof.Machine.execRemu core s
  | .cmp core => Sys2Proof.Machine.execCmp core s
  | .ld core => Sys2Proof.Machine.execLd core s
  | .st core => Sys2Proof.Machine.execSt core s
  | .movs core => Sys2Proof.Machine.execMovs core s
  | .sets core => Sys2Proof.Machine.execSets core s
  | .b core => Sys2Proof.Machine.execB core s
  | .beq core => Sys2Proof.Machine.execBeq core s
  | .bne core => Sys2Proof.Machine.execBne core s
  | .blt core => Sys2Proof.Machine.execBlt core s
  | .bge core => Sys2Proof.Machine.execBge core s
  | .loop core => Sys2Proof.Machine.execLoop core s
  | .swapi core => Sys2Proof.Machine.execSwapi core s
  | .nopn core => Sys2Proof.Machine.execNopn core s
  | .rett core => Sys2Proof.Machine.execRett core s
  | .stop core => Sys2Proof.Machine.execStop core s
  | .trapEntry core => Sys2Proof.Machine.execTrapEntry core s
  -- vector instructions (05)
  | .vadd core => Sys2Proof.Machine.execVadd core s
  | .vsub core => Sys2Proof.Machine.execVsub core s
  | .vmul core => Sys2Proof.Machine.execVmul core s
  | .vmin core => Sys2Proof.Machine.execVmin core s
  | .vmax core => Sys2Proof.Machine.execVmax core s
  | .vand core => Sys2Proof.Machine.execVand core s
  | .vor core => Sys2Proof.Machine.execVor core s
  | .vxor core => Sys2Proof.Machine.execVxor core s
  | .vshl core => Sys2Proof.Machine.execVshl core s
  | .vshr core => Sys2Proof.Machine.execVshr core s
  | .vmov core => Sys2Proof.Machine.execVmov core s
  | .vdup core => Sys2Proof.Machine.execVdup core s
  | .viota core => Sys2Proof.Machine.execViota core s
  | .vsize core => Sys2Proof.Machine.execVsize core s
  | .vext core => Sys2Proof.Machine.execVext core s
  | .vcmp core => Sys2Proof.Machine.execVcmp core s
  | .vfadd core => Sys2Proof.Machine.execVfadd core s
  | .vfsub core => Sys2Proof.Machine.execVfsub core s
  | .vfmul core => Sys2Proof.Machine.execVfmul core s
  | .vfma core => Sys2Proof.Machine.execVfma core s
  | .vfmin core => Sys2Proof.Machine.execVfmin core s
  | .vfmax core => Sys2Proof.Machine.execVfmax core s
  | .vfabs core => Sys2Proof.Machine.execVfabs core s
  | .vfneg core => Sys2Proof.Machine.execVfneg core s
  | .vmulw core => Sys2Proof.Machine.execVmulw core s
  | .vdot4 core => Sys2Proof.Machine.execVdot4 core s
  | .vdot2 core => Sys2Proof.Machine.execVdot2 core s
  | .vcvt core => Sys2Proof.Machine.execVcvt core s
  | .vcvtq core => Sys2Proof.Machine.execVcvtq core s
  | .vrecip core => Sys2Proof.Machine.execVrecip core s
  | .vrsqrt core => Sys2Proof.Machine.execVrsqrt core s
  | .vexp core => Sys2Proof.Machine.execVexp core s
  | .vredsum core => Sys2Proof.Machine.execVredsum core s
  | .vredmax core => Sys2Proof.Machine.execVredmax core s
  | .vredadd core => Sys2Proof.Machine.execVredadd core s
  | .vcult core => Sys2Proof.Machine.execVcult core s
  | .vcultdrop core => Sys2Proof.Machine.execVcultdrop core s
  | .pgenLt core => Sys2Proof.Machine.execPgenLt core s
  | .pgenLtu core => Sys2Proof.Machine.execPgenLtu core s
  | .psetall core => Sys2Proof.Machine.execPsetall core s
  | .pand core => Sys2Proof.Machine.execPand core s
  | .por core => Sys2Proof.Machine.execPor core s
  | .pxor core => Sys2Proof.Machine.execPxor core s
  | .pnot core => Sys2Proof.Machine.execPnot core s
  | .pcnt core => Sys2Proof.Machine.execPcnt core s
  | .ffget core => Sys2Proof.Machine.execFfget core s
  | .ffput core => Sys2Proof.Machine.execFfput core s
  | .ffidx core => Sys2Proof.Machine.execFfidx core s
  | .vld core => Sys2Proof.Machine.execVld core s
  | .vst core => Sys2Proof.Machine.execVst core s
  | .vlds core => Sys2Proof.Machine.execVlds core s
  | .vsts core => Sys2Proof.Machine.execVsts core s
  | .vld2 core => Sys2Proof.Machine.execVld2 core s
  | .vld3 core => Sys2Proof.Machine.execVld3 core s
  | .vld4 core => Sys2Proof.Machine.execVld4 core s
  | .vst2 core => Sys2Proof.Machine.execVst2 core s
  | .vst3 core => Sys2Proof.Machine.execVst3 core s
  | .vst4 core => Sys2Proof.Machine.execVst4 core s
  | .vldff core => Sys2Proof.Machine.execVldff core s
  | .vgather core => Sys2Proof.Machine.execVgather core s
  | .vgatherff core => Sys2Proof.Machine.execVgatherff core s
  | .vscatter core => Sys2Proof.Machine.execVscatter core s
  -- tile pipe and array (04)
  | .tld core => Sys2Proof.Machine.execTld core s
  | .tst core => Sys2Proof.Machine.execTst core s
  | .wld core => Sys2Proof.Machine.execWld core s
  | .mmt core => Sys2Proof.Machine.execMmt core s
  | .mms core => Sys2Proof.Machine.execMms core s
  | .poisonRowHalt core => Sys2Proof.Machine.execPoisonRowHalt core s
  -- sync unit and barriers (09)
  | .signal core => Sys2Proof.Machine.execSignal core s
  | .wait core => Sys2Proof.Machine.execWait core s
  | .waitRelease core elapsed => Sys2Proof.Machine.execWaitRelease core elapsed s
  | .semset core => Sys2Proof.Machine.execSemset core s
  | .semrd core => Sys2Proof.Machine.execSemrd core s
  | .rsignalCore core => Sys2Proof.Machine.execRsignalCore core s
  | .rsignalPress core => Sys2Proof.Machine.execRsignalPress core s
  | .fenceL core => Sys2Proof.Machine.execFenceL core s
  | .fenceM core => Sys2Proof.Machine.execFenceM core s
  | .fenceF core => Sys2Proof.Machine.execFenceF core s
  | .fenceHeldRelease core => Sys2Proof.Machine.execFenceHeldRelease core s
  | .semaphoreIncrement sender target sem => Sys2Proof.Machine.execSemaphoreIncrement sender target sem s
  | .barWaitMode core => Sys2Proof.Machine.execBarWaitMode core s
  | .barSignalMode core => Sys2Proof.Machine.execBarSignalMode core s
  | .barrierArrival core => Sys2Proof.Machine.execBarrierArrival core s
  | .barrierNodeReport part bid die => Sys2Proof.Machine.execBarrierNodeReport part bid die s
  | .deviceReport part bid device epoch time => Sys2Proof.Machine.execDeviceReport part bid device epoch time s
  | .barrierCompletion part bid time => Sys2Proof.Machine.execBarrierCompletion part bid time s
  | .barrierReleaseDelivery core bid elapsed => Sys2Proof.Machine.execBarrierReleaseDelivery core bid elapsed s
  | .ironVisit part => Sys2Proof.Machine.execIronVisit part s
  -- stream engine (06)
  | .snq core => Sys2Proof.Machine.execSnq core s
  | .sresume core => Sys2Proof.Machine.execSresume core s
  | .copy core queue env => Sys2Proof.Machine.execCopy core queue env s
  | .fill core queue env => Sys2Proof.Machine.execFill core queue env s
  | .convert core queue env => Sys2Proof.Machine.execConvert core queue env s
  | .streamCompletion core queue => Sys2Proof.Machine.execStreamCompletion core queue s
  -- knife engine (05)
  | .knq core => Sys2Proof.Machine.execKnq core s
  | .knresume core => Sys2Proof.Machine.execKnresume core s
  | .gather core env => Sys2Proof.Machine.execGather core env s
  | .scatter core env => Sys2Proof.Machine.execScatter core env s
  | .scatterAdd core env => Sys2Proof.Machine.execScatterAdd core env s
  | .knifeCompletion core => Sys2Proof.Machine.execKnifeCompletion core s
  | .caveMigrationStart part page => Sys2Proof.Machine.execCaveMigrationStart part page s
  | .caveMigrationComplete part page ok => Sys2Proof.Machine.execCaveMigrationComplete part page ok s
  -- press units (08)
  | .pressDescriptorTake unit => Sys2Proof.Machine.execPressDescriptorTake unit s
  | .vsetl unit => Sys2Proof.Machine.execVsetl unit s
  | .pld unit env => Sys2Proof.Machine.execPld unit env s
  | .pst unit => Sys2Proof.Machine.execPst unit s
  | .padd unit => Sys2Proof.Machine.execPadd unit s
  | .psub unit => Sys2Proof.Machine.execPsub unit s
  | .pmul unit => Sys2Proof.Machine.execPmul unit s
  | .pfma unit => Sys2Proof.Machine.execPfma unit s
  | .pmin unit => Sys2Proof.Machine.execPmin unit s
  | .pmax unit => Sys2Proof.Machine.execPmax unit s
  | .psqrt unit => Sys2Proof.Machine.execPsqrt unit s
  | .precip unit => Sys2Proof.Machine.execPrecip unit s
  | .psign unit => Sys2Proof.Machine.execPsign unit s
  | .pabs unit => Sys2Proof.Machine.execPabs unit s
  | .pneg unit => Sys2Proof.Machine.execPneg unit s
  | .pend unit => Sys2Proof.Machine.execPend unit s
  | .pressCompletion unit => Sys2Proof.Machine.execPressCompletion unit s
  -- fabric and Hjelis Link (10)
  | .put core env => Sys2Proof.Machine.execPut core env s
  | .get core => Sys2Proof.Machine.execGet core s
  | .putSet core env => Sys2Proof.Machine.execPutSet core env s
  | .putGroup core env => Sys2Proof.Machine.execPutGroup core env s
  | .allreduce core env peers => Sys2Proof.Machine.execAllreduce core env peers s
  | .fabricCompletion core answer => Sys2Proof.Machine.execFabricCompletion core answer s
  | .peerPutReceive sender tag target total first last data flits tagOk => Sys2Proof.Machine.execPeerPutReceive sender tag target total first last data flits tagOk s
  | .getRequestReceive sender tag target total tagOk => Sys2Proof.Machine.execGetRequestReceive sender tag target total tagOk s
  | .linkFrameReceive port flits trailer retry => Sys2Proof.Machine.execLinkFrameReceive port flits trailer retry s
  | .portDown port => Sys2Proof.Machine.execPortDown port s
  | .portRetrainComplete port training => Sys2Proof.Machine.execPortRetrainComplete port training s
  | .portStateFlood device links => Sys2Proof.Machine.execPortStateFlood device links s
  | .routeEpochAdopt epoch table => Sys2Proof.Machine.execRouteEpochAdopt epoch table s
  | .fabricJoin members => Sys2Proof.Machine.execFabricJoin members s
  | .linkSessionEstablish part peer proofOk testFailed => Sys2Proof.Machine.execLinkSessionEstablish part peer proofOk testFailed s
  | .linkRekey part peer outbound testFailed => Sys2Proof.Machine.execLinkRekey part peer outbound testFailed s
  -- checkpoints and spares (08)
  | .checkpointCommit part ok partner => Sys2Proof.Machine.execCheckpointCommit part ok partner s
  | .takeover failed spares group => Sys2Proof.Machine.execTakeover failed spares group s
  | .takeoverResume => Sys2Proof.Machine.execTakeoverResume s
  | .headFailover members => Sys2Proof.Machine.execHeadFailover members s
  -- host attachment (11)
  | .watchLineInvalidate ring stores => Sys2Proof.Machine.execWatchLineInvalidate ring stores s
  | .jobAdmit ring partner => Sys2Proof.Machine.execJobAdmit ring partner s
  | .jobStep ring => Sys2Proof.Machine.execJobStep ring s
  | .jobRelease ring => Sys2Proof.Machine.execJobRelease ring s
  | .releaseComplete ring => Sys2Proof.Machine.execReleaseComplete ring s
  | .segmentLoad ring => Sys2Proof.Machine.execSegmentLoad ring s
  | .barrierLoad ring => Sys2Proof.Machine.execBarrierLoad ring s
  | .groupLoad ring => Sys2Proof.Machine.execGroupLoad ring s
  | .multicastAllocate ring => Sys2Proof.Machine.execMulticastAllocate ring s
  | .multicastFree ring => Sys2Proof.Machine.execMulticastFree ring s
  | .peerGrant ring => Sys2Proof.Machine.execPeerGrant ring s
  | .peerRevoke ring => Sys2Proof.Machine.execPeerRevoke ring s
  | .ringEnable ring msix vector => Sys2Proof.Machine.execRingEnable ring msix vector s
  | .ringDisable ring => Sys2Proof.Machine.execRingDisable ring s
  | .hdmWrite port addr data poisoned => Sys2Proof.Machine.execHdmWrite port addr data poisoned s
  | .hdmRead port addr len => Sys2Proof.Machine.execHdmRead port addr len s
  | .caveMapWrite port entry value => Sys2Proof.Machine.execCaveMapWrite port entry value s
  | .cxlLinkTrain port rate width flit256 => Sys2Proof.Machine.execCxlLinkTrain port rate width flit256 s
  -- core and row reset, core control (15, 03)
  | .coreReset part core => Sys2Proof.Machine.execCoreReset part core s
  | .rowReset part core => Sys2Proof.Machine.execRowReset part core s
  | .resetDrainComplete part => Sys2Proof.Machine.execResetDrainComplete part s
  | .coreCtlStart port core half entry dumpLs => Sys2Proof.Machine.execCoreCtlStart port core half entry dumpLs s
  | .startFetchBegin core elapsed => Sys2Proof.Machine.execStartFetchBegin core elapsed s
  | .swapiResume core elapsed => Sys2Proof.Machine.execSwapiResume core elapsed s
  | .coreCtlStop port core => Sys2Proof.Machine.execCoreCtlStop port core s
  | .coreCtlDump port core dumpLs => Sys2Proof.Machine.execCoreCtlDump port core dumpLs s
  | .dumpDone core => Sys2Proof.Machine.execDumpDone core s
  | .coreCtlContinue port core => Sys2Proof.Machine.execCoreCtlContinue port core s
  | .rtcStop core => Sys2Proof.Machine.execRtcStop core s
  | .imemLoadedSet port core half => Sys2Proof.Machine.execImemLoadedSet port core half s
  | .imemWrite port core half index value poisoned => Sys2Proof.Machine.execImemWrite port core half index value poisoned s
  | .fltHeadWrite port core => Sys2Proof.Machine.execFltHeadWrite port core s
  | .faultLogRead port core word => Sys2Proof.Machine.execFaultLogRead port core word s
  | .controlRegisterWrite port bar offset value => Sys2Proof.Machine.execControlRegisterWrite port bar offset value s
  -- intake (07)
  | .wheelOpen ring => Sys2Proof.Machine.execWheelOpen ring s
  | .feed ring => Sys2Proof.Machine.execFeed ring s
  | .feedResume ring => Sys2Proof.Machine.execFeedResume ring s
  | .close ring => Sys2Proof.Machine.execClose ring s
  | .closeAbort ring => Sys2Proof.Machine.execCloseAbort ring s
  | .query ring => Sys2Proof.Machine.execQuery ring s
  | .queryClear ring => Sys2Proof.Machine.execQueryClear ring s
  | .groupStart wheel engine => Sys2Proof.Machine.execGroupStart wheel engine s
  | .watchdogExpiry wheel engine => Sys2Proof.Machine.execWatchdogExpiry wheel engine s
  | .groupComplete wheel engine destinationFails => Sys2Proof.Machine.execGroupComplete wheel engine destinationFails s
  | .slotWrite wheel => Sys2Proof.Machine.execSlotWrite wheel s
  | .consumedReread wheel => Sys2Proof.Machine.execConsumedReread wheel s
  | .encodeGop wheel engine destinationFails => Sys2Proof.Machine.execEncodeGop wheel engine destinationFails s
  -- root of trust (12)
  | .getStatus => Sys2Proof.Machine.execGetStatus s
  | .loadBundle offset data verdict => Sys2Proof.Machine.execLoadBundle offset data verdict s
  | .getNonce testFailed => Sys2Proof.Machine.execGetNonce testFailed s
  | .takeOwnership keyHash auth => Sys2Proof.Machine.execTakeOwnership keyHash auth s
  | .selfTest failed => Sys2Proof.Machine.execSelfTest failed s
  | .setLayout image auth => Sys2Proof.Machine.execSetLayout image auth s
  | .layoutApplyComplete testFailed => Sys2Proof.Machine.execLayoutApplyComplete testFailed s
  | .partitionReset part auth => Sys2Proof.Machine.execPartitionReset part auth s
  | .partitionResetComplete part => Sys2Proof.Machine.execPartitionResetComplete part s
  | .advanceSvn auth => Sys2Proof.Machine.execAdvanceSvn auth s
  | .zeroize auth => Sys2Proof.Machine.execZeroize auth s
  | .getScrub => Sys2Proof.Machine.execGetScrub s
  | .scrubComplete unit ok => Sys2Proof.Machine.execScrubComplete unit ok s
  | .dictAccessRead index sub reserved length => Sys2Proof.Machine.execDictAccessRead index sub reserved length s
  | .dictAccessWrite index sub reserved length data auth => Sys2Proof.Machine.execDictAccessWrite index sub reserved length data auth s
  | .getVersion version offer => Sys2Proof.Machine.execGetVersion version offer s
  | .keyExchange tenant ok testFailed => Sys2Proof.Machine.execKeyExchange tenant ok testFailed s
  | .getMeasurements block nonce session => Sys2Proof.Machine.execGetMeasurements block nonce session s
  -- dictionary transports (13)
  | .read req => Sys2Proof.Machine.execRead req s
  | .write req => Sys2Proof.Machine.execWrite req s
  | .sessionOpen req cert => Sys2Proof.Machine.execSessionOpen req cert s
  | .sessionProve req signatureOk => Sys2Proof.Machine.execSessionProve req signatureOk s
  | .sessionClose req => Sys2Proof.Machine.execSessionClose req s
  | .sessionTimeout session => Sys2Proof.Machine.execSessionTimeout session s
  | .bundleChunk req offset data verdict => Sys2Proof.Machine.execBundleChunk req offset data verdict s
  | .i3cPrivateWrite index sub isWrite data => Sys2Proof.Machine.execI3cPrivateWrite index sub isWrite data s
  | .i3cPrivateRead => Sys2Proof.Machine.execI3cPrivateRead s
  | .setdasa address => Sys2Proof.Machine.execSetdasa address s
  | .entdaa address => Sys2Proof.Machine.execEntdaa address s
  | .i3cWake address => Sys2Proof.Machine.execI3cWake address s
  | .dictWrite via index sub data => Sys2Proof.Machine.execDictWrite via index sub data s
  | .journalStored => Sys2Proof.Machine.execJournalStored s
  | .restoreFactory via text => Sys2Proof.Machine.execRestoreFactory via text s
  | .warmReset via text => Sys2Proof.Machine.execWarmReset via text s
  | .deviceWarmReset => Sys2Proof.Machine.execDeviceWarmReset s
  | .wheyExit via value => Sys2Proof.Machine.execWheyExit via value s
  | .stateRequestOn via => Sys2Proof.Machine.execStateRequestOn via s
  | .stateRequestDeepRest via => Sys2Proof.Machine.execStateRequestDeepRest via s
  | .powerMode via value => Sys2Proof.Machine.execPowerMode via value s
  | .modeChangeComplete => Sys2Proof.Machine.execModeChangeComplete s
  | .avsbusAck die millivolt => Sys2Proof.Machine.execAvsbusAck die millivolt s
  | .hbmProtection via value => Sys2Proof.Machine.execHbmProtection via value s
  | .linkFec via value => Sys2Proof.Machine.execLinkFec via value s
  | .waxEnable via value => Sys2Proof.Machine.execWaxEnable via value s
  | .auditMode via value => Sys2Proof.Machine.execAuditMode via value s
  | .dozeEnable via value => Sys2Proof.Machine.execDozeEnable via value s
  | .errorLogClear via value => Sys2Proof.Machine.execErrorLogClear via value s
  | .portRetrain via port value => Sys2Proof.Machine.execPortRetrain via port value s
  | .provisionLock via value => Sys2Proof.Machine.execProvisionLock via value s
  | .overlay via index value => Sys2Proof.Machine.execOverlay via index value s
  | .supplyGuardActivate cause copyADone => Sys2Proof.Machine.execSupplyGuardActivate cause copyADone s
  | .supplyGuardClear => Sys2Proof.Machine.execSupplyGuardClear s
  -- power (14)
  | .domainPowerGood domain millivolts => Sys2Proof.Machine.execDomainPowerGood domain millivolts s
  | .domainPowerLoss domain rail millivolt => Sys2Proof.Machine.execDomainPowerLoss domain rail millivolt s
  | .thermalSample sensor temp => Sys2Proof.Machine.execThermalSample sensor temp s
  | .powerLimitAdjust core lower railLimit load demand => Sys2Proof.Machine.execPowerLimitAdjust core lower railLimit load demand s
  | .dozeEntry domain => Sys2Proof.Machine.execDozeEntry domain s
  | .dozeWake domain elapsed => Sys2Proof.Machine.execDozeWake domain elapsed s
  | .deepRestWakeComplete badDomains narrowed => Sys2Proof.Machine.execDeepRestWakeComplete badDomains narrowed s
  -- start, reset and errors (15, 16)
  | .coldReset strap => Sys2Proof.Machine.execColdReset strap s
  | .startSequence => Sys2Proof.Machine.execStartSequence s
  | .startStepComplete outcome => Sys2Proof.Machine.execStartStepComplete outcome s
  | .startSupplyTimeout domain => Sys2Proof.Machine.execStartSupplyTimeout domain s
  | .stewardTimeout => Sys2Proof.Machine.execStewardTimeout s
  | .clockLockTimeout => Sys2Proof.Machine.execClockLockTimeout s
  | .memoryLinkRetrain stack ok => Sys2Proof.Machine.execMemoryLinkRetrain stack ok s
  | .trainingSave moved => Sys2Proof.Machine.execTrainingSave moved s
  | .memoryLinkLost stack => Sys2Proof.Machine.execMemoryLinkLost stack s
  | .meshFailure die => Sys2Proof.Machine.execMeshFailure die s
  | .stewardSilent unit => Sys2Proof.Machine.execStewardSilent unit s
  | .plcaBeacon beacon => Sys2Proof.Machine.execPlcaBeacon beacon s
  | .sectorErase => Sys2Proof.Machine.execSectorErase s
  | .cycleCountWrap core => Sys2Proof.Machine.execCycleCountWrap core s
  | .endSession session => Sys2Proof.Machine.execEndSession session s

end Sys2Proof.Machine
end

