-- ==== Sys2Proof/Safety.lean ====
section
/-! DEFINITION. What counts as a well-kept state, and what it is for a core's next instruction to issue: the
terms that claims about the device use. -/

namespace Sys2Proof.Machine

/-- Numbers in strictly rising order. -/
def risingFrom : Nat → List Nat → Bool
  | _, [] => true
  | lo, k :: t => decide (lo ≤ k) && risingFrom (k + 1) t

/-- The invariant of memory: its bytes are held in their one canonical form. -/
def State.MemInv (s : State) : Prop := Memory.wf s.mem = true

/-- A command answers a next state, of which something holds. -/
def Completes (i : Instr) (s : State) (P : State → Prop) : Prop := ∃ t, exec i s = .next t ∧ P t

/-! ## The issue of a core's next instruction (R59–R67, R78, R479) -/

/-- The state in which a core's next instruction meets its issue cycle: what is scheduled up to the cycle has
taken place (R78). -/
def State.atIssue (s : State) (c : CoreId) : State :=
  runTo c (s.core c).flight.now (runTo c ((s.core c).flight.now - 1) s)

/-- The core as its next instruction finds it. -/
def State.coreAtIssue (s : State) (c : CoreId) : Core := (s.atIssue c).core c

/-- The word or double-word that issues next (R63). -/
def State.nextWord (s : State) (c : CoreId) : Nat := (s.coreAtIssue c).instrAt (s.coreAtIssue c).ctl.pc

/-- What the next instruction's meaning receives. -/
def State.nextIssue (s : State) (c : CoreId) : Issue :=
  ({ core := c, now := (s.core c).flight.now, w := s.nextWord c, st := (s.atIssue c).modCore c Core.counted,
     k := ((s.atIssue c).modCore c Core.counted).core c,
     semsBefore := ((runTo c ((s.core c).flight.now - 1) s).core c).regs.sems,
     reissue := (s.coreAtIssue c).ctl.reissue : Issue }).cleared

/-- The place that a fault of the next instruction names (R100). -/
def State.nextPlace (s : State) (c : CoreId) : Place :=
  { index := BitVec.ofNat 14 (s.coreAtIssue c).ctl.pc, half := (s.coreAtIssue c).ctl.half,
    count := (s.coreAtIssue c).sys.issueCount + 1 }

/-- The next instruction of a core is fetched in its cycle and is of the given row: the clock of its row runs (R411), the core can
issue (R95, R82, R101), the word index lies in instruction memory, and no fetched word is marked (R96, R451). -/
structure Fetches (r : CoreRow) (c : CoreId) (s : State) : Prop where
  clocked : s.clocked c = true
  can : (s.core c).canIssue = true
  canBefore : ((runTo c ((s.core c).flight.now - 1) s).core c).canIssue = true
  inMemory : (s.coreAtIssue c).ctl.pc ≤ 16383
  unmarked : (s.coreAtIssue c).markedFetch (s.coreAtIssue c).ctl.pc (s.nextWord c) = none
  owned : r.owns (s.coreAtIssue c) (s.nextWord c) = true

/-- It also issues with effect: its predicate holds (R67), the domains it must reach answer (R83), it is
legally encoded and its engine is free (R64, R479), nothing that completes in its cycle ends issue (R451), and
audit is not set to stop the core (R87). -/
structure Issues (r : CoreRow) (c : CoreId) (s : State) : Prop extends Fetches r c s where
  predicate : predHolds (s.coreAtIssue c).regs (wPred (s.nextWord c)) = true
  reached : s.dozing r c (s.coreAtIssue c) (s.nextWord c) = none
  sound : issueFault r (s.nextIssue c) = none
  going : (s.coreAtIssue c).ctl.state = .running
  audited : (s.coreAtIssue c).ctl.audit ≠ 2

/-- The acts of the next instruction as entries of the core's schedule (R100). -/
def State.nextEntries (s : State) (c : CoreId) (acts : List (Nat × Nat × Act)) : List Sched :=
  acts.map fun a => { cycle := a.1, phase := a.2.1, seq := (s.nextIssue c).k.flight.seq, index := (s.nextPlace c).index,
                      half := (s.nextPlace c).half, count := (s.nextPlace c).count, act := a.2.2 }

/-- What lies outside the core that issues: nothing else changes. -/
structure SameElsewhere (c : CoreId) (s t : State) : Prop where
  device : { t with cores := s.cores } = s
  cores : ∀ d, d ≠ c → t.core d = s.core d

/-- The next instruction has issued, taken its engine for its occupancy, put the given acts into the schedule and
gone on after so many cycles: apart from what the acts will do, only the ends of loops change a register (R67, R74,
R78, R80). -/
structure Issued (c : CoreId) (s t : State) (unit occupancy cycles : Nat) (acts : List (Nat × Nat × Act)) : Prop where
  elsewhere : SameElsewhere c (s.atIssue c) t
  sched : (t.core c).flight.sched = (s.nextEntries c acts).foldl insertSched (s.coreAtIssue c).flight.sched
  busy : (t.core c).flight.busy = (s.coreAtIssue c).flight.busy.setIfInBounds unit ((s.core c).flight.now + occupancy)
  regs : (t.core c).regs = (advancePc (s.nextIssue c).k.regs (s.coreAtIssue c).ctl.pc (instrWords (s.nextWord c))).1
  pc : (t.core c).ctl.pc = (advancePc (s.nextIssue c).k.regs (s.coreAtIssue c).ctl.pc (instrWords (s.nextWord c))).2
  now : (t.core c).flight.now = (s.coreAtIssue c).flight.now + cycles
  count : (t.core c).sys.issueCount = (s.coreAtIssue c).sys.issueCount + 1
  state : (t.core c).ctl.state = (s.coreAtIssue c).ctl.state
  hold : (t.core c).ctl.hold = (s.coreAtIssue c).ctl.hold

/-- The next instruction has issued and left issue elsewhere than at the next word: what it has put in the schedule,
its engine and its count are as for any instruction, the rest as given. -/
structure Diverted (c : CoreId) (s t : State) (cycles : Nat) (pc : Nat) (regs : CoreRegs) : Prop where
  elsewhere : SameElsewhere c (s.atIssue c) t
  sched : (t.core c).flight.sched = (s.coreAtIssue c).flight.sched
  regs : (t.core c).regs = regs
  pc : (t.core c).ctl.pc = pc
  now : (t.core c).flight.now = (s.coreAtIssue c).flight.now + cycles
  count : (t.core c).sys.issueCount = (s.coreAtIssue c).sys.issueCount + 1

/-- The next instruction has had the immediate effect u, scheduled nothing, and gone on after so many cycles: apart from
that effect only the ends of loops change a register (R67, R74). -/
structure Continues (c : CoreId) (s u t : State) (cycles : Nat) : Prop where
  elsewhere : SameElsewhere c u t
  sched : (t.core c).flight.sched = (u.core c).flight.sched
  held : (t.core c).flight.held = (u.core c).flight.held
  marks : (t.core c).flight.marks = (u.core c).flight.marks
  jobs : (t.core c).flight.streams = (u.core c).flight.streams ∧ (t.core c).flight.knife = (u.core c).flight.knife
  regs : (t.core c).regs = (advancePc (u.core c).regs (s.coreAtIssue c).ctl.pc (instrWords (s.nextWord c))).1
  pc : (t.core c).ctl.pc = (advancePc (u.core c).regs (s.coreAtIssue c).ctl.pc (instrWords (s.nextWord c))).2
  now : (t.core c).flight.now = (u.core c).flight.now + cycles
  count : (t.core c).sys.issueCount = (u.core c).sys.issueCount
  state : (t.core c).ctl.state = (u.core c).ctl.state

/-- The same, with issue held from then on (R82): the core is Waiting with the given hold. -/
structure Holds (c : CoreId) (s u t : State) (h : Hold) : Prop where
  elsewhere : SameElsewhere c u t
  sched : (t.core c).flight.sched = (u.core c).flight.sched
  regs : (t.core c).regs = (advancePc (u.core c).regs (s.coreAtIssue c).ctl.pc (instrWords (s.nextWord c))).1
  pc : (t.core c).ctl.pc = (advancePc (u.core c).regs (s.coreAtIssue c).ctl.pc (instrWords (s.nextWord c))).2
  hold : (t.core c).ctl.hold = h
  state : (t.core c).ctl.state = .waiting
  heldAt : (t.core c).ctl.heldAt = BitVec.ofNat 14 (s.coreAtIssue c).ctl.pc

/-! ## Descriptors (R161–R166, R198–R207) -/

/-- The state in which a queue's head descriptor begins: what the core has issued before has landed, and the queue does
not skip (R184, R207). -/
def State.streamBegins (s : State) (c : CoreId) (q : Nat) : State :=
  (runPending c s).modStream c q fun x => { x with skipping := false, resume := false }

/-- A stream queue takes its head, a descriptor of an operation that passes its checks, reaches no instruction memory and
waits for no cave page (R184, R188, R198, R202, R203, R207). -/
structure StreamAccepted (op : Nat) (c : CoreId) (q : Nat) (s : State) (j : StreamJob) : Prop where
  queue : q < 4
  head : (((runPending c s).core c).flight.stream q).jobs.head? = some j
  isOp : sdOp j.raw = op
  known : 1 ≤ op ∧ op ≤ 3
  fresh : j.outcome = none ∧ j.cave.begun = false
  settled : ((runPending c s).core c).flight.writesBefore j.id = true
  running : ((runPending c s).core c).flight.resetting = false
  normal : (((runPending c s).core c).flight.stream q).skipping = false
  sound : badStream j = false
  access : streamAccess (s.streamBegins c q) ((s.streamBegins c q).corePart c) j = none
  plain : (dstSpan j).inImem = false
  resident : streamPages (s.streamBegins c q) j = []

/-- The rows of a stream descriptor moved one after the other from a state (R201). -/
def streamRows (c : CoreId) (j : StreamJob) (s : State) : StreamMove :=
  moveRows c (s.corePart c) j (fun _ => false) (rowCount j.raw) 0 { st := s, done := 0, fail := none, clips := (0, 0, 0) }

/-- The state in which the knife's head descriptor begins. -/
def State.knifeBegins (s : State) (c : CoreId) : State :=
  (runPending c s).modKnife c fun x => { x with skipping := false, resume := false }

/-- The elements of a knife descriptor moved one after the other from a state (R164–R166). -/
def knifeElements (c : CoreId) (j : KnifeJob) (s : State) : KnifeMove :=
  stepElements c (s.corePart c) j { noValue := none, ecc := [] } (kdCount j.raw - kdStart j.raw) (kdStart j.raw) { st := s, done := 0, fault := none, waits := [] }

/-- The knife takes its head descriptor, which is no BAD_DESCRIPTOR and waits for no cave page (R161, R165, R169). -/
structure KnifeAccepted (op : Nat) (c : CoreId) (s : State) (j : KnifeJob) : Prop where
  head : ((runPending c s).core c).flight.knife.jobs.head? = some j
  isOp : knifeOp j = op
  known : 1 ≤ op ∧ op ≤ 3
  fresh : j.outcome = none ∧ j.cave.begun = false
  settled : ((runPending c s).core c).flight.writesBefore j.id = true
  running : ((runPending c s).core c).flight.resetting = false
  normal : ((runPending c s).core c).flight.knife.skipping = false
  sound : badKnife c j = false
  resident : (knifeElements c j (s.knifeBegins c)).waits = []

/-- The state in which a fabric ring's next entry begins. -/
def State.fabricBegins (s : State) (c : CoreId) : State :=
  (runPending c s).modFabricRing c fun x => { x with skipping := false }

/-- The destination segment of a fabric entry; PUT_SET and PUT_GROUP have none (R318). -/
def State.fabricDst (s : State) (p : Nat) (r : BitVec 512) : BitVec 256 :=
  if fdOp r = 3 ∨ fdOp r = 4 then 0 else s.segOf (some p) (fdDst r)

/-- What a fabric entry's operation works on. -/
def State.fabricRun (s : State) (c : CoreId) (p : Nat) (j : Job) (r : BitVec 512) : FabricRun :=
  { core := c, part := p, job := j, raw := r, srcSeg := s.segOf (some p) (fdSrc r), dstSeg := s.fabricDst p r }

/-- The engine of a core takes the next entry of its fabric ring, of an operation, and finds no fault with it (R317–R319,
R322). -/
structure FabricAccepted (op : Nat) (c : CoreId) (s : State) (p : Nat) (j : Job) (r : BitVec 512) : Prop where
  next : nextFabricEntry c (runPending c s) = some (p, j, r)
  isOp : fdOp r = op
  known : 1 ≤ op ∧ op ≤ 5
  normal : ((runPending c s).core c).flight.fabric.skipping = false
  sound : badField (s.fabricBegins c) r ((s.fabricBegins c).fabricDst p r) = false
  group : op = 4 ∨ op = 5 → ((s.fabricBegins c).mcastMembers p (fdGroup r)).isSome = true
  access : fabricAccess (s.fabricBegins c) (some p) r (fabricSpan ((s.fabricBegins c).segOf (some p) (fdSrc r)) (fdSrc r) (fdBytes r))
    (fabricSpan ((s.fabricBegins c).fabricDst p r) (fdDst r) (fdBytes r)) = none

/-- A press unit's next instruction is of an opcode, and the unit may run it (R250, R457). -/
structure PressRuns (unit op : Nat) (s : State) (d : BitVec 3072) (w : BitVec 32) : Prop where
  current : (s.pressUnit unit).current = some (d, w)
  isOp : piOp w = op
  going : s.pressHalted unit = false ∨ (s.pressUnit unit).pc ≠ 0

/-- Nothing but one press unit has changed. -/
structure SameButPress (unit : Nat) (s t : State) : Prop where
  device : { t with press := s.press } = s
  units : ∀ u, u ≠ unit → t.pressUnit u = s.pressUnit u

/-- Nothing of the cores has changed but the routes that transfers under way go on with (R316). -/
def SameButRoutes (s t : State) : Prop :=
  ∀ c, { t.core c with flight := { (t.core c).flight with fabric := { (t.core c).flight.fabric with
    pinned := (s.core c).flight.fabric.pinned } } } = s.core c

/-! ## Job rings (R334, R337) -/

/-- The record in progress of a ring completes: from the state that the command's own effect leaves, its completion is
written and the ring takes its next records. -/
def Answers (r : Nat) (c : Completion) (u t : State) : Prop :=
  ∃ rcd, (u.ring r).current = some rcd ∧ t = pumpRing r (writeCompletion r rcd c u)

end Sys2Proof.Machine
end

