-- ==== Sys2Proof/Certificates/Slice0/Obligations.lean ====
section
/-! DEFINITION. What is claimed of the device. `Claim.X` states one matter of the spec; each obligation is one claim or the
conjunction of a few. -/

open Sys2Proof Sys2Proof.Machine

/-! ## The block -/

/-- A step takes the command at the front of the queue and answers what it does to the state with the queue's rest. -/
def Claim.StepRunsFrontCommand : Prop :=
  ∀ (i : Instr) (s : State), step (s.push i) = exec i s

/-- Every command answers a next state (R448: errors are effects on the state), and an empty queue leaves the state
as it is (log 1, the model's choice). -/
def Claim.EveryCommandAnswersNext : Prop :=
  (∀ (i : Instr) (s : State), ∃ t, exec i s = .next t) ∧ ∀ s : State, s.pending = [] → step s = .next s

/-- Every step keeps the canonical form of memory: its bytes in rising order, none of them blank (R171; the form is
the model's, log 4). -/
def Claim.StepKeepsMemoryForm : Prop :=
  ∀ s t : State, s.MemInv → step s = .next t → t.MemInv

/-- Reset memory has the canonical form, and every byte of it reads zero. -/
def Claim.ResetMemory : Prop :=
  State.reset.MemInv ∧ ∀ a, Memory.read State.reset.mem a = 0

/-- A byte of memory reads as it was last written, and a write of bytes changes no other byte (R9, R171). -/
def Claim.MemoryReadsAsWritten : Prop :=
  ∀ (m : Memory) (a x : Nat) (l : List Byte), m.wf = true →
    Memory.read (Memory.writeBytes m a l) x = if a ≤ x then (l[x - a]?).getD (Memory.read m x) else Memory.read m x

/-- After a core reset (R447): the core is Stopped, its registers, predicates, semaphores and VSTART are zero, the tile
palette is the one of R108, no loop is active, traps are off. Every core holds these values at reset. -/
def Claim.CoreResetValues : Prop :=
  ∀ c : CoreId, let k := State.reset.core c
    k.ctl.state = .stopped ∧ (∀ r, k.regs.readX r = 0) ∧ (∀ r, k.regs.readV r = 0) ∧ (∀ r, k.regs.readP r = 0)
      ∧ (∀ r, k.regs.readS r = 0) ∧ k.regs.readF 0 = true ∧ (∀ r, 1 ≤ r → r < 8 → k.regs.readF r = false) ∧ k.regs.vstart = 0
      ∧ activeLevels k.regs = 0 ∧ k.regs.tpal = defaultPalette ∧ k.sys.issueCount = 0 ∧ k.sys.trapEnable = false

/-! ## Cores: scalar instructions (03) -/

/-- X0 reads zero and F0 true, whatever is written to them; a write to another register is what it reads, and no other
register changes. -/
def Claim.HardwiredRegisters : Prop :=
  ∀ (g : CoreRegs) (r q : Nat) (v : Word) (m b : Bool), r < 32 →
    (g.writeX r v m).readX q = (if q = r ∧ r ≠ 0 then v else g.readX q) ∧ (g.writeX r v m).readX 0 = 0
      ∧ g.writeX 0 v m = g ∧ (g.writeF r b).readF 0 = true ∧ g.writeF 0 b = g

/-- The scalar operations on X[SRC1] and X[SRC2]: the value that becomes available in X[DST] at the operation's
latency, marked when a source is, and the cycles it occupies the unit; nothing else changes. -/
def Claim.ScalarArithmetic : Prop :=
  ∀ row ∈ ([(Instr.add, 0x01, 1, 1, fun a b => a + b), (Instr.sub, 0x02, 1, 1, fun a b => a - b),
      (Instr.and, 0x03, 1, 1, fun a b => a &&& b), (Instr.or, 0x04, 1, 1, fun a b => a ||| b),
      (Instr.xor, 0x05, 1, 1, fun a b => a ^^^ b), (Instr.shl, 0x06, 1, 1, fun a b => a <<< (b.toNat % 64)),
      (Instr.shr, 0x07, 1, 1, fun a b => a >>> (b.toNat % 64)), (Instr.sar, 0x08, 1, 1, fun a b => a.sshiftRight (b.toNat % 64)),
      (Instr.mul, 0x10, 3, 1, fun a b => a * b), (Instr.mulh, 0x11, 3, 1, fun a b => BitVec.ofInt 64 (a.toInt * b.toInt / 2 ^ 64)),
      (Instr.div, 0x12, 18, 18, fun a b => if b = 0 then BitVec.allOnes 64 else a.sdiv b),
      (Instr.rem, 0x13, 18, 18, fun a b => if b = 0 then a else a.srem b),
      (Instr.divu, 0x14, 18, 18, fun a b => if b = 0 then BitVec.allOnes 64 else a.udiv b),
      (Instr.remu, 0x15, 18, 18, fun a b => if b = 0 then a else a.umod b)] :
      List ((CoreId → Instr) × Nat × Nat × Nat × (Word → Word → Word))),
    ∀ (c : CoreId) (s : State), Issues (scalarRow row.2.1 legalXXX) c s →
      Completes (row.1 c) s fun t =>
        let x := s.nextIssue c
        let a := wSrc1 x.w
        let b := wSrc2 x.w
        Issued c s t 0 row.2.2.2.1 1 [(x.now + row.2.2.1, phaseResult,
          .wX (wDst x.w) (row.2.2.2.2 (x.k.regs.readX a) (x.k.regs.readX b)) (x.k.regs.markX a || x.k.regs.markX b))]

/-- The forms with an immediate, and NOP, which does nothing. -/
def Claim.ScalarImmediates : Prop :=
  (∀ row ∈ ([(Instr.addi, 0x09, fun a w => a + BitVec.ofInt 64 (signed 24 (wImm w))), (Instr.shli, 0x0B, fun a w => a <<< (wImm w % 64)),
      (Instr.ori, 0x0C, fun a w => a ||| BitVec.ofNat 64 (wImm w))] : List ((CoreId → Instr) × Nat × (Word → Nat → Word))),
    ∀ (c : CoreId) (s : State), Issues (scalarRow row.2.1 legalXX) c s →
      Completes (row.1 c) s fun t =>
        let x := s.nextIssue c
        Issued c s t 0 1 1 [(x.now + 1, phaseResult, .wX (wDst x.w) (row.2.2 (x.k.regs.readX (wSrc1 x.w)) x.w) (x.k.regs.markX (wSrc1 x.w)))])
  ∧ (∀ (c : CoreId) (s : State), Issues (scalarRow 0x0A legalX) c s →
      Completes (.movi c) s fun t =>
        let x := s.nextIssue c
        Issued c s t 0 1 1 [(x.now + 1, phaseResult, .wX (wDst x.w) (BitVec.ofInt 64 (signed 24 (wImm x.w))) false)])
  ∧ ∀ (c : CoreId) (s : State), Issues (scalarRow 0x00 fun _ _ => true) c s → Completes (.nop c) s fun t => Issued c s t 0 1 1 []

/-- CMP, MOVS and SETS on unmarked registers: the flag, the register read as it stands, the system register that holds
X[SRC1] from the next cycle. -/
def Claim.CompareAndSystemRegisters : Prop :=
  (∀ (c : CoreId) (s : State), Issues (scalarRow 0x18 legalCmp) c s →
    let x := s.nextIssue c
    x.k.regs.markX (wSrc1 x.w) = false → x.k.regs.markX (wSrc2 x.w) = false →
    Completes (.cmp c) s fun t =>
      let a := x.k.regs.readX (wSrc1 x.w)
      let b := x.k.regs.readX (wSrc2 x.w)
      ∃ v, condition? (wImm x.w % 8) a b = some v ∧ Issued c s t 0 1 1 [(x.now + 1, phaseResult, .wF (wDst x.w) v)])
  ∧ (∀ (c : CoreId) (s : State), Issues (scalarRow 0x28 legalMovs) c s →
    let x := s.nextIssue c
    Completes (.movs c) s fun t =>
      Issued c s t 0 1 1 [(x.now + 2, phaseResult,
        .wX (wDst x.w) (readSys x.k (wImm x.w % 4096) x.now (x.st.confidential (x.st.corePart c))) false)])
  ∧ ∀ (c : CoreId) (s : State), Issues (scalarRow 0x29 legalSets) c s →
    let x := s.nextIssue c
    x.k.regs.markX (wSrc1 x.w) = false →
    Completes (.sets c) s fun t =>
      Issued c s t 0 1 1 [(x.now + 1, phaseResult, .wSys (wImm x.w % 4096) (x.k.regs.readX (wSrc1 x.w)))]

/-- LD and ST at X[SRC1] + IMM when the address is an aligned word of the core's own local store that the segment
grants: the load reads it at t + 1, the store writes the eight bytes of X[SRC2] at t + 1, lowest first. -/
def Claim.ScalarMemory : Prop :=
  (∀ (c : CoreId) (s : State) (d : Nat), Issues (scalarRow 0x20 legalXX) c s →
    let x := s.nextIssue c
    x.k.regs.markX (wSrc1 x.w) = false →
    x.st.ownAccess c (addOffset (x.k.regs.readX (wSrc1 x.w)) (wSimm x.w)) 8 .rd 8 = .ok d →
    lsPort x.k x.now [{ cycle := x.now + 1, bytes := 8, write := false }] = none →
    Completes (.ld c) s fun t => Issued c s t 0 1 1 [(x.now + 1, phaseRead, .ldRead (wDst x.w) (d - lsBase c))])
  ∧ ∀ (c : CoreId) (s : State) (d : Nat), Issues (scalarRow 0x21 legalSt) c s →
    let x := s.nextIssue c
    x.k.regs.markX (wSrc1 x.w) = false → x.k.regs.markX (wSrc2 x.w) = false →
    x.st.ownAccess c (addOffset (x.k.regs.readX (wSrc1 x.w)) (wSimm x.w)) 8 .wr 8 = .ok d →
    lsPort x.k x.now [{ cycle := x.now + 1, bytes := 8, write := true }] = none →
    Completes (.st c) s fun t =>
      Issued c s t 0 1 1 [(x.now + 1, phaseWrite, .lsWrite [(d - lsBase c, leBytes 8 (x.k.regs.readX (wSrc2 x.w)).toNat)] false)]

/-- What a scheduled act does in its cycle: a result enters its register and no other, a load's bytes enter the schedule
five cycles on, a store's bytes enter the local store and no other byte of memory changes. -/
def Claim.ScheduledActs : Prop :=
  ∀ (c : CoreId) (s : State) (e : Sched),
    (∀ r v m, e.act = .wX r v m → applyAct c e s = s.modRegs c fun g => g.writeX r v m)
    ∧ (∀ r v, e.act = .wF r v → applyAct c e s = s.modRegs c fun g => g.writeF r v)
    ∧ (∀ r m v k, e.act = .wV r m v k → applyAct c e s = s.modRegs c fun g => g.writeV r m v k)
    ∧ (∀ a data, e.act = .lsWrite [(a, data)] false → s.MemInv → ∀ x,
        Memory.read (applyAct c e s).mem x =
          if lsBase c + a ≤ x ∧ x < lsBase c + a + data.length then (data[x - (lsBase c + a)]?).getD 0 else Memory.read s.mem x)
    ∧ (∀ r a, e.act = .ldRead r a → s.marks = [] →
        (applyAct c e s).mem = s.mem ∧ ((applyAct c e s).core c).flight.sched =
          insertSched (s.core c).flight.sched { e with cycle := e.cycle + 5, phase := phaseResult, act := .wX r (BitVec.ofNat 64 (s.readNat (lsBase c + a) 8)) false })

/-- A taken branch issues its target three cycles on and leaves the loops whose bodies do not hold it; one not taken goes
on to the next word. -/
def Claim.Branches : Prop :=
  (∀ (c : CoreId) (s : State), Issues (scalarRow 0x30 fun _ _ => true) c s →
    Completes (.b c) s fun t =>
      let x := s.nextIssue c
      Diverted c s t 3 (wImm x.w % 16384) (branchLoops (wImm x.w % 16384) x.k.regs))
  ∧ ∀ row ∈ ([(Instr.beq, 0x31, fun a b => a == b), (Instr.bne, 0x32, fun a b => a != b), (Instr.blt, 0x33, fun a b => a.slt b),
      (Instr.bge, 0x34, fun a b => !a.slt b)] : List ((CoreId → Instr) × Nat × (Word → Word → Bool))),
    ∀ (c : CoreId) (s : State), Issues (scalarRow row.2.1 legalBranch) c s →
      let x := s.nextIssue c
      x.k.regs.markX (wSrc1 x.w) = false → x.k.regs.markX (wSrc2 x.w) = false →
      Completes (row.1 c) s fun t =>
        if row.2.2 (x.k.regs.readX (wSrc1 x.w)) (x.k.regs.readX (wSrc2 x.w)) then
          Diverted c s t 3 (wImm x.w % 16384) (branchLoops (wImm x.w % 16384) x.k.regs)
        else Issued c s t 0 1 1 []

/-- LOOP with unmarked counts of 1 to 2^20, room for its levels and ends in their enclosing bodies sets its levels up with
index 0 and its counts; the next word is its body's first. NOPN holds issue for its count. -/
def Claim.LoopAndNopn : Prop :=
  (∀ (c : CoreId) (s : State), Issues { scalarRow 0x40 (fun _ _ => true) with long := true } c s →
    let x := s.nextIssue c
    let g := x.k.regs
    let D := activeLevels g
    (∀ i, i < loopDepth x.w → g.markX (loopCountReg x.w i) = false ∧ 1 ≤ (g.readX (loopCountReg x.w i)).toNat
      ∧ (g.readX (loopCountReg x.w i)).toNat ≤ 2 ^ 20 ∧ x.k.ctl.pc + 2 ≤ loopEnd x.w i ∧ loopEnd x.w i ≤ enclosingEnd g x.w D i) →
    D + loopDepth x.w ≤ 4 →
    Completes (.loop c) s fun t => Continues c s (x.st.modRegs c fun g => { g with loops := loopLevels g x.w D x.k.ctl.pc }) t 1)
  ∧ (∀ (g : CoreRegs) (w D index : Nat) (j : Fin 4), D ≤ j.val → j.val < D + loopDepth w →
      let l := (loopLevels g w D index)[j]
      l.active = true ∧ l.index = 0 ∧ l.count = (g.readX (loopCountReg w (j.val - D))).setWidth 21)
  ∧ ∀ (c : CoreId) (s : State), Issues (scalarRow 0x42 fun _ w => decide (nopCount w ≠ 0)) c s →
    Completes (.nopn c) s fun t => ∃ u, Continues c s u t (wImm (s.nextWord c) % 2 ^ 20) ∧ SameElsewhere c (s.atIssue c) u
      ∧ (u.core c).regs = (s.nextIssue c).k.regs ∧ (u.core c).flight = (s.coreAtIssue c).flight ∧ (u.core c).sys.issueCount = (s.coreAtIssue c).sys.issueCount + 1

/-- A loop-back: at the end word of the innermost active level, with iterations left, every A register gains its
increment of the level, the index advances and the body's first word is next. -/
def Claim.LoopBack : Prop :=
  ∀ (g : CoreRegs) (index words : Nat) (j : Fin 4), g.loops[j].active = true → g.loops[j].endAt.toNat = index →
    (∀ i : Fin 4, j < i → g.loops[i].active = false ∨ g.loops[i].endAt.toNat ≠ index) →
    g.loops[j].index.toNat + 1 < g.loops[j].count.toNat → g.loops[j].count.toNat ≤ 2 ^ 20 →
    let t := advancePc g index words
    t.2 = g.loops[j].start.toNat ∧ t.1.loops[j].index = g.loops[j].index + 1 ∧ t.1.loops[j].active = true
      ∧ (∀ i : Fin 4, i < j → t.1.loops[i] = g.loops[i])
      ∧ (∀ a : Fin 16, t.1.a[a].inc = g.a[a].inc ∧ t.1.a[a].base = addOffset g.a[a].base (g.a[a].inc[j]).toInt)
      ∧ t.1.x = g.x ∧ t.1.v = g.v ∧ t.1.p = g.p ∧ t.1.f = g.f ∧ t.1.sems = g.sems

/-- SWAPI: with the other half loaded it becomes the active one and the entry issues three cycles on; otherwise the core
waits for it. Active loop levels exit. RETT returns to EPC with the loop state saved at the trap entry, and STOP ends issue: what was issued completes and the core is Stopped. -/
def Claim.SwapReturnStop : Prop :=
  (∀ (c : CoreId) (s : State), Issues (scalarRow 0x41 fun _ _ => true) c s →
    let x := s.nextIssue c
    Completes (.swapi c) s fun t =>
      if (if x.k.ctl.half then x.k.ctl.loadedA else x.k.ctl.loadedB) then
        Diverted c s t 3 (wImm x.w % 16384) (x.k.regs.exitFrom 0) ∧ (t.core c).ctl.half = !x.k.ctl.half
      else
        Diverted c s t 1 x.k.ctl.pc (x.k.regs.exitFrom 0) ∧ (t.core c).ctl.half = x.k.ctl.half ∧ (t.core c).ctl.state = .waiting
          ∧ (t.core c).ctl.hold = .swapi (BitVec.ofNat 14 (wImm x.w % 16384)))
  ∧ (∀ (c : CoreId) (s : State), Issues (scalarRow 0x43 fun k _ => k.ctl.handler) c s →
    let x := s.nextIssue c
    Completes (.rett c) s fun t =>
      Diverted c s t 3 (x.k.sys.epc.toNat % 16384) { x.k.regs with loops := x.k.ctl.savedLoops }
        ∧ (t.core c).ctl.handler = false ∧ (t.core c).ctl.reissue = true)
  ∧ ∀ (c : CoreId) (s : State), Issues (scalarRow 0x44 fun _ _ => true) c s →
    ∃ u, SameElsewhere c (s.atIssue c) u ∧ (u.core c).ctl.state = .stopped ∧ (u.core c).flight.sched = (s.coreAtIssue c).flight.sched
      ∧ (u.core c).sys.issueCount = (s.coreAtIssue c).sys.issueCount + 1 ∧ exec (.stop c) s = .next (drain c u)

/-- TRAP_ENTRY of a core that waits for it and that none of its issued instructions halts: what was issued has landed, the
handler runs and TVEC's word is next, a cycle on at the earliest. A core that does not wait for a trap entry is left as it is. -/
def Claim.TrapEntry : Prop :=
  ∀ (c : CoreId) (s : State),
    ((s.core c).ctl.hold = .trapEntry → (s.core c).ctl.state = .running → ((drain c s).core c).ctl.state = .running →
      Completes (.trapEntry c) s fun t =>
        let d := drain c s
        SameElsewhere c d t ∧ (t.core c).ctl.handler = true ∧ (t.core c).ctl.hold = .none ∧ (t.core c).ctl.pc = (d.core c).sys.tvec.toNat
          ∧ (s.core c).flight.now + 1 ≤ (t.core c).flight.now ∧ (t.core c).regs = (d.core c).regs)
    ∧ ((s.core c).ctl.hold ≠ .trapEntry → exec (.trapEntry c) s = .next s)

/-- A TRAP fault outside a handler with traps enabled: EPC holds the word and half of the instruction, CAUSE its code and
detail, the loop state is saved, issue waits for the trap entry; with traps disabled it writes EPC and CAUSE and halts the core;
one inside a handler, or any HALT fault, halts the core. -/
def Claim.TakingAFault : Prop :=
  ∀ (c : CoreId) (f : FaultReq) (p : Place) (s : State),
    (faultClass f.code = .trap → (s.core c).ctl.handler = false → (s.core c).sys.trapEnable = true →
      let t := takeFault c f p s
      SameElsewhere c s t ∧ (t.core c).ctl.hold = .trapEntry ∧ (t.core c).sys.epc = p.index.setWidth 15 ||| (if p.half then 0x4000 else 0)
        ∧ (t.core c).sys.causeCode = BitVec.ofNat 8 f.code ∧ (t.core c).sys.causeDetail = BitVec.ofNat 6 f.detail
        ∧ (t.core c).ctl.savedLoops = (s.core c).regs.loops ∧ (t.core c).regs = (s.core c).regs
        ∧ (t.core c).ctl.lastFault = BitVec.ofNat 8 f.code)
    ∧ (faultClass f.code = .trap → (s.core c).ctl.handler = false → (s.core c).sys.trapEnable = false →
      takeFault c f p s = haltCore c f p (s.modCore c fun k => { k with sys := { k.sys with
        epc := p.index.setWidth 15 ||| (if p.half then 0x4000 else 0), causeCode := BitVec.ofNat 8 f.code, causeDetail := BitVec.ofNat 6 f.detail } }))
    ∧ (faultClass f.code = .trap → (s.core c).ctl.handler = true →
      takeFault c f p s = haltCore c { code := 0x0E, detail := f.code, addr := 0, aux := 0 } p s)
    ∧ (faultClass f.code = .halt → takeFault c f p s = haltCore c f p s)

/-- The order of the checks before an instruction's own: a double-word at an odd word, then a reserved encoding, then a LOOP
or SWAPI in a handler, then a busy engine. -/
def Claim.OrderOfChecks : Prop :=
  ∀ (r : CoreRow) (x : Issue),
    (wLong x.w = true → x.k.ctl.pc % 2 = 1 → issueFault r x = some (plainFault 0x02))
    ∧ (¬ (wLong x.w = true ∧ x.k.ctl.pc % 2 = 1) → reservedWord x.w = true ∨ r.legal x.k x.w = false → issueFault r x = some (plainFault 0x01))
    ∧ (¬ (wLong x.w = true ∧ x.k.ctl.pc % 2 = 1) → reservedWord x.w = false → r.legal x.k x.w = true →
        x.k.ctl.handler = true ∧ wEng x.w = 0 ∧ (wOpc x.w = 0x40 ∨ wOpc x.w = 0x41) →
        issueFault r x = some { code := 0x0E, detail := 0, addr := 0, aux := 0 })
    ∧ (¬ (wLong x.w = true ∧ x.k.ctl.pc % 2 = 1) → reservedWord x.w = false → r.legal x.k x.w = true → x.k.ctl.handler = false →
        x.now < (x.k.flight.busy[r.unit]?).getD 0 → issueFault r x = some (plainFault 0x04))

/-- An instruction whose predicate fails takes one issue slot, counts, is tested against the loop ends, and does nothing
else. -/
def Claim.SkippedInstruction : Prop :=
  ∀ (r : CoreRow) (c : CoreId) (body : Issue → Except FaultReq Effect) (s : State), Fetches r c s →
    predHolds (s.coreAtIssue c).regs (wPred (s.nextWord c)) = false →
    let t := issue r c body s
    SameElsewhere c (s.atIssue c) t ∧ (t.core c).flight.sched = (s.coreAtIssue c).flight.sched
      ∧ (t.core c).flight.now = (s.coreAtIssue c).flight.now + 1 ∧ (t.core c).sys.issueCount = (s.coreAtIssue c).sys.issueCount + 1
      ∧ (t.core c).regs = (advancePc (s.nextIssue c).k.regs (s.coreAtIssue c).ctl.pc (instrWords (s.nextWord c))).1
      ∧ (t.core c).ctl.pc = (advancePc (s.nextIssue c).k.regs (s.coreAtIssue c).ctl.pc (instrWords (s.nextWord c))).2

/-! ## Cores: vector instructions (05) -/

/-- The integer, logic and shift forms at each element size: element i of V[DST] becomes the form's value of the two
source elements where P[PG] is active, 0 where ZM zeroes, and stays otherwise. -/
def Claim.VectorInteger : Prop :=
  ∀ row ∈ ([(Instr.vadd, 0x00, fun w _ a b => (a + b) % 2 ^ w), (Instr.vsub, 0x01, fun w _ a b => (a + 2 ^ w - b) % 2 ^ w),
      (Instr.vmul, 0x02, fun w _ a b => a * b % 2 ^ w),
      (Instr.vmin, 0x03, fun w g a b => if elemInt w g a ≤ elemInt w g b then a else b),
      (Instr.vmax, 0x04, fun w g a b => if elemInt w g a ≤ elemInt w g b then b else a),
      (Instr.vand, 0x05, fun _ _ a b => a &&& b), (Instr.vor, 0x06, fun _ _ a b => a ||| b), (Instr.vxor, 0x07, fun _ _ a b => a ^^^ b),
      (Instr.vshl, 0x08, fun w _ a b => a <<< (b % w) % 2 ^ w),
      (Instr.vshr, 0x09, fun w g a b => wrapInt w (elemInt w g a / 2 ^ (b % w)))] : List ((CoreId → Instr) × Nat × (Nat → Bool → Nat → Nat → Nat))),
    ∀ (c : CoreId) (s : State), Issues (vectorRow row.2.1 legalVecInt) c s →
      Completes (row.1 c) s fun t =>
        let x := s.nextIssue c
        let g := x.k.regs
        let z := vSize x.w
        ∃ mask v, Issued c s t 1 2 1 [(x.now + 3, phaseResult, .wV (wDst x.w) mask v (g.markV (wSrc1 x.w) || g.markV (wSrc2 x.w)))]
          ∧ ∀ i, i < vl z →
            let active := (g.readP (vPg x.w)).toNat.testBit i
            bits mask.toNat (z * i) z = (if active || vZm x.w then 2 ^ z - 1 else 0)
            ∧ bits v.toNat (8 * z * i) (8 * z) = if active then
                row.2.2 (8 * z) (vSgn x.w) (bits (g.readV (wSrc1 x.w)).toNat (8 * z * i) (8 * z)) (bits (g.readV (wSrc2 x.w)).toNat (8 * z * i) (8 * z)) else 0

/-- VMOV, VDUP, VIOTA, VSIZE and VEXT. -/
def Claim.VectorMoves : Prop :=
  ∀ (c : CoreId) (s : State),
    let x := s.nextIssue c
    let g := x.k.regs
    let z := vSize x.w
    let a := wSrc1 x.w
    let b := wSrc2 x.w
    (Issues (vectorRow 0x0A fun w => two32 w && intForm w) c s → Completes (.vmov c) s fun t => Issued c s t 1 2 1
      (vResult x 3 z (vZm x.w) (activeBits g x.w (vl z)) (elems (g.readV a) z) (g.markV a)))
    ∧ (Issues (vectorRow 0x0B fun w => two32 w && intForm w) c s → Completes (.vdup c) s fun t => Issued c s t 1 2 1
      (vResult x 3 z (vZm x.w) (activeBits g x.w (vl z)) ((List.range (vl z)).map fun _ => (g.readX a).toNat) (g.markX a)))
    ∧ (Issues (vectorRow 0x0C legalVecInt) c s → Completes (.viota c) s fun t => Issued c s t 1 2 1
      (vResult x 3 z (vZm x.w) (activeBits g x.w (vl z)) ((List.range (vl z)).map fun i => (g.readX a).toNat + i * (g.readX b).toNat)
        (g.markX a || g.markX b)))
    ∧ (Issues (vectorRow 0x0D fun w => field32 (wDst w) && intForm w) c s → Completes (.vsize c) s fun t => Issued c s t 1 2 1
      [(x.now + 3, phaseResult, .wX (wDst x.w) 256 false)])
    ∧ (Issues (vectorRow 0x0E legalVecInt) c s → g.markX b = false → Completes (.vext c) s fun t => Issued c s t 1 2 1
      [(x.now + 3, phaseResult, .wX (wDst x.w) (toWord (elemInt (8 * z) (vSgn x.w)
        (if (g.readX b).toNat < 256 / z then bits (g.readV a).toNat (8 * z * (g.readX b).toNat) (8 * z) else 0))) (g.markV a))])

/-- VCMP, the loop-tail predicates and predicate logic: element i of P[DST] is active where P[PG] is and the test holds;
PCNT and FFIDX count in X[DST], FFGET and FFPUT move FFR. -/
def Claim.Predicates : Prop :=
  ∀ (c : CoreId) (s : State),
    let x := s.nextIssue c
    let g := x.k.regs
    let n := vl (vSize x.w)
    let act := activeBits g x.w n
    let a := wSrc1 x.w
    let b := wSrc2 x.w
    let tested (f : Nat → Bool) : List Bool := act.zipIdx.map fun p => p.1 && f p.2
    (Issues (vectorRow 0x10 legalVcmp) c s → g.markV a = false → g.markV b = false →
      Completes (.vcmp c) s fun t => Issued c s t 1 2 1 (pResult x 3 (tested fun i =>
        compareElem x.w (bits (g.readV a).toNat (8 * vSize x.w * i) (8 * vSize x.w)) (bits (g.readV b).toNat (8 * vSize x.w * i) (8 * vSize x.w)))))
    ∧ (Issues (vectorRow 0x58 legalPgen) c s → g.markX a = false → g.markX b = false →
      Completes (.pgenLt c) s fun t => Issued c s t 1 2 1 (pResult x 2 (tested fun i => decide ((g.readX a).toInt + i < (g.readX b).toInt))))
    ∧ (Issues (vectorRow 0x59 legalPgen) c s → g.markX a = false → g.markX b = false →
      Completes (.pgenLtu c) s fun t => Issued c s t 1 2 1 (pResult x 2 (tested fun i => decide (((g.readX a).toNat : Int) + i < (g.readX b).toNat))))
    ∧ (Issues (vectorRow 0x5A fun w => field16 (wDst w) && bareForm w) c s →
      Completes (.psetall c) s fun t => Issued c s t 1 2 1 (pResult x 2 (List.replicate n true)))
    ∧ (∀ row ∈ ([(Instr.pand, 0x5B, fun p q => p && q), (Instr.por, 0x5C, fun p q => p || q), (Instr.pxor, 0x5D, fun p q => p != q)] :
        List ((CoreId → Instr) × Nat × (Bool → Bool → Bool))), Issues (vectorRow row.2.1 legalPP) c s →
      Completes (row.1 c) s fun t => Issued c s t 1 2 1 (pResult x 2 (tested fun i =>
        row.2.2 ((g.readP a).toNat.testBit i) ((g.readP b).toNat.testBit i))))
    ∧ (Issues (vectorRow 0x5E fun w => field16 (wDst w) && field16 (wSrc1 w) && bareForm w) c s →
      Completes (.pnot c) s fun t => Issued c s t 1 2 1 (pResult x 2 (tested fun i => !(g.readP a).toNat.testBit i)))
    ∧ (Issues (vectorRow 0x5F fun w => field32 (wDst w) && field16 (wSrc1 w) && bareForm w) c s →
      Completes (.pcnt c) s fun t => Issued c s t 1 2 1 [(x.now + 2, phaseResult,
        .wX (wDst x.w) (BitVec.ofNat 64 ((tested fun i => (g.readP a).toNat.testBit i).count true)) false)])
    ∧ (Issues (vectorRow 0x60 fun w => field16 (wDst w) && bareForm w) c s →
      Completes (.ffget c) s fun t => Issued c s t 1 2 1 (pResult x 2 (tested fun i => g.ffr.toNat.testBit i)))
    ∧ (Issues (vectorRow 0x61 fun w => field16 (wSrc1 w) && bareForm w) c s →
      Completes (.ffput c) s fun t => Issued c s t 1 2 1 [(x.now + 2, phaseResult, .wFfr (g.readP a))])
    ∧ (Issues (vectorRow 0x62 fun w => field32 (wDst w) && bareForm w) c s →
      Completes (.ffidx c) s fun t => Issued c s t 1 2 1 [(x.now + 2, phaseResult, .wX (wDst x.w) (BitVec.ofNat 64 (firstClear g.ffr n)) false)])

/-- The FP32 forms: lane i of V[DST] becomes the operation of R55, R142 and R145 on lane i of the sources. -/
def Claim.VectorFloat : Prop :=
  (∀ row ∈ ([(Instr.vfadd, 0x20, addF32), (Instr.vfsub, 0x21, subF32), (Instr.vfmul, 0x22, mulF32), (Instr.vfmin, 0x24, minF32),
      (Instr.vfmax, 0x25, maxF32)] : List ((CoreId → Instr) × Nat × (Nat → Nat → Nat))),
    ∀ (c : CoreId) (s : State), Issues (vectorRow row.2.1 legalFp2) c s →
      Completes (row.1 c) s fun t =>
        let x := s.nextIssue c
        let g := x.k.regs
        Issued c s t 1 2 1 (vResult x 5 4 (vZm x.w) (activeBits g x.w 64)
          ((List.range 64).map fun i => row.2.2 (bits (g.readV (wSrc1 x.w)).toNat (32 * i) 32) (bits (g.readV (wSrc2 x.w)).toNat (32 * i) 32))
          (g.markV (wSrc1 x.w) || g.markV (wSrc2 x.w))))
  ∧ (∀ row ∈ ([(Instr.vfabs, 0x26, 5, fun a => fp32.encode (fp32.decode a).abs), (Instr.vfneg, 0x27, 5, fun a => fp32.encode (fp32.decode a).negate),
      (Instr.vrecip, 0x40, 9, recipF32), (Instr.vrsqrt, 0x41, 9, rsqrtF32), (Instr.vexp, 0x42, 9, expF32)] :
      List ((CoreId → Instr) × Nat × Nat × (Nat → Nat))),
    ∀ (c : CoreId) (s : State), Issues (vectorRow row.2.1 legalFp1) c s →
      Completes (row.1 c) s fun t =>
        let x := s.nextIssue c
        let g := x.k.regs
        Issued c s t 1 2 1 (vResult x row.2.2.1 4 (vZm x.w) (activeBits g x.w 64)
          ((List.range 64).map fun i => row.2.2.2 (bits (g.readV (wSrc1 x.w)).toNat (32 * i) 32)) (g.markV (wSrc1 x.w))))
  ∧ ∀ (c : CoreId) (s : State), Issues (vectorRow 0x23 fun w => three32 w && field32 (wSrc3 w) && fp32Form w) c s →
      Completes (.vfma c) s fun t =>
        let x := s.nextIssue c
        let g := x.k.regs
        let lane (r i : Nat) : Nat := bits (g.readV r).toNat (32 * i) 32
        Issued c s t 1 2 1 (vResult x 5 4 (vZm x.w) (activeBits g x.w 64)
          ((List.range 64).map fun i => fmaF32 (lane (wSrc1 x.w) i) (lane (wSrc2 x.w) i) (lane (wSrc3 x.w) i))
          (g.markV (wSrc1 x.w) || g.markV (wSrc2 x.w) || g.markV (wSrc3 x.w)))

/-- The widening, dot and reduction forms. -/
def Claim.VectorWideDotReduce : Prop :=
  ∀ (c : CoreId) (s : State),
    let x := s.nextIssue c
    let g := x.k.regs
    let z := vSize x.w
    let a := g.readV (wSrc1 x.w)
    let b := g.readV (wSrc2 x.w)
    let d := g.readV (wDst x.w)
    let mark2 := g.markV (wSrc1 x.w) || g.markV (wSrc2 x.w)
    let act := activeBits g x.w 64
    (Issues (vectorRow 0x30 legalVmulw) c s → Completes (.vmulw c) s fun t => Issued c s t 1 2 1
      (vResult x 5 (2 * z) (vZm x.w) (activeBits g x.w (vl (2 * z)))
        ((List.range (vl (2 * z))).map fun i =>
          let j := (if bit (vOpx x.w) 0 then vl (2 * z) else 0) + i
          let p := elemAt (elems a z) j
          let q := elemAt (elems b z) j
          if bit (vOpx x.w) 1 then fp32.encode (((floatFmt (vFmt2 x.w)).decode p).mul ((floatFmt (vFmt2 x.w)).decode q))
          else wrapInt (16 * z) (elemInt (8 * z) (vSgn x.w) p * elemInt (8 * z) (vSgn x.w) q)) mark2))
    ∧ (Issues (vectorRow 0x31 fun w => three32 w && intForm w && vEsz w == 2) c s → Completes (.vdot4 c) s fun t => Issued c s t 1 2 1
      (vResult x 6 4 (vZm x.w) act
        ((List.range 64).map fun j =>
          let e (v : BitVec 2048) (m : Nat) : Int := elemInt 8 (vSgn x.w) (elemAt (elems v 1) (4 * j + m))
          wrapInt 32 ((elemAt (elems d 4) j : Int) + e a 0 * e b 0 + e a 1 * e b 1 + e a 2 * e b 2 + e a 3 * e b 3))
        (mark2 || g.markV (wDst x.w))))
    ∧ (Issues (vectorRow 0x32 fun w => three32 w && vEsz w == 2 && vFmt w == 0 && vOpx w == 0 && (vFmt2 w == 1 || vFmt2 w == 2)) c s →
      Completes (.vdot2 c) s fun t => Issued c s t 1 2 1
      (vResult x 6 4 (vZm x.w) act
        ((List.range 64).map fun j => dotFloat (floatFmt (vFmt2 x.w)) (elemAt (elems d 4) j)
          [(elemAt (elems a 2) (2 * j), elemAt (elems b 2) (2 * j)), (elemAt (elems a 2) (2 * j + 1), elemAt (elems b 2) (2 * j + 1))])
        (mark2 || g.markV (wDst x.w))))
    ∧ (∀ row ∈ ([(Instr.vredsum, 0x48, addF32, 0), (Instr.vredmax, 0x49, maxF32, 0xFF800000)] :
        List ((CoreId → Instr) × Nat × (Nat → Nat → Nat) × Nat)), Issues (vectorRow row.2.1 legalFp1) c s →
      Completes (row.1 c) s fun t => Issued c s t 1 2 1
        (vWhole x 12 4 [reduceTree row.2.2.1 ((List.range 64).map fun i =>
          if (g.readP (vPg x.w)).toNat.testBit i then bits a.toNat (32 * i) 32 else row.2.2.2)] (g.markV (wSrc1 x.w))))
    ∧ (Issues (vectorRow 0x4A fun w => two32 w && intForm w && decide (2 ≤ vEsz w)) c s → Completes (.vredadd c) s fun t =>
      Issued c s t 1 2 1 (vWhole x 12 z [((List.range (vl z)).map fun i =>
        if (g.readP (vPg x.w)).toNat.testBit i then bits a.toNat (8 * z * i) (8 * z) else 0).sum % 2 ^ (8 * z)] (g.markV (wSrc1 x.w))))

/-- VCVT, VCVTQ, VCULT and VCULTDROP on unmarked registers: the codes of their conversions, or the generator's output, at
their latencies; the conversions' clip counts follow a cycle later. -/
def Claim.ConversionAndCulture : Prop :=
  ∀ (c : CoreId) (s : State),
    let x := s.nextIssue c
    let g := x.k.regs
    let conv := BitVec.ofNat 8 (vOpx x.w)
    (Issues (vectorRow 0x38 legalVcvt) c s → g.markV (wSrc1 x.w) = false →
      (convRnd conv = true → g.markX (wSrc2 x.w) = false ∧ g.markX (wSrc3 x.w) = false) →
      Completes (.vcvt c) s fun t =>
        let sb := fmtBytes (vFmt2 x.w)
        let db := fmtBytes (vFmt x.w)
        let n := vl (max sb db)
        let one (i : Nat) : Converted :=
          convertFloat (floatFmt (vFmt x.w)) (convOvf conv)
            (if convRnd conv then .stochastic ((cultAt x (vEsz x.w * n + i)).x0 % 65536) else .near)
            ((floatFmt (vFmt2 x.w)).decode (elemAt (elems (g.readV (wSrc1 x.w)) sb) (if db < sb then i else vEsz x.w * n + i)))
        let counted := ((List.range n).filter fun i => (g.readP (vPg x.w)).toNat.testBit i).map one
        ∃ mask v, Issued c s t 1 2 1 ((x.now + 5, phaseResult, .wV (wDst x.w) mask v false) :: clipActs x 5 conv counted)
          ∧ ∀ i, i < n →
            let active := (g.readP (vPg x.w)).toNat.testBit i
            let j := (if db < sb then vEsz x.w * n else 0) + i
            bits mask.toNat (db * j) db = (if active || vZm x.w then 2 ^ db - 1 else 0)
            ∧ bits v.toNat (8 * db * j) (8 * db) = if active then (one i).code % 2 ^ (8 * db) else 0)
    ∧ (Issues (vectorRow 0x39 legalVcvtq) c s → g.markV (wSrc1 x.w) = false → g.markV (wSrc2 x.w) = false →
      Completes (.vcvtq c) s fun t =>
        let fmt := vFmt x.w
        let params := elems (g.readV (wSrc2 x.w)) 1
        let one (i : Nat) : Converted := cvtqElem fmt (convOvf conv) params (i / 32) (bits (g.readV (wSrc1 x.w)).toNat (32 * i) 32)
        let active (i : Nat) : Bool := (g.readP (vPg x.w)).toNat.testBit i
        ∃ v, Issued c s t 1 2 1 ((x.now + 5, phaseResult, .wV (wDst x.w) (BitVec.allOnes 256) v false)
            :: clipActs x 5 conv (((List.range 64).filter active).map one))
          ∧ ∀ i, i < 64 → bits v.toNat (storageBits fmt * i) (storageBits fmt)
              = (if active i then (one i).code else cvtqZero fmt params (i / 32)) % 2 ^ storageBits fmt)
    ∧ (Issues (vectorRow 0x50 legalCult) c s → g.markX (wSrc2 x.w) = false → g.markX (wSrc3 x.w) = false →
      Completes (.vcult c) s fun t => Issued c s t 1 2 1 (vResult x 7 4 (vZm x.w) (activeBits g x.w 64)
        ((List.range 64).map fun i => cultOutput (vOpx x.w % 4) (cultAt x i)) false))
    ∧ (Issues (vectorRow 0x51 fun w => decide (wDst w < 16) && field32 (wSrc1 w) && field32 (wSrc2 w) && field32 (wSrc3 w) && vEsz w == 2 && bareForm w) c s →
      g.markX (wSrc1 x.w) = false → g.markX (wSrc2 x.w) = false → g.markX (wSrc3 x.w) = false →
      Completes (.vcultdrop c) s fun t => Issued c s t 1 2 1 (pResult x 7 ((activeBits g x.w 64).zipIdx.map fun p =>
        p.1 && decide ((g.readX (wSrc1 x.w)).toNat % 2 ^ 32 ≤ (cultAt x p.2).x1))))

/-- The vector memory forms with every active element resolved: a load reads the elements' bytes at t + 1 and t + 2 into
the active elements of its registers at its latency, a first-fault form also writes FFR, a store writes them at t + 1 and
t + 2; a reissue that completes clears VSTART. -/
def Claim.VectorMemory : Prop :=
  ∀ (c : CoreId) (s : State),
    let x := s.nextIssue c
    let g := x.k.regs
    let z := vSize x.w
    let n := vl z
    let resolved (m : MemForm) (r : Right) (offs : Nat → List Nat) : Prop := ∀ i ∈ activeElements x, elementAccess x m r i = .ok (offs i)
    (∀ row ∈ ([(Instr.vld, 0x80, .unit 1, 7, false), (Instr.vlds, 0x82, .strided, 9, false), (Instr.vld2, 0x84, .unit 2, 9, false),
        (Instr.vld3, 0x85, .unit 3, 9, false), (Instr.vld4, 0x86, .unit 4, 9, false), (Instr.vldff, 0x8A, .unit 1, 7, true),
        (Instr.vgather, 0x8C, .indexed, 12, false), (Instr.vgatherff, 0x8D, .indexed, 12, true)] :
        List ((CoreId → Instr) × Nat × MemForm × Nat × Bool)),
      ∀ offs : Nat → List Nat, Issues (vmemRow row.2.1 row.2.2.1) c s → firstElement x < n → resolved row.2.2.1 .rd offs →
        memPoison x row.2.2.1 = none → lsPort x.k x.now (memPorts x row.2.2.1 false) = none →
        Completes (row.1 c) s fun t =>
          let moves (l : List Nat) : List Move :=
            l.flatMap fun i => (offs i).zipIdx.map fun o => { reg := wDst x.w + o.2, pos := z * i, addr := o.1, len := z }
          ∃ regs masks, Issued c s t 1 2 1
            ((x.now + 1, phaseRead, .vRead (moves ((activeElements x).filter fun i => decide (i < n / 2)))
                (moves ((activeElements x).filter fun i => decide (n / 2 ≤ i))) regs masks [] (x.now + row.2.2.2.1))
              :: ((if row.2.2.2.2 then [(x.now + row.2.2.2.1, phaseResult, .wFfr (packPred (activeBits g x.w n)))] else [])
                ++ if x.reissue then [(x.now + 1, phaseResult, .wVstart 0)] else []))
            ∧ masks.map (·.1) = (List.range row.2.2.1.fields).map (wDst x.w + ·) ∧ regs = masks.map (fun p => (p.1, 0))
            ∧ ∀ p ∈ masks, ∀ i, i < n → bits p.2.toNat (z * i) z =
                if firstElement x ≤ i ∧ ((g.readP (vPg x.w)).toNat.testBit i = true ∨ vZm x.w = true) then 2 ^ z - 1 else 0)
    ∧ (∀ row ∈ ([(Instr.vst, 0x81, .unit 1), (Instr.vsts, 0x83, .strided), (Instr.vst2, 0x87, .unit 2), (Instr.vst3, 0x88, .unit 3),
        (Instr.vst4, 0x89, .unit 4), (Instr.vscatter, 0x8E, .indexed)] : List ((CoreId → Instr) × Nat × MemForm)),
      ∀ offs : Nat → List Nat, Issues (vmemRow row.2.1 row.2.2) c s → firstElement x < n → resolved row.2.2 .wr offs →
        memPoison x row.2.2 = none → lsPort x.k x.now (memPorts x row.2.2 true) = none →
        (∀ f, f < row.2.2.fields → g.markV (wDst x.w + f) = false) →
        Completes (row.1 c) s fun t =>
          let runs (l : List Nat) : List (Nat × List Byte) :=
            l.flatMap fun i => (offs i).zipIdx.map fun o => (o.1, leBytes z (bits (g.readV (wDst x.w + o.2)).toNat (8 * z * i) (8 * z)))
          Issued c s t 1 2 1 ([(x.now + 1, phaseWrite, .lsWrite (runs ((activeElements x).filter fun i => decide (i < n / 2))) false),
              (x.now + 2, phaseWrite, .lsWrite (runs ((activeElements x).filter fun i => decide (n / 2 ≤ i))) false)]
            ++ if x.reissue then [(x.now + 1, phaseResult, .wVstart 0)] else []))

/-! ## Cores: the tile pipe and the array (04) -/

/-- TLD and TST whose checks of R479 pass move their rows one a cycle from t + 1 on: row i of a load is the bytes at
ADDR + i × stride, its tile row available five cycles on; row i of a store is written a cycle on. -/
def Claim.TileMoves : Prop :=
  ∀ (c : CoreId) (s : State) (load : Bool),
    let x := s.nextIssue c
    let g := x.k.regs
    let r : Right := if load then .rd else .wr
    let p := g.pal (if load then wDst x.w else wSrc1 x.w)
    let addr := (addressOperand g (mSrcOp x.w)).1
    let uses := rowUses p false (tFirst x.w) (tRows x.w) (x.now + if load then 6 else 1)
    let ports := (List.range (tRows x.w)).map fun i => ({ cycle := x.now + (if load then 1 else 2) + i, bytes := tBytes x.w, write := !load } : PortUse)
    Issues (matrixRow (if load then 0x01 else 0x02) 2 fun _ => true) c s →
    operandPoison x (mSrcOp x.w) = none → tileShape x p load addr uses = none →
    (∀ i, i < tRows x.w → ∃ d, x.st.ownAccess c (addOffset addr (i * tStride x.w : Nat)) (tBytes x.w) r 1 = .ok d) →
    (load = false → ∀ i, i < tRows x.w → g.tileMarked p (tFirst x.w + i) = false) → lsPort x.k x.now ports = none →
    Completes (if load then .tld c else .tst c) s fun t =>
      ∃ m : TileMove, Issued c s t 2 (tRows x.w) 1 [(x.now + 1, phaseRead, if load then .tldRow m 0 else .tstRow m 0)]
        ∧ m.tpal = p ∧ m.first = tFirst x.w ∧ m.rows = tRows x.w ∧ m.rbytes = tBytes x.w ∧ m.stride = tStride x.w
        ∧ (∀ d, x.st.ownAccess c addr (tBytes x.w) r 1 = .ok d → m.addr = d - lsBase c)
        ∧ m.esize = if load && tTrans x.w then some (storageBits (tFmt x.w) / 8) else none

/-- WLD, MMT and MMS whose checks of R479 pass: the weights' first rows are read in the issue cycle and their load takes
eight cycles, which a KEEP saves; MMT then takes a tile row a cycle, MMS a row of the local store a cycle. -/
def Claim.ArrayInstructions : Prop :=
  ∀ (c : CoreId) (s : State),
    let x := s.nextIssue c
    let g := x.k.regs
    let load (o : ArrayOp) : Nat := if loadsWeights o x.w then 8 else 0
    (Issues (matrixRow 0x10 3 fun _ => true) c s → arrayShape .wld x 0 0 = none →
      Completes (.wld c) s fun t => ∃ l got, arraySlot x.w = some l ∧ Issued c s t 3 8 1 [(x.now + 1, phaseRead, .wlRows (weightLoad x l) 1 got)])
    ∧ (Issues (matrixRow 0x11 3 fun _ => true) c s → arrayShape .mmt x 0 0 = none →
      Completes (.mmt c) s fun t => ∃ run : MmtRun,
        Issued c s t 3 (load .mmt + tRows x.w) 1 ((weightPhase .mmt x).1 ++ [(x.now + 1 + load .mmt, phaseRead, .mmtRow run 0)])
        ∧ run.a = g.pal (mAtile x.w) ∧ run.d = [g.pal (wDst x.w), g.pal (wDst x.w + 1), g.pal (wDst x.w + 2), g.pal (wDst x.w + 3)]
        ∧ run.rows = tRows x.w ∧ run.rbytes = tBytes x.w ∧ run.fmt.toNat = tFmt x.w ∧ run.acc = mAcc x.w
        ∧ run.ascl = if isBlocked (tFmt x.w) then some (g.pal (mAscl x.w)) else none)
    ∧ (Issues (matrixRow 0x20 3 fun w => field32 (wDst w)) c s →
      let src := (addressOperand g (mSrcOp x.w)).1
      let out := (addressOperand g (mOutOp x.w)).1
      let m := bits (g.readX (wDst x.w)).toNat 0 16
      let size := storageBits (ofmtCode (mOfmt x.w)) / 8
      ∀ d e, g.markX (wDst x.w) = false → operandPoison x (mSrcOp x.w) = none → operandPoison x (mOutOp x.w) = none →
      arrayShape .mms x src out = none →
      x.st.ownAccess c src (m * tBytes x.w + if isBlocked (tFmt x.w) then 16 * m else 0) .rd 1 = .ok d →
      x.st.ownAccess c out (128 * m * size) .wr 1 = .ok e →
      (mAcc x.w = true → x.st.ownAccess c out (128 * m * size) .rd 1 = .ok e) →
      lsPort x.k x.now (mmsPorts x (load .mms) m size) = none →
      Completes (.mms c) s fun t => ∃ run : MmsRun,
        Issued c s t 3 (load .mms + m) 1 ((weightPhase .mms x).1 ++ [(x.now + 7 + load .mms, phaseRead, .mmsRow run 0)])
        ∧ run.src = d - lsBase c ∧ run.out = e - lsBase c ∧ run.rows = m ∧ run.rbytes = tBytes x.w ∧ run.fmt.toNat = tFmt x.w
        ∧ run.acc = mAcc x.w ∧ run.atr = mAtr x.w ∧ run.ofmt = mOfmt x.w ∧ run.oblk = mOblk x.w)

/-! ## Cores: the sync unit (09) -/

/-- What an issue leaves where nothing of it lies outside the core: SIGNAL and SEMSET change a semaphore a cycle on, SEMRD
reads one as it stood at the start of the cycle. -/
def Claim.SemaphoreInstructions : Prop :=
  ∀ (c : CoreId) (s : State),
    let x := s.nextIssue c
    let n := wImm x.w % 65536
    (Issues (syncRow 0x01 (fun _ _ => true) legalSemCount) c s → x.k.flight.holdsEffects = false →
      Completes (.signal c) s fun t => Issued c s t 6 1 1 [(x.now + 1, phaseResult, .semInc (wDst x.w) n none)])
    ∧ (Issues (syncRow 0x03 (fun _ _ => true) fun w => field32 (wDst w) && field32 (wSrc1 w)) c s → x.k.regs.markX (wSrc1 x.w) = false →
      Completes (.semset c) s fun t =>
        Issued c s t 6 1 1 [(x.now + 1, phaseResult, .semSet (wDst x.w) ((x.k.regs.readX (wSrc1 x.w)).truncate 16))])
    ∧ (Issues (syncRow 0x04 (fun _ _ => true) fun w => field32 (wDst w) && field32 (wSrc1 w)) c s →
      Completes (.semrd c) s fun t => Issued c s t 6 1 1 [(x.now + 1, phaseResult,
        .wX (wDst x.w) ((((runTo c ((s.core c).flight.now - 1) s).core c).regs.readS (wSrc1 x.w)).setWidth 64) false)])

/-- WAIT: with the count there it subtracts the count in its issue cycle; otherwise the core is Waiting on it.
WAIT_RELEASE takes the count when it is there and lets the next instruction issue two cycles later; the cycles of the hold
count in full while the core's queues hold a descriptor or have held one since it began. -/
def Claim.WaitAndRelease : Prop :=
  (∀ (c : CoreId) (s : State), Issues (syncRow 0x02 (fun _ _ => true) legalSemCount) c s →
    let x := s.nextIssue c
    let n := wImm x.w % 65536
    Completes (.wait c) s fun t =>
      if n ≤ (x.k.regs.readS (wDst x.w)).toNat then Continues c s (x.st.takeSem c (wDst x.w) n) t 1
      else Holds c s x.st t (.wait (BitVec.ofNat 5 (wDst x.w)) (BitVec.ofNat 16 n)))
  ∧ (∀ (c : CoreId) (s : State) (r n : Nat), r < 32 →
      let t := s.takeSem c r n
      (t.core c).regs.readS r = (s.core c).regs.readS r - BitVec.ofNat 16 n
        ∧ (∀ q, q ≠ r → (t.core c).regs.readS q = (s.core c).regs.readS q) ∧ (t.core c).regs.x = (s.core c).regs.x
        ∧ t.mem = s.mem ∧ ∀ d, d ≠ c → t.core d = s.core d)
  ∧ ∀ (c : CoreId) (elapsed : Nat) (s : State) (r : BitVec 5) (n : BitVec 16),
      (s.core c).ctl.hold = .wait r n → (s.core c).ctl.state = .waiting →
      let T := heldCycle c elapsed s
      let d := runTo c T s
      (((s.core c).flight.queuesEmpty = false ∨ (s.core c).flight.fed = true) → T = (s.core c).flight.now - 1 + max 1 elapsed) ∧ (
      (d.core c).ctl.state = .waiting → n.toNat ≤ ((d.core c).regs.readS r.toNat).toNat →
      Completes (.waitRelease c elapsed) s fun t =>
        (t.core c).regs.readS r.toNat = (d.core c).regs.readS r.toNat - n ∧ (t.core c).ctl.state = .running ∧ (t.core c).ctl.hold = .none
          ∧ (t.core c).flight.now = T + 2 ∧ t.mem = d.mem ∧ ∀ e, e ≠ c → t.core e = d.core e)

/-- RSIGNAL to a present core of the partition sends the signal on its way, to a press unit makes one more ring entry
available; a refused target is BAD_CORE in the log and nothing more. -/
def Claim.RemoteSignal : Prop :=
  ∀ (c : CoreId) (s : State),
    let x := s.nextIssue c
    let v := x.k.regs.readX (wSrc1 x.w)
    x.k.regs.markX (wSrc1 x.w) = false →
    (Issues { syncRow 0x05 (fun k w => !pressForm k w) fun w => field32 (wSrc1 w) with reaches := reachesMesh } c s →
      x.k.flight.holdsEffects = false → v.getLsbD 15 = false →
      (targetRefused x.st c v = false → Completes (.rsignalCore c) s fun t =>
        Continues c s { x.st with signals := x.st.signals ++ [{ sender := c, target := v.truncate 10, sem := BitVec.ofNat 5 (bits v.toNat 10 5),
                                                                count := BitVec.ofNat 16 (bits v.toNat 16 16) }] } t 1)
      ∧ (targetRefused x.st c v = true → Completes (.rsignalCore c) s fun t => ∃ u, Continues c s u t 1 ∧ SameElsewhere c (s.atIssue c) u
          ∧ (u.core c).ctl.lastFault = 0x11 ∧ (u.core c).regs = x.k.regs))
    ∧ (Issues { syncRow 0x05 pressForm fun w => field32 (wSrc1 w) with reaches := reachesPress } c s →
      x.k.flight.holdsEffects = false → v.getLsbD 15 = true → targetRefused x.st c v = false →
      (x.st.pressUnit (bits v.toNat 32 5)).available < x.st.pressEntries (x.st.corePart c) →
      Completes (.rsignalPress c) s fun t =>
        (t.pressUnit (bits v.toNat 32 5)).available = (x.st.pressUnit (bits v.toNat 32 5)).available + 1
          ∧ (∀ q, q ≠ bits v.toNat 32 5 → t.pressUnit q = x.st.pressUnit q) ∧ t.mem = x.st.mem ∧ (∀ d, d ≠ c → t.core d = x.st.core d))

/-- The fences place their mark in the core's order; an effect behind marks that are not complete is held, and the oldest
held one takes place once every mark before it is complete. -/
def Claim.Fences : Prop :=
  (∀ row ∈ ([(Instr.fenceL, 0x08, .l), (Instr.fenceM, 0x09, .m), (Instr.fenceF, 0x0A, .f)] : List ((CoreId → Instr) × Nat × FenceClass)),
    ∀ (c : CoreId) (s : State), Issues (syncRow row.2.1 (fun _ _ => true) fun _ => true) c s →
      let x := s.nextIssue c
      Completes (row.1 c) s fun t => ∃ u, Continues c s u t 1 ∧ SameElsewhere c (s.atIssue c) u ∧ (u.core c).regs = x.k.regs
        ∧ (u.core c).flight.sched = x.k.flight.sched
        ∧ (u.core c).flight.marks = (x.k.flight.marks.filter fun m => !x.k.flight.markDone m)
          ++ [{ cls := row.2.2, seq := x.k.flight.seq, produced := x.st.fabricProduced c }])
  ∧ (∀ (c : CoreId) (s : State), Issues (syncRow 0x01 (fun _ _ => true) legalSemCount) c s → (s.nextIssue c).k.flight.holdsEffects = true →
      Completes (.signal c) s fun t => (t.core c).flight.held.length = (s.coreAtIssue c).flight.held.length + 1
        ∧ (t.core c).flight.sched = (s.coreAtIssue c).flight.sched ∧ (t.core c).regs.sems = (s.coreAtIssue c).regs.sems)
  ∧ ∀ (c : CoreId) (s : State) (h : HeldEffect) (rest : List HeldEffect),
      let d := runPending c s
      (d.core c).flight.held = h :: rest → (∀ m ∈ (d.core c).flight.marks, h.seq ≤ m.seq ∨ (d.core c).flight.markDone m = true) →
      Completes (.fenceHeldRelease c) s fun t =>
        (t.core c).flight.held = rest ∧ t.mem = d.mem
          ∧ (∀ r n, h.effect = .signal r n → ((t.core c).regs.readS r.toNat).toNat = min 65535 (((d.core c).regs.readS r.toNat).toNat + n.toNat))
          ∧ (∀ v, h.effect = .rsignal v → targetPress? v = false →
              t.signals = d.signals ++ [{ sender := c, target := targetCore v, sem := targetSem v, count := targetCount v }])

/-- The oldest signal on its way from a core to another arrives: it leaves the way, the target's semaphore rises by its count, up to 65,535, and past it
SEM_OVERFLOW is logged with the sender; dozing domains on its path wake; no other semaphore, register or byte of memory changes. -/
def Claim.SignalArrives : Prop :=
  ∀ (sender target : CoreId) (sem : BitVec 5) (s : State) (before after : List Flying) (n : BitVec 16),
    s.signals = before ++ { sender := sender, target := target, sem := sem, count := n } :: after →
    (∀ f ∈ before, ¬ (f.sender = sender ∧ f.target = target)) → (s.core target).flight.resetting = false →
    Completes (.semaphoreIncrement sender target sem) s fun t =>
      t.signals = before ++ after
        ∧ ((t.core target).regs.readS sem.toNat).toNat = min 65535 (((s.core target).regs.readS sem.toNat).toNat + n.toNat)
        ∧ (∀ r, r ≠ sem.toNat → (t.core target).regs.readS r = (s.core target).regs.readS r)
        ∧ (t.core target).regs.x = (s.core target).regs.x ∧ t.mem = s.mem ∧ (∀ d, d ≠ target → t.core d = s.core d)
        ∧ (65535 < ((s.core target).regs.readS sem.toNat).toNat + n.toNat → (t.core target).ctl.lastFault = 0x12)
        ∧ (∀ d, t.domain d = if d ∈ pathDomains (dieUnit sender) (dieUnit target) ++ [rowDomain target] ∧ s.domain d = .doze then .on else s.domain d)

/-! ## Barriers and the iron (09) -/

/-- BAR sends its arrival with the barrier and epoch that X[SRC1] and X[SRC2] name; in wait mode the core waits for the
answer, in signal mode it goes on. -/
def Claim.BarIssue : Prop :=
  ∀ (c : CoreId) (s : State),
    let x := s.nextIssue c
    let bid : BitVec 10 := (x.k.regs.readX (wSrc1 x.w)).truncate 10
    let epoch : BitVec 16 := (x.k.regs.readX (wSrc2 x.w)).truncate 16
    let sent (t : State) (waits : Bool) : Prop :=
      t.arrivals.map (fun a => (a.core, a.bid, a.epoch, a.waits)) = x.st.arrivals.map (fun a => (a.core, a.bid, a.epoch, a.waits)) ++ [(c, bid, epoch, waits)]
        ∧ t.mem = x.st.mem ∧ (∀ d, d ≠ c → t.core d = x.st.core d)
    x.k.regs.markX (wSrc1 x.w) = false → x.k.regs.markX (wSrc2 x.w) = false → x.k.flight.holdsEffects = false →
    (Issues { syncRow 0x10 (fun _ w => !bit (wImm w) 0) legalBar with reaches := reachesNode } c s →
      Completes (.barWaitMode c) s fun t => sent t true ∧ (t.core c).ctl.state = .waiting
        ∧ (t.core c).ctl.hold = .bar bid epoch (BitVec.ofNat 6 (wDst x.w)))
    ∧ (Issues { syncRow 0x10 (fun _ w => bit (wImm w) 0) legalBar with reaches := reachesNode } c s →
      Completes (.barSignalMode c) s fun t => sent t false ∧ (t.core c).ctl.state = .running
        ∧ (t.core c).flight.now = x.k.flight.now + 1)

/-- An arrival at its die node: the open epoch counts, the next is held early, one twice or too far ahead is OVERRUN, one
behind STALE, a core that is no member and an entry that is not valid are refused; a refusal is logged in the arriving
core's log and answers a waiting core. -/
def Claim.BarrierArrivals : Prop :=
  (∀ (b : Barrier) (c : CoreId) (e : BitVec 16),
    let n := b.node (dieOf c)
    let d := (e - n.openEpoch).toNat
    (barValid b.entry = false → barVerdict b c e = .refused .invalid)
    ∧ (barValid b.entry = true → c ∉ b.members → barVerdict b c e = .refused .member)
    ∧ (barValid b.entry = true → c ∈ b.members →
        (d = 0 → (∀ a ∈ n.counted, a.core ≠ c) → barVerdict b c e = .counted)
        ∧ (d = 0 → (∃ a ∈ n.counted, a.core = c) → barVerdict b c e = .refused .overrun)
        ∧ (d = 1 → (∀ a ∈ n.early, a.core ≠ c) → barVerdict b c e = .early)
        ∧ (d = 1 → (∃ a ∈ n.early, a.core = c) → barVerdict b c e = .refused .overrun)
        ∧ (2 ≤ d → d ≤ 32767 → barVerdict b c e = .refused .overrun) ∧ (32768 ≤ d → barVerdict b c e = .refused .stale)))
  ∧ ∀ (c : CoreId) (s : State) (a : FlyingArrival) (rest : List FlyingArrival) (p : Nat),
    s.arrivals = a :: rest → a.core = c → s.corePart c = some p →
    let b := s.barrier p a.bid.toNat
    Completes (.barrierArrival c) s fun t =>
      t.arrivals = rest ∧ t.mem = s.mem ∧
      match barVerdict b c a.epoch with
      | .counted => ((t.barrier p a.bid.toNat).node (dieOf c)).counted = (b.node (dieOf c)).counted ++ [{ core := c, waits := a.waits, sem := a.sem }]
          ∧ t.core c = s.core c
      | .early => ((t.barrier p a.bid.toNat).node (dieOf c)).early = (b.node (dieOf c)).early ++ [{ core := c, waits := a.waits, sem := a.sem }]
          ∧ t.core c = s.core c
      | .refused r => t.barrier p a.bid.toNat = b ∧ (t.core c).ctl.lastFault = BitVec.ofNat 8 r.code
          ∧ (a.waits = true → (∃ dst, (s.core c).ctl.hold = .bar a.bid a.epoch dst) → (t.core c).flight.answer = some r.status)

/-- A die node whose members have all arrived reports once to the root; the device root reports to the head, which counts
one report a device for the open epoch, holds one a device for the next, and logs any other; one of a device that a takeover
has fenced is lost. -/
def Claim.BarrierReports : Prop :=
  (∀ (part bid die : Nat) (s : State),
    let b := s.barrier part bid
    barValid b.entry = true → die < 4 → die ≠ s.rootDie part → b.dieMembers die ≠ [] → b.dieComplete die = true →
    (b.node die).reported = false → (b.node die).releasing = [] → (b.node die).openEpoch = b.rootEpoch → b.completing = false →
    Completes (.barrierNodeReport part bid die) s fun t =>
      (t.barrier part bid).rootReports = insertNum b.rootReports die ∧ ((t.barrier part bid).node die).reported = true
        ∧ ((t.barrier part bid).node die).counted = (b.node die).counted ∧ t.cores = s.cores ∧ t.mem = s.mem)
  ∧ ∀ (part bid device : Nat) (epoch : BitVec 16) (time : Nat) (s : State),
    let b := s.barrier part bid
    (s.fabric.takeover.dropped.contains device = true → exec (.deviceReport part bid device epoch time) s = .next s) ∧
    (barValid b.entry = true → barScope b.entry = true → s.isHead = true → device ≠ s.fabricId →
    s.fabric.takeover.dropped.contains device = false →
    (epoch = b.rootEpoch → b.completing = false → (∀ d ∈ b.devices, d.1 ≠ device) →
      Completes (.deviceReport part bid device epoch time) s fun t =>
        (t.barrier part bid).devices = b.devices ++ [(device, time)] ∧ t.cores = s.cores ∧ t.mem = s.mem)
    ∧ (epoch = b.rootEpoch + 1 → (∀ d ∈ b.earlyDevices, d.1 ≠ device) →
      Completes (.deviceReport part bid device epoch time) s fun t =>
        (t.barrier part bid).earlyDevices = b.earlyDevices ++ [(device, time)] ∧ (t.barrier part bid).devices = b.devices
          ∧ t.cores = s.cores ∧ t.mem = s.mem)
    ∧ (epoch ≠ b.rootEpoch → epoch ≠ b.rootEpoch + 1 → Completes (.deviceReport part bid device epoch time) s fun t =>
      t.barrier part bid = b ∧ t.errors.healthEvents = (2, device) :: s.errors.healthEvents))

/-- A complete barrier that is no step barrier begins its release at every node that has members; a release delivered to a
waiting member lets it go on two cycles later with status 0, one to a signal-mode member raises its semaphore; one behind an
earlier release to the same core is not delivered yet. -/
def Claim.BarrierRelease : Prop :=
  (∀ (part bid time : Nat) (s : State),
    let b := s.barrier part bid
    completionDue s part b = true → (∀ j, (s.part part).job = some j → j.stepBarrier ≠ bid) →
    Completes (.barrierCompletion part bid time) s fun t =>
      (∀ die, die < 4 → b.dieMembers die ≠ [] → ((t.barrier part bid).node die).releasing = (b.node die).counted)
        ∧ (t.barrier part bid).rootReports = [] ∧ (t.barrier part bid).lastRelease = some time ∧ t.cores = s.cores ∧ t.mem = s.mem)
  ∧ (∀ (core : CoreId) (bid elapsed : Nat) (s : State) (p : Nat) (a : Arrival),
    (s.core core).flight.answer = none → (s.core core).flight.resetting = false → s.corePart core = some p → s.releaseBehind p bid core = false →
    ((s.barrier p bid).node (dieOf core)).releasing.find? (fun a => a.core == core) = some a →
    (a.waits = true → ∀ (b : BitVec 10) (e : BitVec 16) (dst : BitVec 6), (s.core core).ctl.hold = .bar b e dst → b.toNat = bid →
      e = ((s.barrier p bid).node (dieOf core)).openEpoch →
      ((runTo core (heldCycle core elapsed s) s).core core).ctl.state = .waiting →
      Completes (.barrierReleaseDelivery core bid elapsed) s fun t =>
        (t.core core).ctl.state = .running ∧ (t.core core).ctl.hold = .none
          ∧ (t.core core).flight.now = heldCycle core elapsed s + 2 ∧ (t.core core).regs.readX dst.toNat = 0)
    ∧ (a.waits = false →
      Completes (.barrierReleaseDelivery core bid elapsed) s fun t =>
        ((t.core core).regs.readS a.sem.toNat).toNat = min 65535 (((s.core core).regs.readS a.sem.toNat).toNat + 1) ∧ t.mem = s.mem
          ∧ (∀ d, d ≠ core → t.core d = s.core d)))
  ∧ ∀ (core : CoreId) (bid elapsed : Nat) (s : State) (p : Nat), (s.core core).flight.answer = none → s.corePart core = some p →
    s.releaseBehind p bid core = true → exec (.barrierReleaseDelivery core bid elapsed) s = .next s

/-- The iron visits the next core of the partition in ascending ID and notes its ISSUE_COUNT; a core that waits and has
issued nothing since the last visit counts as blocked. Nothing of a core changes. -/
def Claim.IronVisit : Prop :=
  ∀ (part : Nat) (s : State) (c : CoreId),
    let q := s.part part
    q.resetting = false → q.fatal = false → (∃ d ∈ s.coresOf part, ironStopped (s.core d) = false) →
    (s.coresOf part)[q.iron.next]? = some c → q.iron.next + 1 < (s.coresOf part).length →
    Completes (.ironVisit part) s fun t =>
      let i := (t.part part).iron
      let blocked := ironWaits s part (s.core c) && Tbl.get? q.iron.visits c.toNat == some (s.core c).sys.issueCount
      i.next = q.iron.next + 1 ∧ Tbl.get? i.visits c.toNat = some (s.core c).sys.issueCount
        ∧ i.blocked = (if blocked then q.iron.blocked + 1 else q.iron.blocked) ∧ i.sweeps = q.iron.sweeps
        ∧ t.cores = s.cores ∧ t.mem = s.mem

/-! ## Stream and knife engines (05, 06) -/

/-- SNQ and KNQ with a readable record and room in the queue enqueue it, its segments resolved as they stand; SRESUME and
KNRESUME let the descriptor taken next run. -/
def Claim.Enqueue : Prop :=
  ∀ (c : CoreId) (s : State) (dev : Nat),
    let x := s.nextIssue c
    let a := x.k.regs.readX (wSrc1 x.w)
    let q := wImm x.w % 4
    (Issues (streamRow 0x01 fun w => field32 (wSrc1 w)) c s → x.k.regs.markX (wSrc1 x.w) = false →
      x.st.ownAccess c (BitVec.ofNat 64 (a.toNat / 128 * 128)) 128 .rd 1 = .ok dev → (x.k.flight.stream q).jobs.length < 16 →
      Completes (.snq c) s fun t => ∃ u j, Continues c s u t 1 ∧ t.mem = x.st.mem ∧ (∀ d, d ≠ c → t.core d = x.st.core d)
        ∧ ((t.core c).flight.stream q).jobs = (x.k.flight.stream q).jobs ++ [j]
        ∧ j.raw = BitVec.ofNat 1024 (x.st.readNat dev 128) ∧ j.record = dev ∧ j.id = x.k.flight.seq ∧ j.outcome = none
        ∧ j.srcSeg = x.st.segOf (x.st.corePart c) (sdSrc j.raw) ∧ j.dstSeg = x.st.segOf (x.st.corePart c) (sdDst j.raw))
    ∧ (Issues (knifeRow 0x01 fun w => field32 (wSrc1 w)) c s → x.k.regs.markX (wSrc1 x.w) = false →
      x.st.ownAccess c (BitVec.ofNat 64 (a.toNat / 64 * 64)) 64 .rd 1 = .ok dev → x.k.flight.knife.jobs.length < 8 →
      Completes (.knq c) s fun t => ∃ u j, Continues c s u t 1 ∧ t.mem = x.st.mem ∧ (∀ d, d ≠ c → t.core d = x.st.core d)
        ∧ (t.core c).flight.knife.jobs = x.k.flight.knife.jobs ++ [j]
        ∧ j.raw = BitVec.ofNat 512 (x.st.readNat dev 64) ∧ j.record = dev ∧ j.id = x.k.flight.seq ∧ j.outcome = none
        ∧ j.indexSeg = x.st.segOf (x.st.corePart c) (kdIndex j.raw) ∧ j.tableSeg = x.st.segOf (x.st.corePart c) (kdTable j.raw)
        ∧ j.denseSeg = x.st.segOf (x.st.corePart c) (kdDense j.raw))
    ∧ (Issues (streamRow 0x02 fun _ => true) c s → Completes (.sresume c) s fun t =>
        Continues c s (x.st.modStream c q fun y => { y with resume := true }) t 1)
    ∧ (Issues (knifeRow 0x02 fun _ => true) c s → Completes (.knresume c) s fun t =>
        Continues c s (x.st.modKnife c fun y => { y with resume := true }) t 1)

/-- COPY, FILL and CONVERT that their queue accepts move their rows in ascending order; with no marked row met, the outcome
is OK with every row done, and memory is as the rows leave it. -/
def Claim.StreamTransfers : Prop :=
  ∀ row ∈ ([(Instr.copy, 1), (Instr.fill, 2), (Instr.convert, 3)] : List ((CoreId → Nat → TransferEnv → Instr) × Nat)),
    ∀ (c : CoreId) (q : Nat) (s : State) (j : StreamJob), StreamAccepted row.2 c q s j →
      let m := streamRows c j (s.streamBegins c q)
      m.fail = none →
      Completes (row.1 c q { noValue := none, ecc := [] }) s fun t =>
        t.mem = m.st.mem ∧ t.marks = m.st.marks ∧
        ∃ k, ((t.core c).flight.stream q).jobs.head? = some k ∧ k.raw = j.raw ∧ k.record = j.record ∧ k.clips = m.clips
          ∧ k.outcome = some { status := 0, cause := 0, done := rowCount j.raw, faultIndex := 0 }

/-- A row of a FILL writes its pattern at the row's place and no other byte of memory; a COPY of unmarked bytes between
local stores writes what it reads (segments without wax). -/
def Claim.StreamRow : Prop :=
  ∀ (c : CoreId) (p : Option Nat) (j : StreamJob) (n : Nat) (m : StreamMove) (x : Nat),
    let a := segAddr j.dstSeg (rowOffset (sdDst j.raw) (rowShift j.raw (sdDstStride j.raw) n))
    let b := segAddr j.srcSeg (rowOffset (sdSrc j.raw) (rowShift j.raw (sdSrcStride j.raw) n))
    m.st.mem.wf = true → segWax j.dstSeg = false → segTier j.dstSeg = 0 → a + sdBytes j.raw ≤ 0x0200000000 → 0 < sdBytes j.raw →
    (sdOp j.raw = 2 → sdBytes j.raw % 8 = 0 →
      Memory.read (moveRow c p j (fun _ => false) n m).st.mem x =
        if a ≤ x ∧ x < a + sdBytes j.raw then BitVec.ofNat 8 ((sdSrc j.raw).toNat / 256 ^ ((x - a) % 8)) else Memory.read m.st.mem x)
    ∧ (sdOp j.raw = 1 → segWax j.srcSeg = false → segTier j.srcSeg = 0 → b + sdBytes j.raw ≤ 0x0200000000 → m.st.marks = [] →
      j.cave.pages = [] →
      Memory.read (moveRow c p j (fun _ => false) n m).st.mem x =
        if a ≤ x ∧ x < a + sdBytes j.raw then Memory.read m.st.mem (b + (x - a)) else Memory.read m.st.mem x)

/-- A stream descriptor with its outcome completes: STATUS and CAUSE, then DONE, stand in its record, the queue goes on to the next
descriptor and skips after an error, and the semaphore rises; no other byte of the core's local store changes. -/
def Claim.StreamCompletion : Prop :=
  ∀ (c : CoreId) (q : Nat) (s : State) (j : StreamJob) (rest : List StreamJob) (o : DescOutcome), q < 4 →
    let d := runPending c s
    ((s.core c).flight.stream q).jobs = j :: rest → ((d.core c).flight.stream q).jobs = j :: rest → j.outcome = some o →
    j.record + 128 ≤ 0x0200000000 → d.mem.wf = true → (d.core c).flight.resetting = false →
    Completes (.streamCompletion c q) s fun t =>
      Memory.read t.mem (j.record + 96) = o.status ∧ Memory.read t.mem (j.record + 97) = o.cause
        ∧ (∀ i, i < 6 → Memory.read t.mem (j.record + 100 + i) = BitVec.ofNat 8 (o.done / 256 ^ i))
        ∧ (∀ a, a < j.record + 96 ∨ j.record + 106 ≤ a ∨ (j.record + 98 ≤ a ∧ a < j.record + 100) → Memory.read t.mem a = Memory.read d.mem a)
        ∧ ((t.core c).flight.stream q).jobs = rest
        ∧ ((t.core c).flight.stream q).skipping = (((d.core c).flight.stream q).skipping || !(o.status == 0 || o.status == 3))
        ∧ ((t.core c).regs.readS (sdSem j.raw)).toNat = min 65535 (((d.core c).regs.readS (sdSem j.raw)).toNat + 1)

/-- GATHER, SCATTER and SCATTER_ADD that the knife accepts move their elements in ascending order from START; the outcome
holds how many, and after a fault its cause and index. -/
def Claim.KnifeTransfers : Prop :=
  ∀ row ∈ ([(Instr.gather, 1), (Instr.scatter, 2), (Instr.scatterAdd, 3)] : List ((CoreId → TransferEnv → Instr) × Nat)),
    ∀ (c : CoreId) (s : State) (j : KnifeJob), KnifeAccepted row.2 c s j →
      let m := knifeElements c j (s.knifeBegins c)
      Completes (row.1 c { noValue := none, ecc := [] }) s fun t =>
        t.mem = m.st.mem ∧ t.marks = m.st.marks ∧
        ∃ k, (t.core c).flight.knife.jobs.head? = some k ∧ k.raw = j.raw ∧ k.record = j.record ∧
          match m.fault with
          | none => k.outcome = some { status := 0, cause := 0, done := kdCount j.raw - kdStart j.raw, faultIndex := 0 }
          | some f => k.outcome = some { status := 1, cause := BitVec.ofNat 8 f.1, done := m.done, faultIndex := f.2 }

/-- An element whose index is not below a nonzero BOUND, or cannot be read, ends the descriptor and moves nothing; the
checks of an element come in the order of R178. -/
def Claim.KnifeElementFaults : Prop :=
  ∀ (c : CoreId) (p : Option Nat) (j : KnifeJob) (env : TransferEnv) (i : Nat) (m : KnifeMove),
    let t := stepElement c p j env i m
    (readIndex m.st c j i = none ∨ env.noIndex = some i → t.fault = some (6, BitVec.allOnes 64) ∧ t.st = m.st ∧ t.done = m.done)
    ∧ (∀ x, readIndex m.st c j i = some x → env.noIndex ≠ some i → kdBound j.raw ≠ 0 → kdBound j.raw ≤ x →
        t.fault = some (5, BitVec.ofNat 64 x) ∧ t.st = m.st ∧ t.done = m.done)
    ∧ (∀ x f, readIndex m.st c j i = some x → env.noIndex ≠ some i → (kdBound j.raw = 0 ∨ x < kdBound j.raw) → knifeFault m.st p j i x = some f →
        t.fault = some (f.code, BitVec.ofNat 64 x) ∧ t.st = m.st ∧ t.done = m.done)
    ∧ (∀ x, readIndex m.st c j i = some x → env.noIndex ≠ some i → (kdBound j.raw = 0 ∨ x < kdBound j.raw) → knifeFault m.st p j i x = none →
        elementPages m.st j i x = [] → t.fault = m.fault ∧ t.st = moveElement c p j (env.noValue == some i) i x m.st ∧ t.done = m.done + 1)

/-- A knife descriptor with its outcome completes: STATUS, DONE, CAUSE and FAULT_INDEX stand in its record, the queue goes on,
and the semaphore rises. -/
def Claim.KnifeCompletion : Prop :=
  ∀ (c : CoreId) (s : State) (j : KnifeJob) (rest : List KnifeJob) (o : DescOutcome),
    let d := runPending c s
    (s.core c).flight.knife.jobs = j :: rest → (d.core c).flight.knife.jobs = j :: rest → j.outcome = some o →
    j.record + 64 ≤ 0x0200000000 → d.mem.wf = true → (d.core c).flight.resetting = false →
    Completes (.knifeCompletion c) s fun t =>
      Memory.read t.mem (j.record + 48) = o.status ∧ Memory.read t.mem (j.record + 52) = o.cause
        ∧ (∀ i, i < 3 → Memory.read t.mem (j.record + 49 + i) = BitVec.ofNat 8 (o.done / 256 ^ i))
        ∧ (∀ i, i < 8 → Memory.read t.mem (j.record + 56 + i) = BitVec.ofNat 8 (o.faultIndex.toNat / 256 ^ i))
        ∧ (∀ a, a < j.record + 48 ∨ j.record + 64 ≤ a → Memory.read t.mem a = Memory.read d.mem a)
        ∧ (t.core c).flight.knife.jobs = rest
        ∧ ((t.core c).regs.readS (kdSem j.raw)).toNat = min 65535 (((d.core c).regs.readS (kdSem j.raw)).toNat + 1)

/-- The migration of a page that an access waits for begins in a free slot, or in the slot of the page that migrated
earliest; when it completes the page's bytes stand in its slot and the page is ready, with a no-value error it is not. -/
def Claim.CaveMigration : Prop :=
  (∀ (part page n : Nat) (s : State) (j : Job), (s.part part).job = some j → page ∈ j.caveWaits → (∀ c ∈ j.cavePages, c.page ≠ page) →
    j.freeSlot = some n →
    Completes (.caveMigrationStart part page) s fun t =>
      (t.part part).job.map (·.cavePages) = some (j.cavePages ++ [{ page := page, slot := n, age := 0, ready := false }]) ∧ t.mem = s.mem ∧ t.cores = s.cores)
  ∧ (∀ (part page : Nat) (s : State) (j : Job) (o : CavePage), (s.part part).job = some j → page ∈ j.caveWaits → (∀ c ∈ j.cavePages, c.page ≠ page) →
    j.freeSlot = none → j.oldestPage = some o →
    Completes (.caveMigrationStart part page) s fun t =>
      (t.part part).job.map (·.cavePages) = some ((j.cavePages.filter fun x => x.page != o.page) ++ [{ page := page, slot := o.slot, age := 0, ready := false }]))
  ∧ ∀ (part page : Nat) (s : State) (j : Job) (c : CavePage), (s.part part).job = some j →
    j.cavePages.find? (fun c => c.page == page && !c.ready) = some c →
    (Completes (.caveMigrationComplete part page true) s fun t =>
      t.mem = (s.put (j.caveWindow + pageSize * c.slot) ((s.seenBy (some part)).peek page pageSize) false).mem ∧ t.cores = s.cores
        ∧ ∃ k, (t.part part).job = some k ∧ k.migrated = j.migrated + 1 ∧ ∀ x ∈ k.cavePages, x.page = page → x.ready = true)
    ∧ (Completes (.caveMigrationComplete part page false) s fun t => t.mem = s.mem
        ∧ ∃ k, (t.part part).job = some k ∧ ∀ x ∈ k.cavePages, x.page ≠ page)

/-! ## Press units (08) -/

/-- A press takes its next ring entry: one whose checks pass starts with PV zero and PK from the descriptor; one that fails
a check holds the check's outcome and starts nothing. -/
def Claim.PressTakes : Prop :=
  ∀ (unit p : Nat) (s : State) (j : Job), s.unitPart (unit / 2) = some p → (s.part p).job = some j → s.pressHalted unit = false →
    let q := s.pressUnit unit
    let d := BitVec.ofNat 3072 (s.peekNat (pressEntryAddr j unit q.readIndex.toNat) 384)
    let prog := (List.range (pdLen d)).map fun i => BitVec.ofNat 32 (s.peekNat (pdProg d + 4 * i) 4)
    q.desc = none → q.available ≠ 0 → q.skipping = false →
    (pressFault s p j unit d prog = none → mustHold j d = false →
      Completes (.pressDescriptorTake unit) s fun t =>
        let u := t.pressUnit unit
        u.desc = some d ∧ u.prog = prog ∧ u.pos = 0 ∧ u.vl = 0 ∧ u.pc = 0 ∧ (∀ r i, r < 16 → i < 512 → u.lane r i = 0)
          ∧ (∀ r, r < 16 → (u.pk[r]?).getD 0 = BitVec.ofNat 32 (pdConst d r)) ∧ t.mem = s.mem ∧ t.cores = s.cores)
    ∧ (∀ o, pressFault s p j unit d prog = some o →
      Completes (.pressDescriptorTake unit) s fun t => (t.pressUnit unit).outcome = some o ∧ (t.pressUnit unit).prog = [] ∧ t.mem = s.mem ∧ t.cores = s.cores)

/-- The press arithmetic on all 512 lanes: lane i of PV[D] becomes the operation on lane i of A, and of B and C or their
constants; no other register of the unit, no other unit, no memory changes. -/
def Claim.PressArithmetic : Prop :=
  ∀ row ∈ ([(Instr.padd, 0x08, fun a b _ => addF32 a b), (Instr.psub, 0x09, fun a b _ => subF32 a b), (Instr.pmul, 0x0A, fun a b _ => mulF32 a b),
      (Instr.pfma, 0x0B, fmaF32), (Instr.pmin, 0x0C, fun a b _ => minF32 a b), (Instr.pmax, 0x0D, fun a b _ => maxF32 a b),
      (Instr.psqrt, 0x0E, fun a _ _ => sqrtF32 a), (Instr.precip, 0x0F, fun a _ _ => recipF32 a), (Instr.psign, 0x10, fun a _ _ => signF32 a),
      (Instr.pabs, 0x11, fun a _ _ => fp32.encode (fp32.decode a).abs), (Instr.pneg, 0x12, fun a _ _ => fp32.encode (fp32.decode a).negate)] :
      List ((Nat → Instr) × Nat × (Nat → Nat → Nat → Nat))),
    ∀ (unit : Nat) (s : State) (d : BitVec 3072) (w : BitVec 32), PressRuns unit row.2.1 s d w →
      Completes (row.1 unit) s fun t =>
        let q := s.pressUnit unit
        let u := t.pressUnit unit
        SameButPress unit s t ∧ u.pc = q.pc + 1 ∧ u.pk = q.pk ∧ u.vl = q.vl ∧ u.pos = q.pos ∧ u.stores = q.stores
          ∧ (∀ r, r ≠ piD w → u.pv[r]? = q.pv[r]?)
          ∧ ∀ i, i < 512 → u.lane (piD w) i = row.2.2 (q.lane (piA w) i)
              (if w.getLsbD 22 then ((q.pk[piB w]?).getD 0).toNat else q.lane (piB w) i)
              (if w.getLsbD 23 then ((q.pk[piC w]?).getD 0).toNat else q.lane (piC w) i) % 2 ^ 32

/-- VSETL, PLD, PST and PEND: VL is what is left up to 512; a load converts VL elements exactly and zeros the lanes above; a
store's bytes wait for the end of the iteration, which writes them, advances POS and either loops or is done, or in a stopped partition clears the unit. -/
def Claim.PressLoadStoreEnd : Prop :=
  ∀ (unit : Nat) (s : State) (d : BitVec 3072) (w : BitVec 32),
    let q := s.pressUnit unit
    let t := pdStream d (piSt w)
    let n := psWidth t
    (PressRuns unit 0x01 s d w → Completes (.vsetl unit) s fun u =>
      SameButPress unit s u ∧ (u.pressUnit unit).vl = min (pdCount d - q.pos) 512 ∧ (u.pressUnit unit).pc = q.pc + 1 ∧ (u.pressUnit unit).pv = q.pv)
    ∧ (PressRuns unit 0x02 s d w →
      let data := s.fetch (psBuffer t (pdGen d - 1) + q.pos * n) (q.vl * n)
      data.2 = false → Completes (.pld unit { noValue := none, ecc := [] }) s fun u =>
        SameButPress unit s u ∧ (u.pressUnit unit).pc = q.pc + 1 ∧ ∀ i, i < 512 → (u.pressUnit unit).lane (piD w) i =
          (if i < q.vl then fp32.encode ((floatFmt (psFmt t)).decode (leNat ((data.1.drop (n * i)).take n))) else 0) % 2 ^ 32)
    ∧ (PressRuns unit 0x03 s d w → Completes (.pst unit) s fun u =>
      SameButPress unit s u ∧ (u.pressUnit unit).pc = q.pc + 1 ∧ (u.pressUnit unit).pv = q.pv
        ∧ (u.pressUnit unit).stores = q.stores ++ [(psBuffer t (pdGen d) + q.pos * n, elementBytes n ((List.range q.vl).map fun i =>
            (convertFloat (floatFmt (psFmt t)) (convOvf (psConv t)) (pressRounding d t (q.pos + i)) (fp32.decode (q.lane (piA w) i))).code))])
    ∧ (PressRuns unit 0x00 s d w → s.pressFatal unit = true → Completes (.pend unit) s fun u =>
      u.mem = (q.stores.foldl (fun s w => s.put w.1 w.2 false) s).mem ∧ u.cores = s.cores ∧ u.pressUnit unit = .reset)
    ∧ (PressRuns unit 0x00 s d w → s.pressFatal unit = false → Completes (.pend unit) s fun u =>
      u.mem = (q.stores.foldl (fun s w => s.put w.1 w.2 false) s).mem ∧ u.cores = s.cores ∧ (u.pressUnit unit).stores = []
        ∧ (u.pressUnit unit).pos = q.pos + q.vl ∧ (u.pressUnit unit).pc = 0 ∧ (u.pressUnit unit).pv = q.pv
        ∧ (q.pos + q.vl < pdCount d → (u.pressUnit unit).outcome = none)
        ∧ (pdCount d ≤ q.pos + q.vl → (u.pressUnit unit).outcome = some { status := 0, cause := 0, done := pdCount d, faultIndex := 0 }))

/-- A press descriptor with its outcome completes: its ring entry is written, the read index advances, one entry fewer is
available, and an error makes the press skip. -/
def Claim.PressCompletion : Prop :=
  ∀ (unit p : Nat) (s : State) (j : Job) (d : BitVec 3072) (o : DescOutcome), s.unitPart (unit / 2) = some p → (s.part p).job = some j →
    (s.pressUnit unit).desc = some d → (s.pressUnit unit).outcome = some o → s.pressHalted unit = false →
    Completes (.pressCompletion unit) s fun t =>
      let q := s.pressUnit unit
      let u := t.pressUnit unit
      let a := pressEntryAddr j unit q.readIndex.toNat
      u.desc = none ∧ u.outcome = none ∧ u.readIndex = q.readIndex + 1 ∧ u.available = q.available - 1
        ∧ u.skipping = (q.skipping || !(o.status == 0 || o.status == 3)) ∧ u.lastGen = pdGen d
        ∧ t.mem = ((s.put (a + 120) (o.status :: o.cause :: leBytes 5 o.done) false).put (a + 320)
            (leBytes 8 q.clips.1 ++ leBytes 8 q.clips.2.1 ++ leBytes 8 q.clips.2.2) false).mem

/-! ## Fabric and Hjelis Link (10) -/

/-- PUT, GET and PUT_GROUP that the engine accepts, with a route and a session where one is needed, send their packets, with this
device's ID, to the peer at the offset the peer address names; the transfer is then in progress, and memory is as it was. -/
def Claim.FabricSends : Prop :=
  ∀ (c : CoreId) (s : State) (p : Nat) (j : Job) (r : BitVec 512),
    let d := s.fabricBegins c
    let x := d.fabricRun c p j r
    let env : TransferEnv := { noValue := none, ecc := [] }
    let mine (l : List OutPacket) : List OutPacket := l.map fun k => { k with src := d.fabricId }
    (FabricAccepted 1 c s p j r →
      let a := segAddr x.dstSeg (offsetOf (fdDst r))
      ∀ port, x.port d (peerDevice a) true = .take port → d.sessionReady p (peerDevice a) = true →
      Completes (.put c env) s fun t => ∃ tag,
        t.fabric.sent = d.fabric.sent ++ mine (dataPackets 1 (peerDevice a) (peerOffset a) tag (fdBytes r) (d.confidential (some p)) (x.source env (fdBytes r) d).1)
          ∧ (t.core c).flight.fabric.current = some { raw := r, dstSeg := x.dstSeg, ports := [port], lost := false, reduced := none, outcome := none } ∧ t.mem = d.mem)
    ∧ (FabricAccepted 2 c s p j r →
      let a := segAddr x.srcSeg (offsetOf (fdSrc r))
      ∀ port, x.port d (peerDevice a) false = .take port → d.sessionReady p (peerDevice a) = true →
      Completes (.get c) s fun t => ∃ tag,
        t.fabric.sent = d.fabric.sent ++ mine [{ kind := 2, src := 0, dst := peerDevice a, target := peerOffset a, tag := tag, total := fdBytes r, first := true,
                                                 last := true, enc := d.confidential (some p), data := [], flits := [], answer := 0, control := .none }]
          ∧ (t.core c).flight.fabric.current = some { raw := r, dstSeg := x.dstSeg, ports := [port], lost := false, reduced := none, outcome := none } ∧ t.mem = d.mem)
    ∧ (FabricAccepted 4 c s p j r →
      ∀ ids ports, d.mcastMembers p (fdGroup r) = some ids →
      let peers := ids.filter (· != d.fabricId)
      peers ≠ [] → x.ports d true peers = .take ports → (∀ m ∈ peers, d.sessionReady p m = true) →
      Completes (.putGroup c env) s fun t => ∃ tag,
        t.fabric.sent = d.fabric.sent ++ peers.flatMap (fun m => mine (dataPackets 1 m (bits (fdDst r).toNat 0 40) tag (fdBytes r) (d.confidential (some p))
            (x.source env (fdBytes r) d).1))
          ∧ (t.core c).flight.fabric.current.map (·.outcome) = some none ∧ t.mem = d.mem)
    ∧ (FabricAccepted 1 c s p j r → x.port d (peerDevice (segAddr x.dstSeg (offsetOf (fdDst r)))) true = .unreachable →
      Completes (.put c env) s fun t => t.fabric.sent = d.fabric.sent ∧ t.mem = d.mem
        ∧ (t.core c).flight.fabric.current.map (·.outcome) = some (some { status := 6, cause := 0x0D, done := 0, faultIndex := 0 }))

/-- PUT_SET writes the source's bytes into the local store of each member and is done; ALLREDUCE with every other member's posting
at hand, equal and clean, sends its vector to the others and holds the sum in the members' order for its completion to write. -/
def Claim.FabricSetAndReduce : Prop :=
  ∀ (c : CoreId) (s : State) (p : Nat) (j : Job) (r : BitVec 512),
    let d := s.fabricBegins c
    let x := d.fabricRun c p j r
    let env : TransferEnv := { noValue := none, ecc := [] }
    let data := (x.source env (fdBytes r) d).1
    (FabricAccepted 3 c s p j r →
      Completes (.putSet c env) s fun t =>
        t.mem = ((d.setMembers r).foldl (fun s k => s.putMarked (lsBase k + bits (fdDst r).toNat 0 23) data) (x.source env (fdBytes r) d).2).mem
          ∧ (t.core c).flight.fabric.current.map (·.outcome) = some (some { status := 0, cause := 0, done := fdBytes r, faultIndex := 0 }))
    ∧ (FabricAccepted 5 c s p j r →
      ∀ (ids ports : List Nat) (posted : List PeerVector), d.mcastMembers p (fdGroup r) = some ids →
      let others := ids.filter (· != d.fabricId)
      x.ports d false others = .take ports → (∀ m ∈ others, d.sessionReady p m = true) →
      (∀ m ∈ others, ∃ v, posted.find? (fun v => v.id == m) = some v ∧ v.bytes = fdBytes r ∧ v.rfmt = fdRfmt r ∧ v.poisoned = false) →
      anyMarked data = false →
      Completes (.allreduce c env posted) s fun t =>
        let vs := ids.map fun i => if i = d.fabricId then plainBytes data else ((posted.find? fun v => v.id == i).map (·.data)).getD []
        (∃ tag, t.fabric.sent = d.fabric.sent ++ others.flatMap fun m =>
            (dataPackets 4 m 0 tag (fdBytes r) (d.confidential (some p)) data).map fun k => { k with src := d.fabricId })
          ∧ (t.core c).flight.fabric.current
              = some { raw := r, dstSeg := x.dstSeg, ports := ports, lost := false, reduced := some (reduceVectors (fdRfmt r) vs), outcome := none }
          ∧ t.mem = d.mem)

/-- The order of an all-reduce: the sum of n members' values takes the largest power of two below n of them first. -/
def Claim.ReduceOrder : Prop :=
  ∀ (l : List Nat) (v a b : Nat),
    reduceMembers 32 [v] = v ∧ reduceMembers 32 [a, b] = addF32 a b ∧ reduceMembers 32 [a, b, v] = addF32 (addF32 a b) v
      ∧ (2 ≤ l.length → l.length ≤ 32 → reduceMembers l.length l =
          addF32 (reduceMembers (powerBelow l.length) (l.take (powerBelow l.length)))
            (reduceMembers (l.length - powerBelow l.length) (l.drop (powerBelow l.length))))

/-- A fabric transfer in progress completes: the sum of an all-reduce that is OK is written, STATUS, CAUSE and DONE stand in its entry, CONSUMED has advanced, the ring
takes the next entry, skips after an error, and the semaphore rises. -/
def Claim.FabricCompletion : Prop :=
  ∀ (c : CoreId) (a : PeerAnswer) (s : State) (p : Nat) (job : Job) (j : FabricJob), s.corePart c = some p → (s.part p).job = some job →
    (s.core c).flight.fabric.current = some j →
    let d := runPending c s
    let o := fabricOutcome j a
    let n := (d.core c).flight.fabric.consumed
    let e := match j.reduced with
      | some l => if o.status = 0 then d.put (segAddr j.dstSeg (offsetOf (fdDst j.raw))) l false else d
      | none => d
    (fdOp j.raw ≠ 2 ∨ j.outcome.isSome = true) →
    (∀ l, j.reduced = some l → l ≠ [] ∧ segWax j.dstSeg = false ∧ segTier j.dstSeg ≠ 1 ∧ (d.part p).resetting = false) →
    Completes (.fabricCompletion c a) s fun t =>
      t.mem = ((e.put (fabricEntryAddr job c n.toNat + 32) (o.status :: o.cause :: leBytes 6 o.done) false).put
          (lsBase c + job.fabricOfs + 4) (leBytes 4 (n + 1).toNat) false).mem
        ∧ (t.core c).flight.fabric.consumed = n + 1 ∧ (t.core c).flight.fabric.current = none
        ∧ (t.core c).flight.fabric.skipping = ((d.core c).flight.fabric.skipping || !(o.status == 0 || o.status == 3))
        ∧ ((d.core c).flight.resetting = false →
            ((t.core c).regs.readS (fdSem j.raw)).toNat = min 65535 (((d.core c).regs.readS (fdSem j.raw)).toNat + 1))

/-- How a transfer without an outcome of its own ends: by the far side's verdict, or as LINK when a port of it went down. -/
def Claim.FabricVerdicts : Prop :=
  ∀ (j : FabricJob) (a : PeerAnswer),
    (∀ o, j.outcome = some o → fabricOutcome j a = o)
    ∧ (j.outcome = none → j.lost = true → (fabricOutcome j a).status = 6 ∧ (fabricOutcome j a).cause = 0x0B)
    ∧ (j.outcome = none → j.lost = false →
        (a.verdict = .ok → fabricOutcome j a = { status := 0, cause := 0, done := fdBytes j.raw, faultIndex := 0 })
        ∧ (a.verdict = .refused → fabricOutcome j a = { status := 5, cause := 0x0C, done := 0, faultIndex := 0 })
        ∧ (a.verdict = .link → (fabricOutcome j a).status = 6 ∧ (fabricOutcome j a).cause = 0x0B)
        ∧ (a.verdict = .reset → (fabricOutcome j a).status = 6 ∧ (fabricOutcome j a).cause = 0x0C)
        ∧ (a.verdict = .badTag → (fabricOutcome j a).status = 6 ∧ (fabricOutcome j a).cause = 7))

/-- A peer's one-packet PUT into a range that a grant of it covers is written and answered OK; one without a grant is
refused, and changes no memory. A peer's GET of such a range is answered with its bytes; one of a confidential partition's range
with an invalid tag is refused and logged. From a fenced device, or after a refused join, nothing is taken. -/
def Claim.PeerTraffic : Prop :=
  ∀ (sender tag target total : Nat) (data : List Byte) (flits : List Bool) (s : State),
    let a := 0x02000000000000 + target
    let code (n : Nat) : OutPacket :=
      { kind := 5, src := s.fabricId, dst := sender, target := 0, tag := tag, total := 0, first := true, last := true, enc := false, data := [], flits := []
        answer := n, control := .none }
    (s.deafTo sender = true → exec (.peerPutReceive sender tag target total true true data flits true) s = .next s
      ∧ exec (.getRequestReceive sender tag target total true) s = .next s) ∧
    (s.deafTo sender = false →
    (∀ p, s.grantFor sender a (max 1 total) = some p → (s.part p).resetting = false → s.confidential (some p) = false →
      (data.length = total → Completes (.peerPutReceive sender tag target total true true data flits true) s fun t =>
        t.mem = (s.put a data false).mem ∧ t.fabric.sent = s.fabric.sent ++ [code 0] ∧ t.cores = s.cores)
      ∧ Completes (.getRequestReceive sender tag target total true) s fun t =>
        t.fabric.sent = s.fabric.sent ++ (dataPackets 3 sender 0 tag total false (s.memBytes a total)).map (fun k => { k with src := s.fabricId }) ∧ t.mem = s.mem ∧ t.cores = s.cores)
    ∧ (s.grantFor sender a (max 1 total) = none →
      (Completes (.peerPutReceive sender tag target total true true data flits true) s fun t => t.mem = s.mem ∧ t.fabric.sent = s.fabric.sent ++ [code 0x050C])
      ∧ Completes (.getRequestReceive sender tag target total true) s fun t => t.mem = s.mem ∧ t.fabric.sent = s.fabric.sent ++ [code 0x050C])
    ∧ ∀ p, s.grantFor sender a (max 1 total) = some p → (s.part p).resetting = false → s.confidential (some p) = true →
      Completes (.getRequestReceive sender tag target total false) s fun t =>
        t.mem = s.mem ∧ t.fabric.sent = s.fabric.sent ++ [code 0x0607] ∧ t.errors.security = s.errors.security + 1)

/-- A frame is accepted when the CRC-32 of its flits and trailer bits [255:64] is the trailer's and its SEQ is the next: SEQ
advances, acknowledged frames leave, CREDITS are taken and the buffer of its flits falls due; any other is discarded and a retry
from the next SEQ asked for. -/
def Claim.LinkFrames : Prop :=
  ∀ (port : Nat) (flits : List Byte) (trailer : BitVec 256) (s : State),
    let q := s.port port
    let crc := (crc32 (flits ++ leBytes 24 (field trailer 64 192))).toNat
    q.carries = true →
    Completes (.linkFrameReceive port flits trailer none) s fun t =>
      let u := t.port port
      t.mem = s.mem ∧ t.cores = s.cores ∧ u.txSeq = q.txSeq ∧ (∀ o, o ≠ port → t.port o = s.port o) ∧
        if trCrc trailer = crc ∧ trSeq trailer = q.rxSeq + 1 then
          u.rxSeq = trSeq trailer ∧ u.retryAsked = none ∧ u.unacked = q.unacked.filter (fun f => !serialGe 16 (trAck trailer).toNat f.seq.toNat)
            ∧ u.credits = addPair q.credits (trCredits trailer) ∧ u.due = addPair q.due (trFlits trailer 1, trFlits trailer 2)
        else u.rxSeq = q.rxSeq ∧ u.retryAsked = some (q.rxSeq + 1) ∧ u.unacked = q.unacked

/-- A port that goes down fails the transfers with an unacknowledged frame on it, drops those frames and asks for its
retrain; a retrain that ends trains the port on the lanes that pass, all four, a pair, one or none. -/
def Claim.PortLife : Prop :=
  (∀ (port : Nat) (s : State), (s.port port).width ≠ 0 → (s.port port).isDown = false →
    Completes (.portDown port) s fun t =>
      (t.port port).isDown = true ∧ (t.port port).unacked = [] ∧ ((t.port port).retraining = true ∨ (t.port port).wanted = true) ∧ t.mem = s.mem
        ∧ ∀ u ∈ (s.port port).unacked, ∀ c, u.owner = .core c → ∀ j, (s.core c).flight.fabric.current = some j → port ∈ j.ports →
            (t.core c).flight.fabric.current = some { j with lost := true })
  ∧ (∀ (port : Nat) (training : PortTraining) (s : State), (s.port port).retraining = true → (∀ e ∈ s.fabric.ports, e.2.wanted = false) →
    Completes (.portRetrainComplete port training) s fun t =>
      (t.port port).width = (if training.conflict = true ∨ training.neighbourFec ≠ s.linkFec then 0 else trainedWidth (training.lanes &&& s.start.portLanes port))
        ∧ (t.port port).retraining = false ∧ (t.port port).isDown = false ∧ (t.port port).retrains = min 255 ((s.port port).retrains + 1)
        ∧ t.mem = s.mem ∧ SameButRoutes s t)
  ∧ (∀ lanes : BitVec 4, trainedWidth lanes = (if lanes = 15 then 4 else if lanes &&& 3 = 3 ∨ lanes &&& 12 = 12 then 2 else if lanes = 0 then 0 else 1))

/-- Routes: a device in no group computes its table from the flooded states, which it passes on; a member adopts its head's table
and epoch. A transfer takes the first alternative whose running sum of weights exceeds (core + ring index) modulo their total. -/
def Claim.Routing : Prop :=
  (∀ (device : Nat) (links : List FloodLink) (s : State), s.fabric.groupState = 0 ∨ s.fabric.groupState = 3 →
    Tbl.get? s.fabric.topology device ≠ some links → device ∉ s.fabric.takeover.dropped →
    Completes (.portStateFlood device links) s fun t =>
      let f := floodStates device links { s with fabric := { s.fabric with topology := Tbl.put s.fabric.topology device links } }
      Tbl.get? t.fabric.topology device = some links ∧ t.fabric.sent = f.fabric.sent ∧ t.fabric.routes = f.computeRoutes
        ∧ t.mem = s.mem ∧ SameButRoutes s t)
  ∧ (∀ (epoch : BitVec 32) (table : List (Nat × BitVec 32)) (s : State), s.fabric.groupState = 1 →
    Completes (.routeEpochAdopt epoch table) s fun t =>
      t.fabric.routeEpoch = epoch ∧ (∀ id e, table = [(id, e)] → t.routeTo id = routeAlts e) ∧ t.mem = s.mem ∧ SameButRoutes s t)
  ∧ (∀ (c : CoreId) (entry : BitVec 32) (slot id : Nat) (put : Bool) (s : State), (s.core c).flight.fabric.pinned = [] →
    let alts := s.routeTo id
    let total := (alts.map (·.2)).foldl (· + ·) 0
    s.fabric.takeover.dropped.contains id = false → s.fabric.joinStatus = 0 → (∀ a ∈ alts, (s.port a.1).carries = true) → 0 < total →
    (s.port (pickPort ((c.toNat + slot) % total) 0 alts)).carries = true →
    s.choosePort c entry slot id put = .take (pickPort ((c.toNat + slot) % total) 0 alts))
  ∧ ∀ (h sum : Nat) (p w : Nat) (rest : List (Nat × Nat)), pickPort h sum ((p, w) :: rest) = if h < sum + w then p else pickPort h (sum + w) rest

/-- A device joins its domain with the ID it asks for when no member holds it, is refused when one does, and is given the
lowest free ID when it asks for none and a registrar is there. A failover makes the reachable candidate of lowest serial
number the head. -/
def Claim.JoiningAndHead : Prop :=
  (∀ (members : List DomainMember) (s : State),
    Completes (.fabricJoin members) s fun t =>
      let w := s.dictNat 0x2500 1 0xFFFF
      t.fabric.members = members ∧ t.mem = s.mem ∧ SameButRoutes s t ∧
      (w < 4096 → (∀ m ∈ members, m.id ≠ w) → t.fabric.joinStatus = 0 ∧ t.fabric.assignedId = BitVec.ofNat 16 w)
      ∧ (w < 4096 → (∃ m ∈ members, m.id = w) → t.fabric.joinStatus = 2 ∧ t.fabric.assignedId = 0xFFFF)
      ∧ (4096 ≤ w → (∃ m ∈ members, m.registrar = true) → ∀ n, freeId members = some n → t.fabric.joinStatus = 0 ∧ t.fabric.assignedId = BitVec.ofNat 16 n)
      ∧ (4096 ≤ w → (∀ m ∈ members, m.registrar = false) → s.dictNat 0x2500 3 0 = 0 → t.fabric.joinStatus = 3))
  ∧ ∀ (members : List DomainMember) (s : State),
    Completes (.headFailover members) s fun t =>
      let me := s.self
      let all := groupMembers s.fabric.replaced (me :: members) me.group
      t.fabric.members = members ∧ t.mem = s.mem ∧ SameButRoutes s t ∧
      (me.group ≠ 0xFFFF → s.fabric.assignedId ≠ 0xFFFF → (∃ m ∈ all, m.id = me.id) → ∀ h, headOf (all.filter (·.reachable)) = some h →
        t.fabric.headId = BitVec.ofNat 16 h.id ∧ t.fabric.groupState = if h.id = me.id then 2 else 1)

/-- A link session of a confidential partition takes two fresh keys once the proofs hold; a conditional test that fails puts the RTP
in its error state instead; a direction whose counter has
reached 2^48 takes a fresh key and counts from zero; no key is used twice. -/
def Claim.LinkSessions : Prop :=
  (∀ (part peer : Nat) (s : State), s.confidential (some part) = true → s.session part peer = none → s.rtp.error = false →
    (∀ n, Completes (.linkSessionEstablish part peer true (some n)) s fun t =>
      t.session part peer = none ∧ t.rtp.error = true ∧ t.mem = s.mem ∧ t.cores = s.cores)
    ∧ Completes (.linkSessionEstablish part peer true none) s fun t =>
      t.session part peer = some { part := part, peer := peer, keyOut := s.rtp.drbgCount, keyIn := s.rtp.drbgCount + 1, countOut := 0, countIn := 0 }
        ∧ t.rtp.drbgCount = s.rtp.drbgCount + 2 ∧ t.mem = s.mem ∧ t.cores = s.cores)
  ∧ (∀ (part peer : Nat) (failed : Option Nat) (s : State), exec (.linkSessionEstablish part peer false failed) s = .next s)
  ∧ ∀ (part peer : Nat) (s : State) (x : LinkSession), s.session part peer = some x → s.rtp.error = false →
    (2 ^ 48 ≤ x.countOut → (∀ g ∈ s.fabric.getsWaiting, ¬ (g.1 = part ∧ g.2.1 = peer)) → Completes (.linkRekey part peer true none) s fun t =>
      t.session part peer = some { x with keyOut := s.rtp.drbgCount, countOut := 0 } ∧ t.rtp.drbgCount = s.rtp.drbgCount + 1)
    ∧ (2 ^ 48 ≤ x.countIn → Completes (.linkRekey part peer false none) s fun t =>
      t.session part peer = some { x with keyIn := s.rtp.drbgCount, countIn := 0 } ∧ t.rtp.drbgCount = s.rtp.drbgCount + 1)

/-! ## The host attachment (11) -/

/-- A completion record: 32 bytes in the ring's next completion slot, SEQ in bytes 0–3, STATUS in byte 4, KIND in byte 5,
DETAIL in bytes 6–7, the completion index advanced; other rings and other memory stay, and a ring with MSIX sends its
vector. -/
def Claim.CompletionRecord : Prop :=
  ∀ (r : Nat) (rcd : BitVec 2048) (c : Completion) (s : State), s.MemInv → c.status < 256 →
    let q := s.ring r
    let a := hostAddr (q.cplBase.toNat + 32 * (q.cplNext.toNat % q.slots))
    let t := writeCompletion r rcd c s
    (∀ i, i < 4 → Memory.read t.mem (a + i) = BitVec.ofNat 8 ((recSeq rcd).toNat / 256 ^ i))
      ∧ Memory.read t.mem (a + 4) = BitVec.ofNat 8 c.status ∧ Memory.read t.mem (a + 5) = BitVec.ofNat 8 (recKind rcd)
      ∧ (∀ i, i < 2 → Memory.read t.mem (a + 6 + i) = BitVec.ofNat 8 (c.detail / 256 ^ i))
      ∧ (∀ x, x < a ∨ a + 32 ≤ x → Memory.read t.mem x = Memory.read s.mem x)
      ∧ (t.ring r).cplNext = q.cplNext + 1 ∧ (t.ring r).lastDone = recSeq rcd ∧ (t.ring r).current = none
      ∧ (∀ o, o ≠ r → t.ring o = s.ring o) ∧ t.cores = s.cores ∧ t.parts = s.parts
      ∧ (q.msix = false → t.host.msix = s.host.msix)
      ∧ (q.msix = true → s.msixMasked (s.ringPort r) q.vector.toNat = false → t.host.msix = (s.ringPort r, q.vector.toNat) :: s.host.msix)

/-- A record that a ring takes: CONSUMED advances; one whose SEQ is not the next of the ring is answered SEQUENCE and stops
the ring; any other that no check refuses is the ring's record in progress. -/
def Claim.RecordTaken : Prop :=
  ∀ (r : Nat) (s : State),
    let q := s.ring r
    let rcd := BitVec.ofNat 2048 (s.peekNat (hostAddr (q.ringBase.toNat + 256 * (q.consumed.toNat % q.entries))) 256)
    let t := (takeOne r s).1
    (t.ring r).consumed = q.consumed + 1
      ∧ (∀ l, q.lastSeq = some l → recSeq rcd ≠ l + 1 →
          (t.ring r).stopped = true ∧ ∃ u, (u.ring r).cplNext = q.cplNext ∧ u.mem = s.mem ∧ t.mem = (writeCompletion r rcd (cplStatus 0x02 0) u).mem)
      ∧ ((∀ l, q.lastSeq = some l → recSeq rcd = l + 1) → badHeader rcd = false → (recKind rcd = 3 → 1 ≤ recCmd rcd ∧ recCmd rcd ≤ 4) →
          (t.ring r).current = some rcd ∧ (t.ring r).lastSeq = some (recSeq rcd) ∧ t.mem = s.mem ∧ t.cores = s.cores)

/-- A ring, through a linked port: enabling one of a partition clears its counts and reads its producer line, a reserved size is refused
and counted; disabling it takes effect at once, or
after the record in progress; a store of the host to its producer line lets it take what lies there. -/
def Claim.Rings : Prop :=
  (∀ (r : Nat) (msix : Bool) (vector : BitVec 11) (s : State) (p : Nat),
    s.reachable (s.ringPort r) = true → (s.ring r).enable = false → s.ringsUp = true → s.ringPart r = some p → (s.ring r).ringLog2.toNat < 12 → (s.ring r).cplLog2.toNat < 12 →
    Completes (.ringEnable r msix vector) s fun t => ∃ u, t = pumpRing r u ∧
      (let q := u.ring r
       q.enable = true ∧ q.msix = msix ∧ q.vector = vector ∧ q.stopped = false ∧ q.consumed = 0 ∧ q.cplNext = 0 ∧ q.lastSeq = none
         ∧ q.produced = BitVec.ofNat 32 (s.peekNat (hostAddr (s.ring r).prodLine.toNat) 4) ∧ q.ringBase = (s.ring r).ringBase)
      ∧ u.mem = s.mem ∧ u.cores = s.cores ∧ u.parts = s.parts ∧ ∀ o, o ≠ r → u.ring o = s.ring o)
  ∧ (∀ (r : Nat) (msix : Bool) (vector : BitVec 11) (s : State), (s.ring r).enable = true → exec (.ringEnable r msix vector) s = .next s)
  ∧ (∀ (r : Nat) (msix : Bool) (vector : BitVec 11) (s : State), s.reachable (s.ringPort r) = true → (s.ring r).enable = false →
    12 ≤ (s.ring r).ringLog2.toNat ∨ 12 ≤ (s.ring r).cplLog2.toNat → Completes (.ringEnable r msix vector) s fun t =>
      t = { s with errors := { s.errors with hostRefused := s.errors.hostRefused + 1 } })
  ∧ (∀ (r : Nat) (s : State), s.reachable (s.ringPort r) = true → (s.ring r).enable = true →
    Completes (.ringDisable r) s fun t =>
      t.ring r = (if (s.ring r).current.isSome then { s.ring r with disabling := true } else { s.ring r with enable := false })
        ∧ (∀ o, o ≠ r → t.ring o = s.ring o) ∧ t.mem = s.mem ∧ t.cores = s.cores ∧ t.parts = s.parts)
  ∧ ∀ (r : Nat) (stores : List Host.Cell) (s : State), (∀ c ∈ stores, regionOf c.1 = .host) →
    Completes (.watchLineInvalidate r stores) s fun t => ∃ u : State,
      u.mem = stores.foldl (fun m c => Memory.write m c.1 c.2) s.mem ∧ u.cores = s.cores ∧ u.parts = s.parts ∧
      if (s.ring r).enable && s.reachable (s.ringPort r) then
        t = pumpRing r (u.modRing r fun q => { q with produced := BitVec.ofNat 32 (u.peekNat (hostAddr q.prodLine.toNat) 4) })
      else t = u

/-- An ADMIT whose block passes every check, whose manifest can be read, for which every unit has room and no partner is
refused, admits the job: its reservations, buffers and staging slots, its mailboxes and fabric rings zeroed, its
bases written back. -/
def Claim.JobAdmission : Prop :=
  ∀ (r : Nat) (partner : PartnerInfo) (s : State) (p : Nat) (rcd : BitVec 2048) (bases : Tbl Nat),
    currentRecord s r 1 none = some (p, rcd) → (s.part p).job = none → (s.part p).scrubbing = false → s.layoutTouches p = false →
    let at' := field rcd 128 64
    let b := s.peek (hostAddr at') 512
    let n := blockNat b 0x020 2
    s.hostGranted p at' 512 = true → (∀ f ∈ blockChecks s p b, f.2 = false) →
    (n = 0 ∨ s.hostGranted p (recImage rcd) (32 * n) = true) → placeJob s p (blockNat b 0 8) (blockNat b 0x0C 4) = .ok bases →
    let j := { jobOf (BitVec.ofNat 32 (recJob rcd)) r b
      ((List.range n).map fun i => BitVec.ofNat 256 (s.peekNat (hostAddr (recImage rcd + 32 * i)) 32)) bases with
        mirrorBytes := partner.mirrorBytes, mirrorOffset := partner.mirrorOffset }
    partnerRefusal s p j partner = none → (∀ h ∈ j.hdmSlots (s.part p).layout.port, Tbl.get? s.host.hdm h = none) →
    Completes (.jobAdmit r partner) s fun t => ∃ u, Answers r cplOk u t
      ∧ (u.part p).job = some j ∧ (∀ q, q ≠ p → u.part q = s.part q)
      ∧ j.bases = bases ∧ j.hbmBytes = blockNat b 0 8 ∧ j.lsBytes = blockNat b 0x0C 4 ∧ j.stepBarrier = blockNat b 0x010 2 ∧ j.stepRing = none
      ∧ (∀ i, i < j.stagingGib → Tbl.get? u.host.hdm (1024 * (s.part p).layout.port + j.hdmSlot + i)
            = some (Tbl.getD bases j.stagingPu 0 + (j.stagingOfs + i) * 2 ^ 30))
      ∧ u.mem = Memory.writeBytes
          ((s.coresOf p).foldl (fun m c => Memory.writeBytes (Memory.writeBytes m (lsBase c + j.mailboxOfs) (List.replicate 256 0))
            (lsBase c + j.fabricOfs) (List.replicate (0x40 + 64 * j.fabricEntries) 0)) s.mem)
          (hostAddr (at' + 0x100)) ((List.range 16).flatMap (fun u => leBytes 8 (Tbl.getD bases u 0)) ++ leBytes 8 j.caveWindow)

/-- An ADMIT to a partition with a job or a running scrub, or that a layout being applied changes (log 176), is ADMIT_BUSY; the first field of the block that fails a check is the
DETAIL of ADMIT_INVALID; a unit without room is that of RESERVATION. No job is admitted. -/
def Claim.AdmissionRefused : Prop :=
  ∀ (r : Nat) (partner : PartnerInfo) (s : State) (p : Nat) (rcd : BitVec 2048), currentRecord s r 1 none = some (p, rcd) →
    let at' := field rcd 128 64
    let b := s.peek (hostAddr at') 512
    let refused (u t : State) (c : Completion) : Prop := Answers r c u t ∧ u.parts = s.parts ∧ u.mem = s.mem ∧ u.cores = s.cores
    ((s.part p).job.isSome = true ∨ (s.part p).scrubbing = true ∨ s.layoutTouches p = true → Completes (.jobAdmit r partner) s fun t => ∃ u d, refused u t (cplStatus 0x04 d))
    ∧ ((s.part p).job = none → (s.part p).scrubbing = false → s.layoutTouches p = false → s.hostGranted p at' 512 = true →
      (∀ f, (blockChecks s p b).find? (·.2) = some f → Completes (.jobAdmit r partner) s fun t => ∃ u, refused u t (cplStatus 0x06 f.1))
      ∧ (∀ x, (∀ f ∈ blockChecks s p b, f.2 = false) → blockNat b 0x020 2 = 0 → placeJob s p (blockNat b 0 8) (blockNat b 0x0C 4) = .error x →
          Completes (.jobAdmit r partner) s fun t => ∃ u, refused u t (cplStatus 0x05 x)))

/-- STEP: every mailbox of the job's cores gets the step number, SEQ and body of the record, and its semaphore rises; the
record stays in progress. While a STEP of the job is in progress another ring's is answered STEP_BUSY. -/
def Claim.JobStep : Prop :=
  ∀ (r : Nat) (s : State) (p : Nat) (rcd : BitVec 2048) (j : Job), currentRecord s r 2 none = some (p, rcd) → (s.part p).job = some j →
    badJob s r rcd = false →
    (j.stepRing = none → Completes (.jobStep r) s fun t =>
      let s' := s.modJob p fun j => { j with stepRing := some r, stepNo := BitVec.ofNat 64 (field rcd 128 64) }
      t.mem = ((s.coresOf p).foldl (fun s c => s.put (lsBase c + j.mailboxOfs)
          (leBytes 8 (field rcd 128 64) ++ leBytes 4 (recSeq rcd).toNat ++ List.replicate 4 0 ++ leBytes 200 (field rcd 192 1600)) false) s').mem
        ∧ (∀ c ∈ s.coresOf p, (s.core c).flight.resetting = false →
            ((t.core c).regs.readS j.mailboxSem.toNat).toNat = min 65535 (((s.core c).regs.readS j.mailboxSem.toNat).toNat + 1)
              ∧ (t.core c).regs.x = (s.core c).regs.x)
        ∧ (∀ c, c ∉ s.coresOf p → t.core c = s.core c) ∧ t.ring r = s.ring r
        ∧ ∃ k, (t.part p).job = some k ∧ k.stepRing = some r ∧ k.stepNo = BitVec.ofNat 64 (field rcd 128 64) ∧ k.gen = j.gen)
    ∧ (∀ o, j.stepRing = some o → o ≠ r → Completes (.jobStep r) s fun t => ∃ u, Answers r (cplStatus 0x0F 0) u t ∧ u = s)

/-- RELEASE stops the partition's cores; once transfers, press descriptors, drains and wheels are done the job of a
partition that is not confidential is gone, its multicast groups are free, and the record completes OK. -/
def Claim.JobRelease : Prop :=
  (∀ (r : Nat) (s : State) (p : Nat) (rcd : BitVec 2048), currentRecord s r 5 none = some (p, rcd) → badJob s r rcd = false →
    (s.part p).releasing = none →
    Completes (.jobRelease r) s fun t =>
      (t.part p).releasing = some r ∧ (t.part p).job.map (·.tag) = (s.part p).job.map (·.tag)
        ∧ (∀ c ∈ s.coresOf p, (s.core c).ctl.state = .running ∨ (s.core c).ctl.state = .waiting →
            (t.core c).ctl.state ≠ .running ∧ (t.core c).ctl.state ≠ .waiting))
  ∧ ∀ (r : Nat) (s : State) (p : Nat) (rcd : BitVec 2048), currentRecord s r 5 none = some (p, rcd) → (s.part p).releasing = some r →
    releaseReady s p = true → (s.part p).layout.conf = false ∨ (s.part p).job = none →
    Completes (.releaseComplete r) s fun t => ∃ u, Answers r cplOk u t
      ∧ (u.part p).job = none ∧ (u.part p).releasing = none ∧ (∀ g ∈ u.fabric.mcast, g.2.1 ≠ p) ∧ u.cores = s.cores

/-- Segment load: selected descriptors whose valid ones pass every condition of R176 replace the table's entries; the first
that fails one is named with the condition, and nothing is loaded. -/
def Claim.SegmentLoad : Prop :=
  ∀ (r : Nat) (s : State) (p : Nat) (rcd : BitVec 2048), currentRecord s r 4 (some 1) = some (p, rcd) →
    controlReserved rcd [(192, 512)] = false → s.hostGranted p (recImage rcd) 8192 = true →
    let new (i : Nat) : BitVec 256 := imageEntry s (recImage rcd) i
    let sel (i : Nat) : Bool := rcd.toNat.testBit (256 + i)
    ((∀ i, i < 256 → sel i = true → segValid (new i) = true → ∀ c ∈ segmentChecks s p (new i), c.2 = false) →
      Completes (.segmentLoad r) s fun t => ∃ u, Answers r cplOk u t
        ∧ (∀ i, i < 256 → Tbl.getD (u.part p).segs i 0 = if sel i then new i else Tbl.getD (s.part p).segs i 0)
        ∧ u.cores = s.cores
        ∧ ((∀ i, i < 256 → sel i = true → segWax (new i) = false) → u.mem = s.mem))
    ∧ (∀ i c, i < 256 → sel i = true → segValid (new i) = true → (segmentChecks s p (new i)).find? (·.2) = some c →
        (∀ k, k < i → sel k = true → segValid (new k) = true → ∀ c ∈ segmentChecks s p (new k), c.2 = false) →
        Completes (.segmentLoad r) s fun t => ∃ u, Answers r (cplStatus 0x0A (i + c.1 * 256)) u t
          ∧ (u.part p).segs = (s.part p).segs ∧ u.mem = s.mem ∧ u.cores = s.cores)

/-- Barrier load: selected entries whose valid ones pass every condition of R287 are loaded, their members resolved, every
node open at the entry's epoch with nothing arrived; a failing one is named with its condition. -/
def Claim.BarrierLoad : Prop :=
  ∀ (r : Nat) (s : State) (p : Nat) (rcd : BitVec 2048), currentRecord s r 4 (some 2) = some (p, rcd) →
    controlReserved rcd [(192, 1280)] = false → s.hostGranted p (recImage rcd) 32768 = true →
    let new (i : Nat) : BitVec 256 := imageEntry s (recImage rcd) i
    let sel (i : Nat) : Bool := rcd.toNat.testBit (256 + i)
    ((∀ i, i < 1024 → sel i = true → barValid (new i) = true → ∀ c ∈ barrierChecks s p i (new i), c.2 = false) →
      Completes (.barrierLoad r) s fun t => ∃ u, Answers r cplOk u t
        ∧ (∀ i, i < 1024 → sel i = false → u.barrier p i = s.barrier p i)
        ∧ (∀ i, i < 1024 → sel i = true → let b := u.barrier p i
            b.entry = new i ∧ b.members = (if barValid (new i) then barMembers s (new i) else []) ∧ b.rootEpoch = barEpoch (new i)
              ∧ ∀ die, die < 4 → (b.node die).openEpoch = barEpoch (new i) ∧ (b.node die).counted = [] ∧ (b.node die).early = [])
        ∧ u.mem = s.mem ∧ u.cores = s.cores)
    ∧ (∀ i c, i < 1024 → sel i = true → barValid (new i) = true → (barrierChecks s p i (new i)).find? (·.2) = some c → c.1 < 4 →
        (∀ k, k < i → sel k = true → barValid (new k) = true → ∀ c ∈ barrierChecks s p k (new k), c.2 = true → c.1 = 4) →
        Completes (.barrierLoad r) s fun t => ∃ u, Answers r (cplStatus 0x0B (i + c.1 * 1024)) u t
          ∧ (u.part p).barriers = (s.part p).barriers ∧ u.mem = s.mem)

/-- Group load: selected entries that none refuses are the die's group-table entries. -/
def Claim.GroupLoad : Prop :=
  ∀ (r : Nat) (s : State) (p : Nat) (rcd : BitVec 2048), currentRecord s r 4 (some 3) = some (p, rcd) →
    controlReserved rcd [(192, 264), (320, 576)] = false → s.hostGranted p (recImage rcd) 8192 = true →
    let die := field rcd 256 8
    let new (i : Nat) : BitVec 256 := imageEntry s (recImage rcd) i
    let sel (i : Nat) : Bool := rcd.toNat.testBit (320 + i)
    die < 4 → (∀ i, i < 256 → sel i = true → groupRefused s p die i (new i) = false) →
    Completes (.groupLoad r) s fun t => ∃ u, Answers r cplOk u t
      ∧ (∀ i, i < 256 → Tbl.getD u.fabric.groups (256 * die + i) 0 = if sel i then new i else Tbl.getD s.fabric.groups (256 * die + i) 0)
      ∧ u.mem = s.mem ∧ u.cores = s.cores

/-- Multicast groups: an allocation takes the lowest free number and returns it; a free of the partition's own group leaves
no entry at its number. -/
def Claim.MulticastGroups : Prop :=
  ∀ (r : Nat) (s : State) (p : Nat) (rcd : BitVec 2048),
    (currentRecord s r 4 (some 4) = some (p, rcd) → controlReserved rcd [(192, 256)] = false → s.hostGranted p (recImage rcd) 64 = true →
      let e := BitVec.ofNat 512 (s.peekNat (hostAddr (recImage rcd)) 64)
      ∀ g, g < 1024 → Tbl.get? s.fabric.mcast g = none → (∀ k, k < g → (Tbl.get? s.fabric.mcast k).isSome = true) → mcastOk e = true →
      Completes (.multicastAllocate r) s fun t => ∃ u, Answers r { cplOk with result := g } u t
        ∧ Tbl.get? u.fabric.mcast g = some (p, e) ∧ (∀ k, k ≠ g → Tbl.get? u.fabric.mcast k = Tbl.get? s.fabric.mcast k)
        ∧ u.mem = s.mem ∧ u.cores = s.cores)
    ∧ (currentRecord s r 4 (some 5) = some (p, rcd) → controlReserved rcd [(192, 266)] = false →
      let g := field rcd 256 10
      ∀ e, Tbl.get? s.fabric.mcast g = some (p, e) →
      Completes (.multicastFree r) s fun t => ∃ u, Answers r cplOk u t
        ∧ Tbl.get? u.fabric.mcast g = none ∧ (∀ x ∈ s.fabric.mcast, x.1 ≠ g → x ∈ u.fabric.mcast) ∧ u.mem = s.mem ∧ u.cores = s.cores)

/-- Peer grants: a grant on a present unit of the partition takes the lowest free place on its stack and returns its device
address; a revoke that no transfer holds back takes the grant of its tag away. -/
def Claim.PeerGrants : Prop :=
  ∀ (r : Nat) (s : State) (p : Nat) (rcd : BitVec 2048),
    (currentRecord s r 4 (some 6) = some (p, rcd) → controlReserved rcd [(192, 276), (288, 384)] = false →
      let u' := field rcd 268 8
      let n := field rcd 320 64
      u' ∈ s.presentUnits p → ∀ a, s.placeRange u' n = some a →
      Completes (.peerGrant r) s fun t => ∃ u, Answers r { cplOk with result := a } u t
        ∧ (u.part p).grants = (s.part p).grants
            ++ [{ sender := field rcd 256 12, unit := u', tag := BitVec.ofNat 32 (field rcd 288 32), bytes := n, base := a }]
        ∧ (u.part p).job = (s.part p).job ∧ u.mem = s.mem ∧ u.cores = s.cores)
    ∧ (currentRecord s r 4 (some 7) = some (p, rcd) → controlReserved rcd [(192, 256), (288, 320)] = false →
      ∀ g, (s.part p).grants.find? (fun g => g.tag == BitVec.ofNat 32 (field rcd 288 32)) = some g → s.grantInUse g = false →
      Completes (.peerRevoke r) s fun t => ∃ u, Answers r cplOk u t
        ∧ (u.part p).grants = (s.part p).grants.filter (fun x => x != g) ∧ g ∉ (u.part p).grants ∧ u.mem = s.mem ∧ u.cores = s.cores)

/-- A CONTROL record with a bit set that its subcommand does not name is BAD_RECORD and changes nothing else. -/
def Claim.ControlReserved : Prop :=
  ∀ row ∈ ([(Instr.segmentLoad, 1, [(192, 512)]), (Instr.barrierLoad, 2, [(192, 1280)]), (Instr.groupLoad, 3, [(192, 264), (320, 576)]),
      (Instr.multicastAllocate, 4, [(192, 256)]), (Instr.multicastFree, 5, [(192, 266)]), (Instr.peerGrant, 6, [(192, 276), (288, 384)]),
      (Instr.peerRevoke, 7, [(192, 256), (288, 320)])] : List ((Nat → Instr) × Nat × List (Nat × Nat))),
    ∀ (r : Nat) (s : State) (p : Nat) (rcd : BitVec 2048), currentRecord s r 4 (some row.2.1) = some (p, rcd) →
      controlReserved rcd row.2.2 = true →
      Completes (row.1 r) s fun t => ∃ u d, Answers r (cplStatus 0x01 d) u t ∧ u.mem = s.mem ∧ u.cores = s.cores ∧ u.fabric = s.fabric
        ∧ ∀ q, (u.part q).segs = (s.part q).segs ∧ (u.part q).barriers = (s.part q).barriers ∧ (u.part q).grants = (s.part q).grants

/-- The HDM window through a linked port: an access inside one mapped slot reads or writes at the device address it maps to, and a
write is absorbed while that partition is reset; in an unmapped slot a write is discarded, a read returns poison, and each counts; an
access across two slots is two. Through a port without CXL.mem nothing happens. -/
def Claim.HdmWindow : Prop :=
  ∀ (port addr len : Nat) (data : List Byte) (s : State),
    let one (n : Nat) : Prop := 0 < n ∧ addr / 2 ^ 30 = (addr + n - 1) / 2 ^ 30
    (s.memLinked port = false → (∀ poisoned, exec (.hdmWrite port addr data poisoned) s = .next s) ∧ exec (.hdmRead port addr len) s = .next s)
    ∧ (∀ a, s.memLinked port = true → s.hdmAddr port addr = some a →
      (one data.length → (∀ p, s.unitPart (stackOf a) = some p → (s.part p).resetting = false) →
        (Completes (.hdmWrite port addr data false) s fun t => t = wakeFor (inboundDomains a) (s.put a data false))
        ∧ Completes (.hdmWrite port addr data true) s fun t => t.mem = (s.put a data true).mem ∧ t.marks = (s.put a data true).marks ∧ t.cores = s.cores)
      ∧ (one data.length → ∀ p poisoned, s.unitPart (stackOf a) = some p → (s.part p).resetting = true →
        exec (.hdmWrite port addr data poisoned) s = .next s)
      ∧ (one len → Completes (.hdmRead port addr len) s fun t =>
        t.host.hdmData = s.peek a len ∧ t.host.hdmMarked = s.marked a len ∧ t.mem = s.mem ∧ t.cores = s.cores))
    ∧ (s.memLinked port = true → s.hdmAddr port addr = none →
      (one data.length → Completes (.hdmWrite port addr data false) s fun t =>
        t = { s with errors := { s.errors with hostRefused := s.errors.hostRefused + 1 } })
      ∧ (one len → Completes (.hdmRead port addr len) s fun t =>
        t.host.hdmMarked = true ∧ t.errors.hostRefused = s.errors.hostRefused + 1 ∧ t.mem = s.mem ∧ t.cores = s.cores))
    ∧ (s.memLinked port = true → 0 < data.length → addr / 2 ^ 30 + 1 = (addr + data.length - 1) / 2 ^ 30 → ∀ poisoned,
      let mid := (addr / 2 ^ 30 + 1) * 2 ^ 30
      Completes (.hdmWrite port addr data poisoned) s fun t =>
        t = hdmWritePart port mid (data.drop (mid - addr)) poisoned (hdmWritePart port addr (data.take (mid - addr)) poisoned s))

/-- A port's CAVE_MAP takes an entry through that port while no job is admitted, and keeps its own otherwise. A port links with 256-byte
flits at ×4 and more, no wider than it is, and a slow or narrow link is a corrected error. -/
def Claim.CaveMapAndLinks : Prop :=
  (∀ (port : Fin 2) (e : Fin 8) (v : BitVec 256) (s : State), let k := 8 * port.val + e.val
    (s.reachable port = true → (∀ p ∈ s.parts, p.2.job = none) → Completes (.caveMapWrite port e v) s fun t =>
      t.host.caveMap[k]? = some v ∧ (∀ f, f ≠ k → t.host.caveMap[f]? = s.host.caveMap[f]?) ∧ t.mem = s.mem ∧ t.cores = s.cores)
    ∧ (s.reachable port = false ∨ (∃ p ∈ s.parts, p.2.job.isSome = true) → exec (.caveMapWrite port e v) s = .next s))
  ∧ ∀ (port : Fin 2) (rate width : Nat) (flit : Bool) (s : State), s.hasPort port = true →
    ((flit = false ∨ width < 4) → Completes (.cxlLinkTrain port rate width flit) s fun t =>
      t.host.linkWidth[port] = 0 ∧ t.host.linkRate[port] = 0 ∧ t.mem = s.mem ∧ t.cores = s.cores ∧ t.errors = s.errors)
    ∧ (flit = true → 1 ≤ rate → rate ≤ 4 → width ∈ [4, 8, 16] → width ≤ s.laneWidth port → Completes (.cxlLinkTrain port rate width flit) s fun t =>
      t.host.linkWidth[port] = width ∧ t.host.linkRate[port] = rate ∧ t.mem = s.mem ∧ t.cores = s.cores
        ∧ t.errors.counts[0] = if rate < 4 ∨ width < s.portWidth then s.errors.counts[0] + 1 else s.errors.counts[0])

/-! ## Control windows, events of a core's control block, and its resets (03, 11, 15) -/

/-- A host write to a control window that R331 does not let through is counted and does nothing else; a read brings all ones. Through
a port that is not linked nothing reaches the device, and nothing is counted. -/
def Claim.RefusedWindows : Prop :=
  ∀ (port : Nat) (c : CoreId) (half poisoned dumpLs : Bool) (entry index : BitVec 14) (v : Word) (w : BitVec 6) (s : State),
    let missed : State := if s.reachable port then { s with errors := { s.errors with hostRefused := s.errors.hostRefused + 1 } } else s
    s.reachesCore port c = false →
    (∀ i ∈ [Instr.coreCtlStart port c half entry dumpLs, .coreCtlStop port c, .coreCtlDump port c dumpLs, .coreCtlContinue port c,
        .imemLoadedSet port c half, .imemWrite port c half index v poisoned, .fltHeadWrite port c],
      Completes i s fun t => t = missed)
    ∧ Completes (.faultLogRead port c w) s fun t => t = { missed with host := { missed.host with lastRead := BitVec.allOnes 64 } }

/-- START of a Stopped core: ISSUE_COUNT is 0, the named half is active and issue begins at ENTRY, or waits for the half to be
loaded; in other states only the fields of CORE_CTL are stored. -/
def Claim.CoreStart : Prop :=
  ∀ (port : Nat) (c : CoreId) (half dumpLs : Bool) (entry : BitVec 14) (s : State), s.reachesCore port c = true →
    let k := s.core c
    Completes (.coreCtlStart port c half entry dumpLs) s fun t =>
      let u := t.core c
      t.mem = s.mem ∧ (∀ d, d ≠ c → t.core d = s.core d) ∧ u.regs = k.regs
        ∧ { u.flight with answer := k.flight.answer, fed := k.flight.fed } = k.flight ∧ u.ctl.ctlHalf = half ∧ u.ctl.ctlEntry = entry ∧ u.ctl.ctlDumpLs = dumpLs
        ∧ (k.ctl.state = .stopped → k.flight.resetting = false → s.coreFatal c = false →
            u.ctl.half = half ∧ u.ctl.pc = entry.toNat ∧ u.sys.issueCount = 0
              ∧ (if (if half then k.ctl.loadedB else k.ctl.loadedA) then u.ctl.state = .running ∧ u.ctl.hold = .none
                 else u.ctl.state = .waiting ∧ u.ctl.hold = .start half entry))
        ∧ (k.ctl.state ≠ .stopped → u.flight = k.flight ∧ u.ctl.state = k.ctl.state ∧ u.ctl.pc = k.ctl.pc ∧ u.ctl.half = k.ctl.half ∧ u.sys = k.sys)

/-- STOP ends issue: what was issued completes and the core is Stopped. CONTINUE of a core Stopped at count lets it issue at
its PC, except in a confidential partition. -/
def Claim.CoreStopContinue : Prop :=
  ∀ (port : Nat) (c : CoreId) (s : State), s.reachesCore port c = true →
    ((s.core c).ctl.state ≠ .dumping → Completes (.coreCtlStop port c) s fun t =>
      (t.core c).ctl.hold = .none ∧ (t.core c).flight.sched = []
        ∧ ((s.core c).flight.sched = [] → (t.core c).ctl.state = .stopped ∧ t.mem = s.mem ∧ (t.core c).regs = (s.core c).regs
            ∧ ∀ d, d ≠ c → t.core d = s.core d))
    ∧ (Completes (.coreCtlContinue port c) s fun t =>
      t.mem = s.mem ∧ (∀ d, d ≠ c → t.core d = s.core d) ∧ (t.core c).regs = (s.core c).regs ∧ (t.core c).flight = (s.core c).flight
        ∧ (t.core c).ctl.pc = (s.core c).ctl.pc
        ∧ (t.core c).ctl.state = if (s.core c).ctl.state = .stoppedAtCount ∧ s.confidential (s.corePart c) = false ∧ s.coreFatal c = false then .running
            else (s.core c).ctl.state)

/-- DUMP of a core Stopped, or Stopped at count, to a range that a writable segment holds begins, and when it is done its bytes
stand there, DUMP_DONE is set and the core is back in its state; a range that none holds is SEGMENT in the fault log. -/
def Claim.CoreDump : Prop :=
  (∀ (port : Nat) (c : CoreId) (dumpLs : Bool) (s : State), s.reachesCore port c = true → s.confidential (s.corePart c) = false →
    let k := s.core c
    k.ctl.state = .stopped ∨ k.ctl.state = .stoppedAtCount → k.flight.resetting = false →
    Completes (.coreCtlDump port c dumpLs) s fun t =>
      let v := s.modCore c fun k => { k with ctl := { k.ctl with ctlDumpLs := dumpLs } }
      let u := t.core c
      t.mem = s.mem ∧ (∀ d, d ≠ c → t.core d = s.core d) ∧ u.regs = k.regs ∧ u.ctl.dumpDone = false
        ∧ (v.dumpFault c = none → u.ctl.state = .dumping ∧ u.ctl.dumpAtCount = (k.ctl.state == .stoppedAtCount) ∧ u.ctl.dumpTo = k.ctl.dumpAddr
            ∧ u.ctl.dumpLs = dumpLs)
        ∧ (∀ f, v.dumpFault c = some f → u.ctl.state = k.ctl.state ∧ u.ctl.lastFault = 0x0B))
  ∧ ∀ (c : CoreId) (s : State), (s.core c).ctl.state = .dumping →
    Completes (.dumpDone c) s fun t =>
      let k := (s.core c).ctl
      t.mem = (if k.dumpLs then (s.put k.dumpTo.toNat (padTo 0x100000 (dumpBytes s c)) false).put (k.dumpTo.toNat + 0x100000)
                (s.peek (lsBase c) 0x800000) false
               else s.put k.dumpTo.toNat (dumpBytes s c) false).mem
        ∧ (t.core c).ctl.dumpDone = true ∧ (t.core c).ctl.state = (if k.dumpAtCount then .stoppedAtCount else .stopped)
        ∧ (t.core c).regs = (s.core c).regs ∧ ∀ d, d ≠ c → t.core d = s.core d

/-- Where the parts of a dump lie: the X registers from 0x40, the V registers from 0x1000. -/
def Claim.DumpLayout : Prop :=
  ∀ (s : State) (c : CoreId),
    (∀ r i, r < 32 → i < 8 → (dumpBytes s c)[0x40 + 8 * r + i]? = some (BitVec.ofNat 8 (((s.core c).regs.readX r).toNat / 256 ^ i)))
      ∧ ∀ r i, r < 32 → i < 256 → (dumpBytes s c)[0x1000 + 256 * r + i]? = some (BitVec.ofNat 8 (((s.core c).regs.readV r).toNat / 256 ^ i))

/-- A core that waits for its half: once it is loaded a START issues at its entry, and a SWAPI makes it active and issues its entry
three cycles later. -/
def Claim.HalfLoaded : Prop :=
  ∀ (c : CoreId) (elapsed : Nat) (s : State),
    (∀ half entry, (s.core c).ctl.hold = .start half entry → (s.core c).ctl.state = .waiting →
      (if half then (s.core c).ctl.loadedB else (s.core c).ctl.loadedA) = true →
      Completes (.startFetchBegin c elapsed) s fun t =>
        (t.core c).ctl.state = .running ∧ (t.core c).ctl.hold = .none ∧ (t.core c).ctl.half = half ∧ (t.core c).ctl.pc = entry.toNat
          ∧ (t.core c).flight.now = (s.core c).flight.now + clockedCycles c elapsed s ∧ (t.core c).regs = (s.core c).regs ∧ t.mem = s.mem
          ∧ ∀ d, d ≠ c → t.core d = s.core d)
    ∧ (∀ entry, (s.core c).ctl.hold = .swapi entry → (s.core c).ctl.state = .waiting →
      (if (s.core c).ctl.half then (s.core c).ctl.loadedA else (s.core c).ctl.loadedB) = true →
      let T := heldCycle c elapsed s
      let d := runTo c T s
      (d.core c).ctl.state = .waiting →
      Completes (.swapiResume c elapsed) s fun t =>
        (t.core c).ctl.state = .running ∧ (t.core c).ctl.hold = .none ∧ (t.core c).ctl.half = !(s.core c).ctl.half
          ∧ (t.core c).ctl.pc = entry.toNat ∧ (t.core c).flight.now = T + 3 ∧ (t.core c).regs = (d.core c).regs ∧ t.mem = d.mem
          ∧ ∀ e, e ≠ c → t.core e = d.core e)

/-- A Running core whose ISSUE_COUNT is its limit, with nothing queued and no effect held behind a fence, completes what it has issued and is Stopped at count;
one that is not there goes on. -/
def Claim.RunToCount : Prop :=
  ∀ (c : CoreId) (s : State), let k := s.core c
    (k.ctl.state = .running → k.ctl.hold = .none → k.ctl.rtcEnable = true → k.sys.issueCount = k.ctl.rtcLimit.setWidth 64 →
      k.flight.queuesEmpty = true → k.flight.held = [] → s.confidential (s.corePart c) = false →
      Completes (.rtcStop c) s fun t => (t.core c).flight.sched = []
        ∧ (k.flight.sched = [] → (t.core c).ctl.state = .stoppedAtCount ∧ (t.core c).regs = k.regs ∧ t.mem = s.mem ∧ ∀ d, d ≠ c → t.core d = s.core d))
    ∧ (k.sys.issueCount ≠ k.ctl.rtcLimit.setWidth 64 → exec (.rtcStop c) s = .next s)

/-- Words of a control window written by the host: a LOADED flag, a word of instruction memory that is not being fetched,
with the LOADED flag of its half cleared, FLT_HEAD's count; a read of the fault log returns its word. -/
def Claim.WindowWrites : Prop :=
  ∀ (port : Nat) (c : CoreId) (half poisoned : Bool) (index : BitVec 14) (v : Word) (w : BitVec 6) (s : State), s.reachesCore port c = true →
    let k := (s.core c).ctl
    let frame (t : State) : Prop := t.mem = s.mem ∧ (∀ d, d ≠ c → t.core d = s.core d) ∧ (t.core c).regs = (s.core c).regs
      ∧ (t.core c).flight = (s.core c).flight ∧ (t.core c).ctl.state = k.state ∧ (t.core c).ctl.pc = k.pc
    (Completes (.imemLoadedSet port c half) s fun t => frame t ∧ (t.core c).ctl.imem = k.imem
      ∧ (t.core c).ctl.loadedA = (k.loadedA || !half) ∧ (t.core c).ctl.loadedB = (k.loadedB || half))
    ∧ ((k.fetching = false ∨ k.half ≠ half) → Completes (.imemWrite port c half index v poisoned) s fun t => frame t
      ∧ (t.core c).ctl.imem = Tbl.put k.imem (imemKey half index.toNat) v
      ∧ (t.core c).ctl.imemMark.contains (imemKey half index.toNat) = poisoned
      ∧ (t.core c).ctl.loadedA = (k.loadedA && half) ∧ (t.core c).ctl.loadedB = (k.loadedB && !half))
    ∧ (k.fetching = true → k.half = half → Completes (.imemWrite port c half index v poisoned) s fun t => frame t
      ∧ (t.core c).ctl.imem = k.imem ∧ (t.core c).ctl.lastFault = 0x10)
    ∧ (Completes (.fltHeadWrite port c) s fun t => frame t ∧ (t.core c).ctl.fltOverwritten = 0 ∧ (t.core c).ctl.log = k.log)
    ∧ Completes (.faultLogRead port c w) s fun t => frame t ∧ (t.core c).ctl.log = k.log
      ∧ t.host.lastRead = BitVec.ofNat 64 (bits ((k.log[w.toNat / 4]?).getD .reset).word (64 * (w.toNat % 4)) 64)
      ∧ (t.core c).ctl.logRead.getLsbD (w.toNat / 4) = true

/-- An 8-byte host write by its BAR and offset: a word of a core's window, a word of a ring's configuration that is not
enabled, RESET_CTL of a partition's page, a word of the port's configuration space (BAR number 7, log 173). -/
def Claim.ControlRegisters : Prop :=
  (∀ (port : Nat) (c : CoreId) (half : Bool) (index : BitVec 14) (v : Word) (s : State),
    exec (.controlRegisterWrite port 2 (0x100000 * c.toNat + 8 * imemKey half index.toNat) v) s = exec (.imemWrite port c half index v false) s)
  ∧ (∀ (port r : Nat) (v : Word) (s : State), s.reachable port = true → r < 64 → s.ringPort r = port → (s.ring r).enable = false →
    (Completes (.controlRegisterWrite port 0 (0x1008 + 64 * r) v) s fun t => t.ring r = { s.ring r with ringBase := v }
      ∧ (∀ o, o ≠ r → t.ring o = s.ring o) ∧ t.mem = s.mem ∧ t.cores = s.cores ∧ t.parts = s.parts)
    ∧ (Completes (.controlRegisterWrite port 0 (0x1010 + 64 * r) v) s fun t => t.ring r = { s.ring r with prodLine := v })
    ∧ (Completes (.controlRegisterWrite port 0 (0x1018 + 64 * r) v) s fun t => t.ring r = { s.ring r with cplBase := v })
    ∧ (Completes (.controlRegisterWrite port 0 (0x1020 + 64 * r) v) s fun t =>
        t.ring r = { s.ring r with ringLog2 := v.truncate 4, cplLog2 := (v >>> 4).truncate 4 }))
  ∧ (∀ (port p : Nat) (core : CoreId) (v : Word) (s : State), s.reachable port = true → p < 16 → s.ringsUp = true → (s.part p).layout.valid = true →
    (s.part p).layout.port = port → (s.part p).resetting = false → v.toNat = core.toNat + 2 ^ 10 + 2 ^ 12 →
    exec (.controlRegisterWrite port 4 (0x10000 * p + 8) v) s = exec (.coreReset p core) s)
  ∧ (∀ (port word : Nat) (v : Word) (s : State), s.reachable port = true → Completes (.controlRegisterWrite port 7 (8 * word) v) s fun t =>
    Tbl.get? t.host.config (0x20000 * port + word) = some v ∧ (∀ k, k ≠ 0x20000 * port + word → Tbl.get? t.host.config k = Tbl.get? s.host.config k)
      ∧ t.mem = s.mem ∧ t.cores = s.cores ∧ t.parts = s.parts)
  ∧ ∀ (port bar offset : Nat) (v : Word) (s : State), bar ≠ 0 → bar ≠ 2 → bar ≠ 4 → bar ≠ 7 → exec (.controlRegisterWrite port bar offset v) s = .next s

/-- CORE_RESET and ROW_RESET of a partition's core: the page is BUSY, every core it covers has stopped and has nothing queued,
and drains; a target outside the partition is refused with RESULT 1. -/
def Claim.CoreResets : Prop :=
  ∀ row ∈ ([(Instr.coreReset, 1), (Instr.rowReset, 2)] : List ((Nat → CoreId → Instr) × Nat)),
    ∀ (p : Nat) (c : CoreId) (s : State),
      let q := s.part p
      let covered : List CoreId := if row.2 = 2 then rowCores c else [c]
      q.layout.valid = true → q.resetting = false → q.scrubbing = false → q.resetCtl.busy = false →
      (s.mayReset p c = true → Completes (row.1 p c) s fun t =>
        (t.part p).resetCtl.core = c ∧ (t.part p).resetCtl.kind = BitVec.ofNat 2 row.2 ∧ (t.part p).resetCtl.busy = true
          ∧ (∀ d ∈ covered, (t.core d).flight.resetting = true ∧ (t.core d).flight.sched = [] ∧ (t.core d).flight.marks = [] ∧ (t.core d).flight.held = []
              ∧ (∀ n, n < 4 → ((t.core d).flight.stream n).jobs = []) ∧ (t.core d).flight.knife.jobs = [] ∧ (t.core d).ctl.state ≠ .running)
          ∧ ∀ d, d ∉ covered → t.core d = s.core d)
      ∧ (s.mayReset p c = false → Completes (row.1 p c) s fun t =>
        (t.part p).resetCtl.result = 1 ∧ (t.part p).resetCtl.busy = false ∧ t.cores = s.cores ∧ t.mem = s.mem)

/-- A core reset ends, once no fabric transfer of its cores is in progress: KIND 1 leaves the core-reset values of R447, instruction
memory and the fault log as they were; KIND 2 zeroes local stores and instruction memories too. The page's COUNT advances. -/
def Claim.ResetEnds : Prop :=
  ∀ (p : Nat) (s : State),
    let q := (s.part p).resetCtl
    q.busy = true → (∀ c ∈ q.cores, (s.core c).flight.fabric.current = none) →
    Completes (.resetDrainComplete p) s fun t =>
      (t.part p).resetCtl.busy = false ∧ (t.part p).resetCtl.result = 0 ∧ (t.part p).resetCtl.count = q.count + 1
        ∧ (∀ c, c ∉ q.cores → t.core c = s.core c)
        ∧ (q.kind ≠ 2 → t.mem = s.mem ∧
            let u := t.core q.core
            let k := s.core q.core
            u.regs = CoreRegs.reset ∧ u.sys = CoreSys.reset ∧ u.ctl.state = .stopped ∧ u.ctl.imem = k.ctl.imem ∧ u.ctl.log = k.ctl.log
              ∧ u.ctl.fltNext = k.ctl.fltNext ∧ u.flight.sched = [] ∧ u.flight.resetting = false)
        ∧ (q.kind = 2 → (∀ c ∈ q.cores, t.core c = Core.reset)
            ∧ (s.MemInv → ∀ c ∈ q.cores, ∀ i, i < 0x800000 → Memory.read t.mem (lsBase c + i) = 0)
            ∧ (s.MemInv → ∀ a, (∀ c ∈ q.cores, a < lsBase c ∨ lsBase c + 0x800000 ≤ a) → Memory.read t.mem a = Memory.read s.mem a))

/-! ## Checkpoints and takeovers (08) -/

/-- A drain sends its slot to the partner, the COMMITTED bit cleared first, and its slot holds no generation from then on; once all of it
is there the commit record follows, and the slot holds the generation and is the newest. One that cannot finish is logged and leaves
the slots as they are. -/
def Claim.CheckpointCommit : Prop :=
  (∀ (p : Nat) (partner : PartnerInfo) (s : State) (j : Job) (g : BitVec 32) (m : SchedImage) (port : Nat), (s.part p).job = some j →
    j.draining = some g → j.drainImage = some m → j.queued = [] →
    let mine (l : List OutPacket) : List OutPacket := l.map fun k => { k with src := s.fabricId }
    (s.routeTo j.partner.toNat ≠ [] → s.portToward j.partner.toNat = some port → s.sessionReady p j.partner.toNat = true →
      (∀ record, j.drainSent = some record → Completes (.checkpointCommit p true partner) s fun t =>
        (∃ tag, t.fabric.sent = s.fabric.sent ++ mine (drainPackets j.partner.toNat (j.slotBase m) (s.confidential (some p)) tag [(0, unmarked record)]))
          ∧ t.mem = s.mem ∧ t.cores = s.cores
          ∧ ∃ k, (t.part p).job = some k ∧ k.draining = none ∧ k.drainImage = none ∧ k.drainSent = none ∧ k.newest = j.drainSlot ∧ k.gen = j.gen
              ∧ k.slots = j.slots.setIfInBounds j.drainSlot (some g)
              ∧ k.independence = if feedsApart s.powerFeed partner.feed then 1 else 2)
      ∧ (j.drainSent = none → Completes (.checkpointCommit p true partner) s fun t =>
        let tensors := j.manifest.map fun e => s.memBytes (mfAddr e g.toNat) (mfBytes e)
        (∃ tag, t.fabric.sent = s.fabric.sent ++ mine (drainPackets j.partner.toNat (j.slotBase m) (s.confidential (some p)) tag (slotWrites j m tensors)))
          ∧ t.mem = s.mem ∧ t.cores = s.cores
          ∧ ∃ k, (t.part p).job = some k ∧ k.draining = some g ∧ k.drainSent = some (drainRecord j m (tensors.map plainBytes))
              ∧ k.slots = j.slots.setIfInBounds j.drainSlot none ∧ k.newest = j.newest))
    ∧ Completes (.checkpointCommit p false partner) s fun t =>
        t.fabric.sent = s.fabric.sent ∧ t.mem = s.mem ∧ t.errors.counts[0] = s.errors.counts[0] + 1
          ∧ ∃ k, (t.part p).job = some k ∧ k.draining = none ∧ k.slots = j.slots ∧ k.newest = j.newest)
  ∧ ∀ (j : Job) (m : SchedImage) (tensors : List (List MByte)), (slotWrites j m tensors).head? = some (48, [(0, false)])

/-- A takeover on a device of a ring group fences the failed device and holds the group's partitions; the head begins one only of a
device that is fatal, unreachable or straggles, and a straggler without a spare keeps working. While a core has not drained it goes no
further; then the head takes the first spare that qualifies, or stops with TAKEOVER_NONE. A spare that the head has chosen takes the
failed device's ID. -/
def Claim.TakeoverBegins : Prop :=
  ∀ (failed : FailedDevice) (spares : List SpareInfo) (group : GroupView) (s : State), s.fabric.takeover.phase = 0 →
    (s.fabric.groupState = 2 → s.mayReplace failed = false → exec (.takeover failed spares group) s = .next s)
    ∧ (s.fabric.groupState = 2 → s.mayReplace failed = true → s.keepsWorking failed spares = true →
        exec (.takeover failed spares group) s = .next (s.healthEvent 1 failed.id))
    ∧ (s.fabric.groupState = 0 → group.choice = some s.fabricId → Completes (.takeover failed spares group) s fun t =>
        t.fabric.assignedId = BitVec.ofNat 16 failed.id ∧ t.fabric.takeover.phase = 4 ∧ t.mem = s.mem)
    ∧ (s.fabric.groupState = 1 ∨ (s.fabric.groupState = 2 ∧ s.mayReplace failed = true ∧ s.keepsWorking failed spares = false) →
      let d := fenceAndHold failed.id s
      failed.id ∈ d.fabric.takeover.dropped ∧ (∀ x ∈ d.fabric.sessions, x.peer ≠ failed.id) ∧ d.fabric.takeover.failed = failed.id
        ∧ (∀ p ∈ s.groupParts, (d.part p).held = true ∧ ∀ c ∈ s.coresOf p, (d.core c).ctl.state ≠ .running ∧ (d.core c).ctl.state ≠ .waiting)
        ∧ ((∃ p ∈ d.groupParts, ∃ c ∈ d.coresOf p, (d.core c).flight.fabric.current.isSome = true) →
            Completes (.takeover failed spares group) s fun t => t = d ∧ t.fabric.takeover.phase = 3)
        ∧ ((∀ p ∈ d.groupParts, ∀ c ∈ d.coresOf p, (d.core c).flight.fabric.current = none) → s.fabric.groupState = 2 →
            (∀ x ∈ spares, spareOk failed x = false) →
            Completes (.takeover failed spares group) s fun t =>
              t.fabric.takeover.phase = 2 ∧ t.fabric.takeover.reason = 1 ∧ t.cores = d.cores ∧ t.mem = d.mem))

/-- A takeover whose hold has drained and which has a spare, a group commit generation and a sound source for every partition
restores them: each job at that generation with no STEP, each recorded core Stopped at its recorded PC, loops and semaphores. -/
def Claim.TakeoverRestores : Prop :=
  ∀ (failed : FailedDevice) (spares : List SpareInfo) (group : GroupView) (s : State) (x : SpareInfo) (g : Nat),
    s.fabric.takeover.phase = 0 → s.fabric.groupState = 2 → s.mayReplace failed = true → s.keepsWorking failed spares = false →
    let d := fenceAndHold failed.id s
    let u := takeIdentity failed.id x.id failed.group d
    (∀ p ∈ d.groupParts, ∀ c ∈ d.coresOf p, (d.core c).flight.fabric.current = none) → d.chooseSpare failed spares = some x →
    (∀ p ∈ u.groupParts, u.confidential (some p) = false) →
    groupGen (u.groupParts.map fun p => ((u.part p).job.bind Job.committedGen)) group.gens = some g →
    ∀ src : Nat → RestoreSource, (∀ p ∈ u.groupParts, ∃ j, (u.part p).job = some j ∧
        restoreSource j g (u.restoredWheels p) (group.slots.filter fun c => c.part == p) = .ok (src p)) →
    Completes (.takeover failed spares group) s fun t =>
      t.fabric.takeover.phase = 1 ∧ t.fabric.takeover.spare = some x.id
        ∧ ∀ p ∈ u.groupParts, (∃ k, (t.part p).job = some k ∧ k.gen = BitVec.ofNat 32 g ∧ k.stepRing = none ∧ k.draining = none ∧ k.stepNo = (src p).image.step)
          ∧ ∀ c ∈ u.coresOf p, ∀ i, Tbl.get? (src p).image.cores c.toNat = some i →
              (t.core c).ctl.state = .stopped ∧ (t.core c).ctl.pc = i.pc.toNat ∧ (t.core c).ctl.half = i.half
                ∧ (t.core c).regs.loops = i.loops ∧ (t.core c).regs.sems = i.sems ∧ (t.core c).sys.issueCount = i.issueCount
                ∧ ∀ r, (t.core c).regs.readX r = 0

/-- The group resumes: its held partitions are held no more, every core with a record issues at its PC, and no other core changes. -/
def Claim.TakeoverResume : Prop :=
  ∀ s : State, s.fabric.takeover.phase = 1 →
    Completes .takeoverResume s fun t =>
      t.fabric.takeover.phase = 0
        ∧ ∀ p, p < 16 → s.runsGroupJob p = true → (s.part p).held = true →
          (t.part p).held = false
            ∧ ∀ c ∈ s.coresOf p, ∀ j m, (s.part p).job = some j → j.image = some m →
              if c.toNat ∈ m.cores.map (·.1) then
                (t.core c).ctl.state = .running ∧ (t.core c).ctl.hold = .none ∧ (t.core c).ctl.pc = (s.core c).ctl.pc ∧ (t.core c).regs = (s.core c).regs
              else t.core c = s.core c

/-! ## The intake (07) -/

/-- OPEN of a decode or encode wheel that passes every check takes the lowest free entry, which RESULT names, with the command's
fields and its recipe; a core ring's header is zeroed and the wheel's entry written. -/
def Claim.WheelOpens : Prop :=
  ∀ (ring : Nat) (s : State) (p : Nat) (r : BitVec 2048) (j : Job) (w : Nat), intakeRecord s ring 1 none = some (p, r) →
    (s.part p).job = some j → badJob s ring r = false → openRefusal s p j r = none → s.freeWheel p = some w →
    let recipe := BitVec.ofNat 1024 ((s.seenBy (some p)).peekNat (icAddrB r) 128)
    let params := BitVec.ofNat 512 ((s.seenBy (some p)).peekNat (icAddrB r) 64)
    let made (z : BitVec 1024) : State := s.setWheel w (openedWheel p (s.unitsOf p) j r z)
    let opened (u : State) (z : BitVec 1024) : Prop :=
      let v := u.wheel w
      v.state = 1 ∧ v.recipe = z ∧ v.part = p ∧ v.codec = BitVec.ofNat 4 (icCodec r) ∧ v.srcBase = BitVec.ofNat 64 (icAddrA r)
        ∧ v.srcSize = BitVec.ofNat 64 (icSize r) ∧ v.cplBase = BitVec.ofNat 64 (icAddrD r) ∧ v.job = j.tag ∧ v.clips = [] ∧ v.running = []
        ∧ (∀ o, o ≠ w → u.wheel o = s.wheel o) ∧ u.cores = s.cores
    (icCodec r < 4 → (rcRing recipe = true ∨ rcSig recipe = true → s.corePart (rcCore recipe) = some p) → recipeBad recipe = false →
      (∀ x ∈ s.intake.wheels, x.2.state ≠ 0 → x.2.codec.toNat < 4 → ringsOverlap x.2.recipe recipe = false) →
      Completes (.wheelOpen ring) s fun t => ∃ u, Answers ring { cplOk with result := w } u t ∧ opened u recipe
        ∧ u = (if rcRing recipe then (made recipe).put (ringAddr recipe) (List.replicate 64 0) false else made recipe).saveWheel w)
    ∧ (4 ≤ icCodec r → encodeBad (icCodec r) params = false → encodeRegion (icPar r) params ≤ 4096 * icDpbSize r →
      Completes (.wheelOpen ring) s fun t => ∃ u, Answers ring { cplOk with result := w } u t ∧ opened u (params.setWidth 1024)
        ∧ u = (made (params.setWidth 1024)).saveWheel w)

/-- FEED of a usable wheel whose entries all pass appends them to its list, each by its address; on a wheel stopped after an error RESUME lets it go
on. -/
def Claim.Feeds : Prop :=
  ∀ (ring : Nat) (resume : Bool) (s : State) (p : Nat) (r : BitVec 2048) (j : Job) (v : Wheel),
    intakeRecord s ring 2 (some resume) = some (p, r) → (s.part p).job = some j → badJob s ring r = false → icReserved r = false →
    let w := icWheel r
    let n := icCount r
    let clips := (List.range n).map fun i => icAddrA r + 32 * i
    s.usableWheel p w = some v → 1 ≤ n → n ≤ 4096 → s.sourceRange p (icAddrA r) (32 * n) = true →
    (∀ a ∈ clips, (if v.codec.toNat < 4 then decodeEntry v j (s.clipEntry p a) else encodeEntry s v j (s.clipEntry p a)) = none) → v.pendingCount.toNat + n ≤ 65535 →
    (v.state ≠ 4 ∨ resume = true) →
    Completes (if resume then .feedResume ring else .feed ring) s fun t => ∃ u, Answers ring cplOk u t
      ∧ (u.wheel w).clips = v.clips ++ clips ∧ (u.wheel w).pendingCount = v.pendingCount + BitVec.ofNat 32 n
      ∧ (u.wheel w).state = (if v.state = 4 then 1 else v.state) ∧ (u.wheel w).run = v.run
      ∧ (∀ o, o ≠ w → u.wheel o = s.wheel o) ∧ u.mem = s.mem ∧ u.cores = s.cores

/-- CLOSE answers at once: an idle wheel is free and its entry zero; one with a group on an engine is closing, and ends when its clips have. -/
def Claim.Closes : Prop :=
  ∀ (ring : Nat) (abort : Bool) (s : State) (p : Nat) (r : BitVec 2048) (j : Job) (v : Wheel),
    intakeRecord s ring 3 (some abort) = some (p, r) → (s.part p).job = some j → badJob s ring r = false → icReserved r = false →
    let w := icWheel r
    s.usableWheel p w = some v →
    Completes (if abort then .closeAbort ring else .close ring) s fun t => ∃ u, Answers ring cplOk u t
      ∧ (v.run = none → v.clips = [] → v.running = [] → u.wheel w = .reset ∧ (∃ z : State, u = z.freeWheelEntry w ∧ z.mem = s.mem) ∧ u.cores = s.cores ∧ ∀ o, o ≠ w → u.wheel o = s.wheel o)
      ∧ (v.running ≠ [] → (u.wheel w).state = 3 ∧ (u.wheel w).closing = some abort)

/-- QUERY writes the 256 bytes of the wheel as at its last group boundary to the address given: its context and engine state as they
stand between groups, its entry while a group runs. With CLEAR its event counters are zero afterwards. -/
def Claim.Queries : Prop :=
  ∀ (ring : Nat) (clear : Bool) (s : State) (p : Nat) (r : BitVec 2048) (j : Job) (v : Wheel),
    intakeRecord s ring 4 (some clear) = some (p, r) → (s.part p).job = some j → badJob s ring r = false → icReserved r = false →
    let w := icWheel r
    let a := icAddrA r
    s.usableWheel p w = some v → (inJobHbm j a 256 = true ∨ (spanRegion a 256 = .host ∧ s.inPart (some p) a 256 = true)) →
    Completes (if clear then .queryClear ring else .query ring) s fun t => ∃ u, Answers ring cplOk u t
      ∧ (v.running = [] → s.boundaryContext w = leBytes 128 v.context.toNat ++ leBytes 128 (Config.engineState v.stateNo).toNat)
      ∧ (v.running ≠ [] → s.boundaryContext w = s.peek (wheelAddr w) 256)
      ∧ u.mem = (if clear then ((s.put a (s.boundaryContext w) false).modWheel w fun v => { v with counters := Vector.replicate 10 0 }).put (wheelAddr w + 84) (List.replicate 20 0) false
          else s.put a (s.boundaryContext w) false).mem
      ∧ u.wheel w = (if clear then { v with counters := Vector.replicate 10 0 } else v)
      ∧ (∀ o, o ≠ w → u.wheel o = s.wheel o) ∧ u.cores = s.cores

/-- A group starts on a free engine of the partition when its wheel may run it and no cave page is needed: it is the newest of the
wheel's groups, and the next starts after its bytes. -/
def Claim.GroupStarts : Prop :=
  ∀ (w e : Nat) (s : State) (x : ClipRun),
    let v := s.wheel w
    let v' := s.beginClip v
    s.wheelRuns v = true → v.codec.toNat < 4 → s.engineFree v e = true → v.ringFull = false → v.atWork < v.groupLimit →
    v.srcRes = false → v.cave.waits = [] → v'.run = some x → x.status = none → x.started < x.clip.groups.toNat →
    (x.started = 0 ∨ x.nextAt < (s.clipSource v' x.clip.start.toNat).stream.length) →
    Completes (.groupStart w e) s fun t =>
      (∃ g, (t.wheel w).running = v.running ++ [g] ∧ g.engine = e ∧ g.seq = x.seq ∧ g.start = x.clip.start.toNat ∧ g.pos = x.nextAt ∧ 1 ≤ g.size ∧ g.finished = false
          ∧ (t.wheel w).run = some { x with started := x.started + 1, nextAt := x.nextAt + g.size })
        ∧ (∀ o, o ≠ w → t.wheel o = s.wheel o) ∧ t.mem = s.mem ∧ t.cores = s.cores

/-- A group that an engine finishes behind one that is not finished waits; the first of its wheel is delivered, its cycles
counted and its wheel's entry written; a watchdog expiry ends the next picture that the counts have it end. -/
def Claim.GroupProgress : Prop :=
  ∀ (w e : Nat) (fails : Bool) (s : State) (g : GroupRun) (rest : List GroupRun), (s.wheel w).state ≠ 0 → (s.wheel w).running = g :: rest →
    g.finished = false →
    (g.engine = e → (∀ k ∈ rest, k.engine = e → k.finished = true) → Completes (.watchdogExpiry w e) s fun t =>
      (t.wheel w).running = { g with expiries := g.expiries ++ (s.expiryDue (s.wheel w) g).toList } :: rest ∧ (∀ o, o ≠ w → t.wheel o = s.wheel o) ∧ t.mem = s.mem ∧ t.cores = s.cores)
    ∧ (g.engine ≠ e → (∃ k ∈ rest, k.engine = e ∧ k.finished = false) → (s.wheel w).closing = none →
      (∀ x, (s.wheel w).run = some x → x.status = none) →
      Completes (.groupComplete w e fails) s fun t =>
        (t.wheel w).running = g :: rest.map (fun k => if k.engine = e ∧ k.finished = false then { k with finished := true, fails := fails } else k)
          ∧ (t.wheel w).run = (s.wheel w).run ∧ (∀ o, o ≠ w → t.wheel o = s.wheel o) ∧ t.mem = s.mem ∧ t.cores = s.cores)
    ∧ (g.engine = e → rest = [] → ∀ x, (s.wheel w).run = some x → x.seq = g.seq → x.status = none → (s.part (s.wheel w).part).held = false →
      Completes (.groupComplete w e fails) s fun t =>
        let g' : GroupRun := { g with finished := true, fails := fails }
        let z := countBusy e (groupCycles (s.wheel w).codec.toNat (s.groupPictures (s.wheel w) g)) s
        let d := (z.modWheel w fun v => { v with running := [g'] }).modWheel w fun v => { v with running := [] }
        let u := settleWheel w (if fails then failClip w x d else deliverDecoded w x g' d)
        t = if (u.wheel w).state = 0 then u else settleWheel w (u.saveWheel w))

/-- Damage under POLICY: concealed pictures are output as a copy of the last one and mark the clip; a skipping wheel
drops the rest of the group; a stopping one ends the clip STOPPED. -/
def Claim.DamagePolicy : Prop :=
  ∀ (v : Wheel) (g : GroupWork) (o : OutPicture), g.stopped = false → g.skipping = false → o.damaged = true →
    let t := takePicture v g o
    t.run.events = g.run.events + (o.causes.filter (· != 0)).length ∧ t.run.pictures = g.run.pictures + o.causes.length ∧ t.run.degraded = true
      ∧ (v.policy = 0 → t.bumps = g.bumps ++ (o.causes.filter (· != 0)).filterMap causeCounter ++ [6] ∧ t.run.outputs = g.run.outputs + 1 ∧ t.skipping = false ∧ t.stopped = false ∧ t.run.status = g.run.status)
      ∧ (v.policy = 1 → t.bumps = g.bumps ++ (o.causes.filter (· != 0)).filterMap causeCounter ++ [7] ∧ t.skipping = true ∧ t.stopped = false ∧ t.run.outputs = g.run.outputs)
      ∧ (v.policy = 2 → t.bumps = g.bumps ++ (o.causes.filter (· != 0)).filterMap causeCounter ++ [8] ∧ t.stopped = true ∧ t.run.status = some 0x02 ∧ t.run.outputs = g.run.outputs)

/-- A slot of a ring takes up to ROWS tubelets: their bytes, then the header with TAG, the clip's number, the first index and the
count, then PRODUCED, then the core's semaphore. -/
def Claim.SlotWrites : Prop :=
  ∀ (w : Nat) (s : State) (x : ClipRun),
    let v := s.wheel w
    let r := v.recipe
    v.state ≠ 0 → v.run = some x → rcRing r = true → v.ringFull = false → x.ready ≠ [] → (s.part v.part).held = false →
    (x.status.isSome = true ∨ rcRows r < x.ready.length) →
    let l := x.ready.take (rcRows r)
    let a := ringAddr r + 0x40 + v.produced.toNat % rcSlots r * rcSlotBytes r
    Completes (.slotWrite w) s fun t => ∃ u header, t = settleWheel w u
      ∧ u.mem = (((s.put (a + 64) (layoutGroup r (l.map (·.bytes))) false).put a header false).put (ringAddr r + 4) (leBytes 4 (v.produced + 1).toNat) false).mem
      ∧ header.length = 64 ∧ (leNat header) % 2 ^ 32 = x.clip.tag.toNat ∧ (leNat header) / 2 ^ 32 % 2 ^ 32 = x.seq.toNat
      ∧ (leNat header) / 2 ^ 96 % 2 ^ 16 = l.length % 2 ^ 16 ∧ (∀ y ∈ l.head?, (leNat header) / 2 ^ 64 % 2 ^ 32 = y.index % 2 ^ 32)
      ∧ (u.wheel w).produced = v.produced + 1
      ∧ ((s.core (rcCore r)).flight.resetting = false →
          ((u.core (rcCore r)).regs.readS (rcSem r)).toNat = min 65535 (((s.core (rcCore r)).regs.readS (rcSem r)).toNat + 1))

/-- The intake reads CONSUMED of a wheel's ring again; nothing else changes. -/
def Claim.ConsumedReread : Prop :=
  ∀ (w : Nat) (s : State),
    let v := s.wheel w
    v.state ≠ 0 → v.codec.toNat < 4 → rcRing v.recipe = true →
    Completes (.consumedReread w) s fun t =>
      t.wheel w = { v with consumed := BitVec.ofNat 32 (s.peekNat (ringAddr v.recipe) 4) } ∧ (∀ o, o ≠ w → t.wheel o = s.wheel o)
        ∧ t.mem = s.mem ∧ t.cores = s.cores

/-- A clip with its status and nothing that waits completes: its 32-byte record stands in the next completion slot, the next clip may
begin, and no memory else changes. -/
def Claim.ClipCompletion : Prop :=
  ∀ (w : Nat) (s : State) (x : ClipRun) (st : Nat),
    let v := s.wheel w
    v.state ≠ 0 → v.run = some x → x.status = some st → st ≠ 0x08 → x.ready = [] → v.closing = none → v.codec.toNat < 4 →
    let t := settleWheel w s
    let a := v.cplBase.toNat + 32 * (v.cplIndex.toNat % v.cplCount.toNat)
    let c : ClipReport := { status := st, grain := x.grain, events := x.events, decoded := x.pictures, kept := x.kept, tubelets := x.written, sat := x.sat, unf := x.unf, groups := x.groupsDone }
    t.mem = (s.put a (clipRecord x.clip.tag c) false).mem
      ∧ (t.wheel w).run = none ∧ (t.wheel w).cplIndex = v.cplIndex + 1 ∧ (t.wheel w).pendingCount = v.pendingCount - 1
      ∧ (t.wheel w).clips = v.clips ∧ (∀ o, o ≠ w → t.wheel o = s.wheel o)
      ∧ ((rcRing v.recipe = true ∨ rcSig v.recipe = false) → t.cores = s.cores)

/-- An encode wheel's next GOP on a free engine: its bytes go behind those written, unless they would pass the end of the buffer, which
ends the clip with NO_SPACE; a poisoned input picture counts as an event, and a failing destination ends the clip FAILED. -/
def Claim.EncodesGop : Prop :=
  ∀ (w e : Nat) (fails : Bool) (s : State) (x : ClipRun),
    let v := s.wheel w
    s.wheelRuns v = true → ¬ v.codec.toNat < 4 → s.engineFree v e = true → (s.beginClip v).run = some x → x.status = none →
    let params : BitVec 512 := v.recipe.setWidth 512
    let n := min (field params 80 16) (x.clip.groups.toNat - x.pictures)
    let z := s.setWheel w (s.beginClip v)
    let input := (List.range n).map fun i => (z.seenBy (some v.part)).fetch (x.clip.start.toNat + (x.pictures + i) * x.clip.frames.toNat) (inputBytes params)
    let bad := (input.filter (·.2)).length
    let pics := Config.encodeGop v.codec.toNat params (input.map fun i => inputPicture params i.1)
    let out := pics.flatten
    let cycles := (pics.map fun b => max (2 * (field params 0 16 * field params 16 16)) (4 * b.length)).foldl (· + ·) 0
    let counted := countWheel w 4 bad (countBusy e cycles z)
    Completes (.encodeGop w e fails) s fun t => ∃ u y,
      t = (let q := settleWheel w u; if (q.wheel w).state = 0 then q else q.saveWheel w) ∧ (u.wheel w).run = some y ∧ u.cores = s.cores
      ∧ if fails = true then y.status = some 0x08 ∧ u.mem = s.mem ∧ y.written = x.written
        else y.events = x.events + bad
          ∧ if x.clip.skip.toNat < x.written + out.length then y.status = some 0x06 ∧ u.mem = s.mem ∧ y.written = x.written
            else u.mem = (counted.put (x.clip.dest.toNat + x.written) out false).mem ∧ y.written = x.written + out.length ∧ y.pictures = x.pictures + n
              ∧ y.groupsDone = x.groupsDone + 1

/-! ## The root of trust (12) -/

/-- The mailbox: while a background operation runs every command is answered Busy and does nothing else; in the RTP's error state
only GET_STATUS answers, with SELFTEST. -/
def Claim.Mailbox : Prop :=
  ∀ (s : State), s.rtpUp = true →
    (∀ auth image data off v part index sub rsv len f h, s.rtp.background ≠ .none →
      ∀ i ∈ [Instr.getStatus, .getNonce f, .takeOwnership h auth, .selfTest f, .advanceSvn auth, .loadBundle off data v, .setLayout image auth,
          .partitionReset part auth, .zeroize auth, .getScrub, .dictAccessRead index sub rsv len, .dictAccessWrite index sub rsv len data auth],
        Completes i s fun t => t = { s with rtp := { s.rtp with lastCode := 1 } })
    ∧ (s.rtp.background = .none → Completes .getStatus s fun t =>
        t.rtp.output.take 2 = (if s.rtp.error then [0x09, 0] else [0, 0]) ∧ t.rtp.lastCode = 0 ∧ t.mem = s.mem ∧ t.cores = s.cores)
    ∧ (s.rtp.background = .none → s.rtp.error = true → ∀ auth image data off v part index sub rsv len f h,
      ∀ i ∈ [Instr.getNonce f, .takeOwnership h auth, .selfTest f, .advanceSvn auth, .loadBundle off data v, .setLayout image auth, .partitionReset part auth,
          .zeroize auth, .getScrub, .dictAccessRead index sub rsv len, .dictAccessWrite index sub rsv len data auth],
        exec i s = .next s)

/-- GET_NONCE gives a nonce that replaces the one before, or meets a test that fails, which is the error state; a command of the owner
consumes it, and is AUTH without it or its signature; SELF_TEST that passes changes nothing, one that fails is the error state. -/
def Claim.OwnerAuthentication : Prop :=
  ∀ (s : State), s.rtpUp = true → s.rtp.background = .none → s.rtp.error = false →
    (∀ k, Completes (.getNonce (some k)) s fun t => t.rtp.error = true ∧ t.rtp.selfTestFailed = BitVec.ofNat 16 k ∧ t.rtp.nonce = s.rtp.nonce
      ∧ t.rtp.output = s.rtp.output ∧ t.mem = s.mem ∧ t.cores = s.cores)
    ∧ (Completes (.getNonce none) s fun t => ∃ n, t.rtp.nonce = some n ∧ t.rtp.output = leBytes 2 0 ++ leBytes 48 n.toNat
      ∧ t.rtp.drbgCount = s.rtp.drbgCount + 1 ∧ t.mem = s.mem ∧ t.cores = s.cores)
    ∧ (∀ (auth : OwnerAuth), (s.rtp.ownerSlots = [] ∨ s.rtp.nonce ≠ some auth.nonce ∨ auth.signatureOk = false) →
      ∀ image part index sub rsv len data, ∀ i ∈ [Instr.advanceSvn auth, .setLayout image auth, .partitionReset part auth, .zeroize auth,
          .dictAccessWrite index sub rsv len data auth],
        Completes i s fun t => t.rtp.output = [0x02, 0] ∧ t.rtp.nonce = none ∧ t.mem = s.mem ∧ t.cores = s.cores ∧ t.parts = s.parts ∧ t.dict = s.dict)
    ∧ (Completes (.selfTest none) s fun t => t.rtp.output = [0, 0] ∧ t.mem = s.mem ∧ t.cores = s.cores ∧ t.parts = s.parts)
    ∧ ∀ n, Completes (.selfTest (some n)) s fun t => t.rtp.output = [0x09, 0] ∧ t.rtp.error = true ∧ t.rtp.selfTestFailed = BitVec.ofNat 16 n
        ∧ t.start.warmPending = true ∧ t.errors.counts[3] = s.errors.counts[3] + 1

/-- What makes an owner's command authentic, and TAKE_OWNERSHIP: anyone's while no slot is used, then the owner's; a fifth key
finds no slot, an active guard refuses the fuse. ADVANCE_SVN raises the minimum to the running bundle's SVN. -/
def Claim.Fuses : Prop :=
  ∀ (auth : OwnerAuth) (h : BitVec 384) (s : State), s.rtpUp = true → s.rtp.background = .none → s.rtp.error = false →
    let owner := s.rtp.ownerSlots ≠ [] ∧ s.rtp.nonce = some auth.nonce ∧ auth.signatureOk = true
    (s.rtp.ownerSlots = [] ∨ owner → s.rtp.ownerSlots.length < 4 → s.guardActive = false → Completes (.takeOwnership h auth) s fun t =>
      t.rtp.ownerSlots = s.rtp.ownerSlots ++ [h] ∧ t.rtp.output = [0, 0] ∧ t.mem = s.mem ∧ t.cores = s.cores)
    ∧ (owner → 4 ≤ s.rtp.ownerSlots.length → Completes (.takeOwnership h auth) s fun t =>
      t.rtp.ownerSlots = s.rtp.ownerSlots ∧ t.rtp.output = [0x06, 0])
    ∧ (owner → s.rtp.ownerSlots.length < 4 → s.guardActive = true → Completes (.takeOwnership h auth) s fun t =>
      t.rtp.ownerSlots = s.rtp.ownerSlots ∧ t.rtp.output = [0x07, 0])
    ∧ (owner → s.rtp.bundleLoaded = true → s.guardActive = false → s.rtp.svn.toNat < 64 → Completes (.advanceSvn auth) s fun t =>
      t.rtp.minSvn.toNat = max s.rtp.minSvn.toNat s.rtp.svn.toNat ∧ t.rtp.output = [0, 0] ∧ t.mem = s.mem ∧ t.cores = s.cores)

/-- LOAD_BUNDLE while the device waits for one: a chunk that leaves a gap is stored; the checks of a whole bundle come in the
order of R362, the first that fails is the detail, which is recorded, and the bundle is discarded; one that passes starts step 5. -/
def Claim.BundleLoad : Prop :=
  (∀ (off : Nat) (data : List Byte) (v : BundleVerdict) (s : State), s.rtpUp = true → s.rtp.background = .none → s.rtp.error = false →
    s.deviceState = some 6 → s.rtp.owner ≠ some .oap → data.length ≤ 4088 →
    let chunks := (off, data) :: s.rtp.chunks
    chunkReach chunks chunks.length 0 < 0x18 → Completes (.loadBundle off data v) s fun t =>
      t.rtp.chunks = chunks ∧ t.rtp.owner = some .mailbox ∧ t.rtp.output = [0, 0] ∧ t.start.step = s.start.step ∧ t.mem = s.mem ∧ t.cores = s.cores)
  ∧ (∀ (off : Nat) (data : List Byte) (v : BundleVerdict) (s : State), s.rtpUp = true → s.rtp.background = .none → s.rtp.error = false →
    s.deviceState ≠ some 6 → Completes (.loadBundle off data v) s fun t => t.rtp.output = [0x03, 0] ∧ t.rtp.chunks = s.rtp.chunks ∧ t.start = s.start)
  ∧ (∀ (h : List Byte) (v : BundleVerdict) (s : State),
    (∀ d, bundleRefusal s h v = some d → (checkBundle h v s).1 = (0x0005, d) ∧ (checkBundle h v s).2.rtp.chunks = [] ∧ (checkBundle h v s).2.rtp.owner = none
      ∧ (checkBundle h v s).2.start.step = s.start.step ∧ (checkBundle h v s).2.start.refusal = BitVec.ofNat 16 d
      ∧ (checkBundle h v s).2.start.refusals = if s.guardActive = false ∧ s.dict.flashAbsent = false then BitVec.ofNat 16 d :: s.start.refusals else s.start.refusals)
    ∧ (bundleRefusal s h v = none → v.testFailed = none → (checkBundle h v s).1 = (0, 0) ∧ (checkBundle h v s).2.start.step = 5
      ∧ (s.guardActive = false → s.start.entered = false → (checkBundle h v s).2.start.number = s.start.number + 1)
      ∧ (checkBundle h v s).2.rtp.svn = BitVec.ofNat 8 (bytesNat h 8 4) ∧ (checkBundle h v s).2.rtp.bundleLoaded = true)
    ∧ (∀ n, bundleRefusal s h v = none → v.testFailed = some n → (checkBundle h v s).2.rtp.error = true ∧ (checkBundle h v s).2.start.step = s.start.step))
  ∧ ∀ (h : List Byte) (v : BundleVerdict) (s : State),
      (bundleFormat h = false → bundleRefusal s h v = some 1)
        ∧ (bundleFormat h = true → bytesNat h 6 2 ≠ 0x00B0 → bundleRefusal s h v = some 2)
        ∧ (bundleRefusal s h v = some 5 → bytesNat h 8 4 < s.rtp.minSvn.toNat)
        ∧ (bundleRefusal s h v = none → s.rtp.minSvn.toNat ≤ bytesNat h 8 4 ∧ bytesNat h 8 4 ≤ 63 ∧ v.signatureOk = true ∧ v.badDigest = none
            ∧ v.keyHash = (s.rtp.signingHash[bytesNat h 0x0E 1]?).getD 0 ∧ bundleComplete h = true)

/-- SET_LAYOUT of the owner while On: an image that breaks a condition of R367 is LAYOUT with the lowest code; one that breaks
none disables the changed partitions' rings, and with the last of them disabled scrubs the units that leave, in the background. -/
def Claim.LayoutBegins : Prop :=
  ∀ (image : List Byte) (auth : OwnerAuth) (s : State), s.rtpUp = true → s.rtp.background = .none → s.rtp.error = false →
    s.rtp.ownerSlots ≠ [] → s.rtp.nonce = some auth.nonce → auth.signatureOk = true → s.start.isOn = true → image.length = 2112 →
    let s' := { s with rtp := { s.rtp with nonce := none } }
    (∀ c k, layoutRefusal s' image = some (c, k) → Completes (.setLayout image auth) s fun t =>
      t.rtp.output = leBytes 2 0x0008 ++ leBytes 2 (c + 256 * k) ∧ t.rtp.background = .none ∧ t.parts = s.parts ∧ t.rtp.puMap = s.rtp.puMap ∧ t.mem = s.mem)
    ∧ (layoutRefusal s' image = none → Completes (.setLayout image auth) s fun t =>
      t.rtp.puMap = s.rtp.puMap
        ∧ (∀ k, k < 16 → s.changes image k = true → ∀ r ∈ s.ringsOf k, (t.ring r).enable = false ∨ (t.ring r).disabling = true)
        ∧ ∃ begun, t.rtp.background = .layout image begun
          ∧ (begun = true ↔ ∀ k, k < 16 → s.changes image k = true → ∀ r ∈ s.ringsOf k, (t.ring r).enable = false)
          ∧ (begun = false → t.rtp.unitScrub = s.rtp.unitScrub ∧ t.mem = s.mem ∧ t.cores = s.cores)
          ∧ (begun = true → ∀ k, k < 16 → s.changes image k = true → ∀ u ∈ s.leaving image k,
              (Tbl.get? t.rtp.unitScrub u = some .pending ∨ (Tbl.get? t.rtp.unitScrub u = some .running ∧ (t.part k).xtsKey = none))
                ∧ ∀ c ∈ unitCores u, (t.core c).flight.resetting = true))

/-- The conditions of R367 by their codes, each with what it asks of the image. -/
def Claim.LayoutConditions : Prop :=
  ∀ (s : State) (image : List Byte), layoutRefusal s image = none →
    (∀ u, u < 16 → imageUnit image u ≠ 0xFF → imageUnit image u < 16 ∧ (imageRec image (imageUnit image u)).valid = true ∧ s.unitPresent u = true)
      ∧ (∀ k, k < 16 → (imageRec image k).valid = true → imageUnits image k ≠ [])
      ∧ (∀ k j, k < 16 → j < k → (imageRec image k).valid = true → (imageRec image j).valid = true →
          (imageRec image j).engines &&& (imageRec image k).engines = 0 ∧ (imageRec image j).rings &&& (imageRec image k).rings = 0)
      ∧ (∀ k, k < 16 → (imageRec image k).valid = true → (imageRec image k).conf = true → (imageRec image k).tenant ≠ 0)
      ∧ (∀ k, k < 16 → s.changes image k = true → (s.part k).job = none ∧ (s.part k).resetting = false ∧ (s.part k).scrubbing = false)
      ∧ (∀ k, k < 16 → (imageRec image k).port = 1 → s.start.bifurcated = true)
      ∧ ∀ k, k < 16 → (imageRec image k).valid = true → (imageRec image k).rings &&& ~~~(s.portRings (imageRec image k).port) = 0

/-- The layout takes effect once the changed partitions' rings are disabled and the units that leave scrubbed, unless a failed one is
assigned: every changed partition has its record and a new key, units belong to the partitions PU_MAP gives them, and the cores of a
confidential one have no run-to-count limit. -/
def Claim.LayoutEnds : Prop :=
  ∀ (image : List Byte) (s : State), s.rtp.background = .layout image true → s.rtp.error = false →
    let units := (s.changed image).flatMap (s.leaving image)
    (∀ u ∈ units, Tbl.get? s.rtp.unitScrub u ≠ some .running ∧ Tbl.get? s.rtp.unitScrub u ≠ some .pending
      ∧ (Tbl.get? s.rtp.unitScrub u = some .failed → imageUnit image u = 0xFF)) →
    Completes (.layoutApplyComplete none) s fun t =>
      t.rtp.background = .none ∧ t.rtp.output = [0, 0] ∧ t.rtp.layoutImage = image ∧ t.mem = s.mem
        ∧ (∀ c, t.core c = s.core c ∨ (t.core c = (s.core c).noLimit
            ∧ ∃ k, k < 16 ∧ s.changes image k = true ∧ (imageRec image k).conf = true ∧ c ∈ s.coresOf k))
        ∧ (∀ k, k < 16 → s.changes image k = true → (imageRec image k).conf = true → ∀ c ∈ s.coresOf k, (t.core c).ctl.rtcEnable = false)
        ∧ (∀ u, u < 16 → 16 ≤ image.length → t.unitPart u = if imageUnit image u < 16 then some (imageUnit image u) else none)
        ∧ (∀ k, k < 16 → s.changes image k = true → (imageRec image k).valid = true →
            (t.part k).layout = imageRec image k ∧ ∃ n, (t.part k).xtsKey = some n ∧ s.rtp.drbgCount ≤ n ∧ n < t.rtp.drbgCount)
        ∧ (∀ k, k < 16 → s.changes image k = true → (imageRec image k).valid = false → (t.part k).layout.valid = false ∧ (t.part k).job = none)
        ∧ (∀ k, k < 16 → s.changes image k = false → t.part k = s.part k)

/-- PARTITION_RESET of a valid partition stops its cores and ends its records ABORTED; when its traffic has drained the job is
released, its segments are clear, its local stores and cores zero. -/
def Claim.PartitionResets : Prop :=
  (∀ (p : Nat) (auth : OwnerAuth) (s : State), s.rtpUp = true → s.rtp.background = .none → s.rtp.error = false →
    s.rtp.ownerSlots ≠ [] → s.rtp.nonce = some auth.nonce → auth.signatureOk = true → s.start.isOn = true →
    (s.part p).layout.valid = true → (s.part p).scrubbing = false →
    Completes (.partitionReset p auth) s fun t =>
      t.rtp.background = .reset p ∧ (t.part p).resetting = true ∧ t.wheelsOf p = []
        ∧ (∀ r ∈ s.ringsOf p, (t.ring r).current = none)
        ∧ (∀ c ∈ s.coresOf p, (t.core c).flight.resetting = true ∧ (t.core c).ctl.state ≠ .running ∧ (t.core c).ctl.state ≠ .waiting)
        ∧ (∀ c, c ∉ s.coresOf p → t.core c = s.core c))
  ∧ ∀ (p : Nat) (s : State), s.rtp.background = .reset p → (s.part p).resetting = true →
    (∀ c ∈ s.coresOf p, (s.core c).flight.fabric.current = none) →
    ((s.part p).layout.conf = false ∨ ((s.part p).scrub = .complete ∧ s.rtp.error = false)) →
    Completes (.partitionResetComplete p) s fun t =>
      t.rtp.background = .none ∧ (t.part p).resetting = false ∧ (t.part p).fatal = false ∧ (t.part p).job = none ∧ (t.part p).segs = []
        ∧ (t.part p).layout = (s.part p).layout ∧ (∀ c ∈ s.coresOf p, t.core c = Core.reset) ∧ (∀ c, c ∉ s.coresOf p → t.core c = s.core c)

/-- ZEROIZE of the owner while On stops every partition and scrubs the present units; with the last of them done no partition, no key
and no bundle is left, and the device waits for a bundle. A unit's scrub zeroes its cores and local stores. -/
def Claim.ZeroizeAndScrubs : Prop :=
  (∀ (auth : OwnerAuth) (s : State), s.rtpUp = true → s.rtp.background = .none → s.rtp.error = false →
    s.rtp.ownerSlots ≠ [] → s.rtp.nonce = some auth.nonce → auth.signatureOk = true → s.start.isOn = true → s.start.present ≠ 0 →
    (∀ u k, s.unitPart u = some k → (s.part k).layout.valid = true) →
    Completes (.zeroize auth) s fun t =>
      t.rtp.background = .zeroize ∧ t.start.isOn = false ∧ (∀ u, u < 16 → s.unitPresent u = true →
        Tbl.get? t.rtp.unitScrub u = some .pending ∨ Tbl.get? t.rtp.unitScrub u = some .running))
  ∧ (∀ s : State, let t := finishZeroize s
      t.parts = [] ∧ t.cores = [] ∧ t.fabric.sessions = [] ∧ t.rtp.attestKey = none ∧ t.rtp.bundleLoaded = false ∧ t.start.step = 4 ∧ t.rtp.ownerSlots = s.rtp.ownerSlots
        ∧ t.rtp.minSvn = s.rtp.minSvn ∧ (∀ u, t.unitPart u = none) ∧ t.rtp.output = [0, 0])
  ∧ (∀ (u : Nat) (s : State), Tbl.get? s.rtp.unitScrub u = some .running → s.rtp.background ≠ .zeroize →
    (Completes (.scrubComplete u true) s fun t => Tbl.get? t.rtp.unitScrub u = some .complete ∧ (s.guardActive = false → u ∉ t.rtp.scrubRecords)
      ∧ (∀ c ∈ allCores, unitOf c = u → t.core c = Core.reset ∧ (s.MemInv → ∀ i, i < 0x800000 → Memory.read t.mem (lsBase c + i) = 0))
      ∧ ∀ c ∈ allCores, unitOf c ≠ u → t.core c = s.core c)
    ∧ (Completes (.scrubComplete u false) s fun t => Tbl.get? t.rtp.unitScrub u = some .failed ∧ t.rtp.scrubRecords = s.rtp.scrubRecords
      ∧ t.errors.counts[1] = s.errors.counts[1] + 1 ∧ t.cores = s.cores ∧ t.mem = s.mem))
  ∧ ∀ s : State, s.rtpUp = true → s.rtp.background = .none → s.rtp.error = false →
    Completes .getScrub s fun t => t.rtp.output.take 2 = [0, 0] ∧ t.parts = s.parts ∧ t.mem = s.mem ∧ t.cores = s.cores

/-- SPDM: version 1.2 and the device's algorithms only; a session with a fresh key for anyone, or for a requester whose key is a
partition's TENANT; one measurement block with the attestation key's signature over the nonce and it, where a confidential
partition's record shows all its fields to its own tenant alone; a session ends. -/
def Claim.SpdmSessions : Prop :=
  (∀ (n : Nat) (o : SpdmOffer) (s : State), s.rtpUp = true → s.rtp.error = false →
    Completes (.getVersion n o) s fun t =>
      (t.rtp.spdmVersion = true ↔ n = 0x12 ∧ o.ecdsaP384 = true ∧ o.sha384 = true ∧ o.secp384r1 = true ∧ o.aes256Gcm = true) ∧ t.mem = s.mem ∧ t.cores = s.cores)
  ∧ (∀ (s : State), s.spdmUp = true → s.rtp.spdmVersion = true →
    let session (h : Option (BitVec 384)) : SpdmSession := { id := s.rtp.spdmNext, tenant := h, key := s.rtp.drbgCount }
    (Completes (.keyExchange none true none) s fun t => t.rtp.spdm = s.rtp.spdm ++ [session none]
      ∧ t.rtp.spdmNext = s.rtp.spdmNext + 1 ∧ t.rtp.drbgCount = s.rtp.drbgCount + 1 ∧ t.mem = s.mem ∧ t.cores = s.cores)
    ∧ (∀ h k, k < 16 → s.isTenant h k = true → Completes (.keyExchange (some h) true none) s fun t => t.rtp.spdm = s.rtp.spdm ++ [session (some h)])
    ∧ (∀ h f, (∀ k, k < 16 → s.isTenant h k = false) → Completes (.keyExchange (some h) true f) s fun t => t.rtp.spdm = s.rtp.spdm ∧ t.rtp.error = s.rtp.error)
    ∧ (∀ n, Completes (.keyExchange none true (some n)) s fun t => t.rtp.error = true ∧ t.rtp.selfTestFailed = BitVec.ofNat 16 n ∧ t.rtp.spdm = s.rtp.spdm)
    ∧ (∀ block nonce session tenant b, s.spdmTenant session = some tenant → s.measurement tenant block = some b →
        Completes (.getMeasurements block nonce session) s fun t =>
          t.rtp.spdmOutput = measurementBlock block b
              ++ leBytes 96 (Config.ecdsaSign (s.rtp.attestKey.getD 0) (leBytes 32 nonce.toNat ++ measurementBlock block b)).toNat
            ∧ t.mem = s.mem ∧ t.cores = s.cores))
  ∧ (∀ (id : Nat) (s : State), Completes (.endSession id) s fun t => (∀ x ∈ t.rtp.spdm, x.id ≠ id) ∧ (∀ x ∈ s.rtp.spdm, x.id ≠ id → x ∈ t.rtp.spdm)
      ∧ t.mem = s.mem ∧ t.cores = s.cores)
  ∧ ∀ (s : State) (k : Nat), k < 16 → s.rtp.layoutImage ≠ [] →
    let r (own : Bool) := leNat (s.partitionRecord k own)
    bits (r true) 0 4 = k ∧ bits (r false) 5 1 = (if (s.part k).layout.conf then 1 else 0)
      ∧ ((s.part k).layout.conf = true → bits (r false) 0 4 = 0 ∧ bits (r false) 24 8 = 0 ∧ bits (r false) 32 64 = 0
          ∧ bits (r false) 128 384 = (s.part k).layout.tenant.toNat)

/-! ## The dictionary and its transports (13) -/

/-- What a read of an entry answers: NO_ENTRY for an index that does not exist, NO_SUB past its highest sub, ACCESS for a write-only
entry, else OK with its bytes; sub 0 holds the highest sub; a stored entry reads as stored, or as its default; one of an absent or unpowered unit its reset value. -/
def Claim.DictionaryReads : Prop :=
  ∀ (index sub : Nat) (s : State),
    let r := (dictRead index sub s).1
    (highestSub index = none → r.status = 0x01)
      ∧ (∀ n, highestSub index = some n →
          (n < sub → r.status = 0x02)
          ∧ (sub = 0 → r.status = 0 ∧ r.data = [BitVec.ofNat 8 n])
          ∧ (sub ≤ n → (∃ role, (entryOf index sub).access = .wo role) → r.status = 0x03)
          ∧ (0 < sub → sub ≤ n → (∀ role, (entryOf index sub).access ≠ .wo role) → s.unitGone index sub = true →
              r.status = 0 ∧ r.data = leBytes (entryOf index sub).len (entryOf index sub).default))
      ∧ (∀ i, i < 24 → (dictRead 0x2502 (i + 1) s).1.data = (Tbl.get? s.dict.entries (entryKey 0x2502 (i + 1))).getD [0])
      ∧ (dictRead 0x2300 7 s).1.data = leBytes 8 s.errors.hostRefused.toNat ∧ (dictRead 0x2402 5 s).1.data = leBytes 4 s.start.number.toNat
      ∧ (dictRead 0x2500 2 s).1.data = leBytes 2 s.fabric.assignedId.toNat ∧ (dictRead 0x1000 2 s).1.data = [0xB0, 0]
      ∧ ((dictRead index sub s).2 = s ∨ (dictRead index sub s).2 = { s with free := s.free + 1 })

/-- Who may write an entry: no one a read-only one or a sub 0; over OAP a session whose role's rank is the entry's at least; the mailbox
none but those of access RTP, and those its owner; nothing over I3C that the provisioning lock covers while it is set. -/
def Claim.DictionaryRights : Prop :=
  ∀ (s : State) (via : Via) (index sub : Nat) (e : Entry),
    (sub = 0 → s.mayWrite via index sub e = some 0x03)
      ∧ (sub ≠ 0 →
        (e.access = .ro → s.mayWrite via index sub e = some 0x03)
        ∧ (∀ role need, via = .oap role → e.access = .rw need ∨ e.access = .wo need →
            s.mayWrite via index sub e = if roleRank role < roleRank need then some 0x04 else none)
        ∧ (∀ owner need, via = .mailbox owner → e.access = .rw need ∨ e.access = .wo need → s.mayWrite via index sub e = some 0x03)
        ∧ (∀ owner, via = .mailbox owner → e.access = .rtp → s.mayWrite via index sub e = if owner then none else some 0x04)
        ∧ (∀ need, via = .i3c → e.access = .rw need → provisioned index sub = true → s.mayWrite via index sub e = if s.provisionLocked then some 0x0A else none)
        ∧ (∀ need, via = .i3c → e.access = .rw need → provisioned index sub = false → index ≠ 0x1102 →
            s.mayWrite via index sub e = if min 2 (s.dictNat 0x1110 4 2) < roleRank need then some 0x04 else none))
      ∧ roleRank .observer = 1 ∧ roleRank .operator = 2 ∧ roleRank .calibrator = 3

/-- A write of one entry: the checks in their order (existence, rights, LENGTH, RANGE or STATE, SUPPLY, BUSY), each with its status and
nothing else changed; a write to the flash waits behind those before it. -/
def Claim.DictionaryWrites : Prop :=
  ∀ (via : Via) (o : Origin) (index sub : Nat) (data : List Byte) (s : State),
    let e := entryOf index sub
    let refused (n : Nat) : Prop := dictWrite via o index sub data s = (some (dictStatus n), s)
    (highestSub index = none → refused 0x01)
    ∧ (∀ n, highestSub index = some n → n < sub → refused 0x02)
    ∧ (∀ n, highestSub index = some n → sub ≤ n →
      (∀ m, s.mayWrite via index sub e = some m → refused m)
      ∧ (s.mayWrite via index sub e = none →
        (data.length ≠ e.len → refused 0x05)
        ∧ (data.length = e.len → ∀ m, s.refusesValue index sub e data = some m → refused m)
        ∧ (data.length = e.len → s.refusesValue index sub e data = none → ∀ r, recordOf index sub e data = some r →
          (s.guardActive = true → dictWrite via o index sub data s = (some (dictSupply 0), s))
          ∧ (s.guardActive = false → 16 ≤ s.dict.queue.length → refused 0x09)
          ∧ (s.guardActive = false → s.dict.queue.length < 16 → dictWrite via o index sub data s =
              (none, { s with dict := { s.dict with queue := s.dict.queue ++ [{ rcd := r, origin := o }], flashUsed := true } })))
        ∧ (data.length = e.len → s.refusesValue index sub e data = none → recordOf index sub e data = none →
            dictWrite via o index sub data s = (some dictOk, liveWrite index sub data s))))

/-- The writes with a row of their own, and DICT_WRITE, are writes of their entries by the transport given, while it answers: one that the
flash must take waits for it. OAP carries them under the management certificate and an opened session of the role, else AUTH. -/
def Claim.JournalledWrites : Prop :=
  ∀ (via : Via) (v : BitVec 8) (index : BitVec 16) (sub : BitVec 8) (data : List Byte) (x : BitVec 32) (s : State),
    ∀ row ∈ ([(Instr.powerMode via v, 0x2000, 1, [v]), (.hbmProtection via v, 0x2000, 2, [v]), (.linkFec via v, 0x2000, 3, [v]), (.waxEnable via v, 0x2000, 4, [v]),
        (.dozeEnable via v, 0x2002, 1, [v]), (.provisionLock via v, 0x1101, 4, [v]), (.overlay via index x, index.toNat, 2, leBytes 4 x.toNat),
        (.wheyExit via v, 0x2402, 4, [v]), (.restoreFactory via data, 0x1210, 1, data), (.dictWrite via index sub data, index.toNat, sub.toNat, data)] :
        List (Instr × Nat × Nat × List Byte)),
      (s.carries via = none → exec row.1 s = .next s)
      ∧ (∀ r, s.carries via = some (some r) → Completes row.1 s fun t => t = { s with dict := { s.dict with last := r } })
      ∧ (s.answers = false → (∀ role, via ≠ .oap role) → (∀ owner, via ≠ .mailbox owner) → s.carries via = none)
      ∧ (∀ role, via = .oap role → (s.oapUp = false → s.carries via = none)
          ∧ (s.oapUp = true → s.carries via = some (if s.dict.cert.isSome = true ∧ (∃ x ∈ s.dict.sessions, x.proven = true ∧ x.role = role) then none else some (dictStatus 0x0A))))
      ∧ (∀ n r, s.carries via = some none → highestSub row.2.1 = some n → row.2.2.1 ≤ n → s.mayWrite via row.2.1 row.2.2.1 (entryOf row.2.1 row.2.2.1) = none →
          row.2.2.2.length = (entryOf row.2.1 row.2.2.1).len → s.refusesValue row.2.1 row.2.2.1 (entryOf row.2.1 row.2.2.1) row.2.2.2 = none →
          recordOf row.2.1 row.2.2.1 (entryOf row.2.1 row.2.2.1) row.2.2.2 = some r → s.guardActive = false → s.dict.queue.length < 16 →
          Completes row.1 s fun t =>
            t = { s with dict := { s.dict with queue := s.dict.queue ++ [{ rcd := r, origin := .command }], flashUsed := true } })

/-- The writes that take effect at once: AUDIT_MODE, ERROR_LOG_CLEAR, PORT_RETRAIN, STATE_REQUEST 1 and 4, and WARM_RESET. -/
def Claim.LiveWrites : Prop :=
  ∀ (via : Via) (s : State), s.carries via = some none →
    let may (index sub : Nat) : Prop := s.mayWrite via index sub (entryOf index sub) = none
    (∀ v : BitVec 8, may 0x2000 5 → v.toNat ≤ 2 → Completes (.auditMode via v) s fun t => t.dictNat 0x2000 5 0 = v.toNat ∧ t.dict.last = dictOk
      ∧ (∀ k, k ≠ entryKey 0x2000 5 → Tbl.get? t.dict.entries k = Tbl.get? s.dict.entries k) ∧ t.mem = s.mem ∧ t.cores = s.cores)
    ∧ (may 0x2303 2 → Completes (.errorLogClear via 1) s fun t => t.errors.log = [] ∧ t.errors.counts = s.errors.counts ∧ t.errors.lastFatal = s.errors.lastFatal
      ∧ t.dict.last = dictOk ∧ t.mem = s.mem ∧ t.cores = s.cores)
    ∧ (∀ p, p < 24 → may 0x2503 (p + 1) → Completes (.portRetrain via p 1) s fun t =>
        ((t.port p).retraining = true ∨ (t.port p).wanted = true) ∧ t.dict.last = dictOk ∧ t.mem = s.mem ∧ t.cores = s.cores)
    ∧ (may 0x2001 2 → Completes (.stateRequestOn via) s fun t => t.power.dozeOffUntilWrite = true ∧ (∀ d ∈ s.power.domains, t.domain d.1 ≠ .doze)
        ∧ t.dict.last = dictOk ∧ t.mem = s.mem ∧ t.cores = s.cores)
    ∧ (may 0x2001 2 → s.restRefused = false → Completes (.stateRequestDeepRest via) s fun t =>
        t.power.deepRest = true ∧ t.power.oscillatorStopped = true ∧ t.start.refclkLocked = false ∧ (∀ q ∈ t.fabric.ports, q.2.width = 0)
          ∧ (∀ d ∈ t.power.domains, d.1 = domAlwaysOn ∨ d.2 = .deepRest ∨ d.2 = .off ∨ d.2 = .inReset) ∧ t.mem = s.mem ∧ t.cores = s.cores)
    ∧ (may 0x2001 2 → s.restRefused = true → Completes (.stateRequestDeepRest via) s fun t => t = { s with dict := { s.dict with last := dictStatus 0x07 } })
    ∧ (may 0x2402 3 → Completes (.warmReset via [0x57, 0x41, 0x52, 0x4D]) s fun t => t.start.warmPending = true ∧ t.dict.last = dictOk ∧ t.mem = s.mem ∧ t.cores = s.cores)

/-- When both copies hold the record at the front, it takes effect, its access completes OK, the next one's turn comes, and I3C accesses
that waited for it go on. -/
def Claim.JournalStored : Prop :=
  ∀ (s : State) (w : JournalWrite) (rest : List JournalWrite), s.dict.queue = w :: rest →
    Completes .journalStored s fun u => ∃ t, u = resumeI3c t ∧ (s.dict.i3cNext = [] → u = t) ∧
      t.dict.queue = rest ∧ t.dict.i3cNext = s.dict.i3cNext ∧ t.mem = s.mem ∧ t.cores = s.cores
        ∧ (s.dict.flashAbsent = false → Tbl.get? t.dict.behind regionJournal = none ∧ regionJournal ∉ t.dict.spoiled)
        ∧ (w.origin = .command → t.dict.last = dictOk) ∧ (w.origin = .i3c → t.dict.i3c = some dictOk) ∧ (w.origin = .mailbox → t.rtp.output = dictPayload dictOk)
        ∧ (∀ h, w.origin = .oap h → t.dict.oap = some { header := { h with opcode := h.opcode ||| 0x80 }, result := dictOk, tagged := true })
        ∧ (∀ i n data, w.rcd = .entry i n data → Tbl.get? t.dict.entries (entryKey i n) = some data
            ∧ ∀ k, k ≠ entryKey i n → Tbl.get? t.dict.entries k = Tbl.get? s.dict.entries k)
        ∧ (w.rcd = .factory → t.dict.restoreCount = s.dict.restoreCount + 1 ∧ (∀ e ∈ t.dict.entries, keyKeep e.1 ≠ .persistent ∧ keyKeep e.1 ≠ .volatile)
            ∧ (∀ e ∈ s.dict.entries, keyKeep e.1 ≠ .persistent → keyKeep e.1 ≠ .volatile → e ∈ t.dict.entries) ∧ t.errors.counts = Vector.replicate 4 0)
        ∧ (w.rcd = .wheyExit → t.start.failedStarts = 0 ∧ t.dict.savedInvalid = true ∧ t.start.warmPending = true)

/-- The supply-sag guard: a supply that its calibrated monitor finds below its limit, or PWR_WARN_N, makes it active and counts once; writes that wait are SUPPLY, the first
with detail 1 and in effect when its copy A is complete; it clears when the supplies are good, and what waited is stored. Training settings and erases wait. -/
def Claim.SupplyGuard : Prop :=
  (∀ (copyA : Bool) (s : State), s.guardActive = false →
    (∀ mv : Nat, (1710000 : Int) ≤ mv * 1000 + s.monitorOffset 0x3021 → exec (.supplyGuardActivate (.io18 mv) copyA) s = .next s)
    ∧ (∀ mv : Nat, (690000 : Int) ≤ mv * 1000 + s.monitorOffset 0x3022 → exec (.supplyGuardActivate (.aon mv) copyA) s = .next s)
    ∧ ∀ cause, s.dict.i3cNext = [] → (∃ mv : Nat, mv * 1000 + s.monitorOffset 0x3021 < (1710000 : Int) ∧ cause = .io18 mv)
        ∨ (∃ mv : Nat, mv * 1000 + s.monitorOffset 0x3022 < (690000 : Int) ∧ cause = .aon mv) ∨ cause = .pwrWarn →
      Completes (.supplyGuardActivate cause copyA) s fun t =>
        t.guardActive = true ∧ t.dict.guardEvents = s.dict.guardEvents + 1 ∧ t.dict.queue = [] ∧ t.mem = s.mem ∧ t.cores = s.cores
          ∧ (s.dict.queue = [] → t.dict.entries = s.dict.entries ∧ t.dict.last = s.dict.last)
          ∧ (∀ w, s.dict.queue = [w] → w.origin = .command → t.dict.last = dictSupply (if copyA then 1 else 0)
              ∧ (copyA = false → t.dict.entries = s.dict.entries) ∧ (copyA = true → t.dict.interruptedWrites = s.dict.interruptedWrites + 1)
              ∧ (∀ i n data, copyA = true → w.rcd = .entry i n data → Tbl.get? t.dict.entries (entryKey i n) = some data)))
  ∧ (∀ s : State, Completes .supplyGuardClear s fun t => t.guardActive = false ∧ t.mem = s.mem ∧ t.cores = s.cores
      ∧ (∀ r, s.start.failing = some r → t.start.failing = none ∧ t.start.warmPending = true ∧ t.start.failReason = r)
      ∧ (s.start.step = 5 → s.start.entered = false → t.start.entered = true ∧ t.start.number = s.start.number + 1
          ∧ (s.start.whey = false → s.start.counted = false → t.start.counted = true ∧ t.start.failedStarts = s.start.failedStarts + 1)))
  ∧ (∀ s : State, (s.guardActive = true → exec .sectorErase s = .next s)
      ∧ (s.guardActive = false → s.dict.flashAbsent = false → 2 ≤ s.start.step → Completes .sectorErase s fun t => t = { s with dict := { s.dict with flashUsed := true } }))
  ∧ ∀ s : State, s.start.isOn = true → s.dict.flashAbsent = false →
    (∀ moved, s.dict.saveDue = true ∨ moved = true → s.guardActive = false → Completes (.trainingSave moved) s fun t =>
      t.dict.saved = some (s.rtp.digests[4], if s.start.strongEcc then 1 else 0) ∧ t.dict.savedInvalid = false ∧ t.dict.saveDue = false ∧ t.mem = s.mem ∧ t.cores = s.cores)
    ∧ (∀ moved, s.dict.saveDue = true ∨ moved = true → s.guardActive = true → Completes (.trainingSave moved) s fun t => t.dict.saved = s.dict.saved ∧ t.dict.saveDue = true)
    ∧ (s.dict.saveDue = false → exec (.trainingSave false) s = .next s)

/-- DICT_ACCESS: a read answers with the RTP status OK, the dictionary status in byte 2 and the data from byte 8; an owner's write to an
entry that is not of access RTP is answered ACCESS there; a reserved bit or another length is BAD_INPUT. -/
def Claim.DictAccess : Prop :=
  ∀ (index : BitVec 16) (sub : BitVec 8) (rsv : BitVec 23) (len : BitVec 16) (data : List Byte) (auth : OwnerAuth) (s : State), s.rtpUp = true → s.rtp.background = .none →
    s.rtp.error = false →
    (rsv ≠ 0 ∨ len ≠ 0 → Completes (.dictAccessRead index sub rsv len) s fun t => t.rtp.output = [0x01, 0] ∧ t.dict = s.dict ∧ t.mem = s.mem ∧ t.cores = s.cores)
    ∧ (Completes (.dictAccessRead index sub 0 0) s fun t =>
      let r := (dictRead index.toNat sub.toNat s).1
      t.rtp.output = [0, 0, r.status, 0, 0, 0, 0, 0] ++ r.data ∧ t.dict = s.dict ∧ t.mem = s.mem ∧ t.cores = s.cores)
    ∧ (s.rtp.ownerSlots ≠ [] → s.rtp.nonce = some auth.nonce → auth.signatureOk = true →
      (rsv ≠ 0 ∨ len.toNat ≠ data.length → Completes (.dictAccessWrite index sub rsv len data auth) s fun t =>
        t.rtp.output = [0x01, 0] ∧ t.rtp.nonce = none ∧ t.dict = s.dict ∧ t.mem = s.mem ∧ t.cores = s.cores)
      ∧ (∀ n, len.toNat = data.length → highestSub index.toNat = some n → sub.toNat ≤ n → (entryOf index.toNat sub.toNat).access ≠ .rtp →
        Completes (.dictAccessWrite index sub 0 len data auth) s fun t =>
          t.rtp.output = [0, 0, 0x03, 0, 0, 0, 0, 0] ∧ t.rtp.nonce = none ∧ t.dict = s.dict ∧ t.mem = s.mem ∧ t.cores = s.cores)
      ∧ (index = 0x11F0 → sub = 1 → s.guardActive = false → s.dict.queue.length < 16 → len = 1 → ∀ b : Bool, data = [if b then 1 else 0] →
        Completes (.dictAccessWrite index sub 0 len data auth) s fun t =>
          t.dict.queue = s.dict.queue ++ [{ rcd := .entry 0x11F0 1 data, origin := .mailbox }] ∧ t.rtp.nonce = none ∧ t.mem = s.mem ∧ t.cores = s.cores))

/-- OAP: a datagram with an address that is not link-local, or of another version, does nothing. SESSION_OPEN with a certificate that an
anchor signs gives a session of its role that a proof must complete; a bad proof ends it and counts; a close, or 600 s without a
request, ends it. -/
def Claim.OapSessions : Prop :=
  (∀ (req : OapRequest) (cert : OperatorCert) (ok : Bool) (off : Nat) (data : List Byte) (v : BundleVerdict) (s : State),
    (isLinkLocal req.source = false ∨ isLinkLocal req.dest = false ∨ req.version ≠ 1) →
    ∀ i ∈ [Instr.read req, .write req, .sessionOpen req cert, .sessionProve req ok, .sessionClose req, .bundleChunk req off data v], exec i s = .next s)
  ∧ ∀ (req : OapRequest) (s : State), s.oapUp = true → oapTaken req = true →
    let answer (r : DictResult) (tagged : Bool) : Option OapResponse :=
      some { header := { oapHeader req with opcode := req.opcode ||| 0x80 }, result := r, tagged := tagged }
    (∀ cert role, oapMisfit req 0x03 req.data.length = none → req.session = 0 → s.oapSession 0 = none → s.dict.cert.isSome = true →
      98 ≤ req.data.length → req.data.length ≤ 997 → s.dict.sessions.length < 8 →
      (cert.valid = true → s.denied cert.serial = false → s.anchorRole cert = some role → Completes (.sessionOpen req cert) s fun t =>
        t.dict.sessions = s.dict.sessions ++ [{ id := s.dict.nextSession, role := role, proven := false, lastSeq := 0, response := none }]
          ∧ (∃ d, d.length = 241 ∧ t.dict.oap = answer (dictData (leBytes 4 s.dict.nextSession.toNat ++ d)) false) ∧ t.mem = s.mem ∧ t.cores = s.cores)
      ∧ ((cert.valid = false ∨ s.denied cert.serial = true ∨ s.anchorRole cert = none) → Completes (.sessionOpen req cert) s fun t =>
        t.dict.sessions = s.dict.sessions ∧ t.dict.oap = answer (dictStatus 0x0A) false ∧ t.errors.security = s.errors.security + 1))
    ∧ (∀ x, oapMisfit req 0x04 req.data.length = none → s.oapSession req.session = some x → x.proven = false →
      (Completes (.sessionProve req true) s fun t => (∃ y, t.oapSession req.session = some y ∧ y.proven = true ∧ y.role = x.role) ∧ t.dict.oap = answer dictOk false
        ∧ t.mem = s.mem ∧ t.cores = s.cores)
      ∧ (Completes (.sessionProve req false) s fun t => t.oapSession req.session = none ∧ t.errors.security = s.errors.security + 1
        ∧ t.dict.oap = answer (dictStatus 0x0A) false))
    ∧ (∀ id, Completes (.sessionTimeout id) s fun t => t.oapSession id = none ∧ (∀ o, o ≠ id → t.oapSession o = s.oapSession o) ∧ t.mem = s.mem ∧ t.cores = s.cores)
    ∧ ∀ x, req.session ≠ 0 → s.oapSession req.session = some x → x.proven = true → req.tagOk = true → req.seq = x.lastSeq + 1 →
      oapMisfit req 0x05 req.data.length = none →
      Completes (.sessionClose req) s fun t => t.oapSession req.session = none ∧ t.dict.oap = answer dictOk true ∧ (∀ o, o ≠ req.session → t.oapSession o = s.oapSession o)

/-- Requests of a session: the next SEQ is executed and its response kept, the last one again has that response again with its detail, any
other does nothing, a bad tag counts; a header that misfits is answered so; a read answers as R377 says, a write that the flash must
take waits for it. -/
def Claim.OapRequests : Prop :=
  ∀ (req : OapRequest) (x : OapSession) (s : State), s.oapUp = true → oapTaken req = true → req.session ≠ 0 → s.oapSession req.session = some x → x.proven = true →
    let answer (r : DictResult) : Option OapResponse := some { header := { oapHeader req with opcode := req.opcode ||| 0x80 }, result := r, tagged := true }
    let kept (t : State) (r : Option DictResult) : Prop := ∃ y, t.oapSession req.session = some y ∧ y.lastSeq = req.seq ∧ y.response = r ∧ y.role = x.role
    (req.tagOk = false → ∀ i ∈ [Instr.read req, .write req, .sessionClose req], Completes i s fun t =>
      t = { s with errors := { s.errors with security := s.errors.security + 1 } })
    ∧ (req.tagOk = true → req.seq = x.lastSeq → ∀ r, x.response = some r → ∀ i ∈ [Instr.read req, .write req, .sessionClose req],
      Completes i s fun t => t = { s with dict := { s.dict with oap := answer r } })
    ∧ (req.tagOk = true → req.seq ≠ x.lastSeq → req.seq ≠ x.lastSeq + 1 → ∀ i ∈ [Instr.read req, .write req, .sessionClose req], exec i s = .next s)
    ∧ (req.tagOk = true → req.seq = x.lastSeq + 1 → req.seq ≠ 0xFFFFFFFF →
      (∀ n, oapMisfit req 0x01 req.data.length = some n → Completes (.read req) s fun t => t.dict.oap = answer (dictStatus n) ∧ kept t (some (dictStatus n)))
      ∧ (oapMisfit req 0x01 req.data.length = none → Completes (.read req) s fun t =>
        let r := (dictRead req.index.toNat req.sub.toNat s).1
        t.dict.oap = answer r ∧ kept t (some r) ∧ t.dict.entries = s.dict.entries ∧ t.mem = s.mem ∧ t.cores = s.cores)
      ∧ (oapMisfit req 0x02 req.data.length = none → ∀ n, highestSub req.index.toNat = some n → req.sub.toNat ≤ n →
          s.mayWrite (.oap x.role) req.index.toNat req.sub.toNat (entryOf req.index.toNat req.sub.toNat) = none →
          req.data.length = (entryOf req.index.toNat req.sub.toNat).len →
          s.refusesValue req.index.toNat req.sub.toNat (entryOf req.index.toNat req.sub.toNat) req.data = none →
          ∀ r, recordOf req.index.toNat req.sub.toNat (entryOf req.index.toNat req.sub.toNat) req.data = some r → s.guardActive = false → s.dict.queue.length < 16 →
          Completes (.write req) s fun t => t.dict.queue = s.dict.queue ++ [{ rcd := r, origin := .oap (oapHeader req) }] ∧ t.dict.oap = s.dict.oap ∧ kept t none
            ∧ t.dict.entries = s.dict.entries ∧ t.mem = s.mem ∧ t.cores = s.cores))

/-- BUNDLE_CHUNK: over OAP a bundle is taken when BUNDLE_OVER_OAP is TRUE, the source is BUNDLE_SOURCE and the device waits for a
bundle, and it is BUSY while the mailbox owns the load; otherwise STATE. -/
def Claim.BundleChunks : Prop :=
  ∀ (req : OapRequest) (off : Nat) (data : List Byte) (v : BundleVerdict) (s : State), s.oapUp = true → oapTaken req = true → req.session = 0 →
    s.oapSession 0 = none → oapMisfit req 0x06 (8 + data.length) = none →
    let allowed := s.dictNat 0x11F0 1 0 ≠ 0 ∧ leNat (s.stored 0x11F0 2) = req.source.toNat ∧ s.deviceState = some 6
    let answer (r : DictResult) : Option OapResponse := some { header := { oapHeader req with opcode := req.opcode ||| 0x80 }, result := r, tagged := false }
    (¬ allowed → Completes (.bundleChunk req off data v) s fun t => t.dict.oap = answer (dictStatus 0x07) ∧ t.rtp = s.rtp ∧ t.start = s.start)
    ∧ (allowed → s.rtp.owner = some .mailbox → Completes (.bundleChunk req off data v) s fun t => t.dict.oap = answer (dictStatus 0x09) ∧ t.rtp = s.rtp)
    ∧ (allowed → s.rtp.owner ≠ some .mailbox → chunkReach ((off, data) :: s.rtp.chunks) ((off, data) :: s.rtp.chunks).length 0 < 0x18 →
        Completes (.bundleChunk req off data v) s fun t => t.dict.oap = answer dictOk ∧ t.rtp.owner = some .oap ∧ t.rtp.chunks = (off, data) :: s.rtp.chunks
          ∧ t.mem = s.mem ∧ t.cores = s.cores)

/-- The I3C sideband: an access replaces the one before, after which it is performed, and leaves its result for one private read; a result
over 255 bytes is LENGTH; a read while an access waits on the flash is NACKed. A target without one takes the dynamic address it is
assigned. -/
def Claim.I3cSideband : Prop :=
  ∀ (index : BitVec 16) (sub : BitVec 8) (w : Bool) (data : List Byte) (a : BitVec 7) (s : State), s.answers = true →
    (s.i3cWaits = true → Completes (.i3cPrivateWrite index sub w data) s fun t =>
      t.dict.i3cNext = s.dict.i3cNext ++ [{ index := index, sub := sub, isWrite := w, data := data }] ∧ t.dict.i3c = none ∧ t.dict.entries = s.dict.entries
        ∧ (∀ x ∈ t.dict.queue, x.origin ≠ .i3c) ∧ t.dict.queue.map (·.rcd) = s.dict.queue.map (·.rcd) ∧ t.mem = s.mem ∧ t.cores = s.cores)
    ∧ (s.i3cWaits = false → s.dict.i3cNext = [] →
      (Completes (.i3cPrivateWrite index sub false data) s fun t =>
        let r := (dictRead index.toNat sub.toNat s).1
        t.dict.i3c = some (if 255 < r.data.length then dictStatus 0x05 else r) ∧ t.dict.entries = s.dict.entries ∧ t.mem = s.mem ∧ t.cores = s.cores)
      ∧ (255 < data.length → Completes (.i3cPrivateWrite index sub true data) s fun t => t.dict.i3c = some (dictStatus 0x05) ∧ t.dict.entries = s.dict.entries)
      ∧ (∀ n m, data.length ≤ 255 → highestSub index.toNat = some n → sub.toNat ≤ n → s.mayWrite .i3c index.toNat sub.toNat (entryOf index.toNat sub.toNat) = some m →
          Completes (.i3cPrivateWrite index sub true data) s fun t => t.dict.i3c = some (dictStatus m) ∧ t.dict.entries = s.dict.entries))
    ∧ (s.i3cWaits = false → Completes .i3cPrivateRead s fun t =>
        t.dict.i3cRead = s.dict.i3c ∧ t.dict.i3c = none ∧ t.dict.entries = s.dict.entries ∧ t.mem = s.mem ∧ t.cores = s.cores)
    ∧ (s.i3cWaits = true → Completes .i3cPrivateRead s fun t => t.dict.i3cRead = none ∧ t.dict.i3c = s.dict.i3c)
    ∧ (∀ i ∈ [Instr.setdasa a, .entdaa a], Completes i s fun t => t.dict.i3cDynamic = some (s.dict.i3cDynamic.getD a) ∧ t.mem = s.mem ∧ t.cores = s.cores)

/-- PLCA_STATE after a beacon period: coordinator for node 0; without a beacon disabled; past the coordinator's count muted. -/
def Claim.Plca : Prop :=
  ∀ (b : Beacon) (s : State), Completes (.plcaBeacon b) s fun t =>
    (s.plcaNode = 0 → t.dict.plcaState = 0 ∧ t.dict.plcaMuted = false)
      ∧ (s.plcaNode ≠ 0 → b = .none → t.dict.plcaState = 3)
      ∧ (∀ n o, s.plcaNode ≠ 0 → b = .seen n o → t.dict.plcaMuted = decide (n ≤ s.plcaNode)
          ∧ (s.plcaNode < n → t.dict.plcaState = if o then 1 else 2) ∧ (n ≤ s.plcaNode → t.dict.plcaState = 2))
      ∧ t.mem = s.mem ∧ t.cores = s.cores

/-! ## Power (7) -/

/-- A domain that R413 lets doze on its own, and that is idle, dozes while DOZE_ENABLE is TRUE; a row with a core not Stopped does not,
nor does any domain while DOZE_ENABLE is FALSE. Nothing but the domain's state changes. -/
def Claim.DozeEntry : Prop :=
  ∀ (d : Nat) (s : State),
    (s.start.isOn = true → s.power.deepRest = false → s.dozeEnabled = true → canDoze d = true → s.domain d = .on → domainIdle s d = true →
      Completes (.dozeEntry d) s fun t => t.domain d = .doze ∧ (∀ e, e ≠ d → t.domain e = s.domain e) ∧ t.power.dozeWakes = s.power.dozeWakes
        ∧ t.mem = s.mem ∧ { t with power := s.power } = s)
    ∧ (s.dozeEnabled = false ∨ 80 ≤ d ∨ (d < 64 ∧ d % 16 = 13) → exec (.dozeEntry d) s = .next s)
    ∧ (d < 64 → d % 16 < 12 → (∃ c ∈ domainCores d, (s.core c).ctl.state ≠ .stopped) → exec (.dozeEntry d) s = .next s)

/-- The first access to a dozing domain wakes it with its contents, and counts; the cores held at it go on, each after the core cycles
given, and no other core changes. Without a domain that dozes or a core held at it nothing happens. -/
def Claim.DozeWake : Prop :=
  ∀ (d : Nat) (l : List (Nat × Nat)) (s : State),
    (s.domain d = .doze → Completes (.dozeWake d l) s fun t => t.domain d = .on ∧ (∀ e, e ≠ d → t.domain e = s.domain e)
      ∧ t.power.dozeWakes = s.power.dozeWakes + 1 ∧ t.mem = s.mem
      ∧ (∀ c, (s.core c).ctl.hold ≠ .doze d → t.core c = s.core c)
      ∧ ∀ c, (s.core c).ctl.hold = .doze d →
          (t.core c).ctl = { (s.core c).ctl with hold := .none } ∧ (t.core c).regs = (s.core c).regs
            ∧ (t.core c).flight = { (s.core c).flight with now := (s.core c).flight.now + ((l.find? fun e => e.1 == c.toNat).map (·.2)).getD 0 })
    ∧ (s.domain d ≠ .doze → (s.domainRuns d = false ∨ ∀ c, (s.core c).ctl.hold ≠ .doze d) → exec (.dozeWake d l) s = .next s)

/-- A sample moves the island's thermal limit one step between 4 and 16, and begins a hold above 25 °C (200 eighths) over a neighbour or
ends one within 20 °C (160 eighths); one of a press unit or the intake moves its own island; that of a die or stack is what UNIT_TEMP shows. -/
def Claim.ThermalSteps : Prop :=
  ∀ (c : CoreId) (temp : Int) (s : State),
    s.start.refclkLocked = true → s.power.tripped = false → s.power.deepRest = false → temp < 880 →
    (∀ n, 1 ≤ n → n ≤ 21 → Completes (.thermalSample (.unit n) temp) s fun t =>
      t = { s with power := { s.power with unitTemps := Tbl.put s.power.unitTemps n temp } })
    ∧ (∀ n, n ≤ 32 → Completes (.thermalSample (.engine n) temp) s fun t =>
      let i := Tbl.getD s.power.engineIslands n .reset
      let j := Tbl.getD t.power.engineIslands n .reset
      j.temp = some temp ∧ j.thermal = (if s.throttleTemp ≤ temp then max 4 (i.thermal - 1) else if temp ≤ s.throttleTemp - 24 then min 16 (i.thermal + 1) else i.thermal)
        ∧ (∀ m, m ≠ n → Tbl.getD t.power.engineIslands m .reset = Tbl.getD s.power.engineIslands m .reset) ∧ { t with power := s.power } = s)
    ∧ (s.activeIsland c = true → Completes (.thermalSample (.core c) temp) s fun t =>
      let i := s.island c
      let j := t.island c
      let gap := (s.modIsland c fun x => x.sampled temp s.throttleTemp).overNeighbours c
      j.temp = some temp ∧ j.power = i.power ∧ j.rail = i.rail
        ∧ (s.throttleTemp ≤ temp → j.thermal = max 4 (i.thermal - 1))
        ∧ (temp ≤ s.throttleTemp - 24 → j.thermal = min 16 (i.thermal + 1))
        ∧ (s.throttleTemp - 24 < temp → temp < s.throttleTemp → j.thermal = i.thermal)
        ∧ j.held = (if i.held then decide (160 < gap) else decide (200 < gap))
        ∧ j.step = (if j.held then 4 else min j.thermal (min j.power j.rail))
        ∧ (∀ d, d ≠ c → (t.island d).thermal = (s.island d).thermal ∧ (t.island d).temp = (s.island d).temp)
        ∧ t.power.domains = s.power.domains ∧ t.mem = s.mem ∧ t.cores = s.cores)

/-- A sensor at 110 °C (880 eighths) trips: THERMTRIP_N, every core stopped, power from every domain but 80 and 81 removed with what it
holds, a device-fatal error in the log and, but for the guard, in LAST_FATAL, and no warm reset of its own. -/
def Claim.ThermalTrip : Prop :=
  ∀ (sensor : Sensor) (temp : Int) (s : State),
    s.start.refclkLocked = true → s.power.tripped = false → s.power.deepRest = false →
    ((∃ c, sensor = .core c ∧ coreExists c = true) ∨ (∃ n, sensor = .unit n ∧ 1 ≤ n ∧ n ≤ 21) ∨ (∃ n, sensor = .engine n ∧ n ≤ 32)) → 880 ≤ temp →
    Completes (.thermalSample sensor temp) s fun t =>
      t.power.tripped = true ∧ t.power.thermtripAsserted = true ∧ t.start.isOn = false ∧ t.start.warmPending = s.start.warmPending
        ∧ (∀ d, coreExists d = true → t.core d = Core.reset) ∧ t.signals = [] ∧ t.arrivals = [] ∧ t.press = []
        ∧ (∀ d, d < 84 → d ≠ 80 → d ≠ 81 → t.domain d = .off)
        ∧ (s.guardActive = false → t.errors.lastFatal = t.errors.log.head?) ∧ (s.guardActive = true → t.errors.lastFatal = s.errors.lastFatal)
        ∧ (s.MemInv → (∀ d, coreExists d = true → ∀ i, i < 0x800000 → Memory.read t.mem (lsBase d + i) = 0)
            ∧ ∀ k, k < 16 → ∀ i, i < 0x1000000000 → Memory.read t.mem (hbmBase k + i) = 0)

/-- The stewards lower one limit of one island by a step, between 4 and 16, while the package power would exceed the mode's ceiling or a
VDD_CORE rail draws 900 A, the island of the highest demand first, and raise it while not, in the reverse order; PACKAGE_POWER_W never
exceeds the ceiling. -/
def Claim.PowerLimits : Prop :=
  modeCeiling 0 = 3000 ∧ modeCeiling 1 = 2400 ∧ modeCeiling 2 = 1800 ∧ (∀ (s : State) (v : Word), s.packagePower v ≤ s.powerCeiling)
  ∧ (∀ (c : CoreId) (demand : List (Nat × Nat)) (s : State), s.nextInDemand c true false demand = true →
      let want (d : CoreId) : Nat := ((demand.find? fun e => e.1 == d.toNat).map (·.2)).getD 0
      4 < (s.island c).power ∧ ∀ d, s.activeIsland d = true → 4 < (s.island d).power → want d ≤ want c)
  ∧ ∀ (c : CoreId) (lower railLimit : Bool) (load : Nat) (demand : List (Nat × Nat)) (s : State),
    let due : Bool := if railLimit then decide (900 ≤ load) else decide (s.powerCeiling < load)
    (lower ≠ due ∨ s.nextInDemand c lower railLimit demand = false → exec (.powerLimitAdjust c lower railLimit load demand) s = .next s)
    ∧ (s.start.isOn = true → s.power.deepRest = false → s.activeIsland c = true → lower = due → s.nextInDemand c lower railLimit demand = true →
      Completes (.powerLimitAdjust c lower railLimit load demand) s fun t =>
      let moved (k : Nat) : Nat := if lower then max 4 (k - 1) else min 16 (k + 1)
      (t.island c).power = (if railLimit then (s.island c).power else moved (s.island c).power)
        ∧ (t.island c).rail = (if railLimit then moved (s.island c).rail else (s.island c).rail)
        ∧ (t.island c).thermal = (s.island c).thermal ∧ (t.island c).held = (s.island c).held
        ∧ (∀ d, d ≠ c → t.island d = s.island d) ∧ { t with power := s.power } = s)

/-- A mode change requests the mode's voltage; a raise waits for the regulators that answer until each has acknowledged it; an
acknowledgement sets the voltage read; the change then takes effect, and a write that came meanwhile is carried out after it. -/
def Claim.ModeChanges : Prop :=
  (∀ (s : State), (∀ m, s.power.target = some m → s.power.ackWaiting = [] →
      (s.power.pendingModes = [] → Completes .modeChangeComplete s fun t => t.power.mode = m ∧ t.power.target = none
          ∧ t.power.railRequest = Vector.replicate 4 (modeMillivolts m) ∧ { t with power := s.power } = s)
      ∧ (∀ n, s.power.pendingModes = [n] → s.start.refclkLocked = true → n ≠ m → Completes .modeChangeComplete s fun t =>
          t.power.mode = m ∧ t.power.target = some n ∧ t.power.pendingModes = []
            ∧ (m < n → t.power.ackWaiting = [])
            ∧ (n < m → t.power.railRequest = Vector.replicate 4 (modeMillivolts n) ∧ ∀ d, d ∈ t.power.ackWaiting ↔ d < 4 ∧ d ∉ s.power.railSilent)
            ∧ { t with power := s.power } = s))
    ∧ (s.power.target = none ∨ s.power.ackWaiting ≠ [] → exec .modeChangeComplete s = .next s))
  ∧ ∀ (d mv : Nat) (s : State), s.answers = true → d < 4 → Completes (.avsbusAck d mv) s fun t =>
      (t.power.railMv[d]?).getD 0 = mv ∧ (∀ e, e ≠ d → (t.power.railMv[e]?).getD 0 = (s.power.railMv[e]?).getD 0)
        ∧ (∀ e, e ∈ t.power.ackWaiting ↔ e ∈ s.power.ackWaiting ∧ (e ≠ d ∨ mv ≠ (s.power.railRequest[d]?).getD 0)) ∧ d ∉ t.power.railSilent ∧ { t with power := s.power } = s

/-- An address header that matches the target's address starts the oscillator, any other does not; the wake then locks the clocks, brings
every domain back with its contents but those of a bad supply, which stay in reset, links the host again, and retrains the ports. -/
def Claim.DeepRestWake : Prop :=
  (∀ (a : BitVec 7) (s : State), s.power.oscillatorStopped = true →
    let own : BitVec 7 := s.dict.i3cDynamic.getD (0x50 + s.dict.i3cStrap.setWidth 7)
    (a = own → Completes (.i3cWake a) s fun t => t.power.oscillatorStopped = false ∧ t.power.deepRest = s.power.deepRest ∧ { t with power := s.power } = s)
    ∧ (a ≠ own → exec (.i3cWake a) s = .next s))
  ∧ ∀ (bad : List Nat) (narrowed : List (Nat × Nat × Nat)) (s : State), s.power.deepRest = true → s.power.oscillatorStopped = false →
    let before (p : Nat) : Nat × Nat := (s.host.restLink[p]?).getD (0, 0)
    Completes (.deepRestWakeComplete bad narrowed) s fun t =>
      t.power.deepRest = false ∧ (83 ∉ bad → t.start.refclkLocked = true)
        ∧ (∀ p, p < 2 → 82 ∉ bad → narrowed = [] → 4 ≤ (before p).2 → (t.host.linkRate[p]?).getD 0 = (before p).1 ∧ (t.host.linkWidth[p]?).getD 0 = (before p).2)
        ∧ (∀ d, s.domain d = .deepRest → t.domain d = if d ∈ bad then .inReset else .on) ∧ (∀ d, s.domain d ≠ .deepRest → t.domain d = s.domain d)
        ∧ (∀ d ∈ bad, s.domain d = .deepRest → (5, d) ∈ t.errors.healthEvents)
        ∧ (∀ p, p < 24 → 16 * (p / 6) + 13 ∉ bad → (Tbl.get? s.fabric.ports p).isSome = true → (t.port p).retraining = true ∨ (t.port p).wanted = true)
        ∧ ((∀ d ∈ bad, s.domain d ≠ .deepRest) → t.mem = s.mem ∧ t.cores = s.cores)

/-- A domain leaves reset, its contents at their reset values, once every rail that feeds it is at its minimum, unless a trip or whey mode
holds it; a rail more than 20 mV below puts the domain in reset without its contents: while On a device-fatal error, but a corrected one
for a row of a die whose VDD_CORE falls while its cores are all Stopped; the always-on domain takes the device with it. -/
def Claim.DomainSupplies : Prop :=
  (∀ (d : Nat) (mv : List Nat) (s : State),
    (s.mayPower d = true → s.domainUp d = false → railsGood d mv = true → Completes (.domainPowerGood d mv) s fun t =>
      t = (loseContents d s).setDomain d .on ∧ t.domain d = .on ∧ (∀ e, e ≠ d → t.domain e = s.domain e)
        ∧ (isRowDomain d = true → ∀ c ∈ domainCores d, t.core c = Core.reset))
    ∧ (s.start.step < 2 ∨ (s.power.tripped = true ∧ d ≠ 80) ∨ (s.start.whey = true ∧ d ≠ 80 ∧ d ≠ 82 ∧ d ≠ 83) ∨ s.domainUp d = true
        ∨ (∃ r ∈ domainRails d, (mv[r]?).getD 0 < (railMinimum[r]?).getD 0) → exec (.domainPowerGood d mv) s = .next s))
  ∧ (∀ (mv : Nat) (s : State), s.start.step ≠ 0 → mv + 20 < 720 → Completes (.domainPowerLoss 81 6 mv) s fun t =>
      t.start.step = 0 ∧ t.start.isOn = false ∧ t.cores = [] ∧ t.power.domains = [] ∧ t.host.linkWidth = Vector.replicate 2 0)
  ∧ ∀ (d rail mv : Nat) (s : State),
    (rail ∉ domainRails d ∨ (railMinimum[rail]?).getD 0 ≤ mv + 20 → exec (.domainPowerLoss d rail mv) s = .next s)
    ∧ (d ≠ 81 → s.domainUp d = true → (s.start.isOn = true → s.power.deepRest = false) → rail ∈ domainRails d → mv + 20 < (railMinimum[rail]?).getD 0 →
      let spared := isRowDomain d = true ∧ rail = d / 16 ∧ dieStopped s (d / 16) = true
      Completes (.domainPowerLoss d rail mv) s fun t => t.domain d = .inReset ∧ (∀ e, e ≠ d → t.domain e = s.domain e)
        ∧ (isRowDomain d = true → ∀ c ∈ domainCores d, t.core c = Core.reset)
        ∧ (s.start.isOn = false → t = (loseContents d s).setDomain d .inReset)
        ∧ (s.start.isOn = true → spared → (∀ c, c ∉ domainCores d → t.core c = s.core c) ∧ t.start = s.start ∧ t.errors.counts[0] = s.errors.counts[0] + 1)
        ∧ (s.start.isOn = true → ¬ spared → t.start.warmPending = true ∧ t.start.isOn = false
            ∧ (∀ k ∈ t.cores, k.2.ctl.state = .stopped) ∧ t.errors.counts[3] = s.errors.counts[3] + 1))

/-! ## Resets, the start, and device errors (8) -/

/-- What every device reset leaves: every core at its reset value, no job, ring, link, route, session, key or bundle; fuses, the eye map,
LAST_FATAL and the journalled entries kept, every other entry at its default. -/
def Claim.ResetsKeep (cold : Bool) (s t : State) : Prop :=
  t.start.isOn = false ∧ t.start.whey = false ∧ (∀ c, t.core c = Core.reset) ∧ t.signals = [] ∧ t.arrivals = [] ∧ (∀ p, t.part p = State.reset.part p)
    ∧ t.press = [] ∧ t.fabric = State.reset.fabric ∧ t.intake = State.reset.intake ∧ t.host.rings = [] ∧ t.host.linkWidth = Vector.replicate 2 0
    ∧ t.rtp.bundleLoaded = false ∧ t.rtp.attestKey = none ∧ t.rtp.spdm = [] ∧ t.rtp.puMap = Vector.replicate 16 0xFF ∧ t.dict.sessions = []
    ∧ t.rtp.minSvn = s.rtp.minSvn ∧ t.rtp.ownerSlots = s.rtp.ownerSlots ∧ t.start.eyeMap = s.start.eyeMap
    ∧ (s.dict.queue = [] → t.errors.lastFatal = s.errors.lastFatal ∧ ∀ k, Tbl.get? t.dict.entries k = if keyJournalled k then Tbl.get? s.dict.entries k else none)
    ∧ (cold = true → t.start.step = 0 ∧ t.dict.i3cDynamic = none ∧ t.power.domains = [])
    ∧ (cold = false → t.start.step = 3 ∧ t.dict.i3cDynamic = s.dict.i3cDynamic ∧ t.dict.i3cStrap = s.dict.i3cStrap ∧ t.power.domains = [(81, .on)])
    ∧ (s.dict.queue = [] → 5 ≤ s.start.step → s.start.ended = false → t.start.failReason = 0x0007 ∧ t.start.failStep = s.start.step
        ∧ ∃ e, t.start.interrupted = some e ∧ e.outcome = 2 ∧ e.reason = 0x0007 ∧ e.number = s.start.number)

/-- A cold reset samples MGMT_ID; a warm reset takes effect when one has been requested, and never otherwise. -/
def Claim.DeviceResets : Prop :=
  (∀ (strap : BitVec 4) (s : State), Completes (.coldReset strap) s fun t => t.dict.i3cStrap = strap ∧ Claim.ResetsKeep true s t)
  ∧ ∀ s : State, (s.start.warmPending = true → Completes .deviceWarmReset s fun t => Claim.ResetsKeep false s t ∧ t.start.warmPending = false)
    ∧ (s.start.warmPending = false → exec .deviceWarmReset s = .next s)

/-- The first steps: the always-on domain leaves reset (step 2); step 3 hands over to step 4, or to the error state with the failed
self-test; step 5 counts the start and the attempt, once the guard lets it; step 6 locks the clocks in the mode POWER_MODE gives, whose
voltage it requests. -/
def Claim.FirstSteps : Prop :=
  (∀ s : State, (s.start.step = 0 → Completes .startSequence s fun t => t.start.step = 2 ∧ t.domain 81 = .on ∧ t.dict = s.dict ∧ t.mem = s.mem)
    ∧ (s.start.step ≠ 0 → exec .startSequence s = .next s))
  ∧ ∀ (o : StepOutcome) (s : State), (s.starting = false ∨ s.stepPowered s.start.step = false → exec (.startStepComplete o) s = .next s)
    ∧ (s.starting = true → s.stepPowered s.start.step = true → o.defects = [] →
      (s.start.step = 2 → Completes (.startStepComplete o) s fun t => t.start.step = 3)
      ∧ (s.start.step = 3 → (o.selfTestFailed = none → Completes (.startStepComplete o) s fun t => t.start.step = 4 ∧ t.rtp.error = s.rtp.error
          ∧ t.dict.calInvalid = !o.calibrationOk ∧ t.dict.flashAbsent = flashMissing o.flash ∧ t.start.savedOwn = !o.settingsForeign
          ∧ t.start.savedCrc = settingsCrc (flashMissing o.flash) o.damaged)
        ∧ ∀ n, o.selfTestFailed = some n → Completes (.startStepComplete o) s fun t =>
            t.rtp.error = true ∧ t.rtp.selfTestFailed = BitVec.ofNat 16 n ∧ t.start.step = 3)
      ∧ (s.start.step = 5 → s.start.entered = false → (s.guardActive = false → Completes (.startStepComplete o) s fun t =>
            t.start.step = 6 ∧ t.start.number = s.start.number + 1 ∧ (s.start.counted = false → t.start.failedStarts = s.start.failedStarts + 1))
          ∧ (s.guardActive = true → s.dict.flashAbsent = false → exec (.startStepComplete o) s = .next s))
      ∧ (s.start.step = 6 → Completes (.startStepComplete o) s fun t =>
          t.start.step = 7 ∧ t.start.refclkLocked = true ∧ t.power.mode = s.powerMode
            ∧ t.power.railRequest = Vector.replicate 4 (modeMillivolts s.powerMode) ∧ t.power.railSilent = o.silentRails
            ∧ (∀ d, d ∈ t.power.ackWaiting ↔ d < 4 ∧ d ∉ o.silentRails ∧ (s.power.railMv[d]?).getD 0 ≠ modeMillivolts s.powerMode) ∧ t.mem = s.mem))

/-- Steps 7 to 10, from the state their defects leave: step 7 zeroes every local store and step 10 all HBM; no unit left, a hub part or a
bridge lost fails the start with its reason, which waits while the guard is active. -/
def Claim.TestSteps : Prop :=
  ∀ (o : StepOutcome) (s : State), s.starting = true → s.stepPowered s.start.step = true → (s.flashHeld = false ∨ o.defects = []) →
    let u := o.defects.foldl recordDefect s
    let failed (reason : BitVec 16) : Prop := Completes (.startStepComplete o) s fun t =>
      t.start.isOn = false ∧ t.start.step = s.start.step ∧ t.mem = s.mem
        ∧ (s.flashHeld = true → t.start.failing = some reason ∧ t.start.warmPending = false ∧ t.start.history = s.start.history)
        ∧ (s.flashHeld = false → t.start.failReason = reason ∧ t.start.failStep = s.start.step ∧ t.start.warmPending = true
            ∧ ∃ e, t.start.history.head? = some e ∧ e.outcome = 1 ∧ e.reason = reason ∧ e.number = s.start.number)
    (s.start.step = 7 → (u.start.presentOf = 0 → failed 0x0005)
      ∧ (u.start.presentOf ≠ 0 → Completes (.startStepComplete o) s fun t => t.start.step = 8 ∧ (∀ a, a < 0x0200000000 → Memory.read t.mem a = 0)
          ∧ (s.MemInv → ∀ a, 0x0200000000 ≤ a → Memory.read t.mem a = Memory.read s.mem a)))
    ∧ (s.start.step = 8 → (o.hubLost = true → failed 0x0006) ∧ (o.hubLost = false → u.start.presentOf = 0 → failed 0x0005)
        ∧ (o.hubLost = false → u.start.presentOf ≠ 0 → Completes (.startStepComplete o) s fun t => t.start.step = 9 ∧ t.mem = s.mem))
    ∧ (s.start.step = 9 → (o.bridgeLost = true → failed 0x0004)
        ∧ (o.bridgeLost = false → o.stacksFailed = [] → o.ports = [] → u.start.presentOf ≠ 0 → Completes (.startStepComplete o) s fun t => t.start.step = 10
            ∧ t.start.fellBack = (u.start.fellBack || (u.start.fast && o.fallback)) ∧ t.mem = s.mem))
    ∧ (s.start.step = 10 → (u.start.presentOf = 0 → failed 0x0005)
        ∧ (u.start.presentOf ≠ 0 → Completes (.startStepComplete o) s fun t => t.start.step = 11 ∧ (∀ a, isHbm a = true → Memory.read t.mem a = 0)
            ∧ (s.MemInv → ∀ a, isHbm a = false → Memory.read t.mem a = Memory.read s.mem a)))

/-- Step 11 enters On, once the flash can be written: FAILED_STARTS is 0, the repair map and the present units are fixed, LAST_START and the boot history tell of it, and
the training settings are due. -/
def Claim.EntersOn : Prop :=
  ∀ (o : StepOutcome) (s : State), s.starting = true → s.start.step = 11 → s.stepPowered 11 = true →
    (s.flashHeld = true → exec (.startStepComplete o) s = .next s)
    ∧ (s.flashHeld = false → Completes (.startStepComplete o) s fun t =>
      t.start.isOn = true ∧ t.start.failedStarts = 0 ∧ t.start.present = s.start.presentOf ∧ t.start.badCores = s.start.badCoresOf
        ∧ t.start.lastStart = s.start.kind ∧ t.dict.saveDue = true ∧ t.intake.enginesPresent = s.start.enginesOf
        ∧ (∃ e, t.start.history = (e :: s.start.history).take 16 ∧ e.outcome = 0 ∧ e.number = s.start.number ∧ e.present = s.start.presentOf)
        ∧ t.mem = s.mem ∧ t.cores = s.cores)

/-- A defect a step finds adds one eye-map entry of its kind, unit and location, unless one describes it already or the map is full; either
way but the first it counts in EYE_ADDED. -/
def Claim.EyeMap : Prop :=
  ∀ (d : Defect) (s : State), 1 ≤ d.kind → d.kind ≤ 9 →
    let e := eyeEntry d.kind d.unit d.location s.start.step d.point s.start.number
    let u := recordDefect s d
    let known := ∃ x ∈ s.start.defects, eyeKey x = eyeKey e
    (known → u = s)
      ∧ (¬ known → u.start.eyeAdded = s.start.eyeAdded + 1 ∧ { u with start := s.start, dict := s.dict } = s
          ∧ (s.start.eyeMap.length < 16384 → u.start.eyeMap = s.start.eyeMap ++ [e] ∧ u.start.unrecorded = s.start.unrecorded)
          ∧ (16384 ≤ s.start.eyeMap.length → u.start.eyeMap = s.start.eyeMap ∧ e ∈ u.start.defects))

/-- The timeouts that fail a start: SUPPLY for a domain the step needs that is not good, STEWARD in step 5, CLOCK_LOCK in step
6. While the guard is active the failure waits. -/
def Claim.StartTimeouts : Prop :=
  ∀ (s : State),
    let failed (i : Instr) (reason : BitVec 16) : Prop := Completes i s fun t =>
      t.mem = s.mem ∧ t.cores = s.cores
        ∧ (s.flashHeld = true → t.start.failing = some reason ∧ t.start.history = s.start.history)
        ∧ (s.flashHeld = false → t.start.failReason = reason ∧ t.start.failStep = s.start.step ∧ t.start.warmPending = true
            ∧ ∃ e, t.start.history = (e :: s.start.history).take 16 ∧ e.outcome = 1 ∧ e.reason = reason)
    (∀ d, s.starting = true → 5 ≤ s.start.step → stepNeeds s.start.step d = true → s.domainUp d = false → failed (.startSupplyTimeout d) 0x0001)
      ∧ (∀ d, s.starting = false ∨ s.domainUp d = true → exec (.startSupplyTimeout d) s = .next s)
      ∧ (s.starting = true → s.start.step = 5 → failed .stewardTimeout 0x0002) ∧ (s.start.step ≠ 5 → exec .stewardTimeout s = .next s)
      ∧ (s.starting = true → s.start.step = 6 → failed .clockLockTimeout 0x0003) ∧ (s.start.step ≠ 6 → exec .clockLockTimeout s = .next s)

/-- A memory link lost is partition-fatal for its unit's partition, a retrain that succeeds changes nothing; a mesh failure and a silent
steward are device-fatal: every core stops, work in flight is discarded, and a warm reset follows. -/
def Claim.DeviceErrors : Prop :=
  ∀ (s : State), s.stewardsRun = true →
    (∀ k, exec (.memoryLinkRetrain k true) s = .next s)
    ∧ (∀ k, ∀ i ∈ [Instr.memoryLinkLost k, .memoryLinkRetrain k false], Completes i s fun t =>
        k ∈ t.errors.stacksLost ∧ t.errors.counts[2] = s.errors.counts[2] + 1
          ∧ (∀ p, s.unitPart k = some p → (s.part p).resetting = false → (t.part p).fatal = true ∧ ∀ c ∈ s.coresOf p, (t.core c).ctl.state ≠ .running)
          ∧ (s.unitPart k = none → t.cores = s.cores ∧ t.parts = s.parts ∧ t.mem = s.mem))
    ∧ ∀ n, ∀ i ∈ [Instr.meshFailure n, .stewardSilent n], Completes i s fun t =>
        t.start.isOn = false ∧ t.start.warmPending = true ∧ t.errors.counts[3] = s.errors.counts[3] + 1
          ∧ (∀ k ∈ t.cores, k.2.ctl.state = .stopped ∧ k.2.flight.sched = [])
          ∧ t.signals = [] ∧ t.arrivals = [] ∧ t.press = [] ∧ (∀ r ∈ t.host.rings, r.2.current = none)
          ∧ (s.guardActive = false → t.errors.lastFatal = t.errors.log.head?) ∧ t.mem = s.mem

/-- CYCLE_COUNT past 2^48 wraps and sets its sticky bit, and changes nothing else; before that it does nothing. -/
def Claim.CycleCountWraps : Prop :=
  ∀ (c : CoreId) (s : State),
    ((s.core c).flight.now - (s.core c).sys.cycZero < 2 ^ 48 → exec (.cycleCountWrap c) s = .next s)
    ∧ (2 ^ 48 ≤ (s.core c).flight.now - (s.core c).sys.cycZero → Completes (.cycleCountWrap c) s fun t =>
        (t.core c).sys.cycWrap = true ∧ (t.core c).flight.now - (t.core c).sys.cycZero = (s.core c).flight.now - (s.core c).sys.cycZero - 2 ^ 48
          ∧ (t.core c).regs = (s.core c).regs ∧ (t.core c).ctl = (s.core c).ctl ∧ (t.core c).flight = (s.core c).flight
          ∧ (∀ d, d ≠ c → t.core d = s.core d) ∧ { t with cores := s.cores } = s)

/-- A marked row of a TST or converting MMS in its write cycle halts the core with POISON, and the entry
names its row. With nothing scheduled, or on a core that does not run, nothing happens. -/
def Claim.PoisonRowHalts : Prop :=
  ∀ (c : CoreId) (s : State),
    ((s.core c).flight.sched = [] → exec (.poisonRowHalt c) s = .next s)
    ∧ ((s.core c).ctl.state ≠ .running → (s.core c).ctl.state ≠ .waiting → exec (.poisonRowHalt c) s = .next s)
    ∧ ∀ (e : Sched) (i : Nat), (s.core c).ctl.state = .running → (s.core c).flight.sched = [e] → e.act = .poisonRow i → e.phase = phaseWrite →
      e.cycle < (s.core c).flight.now →
      let aux : BitVec 32 := if s.confidential (s.corePart c) then 0 else BitVec.ofNat 32 i
      let f : FaultEntry := { code := 0x0D, cls := .halt, detail := 0, index := e.index, half := e.half, count := e.count, addr := 0, aux := aux }
      Completes (.poisonRowHalt c) s fun t =>
        (t.core c).ctl.state = .halted ∧ (t.core c).flight.sched = [] ∧ (t.core c).ctl.lastFault = 0x0D
          ∧ (t.core c).ctl.log[(s.core c).ctl.fltNext.toNat]? = some f
          ∧ (t.core c).regs = (s.core c).regs ∧ t.mem = s.mem ∧ t.errors.counts[1] = s.errors.counts[1] + 1 ∧ ∀ d, d ≠ c → t.core d = s.core d

/-! ## The obligations -/

/-- A step runs the front command on the rest of the queue; every command answers a next state; an empty queue idles (log 1). -/
def Obligations.CommandsStepAndComplete : Prop := Claim.StepRunsFrontCommand ∧ Claim.EveryCommandAnswersNext

/-- Every step keeps memory in its canonical form (the form is the model's, log 4). -/
def Obligations.StepKeepsMemoryForm : Prop := Claim.StepKeepsMemoryForm

/-- The device after reset: memory zero (log 3, the model's choice) and canonical; every core Stopped at its reset values. -/
def Obligations.ResetState : Prop := Claim.ResetMemory ∧ Claim.CoreResetValues

/-- A byte of memory reads as it was last written. -/
def Obligations.MemoryReadsAsWritten : Prop := Claim.MemoryReadsAsWritten

/-- X0 and F0 keep their constants; what each scheduled act writes, and nothing else. -/
def Obligations.RegistersAndScheduledActs : Prop := Claim.HardwiredRegisters ∧ Claim.ScheduledActs

/-- Scalar arithmetic, logic, shifts and immediates: value, latency, occupancy and frame. -/
def Obligations.ScalarOperations : Prop := Claim.ScalarArithmetic ∧ Claim.ScalarImmediates

/-- CMP, MOVS, SETS, LD and ST: flag, system register, load and store. -/
def Obligations.ScalarFlagsSystemMemory : Prop := Claim.CompareAndSystemRegisters ∧ Claim.ScalarMemory

/-- Branches, SWAPI, RETT and STOP. -/
def Obligations.BranchesAndReturns : Prop := Claim.Branches ∧ Claim.SwapReturnStop

/-- LOOP, NOPN and the end of a loop iteration. -/
def Obligations.Loops : Prop := Claim.LoopAndNopn ∧ Claim.LoopBack

/-- Taking a fault and entering the trap handler. -/
def Obligations.Traps : Prop := Claim.TrapEntry ∧ Claim.TakingAFault

/-- The order of the checks before issue; a skipped instruction; the wrap of CYCLE_COUNT. -/
def Obligations.ChecksBeforeIssue : Prop := Claim.OrderOfChecks ∧ Claim.SkippedInstruction ∧ Claim.CycleCountWraps

/-- Vector integer, logic and shift forms at each element size. -/
def Obligations.VectorInteger : Prop := Claim.VectorInteger

/-- Vector moves, VSIZE, VIOTA, compares and predicate instructions. -/
def Obligations.VectorMovesAndPredicates : Prop := Claim.VectorMoves ∧ Claim.Predicates

/-- Vector FP32 forms, widening, dot and reduction forms. -/
def Obligations.VectorFloat : Prop := Claim.VectorFloat ∧ Claim.VectorWideDotReduce

/-- VCVT, VCVTQ, VCULT and VCULTDROP. -/
def Obligations.VectorConversions : Prop := Claim.ConversionAndCulture

/-- Vector loads and stores, first-fault and reissued forms. -/
def Obligations.VectorMemory : Prop := Claim.VectorMemory

/-- TLD, TST, WLD, MMT and MMS, and the halt of a poisoned row. -/
def Obligations.TilesAndArray : Prop := Claim.TileMoves ∧ Claim.ArrayInstructions ∧ Claim.PoisonRowHalts

/-- SIGNAL, SEMSET, SEMRD and WAIT with its release. -/
def Obligations.SemaphoresAndWaits : Prop := Claim.SemaphoreInstructions ∧ Claim.WaitAndRelease

/-- RSIGNAL, the arrival of a signal, and fences with the effects they hold. -/
def Obligations.RemoteSignalsAndFences : Prop := Claim.RemoteSignal ∧ Claim.SignalArrives ∧ Claim.Fences

/-- BAR and what a node does with an arrival by its epoch. -/
def Obligations.BarrierArrivals : Prop := Claim.BarIssue ∧ Claim.BarrierArrivals

/-- Barrier reports and release, and the iron's visits. -/
def Obligations.BarrierCompletionAndIron : Prop := Claim.BarrierReports ∧ Claim.BarrierRelease ∧ Claim.IronVisit

/-- SNQ, KNQ, SRESUME and KNRESUME. -/
def Obligations.DescriptorQueues : Prop := Claim.Enqueue

/-- COPY, FILL and CONVERT move their rows in order, and write nothing else. -/
def Obligations.StreamTransfers : Prop := Claim.StreamTransfers ∧ Claim.StreamRow

/-- Completion of stream and knife descriptors, and migration of cave pages. -/
def Obligations.DescriptorCompletions : Prop := Claim.StreamCompletion ∧ Claim.KnifeCompletion ∧ Claim.CaveMigration

/-- GATHER, SCATTER and SCATTER_ADD in ascending order, and the faults of an element. -/
def Obligations.KnifeTransfers : Prop := Claim.KnifeTransfers ∧ Claim.KnifeElementFaults

/-- A press takes and completes its ring entries. -/
def Obligations.PressDescriptors : Prop := Claim.PressTakes ∧ Claim.PressCompletion

/-- Press arithmetic on all lanes, loads, stores and the end of an iteration. -/
def Obligations.PressInstructions : Prop := Claim.PressArithmetic ∧ Claim.PressLoadStoreEnd

/-- PUT, GET, PUT_GROUP, PUT_SET and ALLREDUCE that the engine accepts. -/
def Obligations.FabricTransfers : Prop := Claim.FabricSends ∧ Claim.FabricSetAndReduce

/-- Completion and verdict of a fabric transfer, and the order of an all-reduce. -/
def Obligations.FabricResults : Prop := Claim.FabricCompletion ∧ Claim.FabricVerdicts ∧ Claim.ReduceOrder

/-- A peer's packets against its grants, and the keys of link sessions. -/
def Obligations.PeersAndSessions : Prop := Claim.PeerTraffic ∧ Claim.LinkSessions

/-- Frames of a port, its replay, its going down and its retrain. -/
def Obligations.LinkFramesAndPorts : Prop := Claim.LinkFrames ∧ Claim.PortLife

/-- Routes, joining a fabric domain, and a head's failover. -/
def Obligations.RoutesAndJoining : Prop := Claim.Routing ∧ Claim.JoiningAndHead

/-- A ring takes a record and writes its completion. -/
def Obligations.CompletionRecords : Prop := Claim.CompletionRecord ∧ Claim.RecordTaken

/-- Rings enabled and disabled, multicast groups and peer grants. -/
def Obligations.RingsAndGrants : Prop := Claim.Rings ∧ Claim.MulticastGroups ∧ Claim.PeerGrants

/-- ADMIT accepted, and refused with its first failure. -/
def Obligations.Admission : Prop := Claim.JobAdmission ∧ Claim.AdmissionRefused

/-- STEP, RELEASE and a reserved bit of a CONTROL record. -/
def Obligations.StepsAndRelease : Prop := Claim.JobStep ∧ Claim.JobRelease ∧ Claim.ControlReserved

/-- Segment, barrier and group-table loads, all or nothing. -/
def Obligations.TableLoads : Prop := Claim.SegmentLoad ∧ Claim.BarrierLoad ∧ Claim.GroupLoad

/-- The HDM window, CAVE_MAP and the CXL links. -/
def Obligations.HostWindow : Prop := Claim.HdmWindow ∧ Claim.CaveMapAndLinks

/-- START, STOP and CONTINUE of a core, and windows that R331 refuses. -/
def Obligations.CoreControl : Prop := Claim.RefusedWindows ∧ Claim.CoreStart ∧ Claim.CoreStopContinue

/-- DUMP of a core's state, and the stop at a count. -/
def Obligations.CoreDumps : Prop := Claim.CoreDump ∧ Claim.DumpLayout ∧ Claim.RunToCount

/-- Instruction memory, LOADED flags, the fault log and the registers of the control windows. -/
def Obligations.CoreWindows : Prop := Claim.HalfLoaded ∧ Claim.WindowWrites ∧ Claim.ControlRegisters

/-- Core and row resets from their request to their end. -/
def Obligations.CoreResets : Prop := Claim.CoreResets ∧ Claim.ResetEnds

/-- A checkpoint commits; a takeover holds, restores and resumes a ring group. -/
def Obligations.CheckpointsAndTakeovers : Prop := Claim.CheckpointCommit ∧ Claim.TakeoverBegins ∧ Claim.TakeoverRestores ∧ Claim.TakeoverResume

/-- OPEN, FEED, CLOSE and QUERY of wheels. -/
def Obligations.WheelCommands : Prop := Claim.WheelOpens ∧ Claim.Feeds ∧ Claim.Closes ∧ Claim.Queries

/-- Groups of pictures on the engines, their order, and the damage policy. -/
def Obligations.WheelGroups : Prop := Claim.GroupStarts ∧ Claim.GroupProgress ∧ Claim.DamagePolicy

/-- Ring slots, CONSUMED, clip completions and encoded groups. -/
def Obligations.WheelOutputs : Prop := Claim.SlotWrites ∧ Claim.ConsumedReread ∧ Claim.ClipCompletion ∧ Claim.EncodesGop

/-- The RTP mailbox, the owner's nonces and signatures, and the fuses. -/
def Obligations.MailboxAndOwner : Prop := Claim.Mailbox ∧ Claim.OwnerAuthentication ∧ Claim.Fuses

/-- LOAD_BUNDLE and the order of its checks; SPDM sessions and measurements. -/
def Obligations.BundlesAndAttestation : Prop := Claim.BundleLoad ∧ Claim.SpdmSessions

/-- SET_LAYOUT: its conditions by code, its beginning and its end. -/
def Obligations.PartitionLayouts : Prop := Claim.LayoutBegins ∧ Claim.LayoutConditions ∧ Claim.LayoutEnds

/-- PARTITION_RESET, ZEROIZE and the scrub of a unit. -/
def Obligations.PartitionResetsAndScrubs : Prop := Claim.PartitionResets ∧ Claim.ZeroizeAndScrubs

/-- Reads and writes of dictionary entries: what exists, who may write, and the checks in order. -/
def Obligations.DictionaryAccess : Prop := Claim.DictionaryReads ∧ Claim.DictionaryRights ∧ Claim.DictionaryWrites

/-- Writes that wait on the flash, writes that act at once, and the flash record taking effect. -/
def Obligations.DictionaryEffects : Prop := Claim.JournalledWrites ∧ Claim.LiveWrites ∧ Claim.JournalStored

/-- The supply-sag guard, DICT_ACCESS, the I3C sideband and PLCA. -/
def Obligations.FlashAndSideTransports : Prop := Claim.SupplyGuard ∧ Claim.DictAccess ∧ Claim.I3cSideband ∧ Claim.Plca

/-- OAP sessions, the SEQ of their requests, and bundle chunks. -/
def Obligations.ObjectAccessProtocol : Prop := Claim.OapSessions ∧ Claim.OapRequests ∧ Claim.BundleChunks

/-- Domains doze, wake, leave Deep Rest, gain and lose power. -/
def Obligations.DomainsAndRest : Prop := Claim.DozeEntry ∧ Claim.DozeWake ∧ Claim.DeepRestWake ∧ Claim.DomainSupplies

/-- Island steps, neighbour holds, the thermal trip, power limits and mode changes. -/
def Obligations.ClocksAndHeat : Prop := Claim.ThermalSteps ∧ Claim.ThermalTrip ∧ Claim.PowerLimits ∧ Claim.ModeChanges

/-- Device resets, the first steps of a start, and its timeouts. -/
def Obligations.ResetsAndStart : Prop := Claim.DeviceResets ∧ Claim.FirstSteps ∧ Claim.StartTimeouts

/-- Steps 7 to 11: zeroing, failures, the eye map, and entering On. -/
def Obligations.TestsRepairAndOn : Prop := Claim.TestSteps ∧ Claim.EntersOn ∧ Claim.EyeMap

/-- A lost memory link, a mesh failure and a silent steward. -/
def Obligations.DeviceErrors : Prop := Claim.DeviceErrors
end

