-- ==== Sys2Proof/Laws/Ops.lean ====
section
/-! SUPPORT. What the shared operations over tables, memory, cores and partitions do, stated once. -/

namespace Sys2Proof.Machine

/-! ## Tables -/

theorem Tbl.get?_put_self {α : Type} (t : Tbl α) (n : Nat) (x : α) : (t.put n x).get? n = some x := by
  induction t with
  | nil => simp [Tbl.put, Tbl.get?]
  | cons h t ih =>
    obtain ⟨k, v⟩ := h
    by_cases h1 : n < k
    · simp [Tbl.put, Tbl.get?, h1]
    · by_cases h2 : k = n
      · simp [Tbl.put, Tbl.get?, h2]
      · simp [Tbl.put, Tbl.get?, h1, h2, ih]

theorem Tbl.get?_put_other {α : Type} (t : Tbl α) {n m : Nat} (x : α) (h : m ≠ n) : (t.put n x).get? m = t.get? m := by
  induction t with
  | nil => simp [Tbl.put, Tbl.get?, Ne.symm h]
  | cons hd t ih =>
    obtain ⟨k, v⟩ := hd
    by_cases h1 : n < k
    · simp [Tbl.put, Tbl.get?, *, Ne.symm h]
    · by_cases h2 : k = n
      · subst h2; simp [Tbl.put, Tbl.get?, Ne.symm h]
      · simp [Tbl.put, Tbl.get?, h1, h2, ih]

/-- The entries of a table without some of its keys. -/
theorem Tbl.get?_filter {α : Type} (t : Tbl α) (f : Nat → Bool) (m : Nat) :
    Tbl.get? (t.filter fun e => f e.1) m = if f m then t.get? m else none := by
  induction t with
  | nil => simp [Tbl.get?]
  | cons hd t ih =>
    obtain ⟨k, v⟩ := hd
    by_cases h1 : f k <;> by_cases h2 : k = m <;> simp_all [Tbl.get?]

theorem Tbl.get?_del_self {α : Type} (t : Tbl α) (n : Nat) : (t.del n).get? n = none := by
  simp [Tbl.del, Tbl.get?_filter t (fun k => k != n)]

theorem Tbl.get?_del_other {α : Type} (t : Tbl α) {n m : Nat} (h : m ≠ n) : (t.del n).get? m = t.get? m := by
  simp [Tbl.del, Tbl.get?_filter t (fun k => k != n), h]

@[simp] theorem Tbl.getD_put_self {α : Type} (t : Tbl α) (n : Nat) (x d : α) : (t.put n x).getD n d = x := by
  simp [Tbl.getD, Tbl.get?_put_self]

theorem Tbl.getD_put_other {α : Type} (t : Tbl α) {n m : Nat} (x d : α) (h : m ≠ n) : (t.put n x).getD m d = t.getD m d := by
  simp [Tbl.getD, Tbl.get?_put_other t x h]

/-! ## Cores and partitions -/

@[simp] theorem State.core_setCore (s : State) (c : CoreId) (k : Core) : (s.setCore c k).core c = k := by
  simp [State.core, State.setCore]

theorem State.core_setCore_other (s : State) {c d : CoreId} (k : Core) (h : d ≠ c) : (s.setCore c k).core d = s.core d := by
  have : d.toNat ≠ c.toNat := fun e => h (BitVec.eq_of_toNat_eq e)
  simp [State.core, State.setCore, Tbl.getD_put_other _ _ _ this]

@[simp] theorem State.core_modCore (s : State) (c : CoreId) (f : Core → Core) : (s.modCore c f).core c = f (s.core c) := by
  simp [State.modCore]

theorem State.core_modCore_other (s : State) {c d : CoreId} (f : Core → Core) (h : d ≠ c) : (s.modCore c f).core d = s.core d :=
  s.core_setCore_other _ h

@[simp] theorem State.part_setPart (s : State) (p : Nat) (v : Part) : (s.setPart p v).part p = v := by
  simp [State.part, State.setPart]

theorem State.part_setPart_other (s : State) {p q : Nat} (v : Part) (h : q ≠ p) : (s.setPart p v).part q = s.part q := by
  simp [State.part, State.setPart, Tbl.getD_put_other _ _ _ h]

@[simp] theorem State.part_modPart (s : State) (p : Nat) (f : Part → Part) : (s.modPart p f).part p = f (s.part p) := by
  simp [State.modPart]

theorem State.part_modPart_other (s : State) {p q : Nat} (f : Part → Part) (h : q ≠ p) : (s.modPart p f).part q = s.part q :=
  s.part_setPart_other _ h

/-! ## Registers -/

@[simp] theorem CoreRegs.readX_zero (g : CoreRegs) : g.readX 0 = 0 := by simp [CoreRegs.readX]

@[simp] theorem CoreRegs.writeX_zero (g : CoreRegs) (v : Word) (m : Bool) : g.writeX 0 v m = g := by simp [CoreRegs.writeX]

theorem CoreRegs.readX_writeX (g : CoreRegs) {r : Nat} (v : Word) (m : Bool) (h0 : r ≠ 0) (h : r < 32) :
    (g.writeX r v m).readX r = v := by
  have : ¬ 32 ≤ r := by omega
  simp [CoreRegs.readX, CoreRegs.writeX, h0, this, h]

theorem CoreRegs.readX_writeX_other (g : CoreRegs) {r q : Nat} (v : Word) (m : Bool) (h : q ≠ r) :
    (g.writeX r v m).readX q = g.readX q := by
  unfold CoreRegs.readX CoreRegs.writeX
  split
  · rfl
  · split
    · rfl
    · simp [Ne.symm h]

/-! ## Memory: the canonical form is kept, and a byte reads as last written (R171) -/

theorem Memory.wfFrom_mono {m : Memory} {lo lo' : Nat} (h : Memory.wfFrom lo m = true) (hl : lo' ≤ lo) : Memory.wfFrom lo' m = true := by
  cases m with
  | nil => rfl
  | cons c t =>
    obtain ⟨k, v⟩ := c
    simp only [Memory.wfFrom, Bool.and_eq_true, decide_eq_true_eq] at h ⊢
    exact ⟨⟨by omega, h.1.2⟩, h.2⟩

theorem Memory.consCell_wfFrom {t : Memory} {a lo : Nat} (b : Byte) (hlo : lo ≤ a) (h : Memory.wfFrom (a + 1) t = true) :
    Memory.wfFrom lo (Memory.consCell a b t) = true := by
  unfold Memory.consCell
  split
  · exact Memory.wfFrom_mono h (by omega)
  · simp_all [Memory.wfFrom]

theorem Memory.write_wfFrom {m : Memory} {lo a : Nat} (b : Byte) (h : Memory.wfFrom lo m = true) (ha : lo ≤ a) :
    Memory.wfFrom lo (Memory.write m a b) = true := by
  induction m generalizing lo with
  | nil => exact Memory.consCell_wfFrom b ha rfl
  | cons c t ih =>
    obtain ⟨k, v⟩ := c
    simp only [Memory.wfFrom, Bool.and_eq_true, decide_eq_true_eq] at h
    unfold Memory.write
    split
    · apply Memory.consCell_wfFrom b ha
      simp only [Memory.wfFrom, Bool.and_eq_true, decide_eq_true_eq]
      exact ⟨⟨by omega, h.1.2⟩, h.2⟩
    · split
      · subst_vars
        exact Memory.consCell_wfFrom b ha h.2
      · simp only [Memory.wfFrom, Bool.and_eq_true, decide_eq_true_eq]
        exact ⟨h.1, ih h.2 (by omega)⟩

/-- A byte written keeps the canonical form. -/
theorem Memory.write_wf {m : Memory} (a : Nat) (b : Byte) (h : m.wf = true) : (Memory.write m a b).wf = true :=
  Memory.write_wfFrom b h (Nat.zero_le a)

/-- Bytes written keep the canonical form. -/
theorem Memory.writeBytes_wf {m : Memory} (a : Nat) (l : List Byte) (h : m.wf = true) : (Memory.writeBytes m a l).wf = true := by
  induction l generalizing m a with
  | nil => exact h
  | cons b t ih => exact ih _ (Memory.write_wf a b h)

theorem Memory.filter_wfFrom {m : Memory} {lo : Nat} (p : Host.Cell → Bool) (h : Memory.wfFrom lo m = true) :
    Memory.wfFrom lo (m.filter p) = true := by
  induction m generalizing lo with
  | nil => rfl
  | cons c t ih =>
    obtain ⟨k, v⟩ := c
    simp only [Memory.wfFrom, Bool.and_eq_true, decide_eq_true_eq] at h
    rw [List.filter_cons]
    split
    · simp only [Memory.wfFrom, Bool.and_eq_true, decide_eq_true_eq]
      exact ⟨h.1, ih h.2⟩
    · exact Memory.wfFrom_mono (ih h.2) (by omega)

/-- Leaving cells out keeps the canonical form. -/
theorem Memory.filter_wf {m : Memory} (p : Host.Cell → Bool) (h : m.wf = true) : Memory.wf (m.filter p) = true :=
  Memory.filter_wfFrom p h

/-- A range cleared keeps the canonical form. -/
theorem Memory.clearRange_wf {m : Memory} (a b : Nat) (h : m.wf = true) : (Memory.clearRange m a b).wf = true :=
  Memory.filter_wf _ h

theorem Memory.foldl_wf {α : Type} (f : Memory → α → Memory) (hf : ∀ m x, m.wf = true → (f m x).wf = true) (l : List α) {m : Memory}
    (h : m.wf = true) : (l.foldl f m).wf = true := by
  induction l generalizing m with
  | nil => exact h
  | cons x t ih => exact ih (hf m x h)

theorem Memory.read_below {m : Memory} {lo a : Nat} (h : Memory.wfFrom lo m = true) (ha : a < lo) : Memory.read m a = Memory.blank := by
  cases m with
  | nil => rfl
  | cons c t =>
    obtain ⟨k, v⟩ := c
    simp only [Memory.wfFrom, Bool.and_eq_true, decide_eq_true_eq] at h
    have h1 : ¬ k = a := by omega
    have h2 : a < k := by omega
    simp [Memory.read, h1, h2]

theorem Memory.read_consCell {t : Memory} {a : Nat} (b : Byte) (h : Memory.wfFrom (a + 1) t = true) (x : Nat) :
    Memory.read (Memory.consCell a b t) x = if x = a then b else Memory.read t x := by
  unfold Memory.consCell
  split
  · subst_vars
    split
    · subst_vars; exact Memory.read_below h (by omega)
    · rfl
  · by_cases hx : x = a
    · simp [Memory.read, hx]
    · by_cases hl : x < a
      · simp [Memory.read, hx, Ne.symm hx, hl, Memory.read_below h (show x < a + 1 by omega)]
      · simp [Memory.read, hx, Ne.symm hx, hl]

end Sys2Proof.Machine
end

