-- ==== Sys2Proof/Laws/Issue.lean ====
section
/-! SUPPORT. What the issue of an instruction does, stated once (R59–R67, R78, R87, R96, R479). -/

namespace Sys2Proof.Machine

/-! ## Changes of one core -/

theorem SameElsewhere.refl (c : CoreId) (s : State) : SameElsewhere c s s := ⟨rfl, fun _ _ => rfl⟩

theorem SameElsewhere.trans {c : CoreId} {s t u : State} (h : SameElsewhere c s t) (h' : SameElsewhere c t u) : SameElsewhere c s u := by
  refine ⟨?_, fun d hd => (h'.cores d hd).trans (h.cores d hd)⟩
  have h1 := h'.device
  have h2 := h.device
  cases s; cases t; cases u; simp_all

theorem SameElsewhere.modCore (c : CoreId) (s : State) (f : Core → Core) : SameElsewhere c s (s.modCore c f) :=
  ⟨rfl, fun _ hd => s.core_modCore_other f hd⟩

/-- What counting and auditing may change of a core: its performance counters, its audit counts and its log. -/
structure SameIssue (a b : Core) : Prop where
  regs : b.regs = a.regs
  flight : b.flight = a.flight
  count : b.sys.issueCount = a.sys.issueCount
  pc : b.ctl.pc = a.ctl.pc
  state : b.ctl.state = a.ctl.state
  hold : b.ctl.hold = a.ctl.hold
  half : b.ctl.half = a.ctl.half
  handler : b.ctl.handler = a.ctl.handler
  audit : b.ctl.audit = a.ctl.audit
  saved : b.ctl.savedLoops = a.ctl.savedLoops
  epc : b.sys.epc = a.sys.epc
  trap : b.sys.trapEnable = a.sys.trapEnable
  tvec : b.sys.tvec = a.sys.tvec
  imem : b.ctl.imem = a.ctl.imem

theorem SameIssue.refl (a : Core) : SameIssue a a := by constructor <;> rfl

theorem SameIssue.trans {a b d : Core} (h : SameIssue a b) (h' : SameIssue b d) : SameIssue a d := by
  constructor
  · rw [h'.regs, h.regs]
  · rw [h'.flight, h.flight]
  · rw [h'.count, h.count]
  · rw [h'.pc, h.pc]
  · rw [h'.state, h.state]
  · rw [h'.hold, h.hold]
  · rw [h'.half, h.half]
  · rw [h'.handler, h.handler]
  · rw [h'.audit, h.audit]
  · rw [h'.saved, h.saved]
  · rw [h'.epc, h.epc]
  · rw [h'.trap, h.trap]
  · rw [h'.tvec, h.tvec]
  · rw [h'.imem, h.imem]

theorem CoreCtl.logFault_same (k : Core) (e : FaultEntry) : SameIssue k { k with ctl := k.ctl.logFault e } := by
  constructor <;> rfl

/-- Counting an event changes the core's performance counters alone (R462). -/
theorem State.countPerf_spec (s : State) (c : CoreId) (code n : Nat) :
    SameElsewhere c s (s.countPerf c code n) ∧ SameIssue (s.core c) ((s.countPerf c code n).core c) := by
  unfold State.countPerf
  split
  · exact ⟨.modCore .., by rw [State.core_modCore]; constructor <;> rfl⟩
  · exact ⟨.refl .., .refl _⟩

/-- Logging a fault changes the core's log alone (R100). -/
theorem State.logFault_spec (s : State) (c : CoreId) (e : FaultEntry) :
    SameElsewhere c s (s.logFault c e) ∧ SameIssue (s.core c) ((s.logFault c e).core c) := by
  unfold State.logFault
  exact ⟨.modCore .., by rw [State.core_modCore]; exact CoreCtl.logFault_same ..⟩

theorem State.auditEvent_spec (s : State) (c : CoreId) (code : Nat) (i : BitVec 14) (h : Bool) (n : Word) :
    SameElsewhere c s (s.auditEvent c code i h n) ∧ SameIssue (s.core c) ((s.auditEvent c code i h n).core c) := by
  unfold State.auditEvent
  have h2 := State.logFault_spec (s.modCore c fun k => { k with sys :=
    if code = 0x20 then { k.sys with staleReads := k.sys.staleReads + 1 } else { k.sys with writeRaces := k.sys.writeRaces + 1 } }) c
    { code := BitVec.ofNat 8 code, cls := .audit, detail := 0, index := i, half := h, count := n, addr := 0, aux := 0 }
  refine ⟨(SameElsewhere.modCore ..).trans h2.1, SameIssue.trans ?_ h2.2⟩
  rw [State.core_modCore]
  by_cases hc : code = 0x20 <;> simp only [hc, if_true, if_false] <;> constructor <;> rfl

theorem State.auditStop_spec {s : State} {c : CoreId} (h : (s.core c).ctl.audit ≠ 2) :
    SameElsewhere c s (s.auditStop c) ∧ SameIssue (s.core c) ((s.auditStop c).core c) := by
  unfold State.auditStop
  refine ⟨.modCore .., ?_⟩
  rw [State.core_modCore]
  simp only [h, false_and, if_false]
  exact .refl _

theorem foldl_audit_spec {α : Type} (l : List α) (s : State) (c : CoreId) (code : Nat) (i : BitVec 14) (h : Bool) (n : Word) :
    SameElsewhere c s (l.foldl (fun s _ => s.auditEvent c code i h n) s)
      ∧ SameIssue (s.core c) ((l.foldl (fun s _ => s.auditEvent c code i h n) s).core c) := by
  induction l generalizing s with
  | nil => exact ⟨.refl .., .refl _⟩
  | cons x t ih =>
    have h1 := s.auditEvent_spec c code i h n
    have h2 := ih (s.auditEvent c code i h n)
    exact ⟨h1.1.trans h2.1, h1.2.trans h2.2⟩

/-- Auditing an issue changes the audit counts and the log alone, where audit does not stop the core (R87). -/
theorem auditIssue_spec {s : State} {c : CoreId} (old added : List Sched) (reads : List Nat) (p : Place) (h : (s.core c).ctl.audit ≠ 2) :
    SameElsewhere c s (auditIssue c old added reads p s) ∧ SameIssue (s.core c) ((auditIssue c old added reads p s).core c) := by
  unfold auditIssue
  split
  · exact ⟨.refl .., .refl _⟩
  · dsimp only
    split
    · exact ⟨.refl .., .refl _⟩
    · have h1 := foldl_audit_spec (reads.filter fun r => r != 0 && (pendingWrites old).any fun q => q.1 == r) s c 0x20 p.index p.half p.count
      have h2 := foldl_audit_spec ((pendingWrites added).filter fun q => (pendingWrites old).any fun o => o.1 == q.1 && decide (q.2 ≤ o.2))
        ((reads.filter fun r => r != 0 && (pendingWrites old).any fun q => q.1 == r).foldl (fun s _ => s.auditEvent c 0x20 p.index p.half p.count) s)
        c 0x21 p.index p.half p.count
      have h3 := State.auditStop_spec (s := _) (c := c) (by rw [h2.2.audit, h1.2.audit]; exact h)
      exact ⟨(h1.1.trans h2.1).trans h3.1, (h1.2.trans h2.2).trans h3.2⟩

/-! ## Issue -/

theorem Issue.cleared_core (x : Issue) : x.cleared.core = x.core := by unfold Issue.cleared; split <;> rfl
theorem Issue.cleared_w (x : Issue) : x.cleared.w = x.w := by unfold Issue.cleared; split <;> rfl
theorem Issue.cleared_now (x : Issue) : x.cleared.now = x.now := by unfold Issue.cleared; split <;> rfl
theorem Issue.cleared_k (x : Issue) : x.cleared.k.ctl = x.k.ctl ∧ x.cleared.k.flight = x.k.flight ∧ x.cleared.k.sys = x.k.sys := by
  unfold Issue.cleared; split <;> simp

@[simp] theorem State.nextIssue_core (s : State) (c : CoreId) : (s.nextIssue c).core = c := Issue.cleared_core _
@[simp] theorem State.nextIssue_w (s : State) (c : CoreId) : (s.nextIssue c).w = s.nextWord c := Issue.cleared_w _
@[simp] theorem State.nextIssue_now (s : State) (c : CoreId) : (s.nextIssue c).now = (s.core c).flight.now := Issue.cleared_now _
@[simp] theorem State.nextIssue_ctl (s : State) (c : CoreId) : (s.nextIssue c).k.ctl = { (s.coreAtIssue c).ctl with reissue := false } := by
  unfold State.nextIssue; rw [(Issue.cleared_k _).1]; simp [Core.counted, State.coreAtIssue]
@[simp] theorem State.nextIssue_flight (s : State) (c : CoreId) : (s.nextIssue c).k.flight = (s.coreAtIssue c).flight := by
  unfold State.nextIssue; rw [(Issue.cleared_k _).2.1]; simp [Core.counted, State.coreAtIssue]
theorem State.nextIssue_sys (s : State) (c : CoreId) : (s.nextIssue c).k.sys = { (s.coreAtIssue c).sys with issueCount := (s.coreAtIssue c).sys.issueCount + 1 } := by
  unfold State.nextIssue; rw [(Issue.cleared_k _).2.2]; simp [Core.counted, State.coreAtIssue]

theorem State.nextIssue_st_core (s : State) (c : CoreId) : (s.nextIssue c).st.core c = (s.nextIssue c).k := by
  unfold State.nextIssue Issue.cleared
  dsimp only
  split
  · simp [State.modRegs]
  · rfl

theorem State.nextIssue_st (s : State) (c : CoreId) : SameElsewhere c (s.atIssue c) (s.nextIssue c).st := by
  unfold State.nextIssue Issue.cleared
  dsimp only
  split
  · have h := SameElsewhere.modCore c ((s.atIssue c).modCore c Core.counted) fun k => { k with regs := { k.regs with vstart := 0 } }
    exact (SameElsewhere.modCore c (s.atIssue c) Core.counted).trans h
  · exact .modCore ..

/-- The next instruction of a row that it is fetched as, under a predicate that holds, is its meaning's: the
effect, or the fault it raises. -/
theorem issue_of_issues {r : CoreRow} {c : CoreId} {s : State} (h : Issues r c s) (body : Issue → Except FaultReq Effect) :
    issue r c body s = match body (s.nextIssue c) with
      | .error f => takeFault c f (s.nextPlace c) (s.nextIssue c).st
      | .ok e => finishIssue (s.nextIssue c) r.unit (s.nextPlace c) e := by
  have h0 := h.clocked
  have h1 := h.can
  have h1' := h.canBefore
  have h2 : ¬ 16383 < ((runTo c (s.core c).flight.now (runTo c ((s.core c).flight.now - 1) s)).core c).ctl.pc := by
    have := h.inMemory; unfold State.coreAtIssue State.atIssue at this; omega
  have h3 := h.unmarked
  have h4 := h.owned
  have h5 := h.predicate
  have h6 := h.reached
  have h7 := h.sound
  unfold issue
  dsimp only
  rw [if_neg (by simp [h0, h1]), if_neg (by simp [h1']), if_neg h2]
  unfold State.nextWord State.coreAtIssue State.atIssue at h3 h4 h5
  rw [h3]
  dsimp only
  rw [if_neg (by simp [h4]), if_neg (by simp [h5])]
  unfold State.nextWord State.coreAtIssue State.atIssue at h6
  rw [h6]
  dsimp only
  unfold State.nextIssue State.nextWord State.coreAtIssue State.atIssue at h7
  rw [h7]
  rfl

theorem Core.keepStopped_running (k : Core) : k.keepStopped .running = k := rfl

/-- What an instruction with no fault of its own leaves before its flow is applied. -/
structure BeforeFlow (r : CoreRow) (c : CoreId) (s v : State) (e : Effect) : Prop where
  elsewhere : SameElsewhere c e.st v
  same : SameIssue ((e.st.core c).accept (s.nextIssue c) r.unit (s.nextPlace c) e) (v.core c)

/-- The flow of an instruction with no fault of its own is applied to a state that differs from the accepted one in
counters and log alone (R79, R80, R87). -/
theorem finishIssue_flow_of {r : CoreRow} {c : CoreId} {s : State} {e : Effect} (hrun : (e.st.core c).ctl.state = .running)
    (haud : (e.st.core c).ctl.audit ≠ 2) (hf : e.fault = none) : ∃ v, BeforeFlow r c s v e ∧
    finishIssue (s.nextIssue c) r.unit (s.nextPlace c) e =
      drainEnded c (v.modCore c fun k => applyFlow (s.coreAtIssue c).ctl.pc (instrWords (s.nextWord c)) e.flow k) := by
  have p := State.countPerf_spec (e.st.modCore c fun k => k.accept (s.nextIssue c) r.unit (s.nextPlace c) e) c 0x01 1
  have hacc := p.2
  rw [State.core_modCore] at hacc
  unfold finishIssue
  simp only [hf, State.nextIssue_core, State.nextIssue_ctl, State.nextIssue_w]
  generalize (e.st.modCore c fun k => k.accept (s.nextIssue c) r.unit (s.nextPlace c) e).countPerf c 0x01 1 = u at p hacc
  have q := auditIssue_spec (s := u) (c := c) (e.st.core c).flight.sched (e.entries (s.nextIssue c) (s.nextPlace c)) e.reads (s.nextPlace c)
    (by rw [hacc.audit]; simpa [Core.accept] using haud)
  generalize auditIssue c (e.st.core c).flight.sched (e.entries (s.nextIssue c) (s.nextPlace c)) e.reads (s.nextPlace c) u = v at q
  have same := hacc.trans q.2
  have hs : (v.core c).ctl.state = .running := by rw [same.state]; simpa [Core.accept] using hrun
  refine ⟨v, ⟨((SameElsewhere.modCore ..).trans p.1).trans q.1, same⟩, ?_⟩
  rw [hs]
  simp only [Core.keepStopped_running]

/-- The same for an instruction whose immediate effect leaves the core's control block as it is. -/
theorem finishIssue_flow {r : CoreRow} {c : CoreId} {s : State} (h : Issues r c s) {e : Effect}
    (hst : (e.st.core c).ctl = (s.nextIssue c).k.ctl) (hf : e.fault = none) : ∃ v, BeforeFlow r c s v e ∧
    finishIssue (s.nextIssue c) r.unit (s.nextPlace c) e =
      drainEnded c (v.modCore c fun k => applyFlow (s.coreAtIssue c).ctl.pc (instrWords (s.nextWord c)) e.flow k) :=
  finishIssue_flow_of (by rw [hst]; simpa using h.going) (by rw [hst]; simpa using h.audited) hf

/-- An instruction with no fault of its own that goes on after some cycles has issued. -/
theorem finishIssue_next {r : CoreRow} {c : CoreId} {s : State} (h : Issues r c s) {e : Effect} {n : Nat} (hst : e.st = (s.nextIssue c).st)
    (hf : e.fault = none) (hfl : e.flow = .next n) :
    Issued c s (finishIssue (s.nextIssue c) r.unit (s.nextPlace c) e) r.unit e.occupancy n e.acts := by
  obtain ⟨v, ⟨el0, same⟩, hv⟩ := finishIssue_flow h (by rw [hst, State.nextIssue_st_core]) hf
  rw [hst] at el0
  rw [hst, State.nextIssue_st_core] at same
  have el := (s.nextIssue_st c).trans el0
  have hs : (v.core c).ctl.state = .running := by rw [same.state]; simpa [Core.accept] using h.going
  rw [hv]
  simp only [drainEnded, hfl, State.core_modCore, applyFlow, hs]
  constructor
  · exact el.trans (.modCore ..)
  · simp only [State.core_modCore]; rw [same.flight]; simp [Core.accept, Effect.entries, State.nextEntries]
  · simp only [State.core_modCore]; rw [same.flight]; simp [Core.accept]
  · simp only [State.core_modCore]; rw [same.regs]; simp [Core.accept]
  · simp only [State.core_modCore]; rw [same.regs]; simp [Core.accept]
  · simp only [State.core_modCore]; rw [same.flight]; simp [Core.accept]
  · simp only [State.core_modCore]; rw [same.count]; simp [Core.accept, State.nextIssue_sys]
  · simp only [State.core_modCore, hs]; simpa using h.going.symm
  · simp only [State.core_modCore]; rw [same.hold]; simp [Core.accept]

/-- An instruction whose meaning answers an effect that leaves the state and goes on after some cycles has issued. -/
theorem issue_next {r : CoreRow} {c : CoreId} {s : State} (h : Issues r c s) {body : Issue → Except FaultReq Effect} {e : Effect} {u o n : Nat}
    {acts : List (Nat × Nat × Act)} (hb : body (s.nextIssue c) = .ok e) (hst : e.st = (s.nextIssue c).st) (hf : e.fault = none)
    (hfl : e.flow = .next n) (hu : r.unit = u) (ho : e.occupancy = o) (ha : e.acts = acts) : Issued c s (issue r c body s) u o n acts := by
  subst hu ho ha
  rw [issue_of_issues h, hb]
  exact finishIssue_next h hst hf hfl

/-- An instruction whose meaning has an immediate effect on a core that goes on running, and nothing else. -/
theorem issue_continues {r : CoreRow} {c : CoreId} {s : State} (h : Issues r c s) {body : Issue → Except FaultReq Effect} {e : Effect} {n : Nat}
    {u : State} (hb : body (s.nextIssue c) = .ok e) (hu : e.st = u) (hrun : (u.core c).ctl.state = .running) (haud : (u.core c).ctl.audit ≠ 2)
    (hf : e.fault = none) (hfl : e.flow = .next n) (ha : e.acts = []) : Continues c s u (issue r c body s) n := by
  subst hu
  rw [issue_of_issues h, hb]
  obtain ⟨v, ⟨el, same⟩, hv⟩ := finishIssue_flow_of (r := r) (c := c) (s := s) hrun haud hf
  have hs : (v.core c).ctl.state = .running := by rw [same.state]; simpa [Core.accept] using hrun
  dsimp only
  rw [hv]
  simp only [drainEnded, hfl, State.core_modCore, applyFlow, hs]
  constructor
  · exact el.trans (.modCore ..)
  · simp only [State.core_modCore]; rw [same.flight]; simp [Core.accept, Effect.entries, ha]
  · simp only [State.core_modCore]; rw [same.flight]; simp [Core.accept]
  · simp only [State.core_modCore]; rw [same.flight]; simp [Core.accept]
  · simp only [State.core_modCore]; rw [same.flight]; simp [Core.accept]
  · simp only [State.core_modCore]; rw [same.regs]; simp [Core.accept]
  · simp only [State.core_modCore]; rw [same.regs]; simp [Core.accept]
  · simp only [State.core_modCore]; rw [same.flight]; simp [Core.accept]
  · simp only [State.core_modCore]; rw [same.count]; simp [Core.accept]
  · simp only [State.core_modCore, hs]; exact hrun.symm

/-- An instruction that holds issue. -/
theorem issue_holds {r : CoreRow} {c : CoreId} {s : State} (h : Issues r c s) {body : Issue → Except FaultReq Effect} {e : Effect} {w : Hold}
    {u : State} (hb : body (s.nextIssue c) = .ok e) (hu : e.st = u) (hrun : (u.core c).ctl.state = .running) (haud : (u.core c).ctl.audit ≠ 2)
    (hf : e.fault = none) (hfl : e.flow = .wait w) (ha : e.acts = []) : Holds c s u (issue r c body s) w := by
  subst hu
  rw [issue_of_issues h, hb]
  obtain ⟨v, ⟨el, same⟩, hv⟩ := finishIssue_flow_of (r := r) (c := c) (s := s) hrun haud hf
  dsimp only
  rw [hv]
  simp only [drainEnded, hfl, State.core_modCore, applyFlow]
  constructor
  · exact el.trans (.modCore ..)
  · simp only [State.core_modCore]; rw [same.flight]; simp [Core.accept, Effect.entries, ha]
  · simp only [State.core_modCore]; rw [same.regs]; simp [Core.accept]
  · simp only [State.core_modCore]; rw [same.regs]; simp [Core.accept]
  · simp only [State.core_modCore]
  · simp only [State.core_modCore]
  · simp only [State.core_modCore]

/-- A meaning whose checks all pass answers its effect. -/
theorem checked_ok {l : List (Option FaultReq)} {e : Effect} (h : ∀ f ∈ l, f = none) : checked l e = .ok e := by
  have : firstFault l = none := by
    simp only [firstFault, List.findSome?_eq_none_iff]
    exact fun x hx => h x hx
  simp [checked, this]

theorem poisonX_none {g : CoreRegs} {l : List Nat} (h : ∀ r ∈ l, g.markX r = false) : poisonX g l = none := by
  simp only [poisonX, Option.map_eq_none_iff, List.find?_eq_none]
  exact fun r hr => by simp [h r hr]

end Sys2Proof.Machine
end

