-- ==== Sys2Proof/Laws/State.lean ====
section
/-! SUPPORT. Which fields of the state each of the named updates leaves as they were, one lemma for each field and update. -/

namespace Sys2Proof.Machine

/-! ## `push` -/

@[simp] theorem State.push_free (s : State) (i : Instr) : (s.push i).free = s.free := rfl
@[simp] theorem State.push_mem (s : State) (i : Instr) : (s.push i).mem = s.mem := rfl
@[simp] theorem State.push_marks (s : State) (i : Instr) : (s.push i).marks = s.marks := rfl
@[simp] theorem State.push_sealed (s : State) (i : Instr) : (s.push i).sealed = s.sealed := rfl
@[simp] theorem State.push_cores (s : State) (i : Instr) : (s.push i).cores = s.cores := rfl
@[simp] theorem State.push_signals (s : State) (i : Instr) : (s.push i).signals = s.signals := rfl
@[simp] theorem State.push_arrivals (s : State) (i : Instr) : (s.push i).arrivals = s.arrivals := rfl
@[simp] theorem State.push_parts (s : State) (i : Instr) : (s.push i).parts = s.parts := rfl
@[simp] theorem State.push_intake (s : State) (i : Instr) : (s.push i).intake = s.intake := rfl
@[simp] theorem State.push_press (s : State) (i : Instr) : (s.push i).press = s.press := rfl
@[simp] theorem State.push_fabric (s : State) (i : Instr) : (s.push i).fabric = s.fabric := rfl
@[simp] theorem State.push_host (s : State) (i : Instr) : (s.push i).host = s.host := rfl
@[simp] theorem State.push_rtp (s : State) (i : Instr) : (s.push i).rtp = s.rtp := rfl
@[simp] theorem State.push_dict (s : State) (i : Instr) : (s.push i).dict = s.dict := rfl
@[simp] theorem State.push_power (s : State) (i : Instr) : (s.push i).power = s.power := rfl
@[simp] theorem State.push_start (s : State) (i : Instr) : (s.push i).start = s.start := rfl
@[simp] theorem State.push_errors (s : State) (i : Instr) : (s.push i).errors = s.errors := rfl

/-! ## `fresh` -/

@[simp] theorem State.fresh_pending (s : State) : (s.fresh.2).pending = s.pending := rfl
@[simp] theorem State.fresh_mem (s : State) : (s.fresh.2).mem = s.mem := rfl
@[simp] theorem State.fresh_marks (s : State) : (s.fresh.2).marks = s.marks := rfl
@[simp] theorem State.fresh_sealed (s : State) : (s.fresh.2).sealed = s.sealed := rfl
@[simp] theorem State.fresh_cores (s : State) : (s.fresh.2).cores = s.cores := rfl
@[simp] theorem State.fresh_signals (s : State) : (s.fresh.2).signals = s.signals := rfl
@[simp] theorem State.fresh_arrivals (s : State) : (s.fresh.2).arrivals = s.arrivals := rfl
@[simp] theorem State.fresh_parts (s : State) : (s.fresh.2).parts = s.parts := rfl
@[simp] theorem State.fresh_intake (s : State) : (s.fresh.2).intake = s.intake := rfl
@[simp] theorem State.fresh_press (s : State) : (s.fresh.2).press = s.press := rfl
@[simp] theorem State.fresh_fabric (s : State) : (s.fresh.2).fabric = s.fabric := rfl
@[simp] theorem State.fresh_host (s : State) : (s.fresh.2).host = s.host := rfl
@[simp] theorem State.fresh_rtp (s : State) : (s.fresh.2).rtp = s.rtp := rfl
@[simp] theorem State.fresh_dict (s : State) : (s.fresh.2).dict = s.dict := rfl
@[simp] theorem State.fresh_power (s : State) : (s.fresh.2).power = s.power := rfl
@[simp] theorem State.fresh_start (s : State) : (s.fresh.2).start = s.start := rfl
@[simp] theorem State.fresh_errors (s : State) : (s.fresh.2).errors = s.errors := rfl

/-! ## `store` -/

@[simp] theorem State.store_pending (s : State) (a : Nat) (data : List Byte) (m : Bool) : (s.store a data m).pending = s.pending := rfl
@[simp] theorem State.store_free (s : State) (a : Nat) (data : List Byte) (m : Bool) : (s.store a data m).free = s.free := rfl
@[simp] theorem State.store_sealed (s : State) (a : Nat) (data : List Byte) (m : Bool) : (s.store a data m).sealed = s.sealed := rfl
@[simp] theorem State.store_cores (s : State) (a : Nat) (data : List Byte) (m : Bool) : (s.store a data m).cores = s.cores := rfl
@[simp] theorem State.store_signals (s : State) (a : Nat) (data : List Byte) (m : Bool) : (s.store a data m).signals = s.signals := rfl
@[simp] theorem State.store_arrivals (s : State) (a : Nat) (data : List Byte) (m : Bool) : (s.store a data m).arrivals = s.arrivals := rfl
@[simp] theorem State.store_parts (s : State) (a : Nat) (data : List Byte) (m : Bool) : (s.store a data m).parts = s.parts := rfl
@[simp] theorem State.store_intake (s : State) (a : Nat) (data : List Byte) (m : Bool) : (s.store a data m).intake = s.intake := rfl
@[simp] theorem State.store_press (s : State) (a : Nat) (data : List Byte) (m : Bool) : (s.store a data m).press = s.press := rfl
@[simp] theorem State.store_fabric (s : State) (a : Nat) (data : List Byte) (m : Bool) : (s.store a data m).fabric = s.fabric := rfl
@[simp] theorem State.store_host (s : State) (a : Nat) (data : List Byte) (m : Bool) : (s.store a data m).host = s.host := rfl
@[simp] theorem State.store_rtp (s : State) (a : Nat) (data : List Byte) (m : Bool) : (s.store a data m).rtp = s.rtp := rfl
@[simp] theorem State.store_dict (s : State) (a : Nat) (data : List Byte) (m : Bool) : (s.store a data m).dict = s.dict := rfl
@[simp] theorem State.store_power (s : State) (a : Nat) (data : List Byte) (m : Bool) : (s.store a data m).power = s.power := rfl
@[simp] theorem State.store_start (s : State) (a : Nat) (data : List Byte) (m : Bool) : (s.store a data m).start = s.start := rfl
@[simp] theorem State.store_errors (s : State) (a : Nat) (data : List Byte) (m : Bool) : (s.store a data m).errors = s.errors := rfl

/-! ## `storeRuns` -/

@[simp] theorem State.storeRuns_pending (s : State) (c : CoreId) (runs : List (Nat × List Byte)) (m : Bool) : (s.storeRuns c runs m).pending = s.pending := rfl
@[simp] theorem State.storeRuns_free (s : State) (c : CoreId) (runs : List (Nat × List Byte)) (m : Bool) : (s.storeRuns c runs m).free = s.free := rfl
@[simp] theorem State.storeRuns_sealed (s : State) (c : CoreId) (runs : List (Nat × List Byte)) (m : Bool) : (s.storeRuns c runs m).sealed = s.sealed := rfl
@[simp] theorem State.storeRuns_cores (s : State) (c : CoreId) (runs : List (Nat × List Byte)) (m : Bool) : (s.storeRuns c runs m).cores = s.cores := rfl
@[simp] theorem State.storeRuns_signals (s : State) (c : CoreId) (runs : List (Nat × List Byte)) (m : Bool) : (s.storeRuns c runs m).signals = s.signals := rfl
@[simp] theorem State.storeRuns_arrivals (s : State) (c : CoreId) (runs : List (Nat × List Byte)) (m : Bool) : (s.storeRuns c runs m).arrivals = s.arrivals := rfl
@[simp] theorem State.storeRuns_parts (s : State) (c : CoreId) (runs : List (Nat × List Byte)) (m : Bool) : (s.storeRuns c runs m).parts = s.parts := rfl
@[simp] theorem State.storeRuns_intake (s : State) (c : CoreId) (runs : List (Nat × List Byte)) (m : Bool) : (s.storeRuns c runs m).intake = s.intake := rfl
@[simp] theorem State.storeRuns_press (s : State) (c : CoreId) (runs : List (Nat × List Byte)) (m : Bool) : (s.storeRuns c runs m).press = s.press := rfl
@[simp] theorem State.storeRuns_fabric (s : State) (c : CoreId) (runs : List (Nat × List Byte)) (m : Bool) : (s.storeRuns c runs m).fabric = s.fabric := rfl
@[simp] theorem State.storeRuns_host (s : State) (c : CoreId) (runs : List (Nat × List Byte)) (m : Bool) : (s.storeRuns c runs m).host = s.host := rfl
@[simp] theorem State.storeRuns_rtp (s : State) (c : CoreId) (runs : List (Nat × List Byte)) (m : Bool) : (s.storeRuns c runs m).rtp = s.rtp := rfl
@[simp] theorem State.storeRuns_dict (s : State) (c : CoreId) (runs : List (Nat × List Byte)) (m : Bool) : (s.storeRuns c runs m).dict = s.dict := rfl
@[simp] theorem State.storeRuns_power (s : State) (c : CoreId) (runs : List (Nat × List Byte)) (m : Bool) : (s.storeRuns c runs m).power = s.power := rfl
@[simp] theorem State.storeRuns_start (s : State) (c : CoreId) (runs : List (Nat × List Byte)) (m : Bool) : (s.storeRuns c runs m).start = s.start := rfl
@[simp] theorem State.storeRuns_errors (s : State) (c : CoreId) (runs : List (Nat × List Byte)) (m : Bool) : (s.storeRuns c runs m).errors = s.errors := rfl

/-! ## `zeroSpan` -/

@[simp] theorem State.zeroSpan_pending (s : State) (a n : Nat) : (s.zeroSpan a n).pending = s.pending := rfl
@[simp] theorem State.zeroSpan_free (s : State) (a n : Nat) : (s.zeroSpan a n).free = s.free := rfl
@[simp] theorem State.zeroSpan_cores (s : State) (a n : Nat) : (s.zeroSpan a n).cores = s.cores := rfl
@[simp] theorem State.zeroSpan_signals (s : State) (a n : Nat) : (s.zeroSpan a n).signals = s.signals := rfl
@[simp] theorem State.zeroSpan_arrivals (s : State) (a n : Nat) : (s.zeroSpan a n).arrivals = s.arrivals := rfl
@[simp] theorem State.zeroSpan_parts (s : State) (a n : Nat) : (s.zeroSpan a n).parts = s.parts := rfl
@[simp] theorem State.zeroSpan_intake (s : State) (a n : Nat) : (s.zeroSpan a n).intake = s.intake := rfl
@[simp] theorem State.zeroSpan_press (s : State) (a n : Nat) : (s.zeroSpan a n).press = s.press := rfl
@[simp] theorem State.zeroSpan_fabric (s : State) (a n : Nat) : (s.zeroSpan a n).fabric = s.fabric := rfl
@[simp] theorem State.zeroSpan_host (s : State) (a n : Nat) : (s.zeroSpan a n).host = s.host := rfl
@[simp] theorem State.zeroSpan_rtp (s : State) (a n : Nat) : (s.zeroSpan a n).rtp = s.rtp := rfl
@[simp] theorem State.zeroSpan_dict (s : State) (a n : Nat) : (s.zeroSpan a n).dict = s.dict := rfl
@[simp] theorem State.zeroSpan_power (s : State) (a n : Nat) : (s.zeroSpan a n).power = s.power := rfl
@[simp] theorem State.zeroSpan_start (s : State) (a n : Nat) : (s.zeroSpan a n).start = s.start := rfl
@[simp] theorem State.zeroSpan_errors (s : State) (a n : Nat) : (s.zeroSpan a n).errors = s.errors := rfl

/-! ## `setCore` -/

@[simp] theorem State.setCore_pending (s : State) (c : CoreId) (k : Core) : (s.setCore c k).pending = s.pending := rfl
@[simp] theorem State.setCore_free (s : State) (c : CoreId) (k : Core) : (s.setCore c k).free = s.free := rfl
@[simp] theorem State.setCore_mem (s : State) (c : CoreId) (k : Core) : (s.setCore c k).mem = s.mem := rfl
@[simp] theorem State.setCore_marks (s : State) (c : CoreId) (k : Core) : (s.setCore c k).marks = s.marks := rfl
@[simp] theorem State.setCore_sealed (s : State) (c : CoreId) (k : Core) : (s.setCore c k).sealed = s.sealed := rfl
@[simp] theorem State.setCore_signals (s : State) (c : CoreId) (k : Core) : (s.setCore c k).signals = s.signals := rfl
@[simp] theorem State.setCore_arrivals (s : State) (c : CoreId) (k : Core) : (s.setCore c k).arrivals = s.arrivals := rfl
@[simp] theorem State.setCore_parts (s : State) (c : CoreId) (k : Core) : (s.setCore c k).parts = s.parts := rfl
@[simp] theorem State.setCore_intake (s : State) (c : CoreId) (k : Core) : (s.setCore c k).intake = s.intake := rfl
@[simp] theorem State.setCore_press (s : State) (c : CoreId) (k : Core) : (s.setCore c k).press = s.press := rfl
@[simp] theorem State.setCore_fabric (s : State) (c : CoreId) (k : Core) : (s.setCore c k).fabric = s.fabric := rfl
@[simp] theorem State.setCore_host (s : State) (c : CoreId) (k : Core) : (s.setCore c k).host = s.host := rfl
@[simp] theorem State.setCore_rtp (s : State) (c : CoreId) (k : Core) : (s.setCore c k).rtp = s.rtp := rfl
@[simp] theorem State.setCore_dict (s : State) (c : CoreId) (k : Core) : (s.setCore c k).dict = s.dict := rfl
@[simp] theorem State.setCore_power (s : State) (c : CoreId) (k : Core) : (s.setCore c k).power = s.power := rfl
@[simp] theorem State.setCore_start (s : State) (c : CoreId) (k : Core) : (s.setCore c k).start = s.start := rfl
@[simp] theorem State.setCore_errors (s : State) (c : CoreId) (k : Core) : (s.setCore c k).errors = s.errors := rfl

/-! ## `modCore` -/

@[simp] theorem State.modCore_pending (s : State) (c : CoreId) (f : Core → Core) : (s.modCore c f).pending = s.pending := rfl
@[simp] theorem State.modCore_free (s : State) (c : CoreId) (f : Core → Core) : (s.modCore c f).free = s.free := rfl
@[simp] theorem State.modCore_mem (s : State) (c : CoreId) (f : Core → Core) : (s.modCore c f).mem = s.mem := rfl
@[simp] theorem State.modCore_marks (s : State) (c : CoreId) (f : Core → Core) : (s.modCore c f).marks = s.marks := rfl
@[simp] theorem State.modCore_sealed (s : State) (c : CoreId) (f : Core → Core) : (s.modCore c f).sealed = s.sealed := rfl
@[simp] theorem State.modCore_signals (s : State) (c : CoreId) (f : Core → Core) : (s.modCore c f).signals = s.signals := rfl
@[simp] theorem State.modCore_arrivals (s : State) (c : CoreId) (f : Core → Core) : (s.modCore c f).arrivals = s.arrivals := rfl
@[simp] theorem State.modCore_parts (s : State) (c : CoreId) (f : Core → Core) : (s.modCore c f).parts = s.parts := rfl
@[simp] theorem State.modCore_intake (s : State) (c : CoreId) (f : Core → Core) : (s.modCore c f).intake = s.intake := rfl
@[simp] theorem State.modCore_press (s : State) (c : CoreId) (f : Core → Core) : (s.modCore c f).press = s.press := rfl
@[simp] theorem State.modCore_fabric (s : State) (c : CoreId) (f : Core → Core) : (s.modCore c f).fabric = s.fabric := rfl
@[simp] theorem State.modCore_host (s : State) (c : CoreId) (f : Core → Core) : (s.modCore c f).host = s.host := rfl
@[simp] theorem State.modCore_rtp (s : State) (c : CoreId) (f : Core → Core) : (s.modCore c f).rtp = s.rtp := rfl
@[simp] theorem State.modCore_dict (s : State) (c : CoreId) (f : Core → Core) : (s.modCore c f).dict = s.dict := rfl
@[simp] theorem State.modCore_power (s : State) (c : CoreId) (f : Core → Core) : (s.modCore c f).power = s.power := rfl
@[simp] theorem State.modCore_start (s : State) (c : CoreId) (f : Core → Core) : (s.modCore c f).start = s.start := rfl
@[simp] theorem State.modCore_errors (s : State) (c : CoreId) (f : Core → Core) : (s.modCore c f).errors = s.errors := rfl

/-! ## `modRegs` -/

@[simp] theorem State.modRegs_pending (s : State) (c : CoreId) (f : CoreRegs → CoreRegs) : (s.modRegs c f).pending = s.pending := rfl
@[simp] theorem State.modRegs_free (s : State) (c : CoreId) (f : CoreRegs → CoreRegs) : (s.modRegs c f).free = s.free := rfl
@[simp] theorem State.modRegs_mem (s : State) (c : CoreId) (f : CoreRegs → CoreRegs) : (s.modRegs c f).mem = s.mem := rfl
@[simp] theorem State.modRegs_marks (s : State) (c : CoreId) (f : CoreRegs → CoreRegs) : (s.modRegs c f).marks = s.marks := rfl
@[simp] theorem State.modRegs_sealed (s : State) (c : CoreId) (f : CoreRegs → CoreRegs) : (s.modRegs c f).sealed = s.sealed := rfl
@[simp] theorem State.modRegs_signals (s : State) (c : CoreId) (f : CoreRegs → CoreRegs) : (s.modRegs c f).signals = s.signals := rfl
@[simp] theorem State.modRegs_arrivals (s : State) (c : CoreId) (f : CoreRegs → CoreRegs) : (s.modRegs c f).arrivals = s.arrivals := rfl
@[simp] theorem State.modRegs_parts (s : State) (c : CoreId) (f : CoreRegs → CoreRegs) : (s.modRegs c f).parts = s.parts := rfl
@[simp] theorem State.modRegs_intake (s : State) (c : CoreId) (f : CoreRegs → CoreRegs) : (s.modRegs c f).intake = s.intake := rfl
@[simp] theorem State.modRegs_press (s : State) (c : CoreId) (f : CoreRegs → CoreRegs) : (s.modRegs c f).press = s.press := rfl
@[simp] theorem State.modRegs_fabric (s : State) (c : CoreId) (f : CoreRegs → CoreRegs) : (s.modRegs c f).fabric = s.fabric := rfl
@[simp] theorem State.modRegs_host (s : State) (c : CoreId) (f : CoreRegs → CoreRegs) : (s.modRegs c f).host = s.host := rfl
@[simp] theorem State.modRegs_rtp (s : State) (c : CoreId) (f : CoreRegs → CoreRegs) : (s.modRegs c f).rtp = s.rtp := rfl
@[simp] theorem State.modRegs_dict (s : State) (c : CoreId) (f : CoreRegs → CoreRegs) : (s.modRegs c f).dict = s.dict := rfl
@[simp] theorem State.modRegs_power (s : State) (c : CoreId) (f : CoreRegs → CoreRegs) : (s.modRegs c f).power = s.power := rfl
@[simp] theorem State.modRegs_start (s : State) (c : CoreId) (f : CoreRegs → CoreRegs) : (s.modRegs c f).start = s.start := rfl
@[simp] theorem State.modRegs_errors (s : State) (c : CoreId) (f : CoreRegs → CoreRegs) : (s.modRegs c f).errors = s.errors := rfl

/-! ## `logFault` -/

@[simp] theorem State.logFault_pending (s : State) (c : CoreId) (e : FaultEntry) : (s.logFault c e).pending = s.pending := rfl
@[simp] theorem State.logFault_free (s : State) (c : CoreId) (e : FaultEntry) : (s.logFault c e).free = s.free := rfl
@[simp] theorem State.logFault_mem (s : State) (c : CoreId) (e : FaultEntry) : (s.logFault c e).mem = s.mem := rfl
@[simp] theorem State.logFault_marks (s : State) (c : CoreId) (e : FaultEntry) : (s.logFault c e).marks = s.marks := rfl
@[simp] theorem State.logFault_sealed (s : State) (c : CoreId) (e : FaultEntry) : (s.logFault c e).sealed = s.sealed := rfl
@[simp] theorem State.logFault_signals (s : State) (c : CoreId) (e : FaultEntry) : (s.logFault c e).signals = s.signals := rfl
@[simp] theorem State.logFault_arrivals (s : State) (c : CoreId) (e : FaultEntry) : (s.logFault c e).arrivals = s.arrivals := rfl
@[simp] theorem State.logFault_parts (s : State) (c : CoreId) (e : FaultEntry) : (s.logFault c e).parts = s.parts := rfl
@[simp] theorem State.logFault_intake (s : State) (c : CoreId) (e : FaultEntry) : (s.logFault c e).intake = s.intake := rfl
@[simp] theorem State.logFault_press (s : State) (c : CoreId) (e : FaultEntry) : (s.logFault c e).press = s.press := rfl
@[simp] theorem State.logFault_fabric (s : State) (c : CoreId) (e : FaultEntry) : (s.logFault c e).fabric = s.fabric := rfl
@[simp] theorem State.logFault_host (s : State) (c : CoreId) (e : FaultEntry) : (s.logFault c e).host = s.host := rfl
@[simp] theorem State.logFault_rtp (s : State) (c : CoreId) (e : FaultEntry) : (s.logFault c e).rtp = s.rtp := rfl
@[simp] theorem State.logFault_dict (s : State) (c : CoreId) (e : FaultEntry) : (s.logFault c e).dict = s.dict := rfl
@[simp] theorem State.logFault_power (s : State) (c : CoreId) (e : FaultEntry) : (s.logFault c e).power = s.power := rfl
@[simp] theorem State.logFault_start (s : State) (c : CoreId) (e : FaultEntry) : (s.logFault c e).start = s.start := rfl
@[simp] theorem State.logFault_errors (s : State) (c : CoreId) (e : FaultEntry) : (s.logFault c e).errors = s.errors := rfl

/-! ## `setPart` -/

@[simp] theorem State.setPart_pending (s : State) (p : Nat) (v : Part) : (s.setPart p v).pending = s.pending := rfl
@[simp] theorem State.setPart_free (s : State) (p : Nat) (v : Part) : (s.setPart p v).free = s.free := rfl
@[simp] theorem State.setPart_mem (s : State) (p : Nat) (v : Part) : (s.setPart p v).mem = s.mem := rfl
@[simp] theorem State.setPart_marks (s : State) (p : Nat) (v : Part) : (s.setPart p v).marks = s.marks := rfl
@[simp] theorem State.setPart_sealed (s : State) (p : Nat) (v : Part) : (s.setPart p v).sealed = s.sealed := rfl
@[simp] theorem State.setPart_cores (s : State) (p : Nat) (v : Part) : (s.setPart p v).cores = s.cores := rfl
@[simp] theorem State.setPart_signals (s : State) (p : Nat) (v : Part) : (s.setPart p v).signals = s.signals := rfl
@[simp] theorem State.setPart_arrivals (s : State) (p : Nat) (v : Part) : (s.setPart p v).arrivals = s.arrivals := rfl
@[simp] theorem State.setPart_intake (s : State) (p : Nat) (v : Part) : (s.setPart p v).intake = s.intake := rfl
@[simp] theorem State.setPart_press (s : State) (p : Nat) (v : Part) : (s.setPart p v).press = s.press := rfl
@[simp] theorem State.setPart_fabric (s : State) (p : Nat) (v : Part) : (s.setPart p v).fabric = s.fabric := rfl
@[simp] theorem State.setPart_host (s : State) (p : Nat) (v : Part) : (s.setPart p v).host = s.host := rfl
@[simp] theorem State.setPart_rtp (s : State) (p : Nat) (v : Part) : (s.setPart p v).rtp = s.rtp := rfl
@[simp] theorem State.setPart_dict (s : State) (p : Nat) (v : Part) : (s.setPart p v).dict = s.dict := rfl
@[simp] theorem State.setPart_power (s : State) (p : Nat) (v : Part) : (s.setPart p v).power = s.power := rfl
@[simp] theorem State.setPart_start (s : State) (p : Nat) (v : Part) : (s.setPart p v).start = s.start := rfl
@[simp] theorem State.setPart_errors (s : State) (p : Nat) (v : Part) : (s.setPart p v).errors = s.errors := rfl

/-! ## `modPart` -/

@[simp] theorem State.modPart_pending (s : State) (p : Nat) (f : Part → Part) : (s.modPart p f).pending = s.pending := rfl
@[simp] theorem State.modPart_free (s : State) (p : Nat) (f : Part → Part) : (s.modPart p f).free = s.free := rfl
@[simp] theorem State.modPart_mem (s : State) (p : Nat) (f : Part → Part) : (s.modPart p f).mem = s.mem := rfl
@[simp] theorem State.modPart_marks (s : State) (p : Nat) (f : Part → Part) : (s.modPart p f).marks = s.marks := rfl
@[simp] theorem State.modPart_sealed (s : State) (p : Nat) (f : Part → Part) : (s.modPart p f).sealed = s.sealed := rfl
@[simp] theorem State.modPart_cores (s : State) (p : Nat) (f : Part → Part) : (s.modPart p f).cores = s.cores := rfl
@[simp] theorem State.modPart_signals (s : State) (p : Nat) (f : Part → Part) : (s.modPart p f).signals = s.signals := rfl
@[simp] theorem State.modPart_arrivals (s : State) (p : Nat) (f : Part → Part) : (s.modPart p f).arrivals = s.arrivals := rfl
@[simp] theorem State.modPart_intake (s : State) (p : Nat) (f : Part → Part) : (s.modPart p f).intake = s.intake := rfl
@[simp] theorem State.modPart_press (s : State) (p : Nat) (f : Part → Part) : (s.modPart p f).press = s.press := rfl
@[simp] theorem State.modPart_fabric (s : State) (p : Nat) (f : Part → Part) : (s.modPart p f).fabric = s.fabric := rfl
@[simp] theorem State.modPart_host (s : State) (p : Nat) (f : Part → Part) : (s.modPart p f).host = s.host := rfl
@[simp] theorem State.modPart_rtp (s : State) (p : Nat) (f : Part → Part) : (s.modPart p f).rtp = s.rtp := rfl
@[simp] theorem State.modPart_dict (s : State) (p : Nat) (f : Part → Part) : (s.modPart p f).dict = s.dict := rfl
@[simp] theorem State.modPart_power (s : State) (p : Nat) (f : Part → Part) : (s.modPart p f).power = s.power := rfl
@[simp] theorem State.modPart_start (s : State) (p : Nat) (f : Part → Part) : (s.modPart p f).start = s.start := rfl
@[simp] theorem State.modPart_errors (s : State) (p : Nat) (f : Part → Part) : (s.modPart p f).errors = s.errors := rfl

/-! ## `modJob` -/

@[simp] theorem State.modJob_pending (s : State) (p : Nat) (f : Job → Job) : (s.modJob p f).pending = s.pending := rfl
@[simp] theorem State.modJob_free (s : State) (p : Nat) (f : Job → Job) : (s.modJob p f).free = s.free := rfl
@[simp] theorem State.modJob_mem (s : State) (p : Nat) (f : Job → Job) : (s.modJob p f).mem = s.mem := rfl
@[simp] theorem State.modJob_marks (s : State) (p : Nat) (f : Job → Job) : (s.modJob p f).marks = s.marks := rfl
@[simp] theorem State.modJob_sealed (s : State) (p : Nat) (f : Job → Job) : (s.modJob p f).sealed = s.sealed := rfl
@[simp] theorem State.modJob_cores (s : State) (p : Nat) (f : Job → Job) : (s.modJob p f).cores = s.cores := rfl
@[simp] theorem State.modJob_signals (s : State) (p : Nat) (f : Job → Job) : (s.modJob p f).signals = s.signals := rfl
@[simp] theorem State.modJob_arrivals (s : State) (p : Nat) (f : Job → Job) : (s.modJob p f).arrivals = s.arrivals := rfl
@[simp] theorem State.modJob_intake (s : State) (p : Nat) (f : Job → Job) : (s.modJob p f).intake = s.intake := rfl
@[simp] theorem State.modJob_press (s : State) (p : Nat) (f : Job → Job) : (s.modJob p f).press = s.press := rfl
@[simp] theorem State.modJob_fabric (s : State) (p : Nat) (f : Job → Job) : (s.modJob p f).fabric = s.fabric := rfl
@[simp] theorem State.modJob_host (s : State) (p : Nat) (f : Job → Job) : (s.modJob p f).host = s.host := rfl
@[simp] theorem State.modJob_rtp (s : State) (p : Nat) (f : Job → Job) : (s.modJob p f).rtp = s.rtp := rfl
@[simp] theorem State.modJob_dict (s : State) (p : Nat) (f : Job → Job) : (s.modJob p f).dict = s.dict := rfl
@[simp] theorem State.modJob_power (s : State) (p : Nat) (f : Job → Job) : (s.modJob p f).power = s.power := rfl
@[simp] theorem State.modJob_start (s : State) (p : Nat) (f : Job → Job) : (s.modJob p f).start = s.start := rfl
@[simp] theorem State.modJob_errors (s : State) (p : Nat) (f : Job → Job) : (s.modJob p f).errors = s.errors := rfl

/-! ## `modBarrier` -/

@[simp] theorem State.modBarrier_pending (s : State) (p bid : Nat) (f : Barrier → Barrier) : (s.modBarrier p bid f).pending = s.pending := rfl
@[simp] theorem State.modBarrier_free (s : State) (p bid : Nat) (f : Barrier → Barrier) : (s.modBarrier p bid f).free = s.free := rfl
@[simp] theorem State.modBarrier_mem (s : State) (p bid : Nat) (f : Barrier → Barrier) : (s.modBarrier p bid f).mem = s.mem := rfl
@[simp] theorem State.modBarrier_marks (s : State) (p bid : Nat) (f : Barrier → Barrier) : (s.modBarrier p bid f).marks = s.marks := rfl
@[simp] theorem State.modBarrier_sealed (s : State) (p bid : Nat) (f : Barrier → Barrier) : (s.modBarrier p bid f).sealed = s.sealed := rfl
@[simp] theorem State.modBarrier_cores (s : State) (p bid : Nat) (f : Barrier → Barrier) : (s.modBarrier p bid f).cores = s.cores := rfl
@[simp] theorem State.modBarrier_signals (s : State) (p bid : Nat) (f : Barrier → Barrier) : (s.modBarrier p bid f).signals = s.signals := rfl
@[simp] theorem State.modBarrier_arrivals (s : State) (p bid : Nat) (f : Barrier → Barrier) : (s.modBarrier p bid f).arrivals = s.arrivals := rfl
@[simp] theorem State.modBarrier_intake (s : State) (p bid : Nat) (f : Barrier → Barrier) : (s.modBarrier p bid f).intake = s.intake := rfl
@[simp] theorem State.modBarrier_press (s : State) (p bid : Nat) (f : Barrier → Barrier) : (s.modBarrier p bid f).press = s.press := rfl
@[simp] theorem State.modBarrier_fabric (s : State) (p bid : Nat) (f : Barrier → Barrier) : (s.modBarrier p bid f).fabric = s.fabric := rfl
@[simp] theorem State.modBarrier_host (s : State) (p bid : Nat) (f : Barrier → Barrier) : (s.modBarrier p bid f).host = s.host := rfl
@[simp] theorem State.modBarrier_rtp (s : State) (p bid : Nat) (f : Barrier → Barrier) : (s.modBarrier p bid f).rtp = s.rtp := rfl
@[simp] theorem State.modBarrier_dict (s : State) (p bid : Nat) (f : Barrier → Barrier) : (s.modBarrier p bid f).dict = s.dict := rfl
@[simp] theorem State.modBarrier_power (s : State) (p bid : Nat) (f : Barrier → Barrier) : (s.modBarrier p bid f).power = s.power := rfl
@[simp] theorem State.modBarrier_start (s : State) (p bid : Nat) (f : Barrier → Barrier) : (s.modBarrier p bid f).start = s.start := rfl
@[simp] theorem State.modBarrier_errors (s : State) (p bid : Nat) (f : Barrier → Barrier) : (s.modBarrier p bid f).errors = s.errors := rfl

/-! ## `modResetCtl` -/

@[simp] theorem State.modResetCtl_pending (s : State) (p : Nat) (f : ResetCtl → ResetCtl) : (s.modResetCtl p f).pending = s.pending := rfl
@[simp] theorem State.modResetCtl_free (s : State) (p : Nat) (f : ResetCtl → ResetCtl) : (s.modResetCtl p f).free = s.free := rfl
@[simp] theorem State.modResetCtl_mem (s : State) (p : Nat) (f : ResetCtl → ResetCtl) : (s.modResetCtl p f).mem = s.mem := rfl
@[simp] theorem State.modResetCtl_marks (s : State) (p : Nat) (f : ResetCtl → ResetCtl) : (s.modResetCtl p f).marks = s.marks := rfl
@[simp] theorem State.modResetCtl_sealed (s : State) (p : Nat) (f : ResetCtl → ResetCtl) : (s.modResetCtl p f).sealed = s.sealed := rfl
@[simp] theorem State.modResetCtl_cores (s : State) (p : Nat) (f : ResetCtl → ResetCtl) : (s.modResetCtl p f).cores = s.cores := rfl
@[simp] theorem State.modResetCtl_signals (s : State) (p : Nat) (f : ResetCtl → ResetCtl) : (s.modResetCtl p f).signals = s.signals := rfl
@[simp] theorem State.modResetCtl_arrivals (s : State) (p : Nat) (f : ResetCtl → ResetCtl) : (s.modResetCtl p f).arrivals = s.arrivals := rfl
@[simp] theorem State.modResetCtl_intake (s : State) (p : Nat) (f : ResetCtl → ResetCtl) : (s.modResetCtl p f).intake = s.intake := rfl
@[simp] theorem State.modResetCtl_press (s : State) (p : Nat) (f : ResetCtl → ResetCtl) : (s.modResetCtl p f).press = s.press := rfl
@[simp] theorem State.modResetCtl_fabric (s : State) (p : Nat) (f : ResetCtl → ResetCtl) : (s.modResetCtl p f).fabric = s.fabric := rfl
@[simp] theorem State.modResetCtl_host (s : State) (p : Nat) (f : ResetCtl → ResetCtl) : (s.modResetCtl p f).host = s.host := rfl
@[simp] theorem State.modResetCtl_rtp (s : State) (p : Nat) (f : ResetCtl → ResetCtl) : (s.modResetCtl p f).rtp = s.rtp := rfl
@[simp] theorem State.modResetCtl_dict (s : State) (p : Nat) (f : ResetCtl → ResetCtl) : (s.modResetCtl p f).dict = s.dict := rfl
@[simp] theorem State.modResetCtl_power (s : State) (p : Nat) (f : ResetCtl → ResetCtl) : (s.modResetCtl p f).power = s.power := rfl
@[simp] theorem State.modResetCtl_start (s : State) (p : Nat) (f : ResetCtl → ResetCtl) : (s.modResetCtl p f).start = s.start := rfl
@[simp] theorem State.modResetCtl_errors (s : State) (p : Nat) (f : ResetCtl → ResetCtl) : (s.modResetCtl p f).errors = s.errors := rfl

/-! ## `setWheel` -/

@[simp] theorem State.setWheel_pending (s : State) (w : Nat) (v : Wheel) : (s.setWheel w v).pending = s.pending := rfl
@[simp] theorem State.setWheel_free (s : State) (w : Nat) (v : Wheel) : (s.setWheel w v).free = s.free := rfl
@[simp] theorem State.setWheel_mem (s : State) (w : Nat) (v : Wheel) : (s.setWheel w v).mem = s.mem := rfl
@[simp] theorem State.setWheel_marks (s : State) (w : Nat) (v : Wheel) : (s.setWheel w v).marks = s.marks := rfl
@[simp] theorem State.setWheel_sealed (s : State) (w : Nat) (v : Wheel) : (s.setWheel w v).sealed = s.sealed := rfl
@[simp] theorem State.setWheel_cores (s : State) (w : Nat) (v : Wheel) : (s.setWheel w v).cores = s.cores := rfl
@[simp] theorem State.setWheel_signals (s : State) (w : Nat) (v : Wheel) : (s.setWheel w v).signals = s.signals := rfl
@[simp] theorem State.setWheel_arrivals (s : State) (w : Nat) (v : Wheel) : (s.setWheel w v).arrivals = s.arrivals := rfl
@[simp] theorem State.setWheel_parts (s : State) (w : Nat) (v : Wheel) : (s.setWheel w v).parts = s.parts := rfl
@[simp] theorem State.setWheel_press (s : State) (w : Nat) (v : Wheel) : (s.setWheel w v).press = s.press := rfl
@[simp] theorem State.setWheel_fabric (s : State) (w : Nat) (v : Wheel) : (s.setWheel w v).fabric = s.fabric := rfl
@[simp] theorem State.setWheel_host (s : State) (w : Nat) (v : Wheel) : (s.setWheel w v).host = s.host := rfl
@[simp] theorem State.setWheel_rtp (s : State) (w : Nat) (v : Wheel) : (s.setWheel w v).rtp = s.rtp := rfl
@[simp] theorem State.setWheel_dict (s : State) (w : Nat) (v : Wheel) : (s.setWheel w v).dict = s.dict := rfl
@[simp] theorem State.setWheel_power (s : State) (w : Nat) (v : Wheel) : (s.setWheel w v).power = s.power := rfl
@[simp] theorem State.setWheel_start (s : State) (w : Nat) (v : Wheel) : (s.setWheel w v).start = s.start := rfl
@[simp] theorem State.setWheel_errors (s : State) (w : Nat) (v : Wheel) : (s.setWheel w v).errors = s.errors := rfl

/-! ## `modWheel` -/

@[simp] theorem State.modWheel_pending (s : State) (w : Nat) (f : Wheel → Wheel) : (s.modWheel w f).pending = s.pending := rfl
@[simp] theorem State.modWheel_free (s : State) (w : Nat) (f : Wheel → Wheel) : (s.modWheel w f).free = s.free := rfl
@[simp] theorem State.modWheel_mem (s : State) (w : Nat) (f : Wheel → Wheel) : (s.modWheel w f).mem = s.mem := rfl
@[simp] theorem State.modWheel_marks (s : State) (w : Nat) (f : Wheel → Wheel) : (s.modWheel w f).marks = s.marks := rfl
@[simp] theorem State.modWheel_sealed (s : State) (w : Nat) (f : Wheel → Wheel) : (s.modWheel w f).sealed = s.sealed := rfl
@[simp] theorem State.modWheel_cores (s : State) (w : Nat) (f : Wheel → Wheel) : (s.modWheel w f).cores = s.cores := rfl
@[simp] theorem State.modWheel_signals (s : State) (w : Nat) (f : Wheel → Wheel) : (s.modWheel w f).signals = s.signals := rfl
@[simp] theorem State.modWheel_arrivals (s : State) (w : Nat) (f : Wheel → Wheel) : (s.modWheel w f).arrivals = s.arrivals := rfl
@[simp] theorem State.modWheel_parts (s : State) (w : Nat) (f : Wheel → Wheel) : (s.modWheel w f).parts = s.parts := rfl
@[simp] theorem State.modWheel_press (s : State) (w : Nat) (f : Wheel → Wheel) : (s.modWheel w f).press = s.press := rfl
@[simp] theorem State.modWheel_fabric (s : State) (w : Nat) (f : Wheel → Wheel) : (s.modWheel w f).fabric = s.fabric := rfl
@[simp] theorem State.modWheel_host (s : State) (w : Nat) (f : Wheel → Wheel) : (s.modWheel w f).host = s.host := rfl
@[simp] theorem State.modWheel_rtp (s : State) (w : Nat) (f : Wheel → Wheel) : (s.modWheel w f).rtp = s.rtp := rfl
@[simp] theorem State.modWheel_dict (s : State) (w : Nat) (f : Wheel → Wheel) : (s.modWheel w f).dict = s.dict := rfl
@[simp] theorem State.modWheel_power (s : State) (w : Nat) (f : Wheel → Wheel) : (s.modWheel w f).power = s.power := rfl
@[simp] theorem State.modWheel_start (s : State) (w : Nat) (f : Wheel → Wheel) : (s.modWheel w f).start = s.start := rfl
@[simp] theorem State.modWheel_errors (s : State) (w : Nat) (f : Wheel → Wheel) : (s.modWheel w f).errors = s.errors := rfl

/-! ## `modPress` -/

@[simp] theorem State.modPress_pending (s : State) (u : Nat) (f : Press → Press) : (s.modPress u f).pending = s.pending := rfl
@[simp] theorem State.modPress_free (s : State) (u : Nat) (f : Press → Press) : (s.modPress u f).free = s.free := rfl
@[simp] theorem State.modPress_mem (s : State) (u : Nat) (f : Press → Press) : (s.modPress u f).mem = s.mem := rfl
@[simp] theorem State.modPress_marks (s : State) (u : Nat) (f : Press → Press) : (s.modPress u f).marks = s.marks := rfl
@[simp] theorem State.modPress_sealed (s : State) (u : Nat) (f : Press → Press) : (s.modPress u f).sealed = s.sealed := rfl
@[simp] theorem State.modPress_cores (s : State) (u : Nat) (f : Press → Press) : (s.modPress u f).cores = s.cores := rfl
@[simp] theorem State.modPress_signals (s : State) (u : Nat) (f : Press → Press) : (s.modPress u f).signals = s.signals := rfl
@[simp] theorem State.modPress_arrivals (s : State) (u : Nat) (f : Press → Press) : (s.modPress u f).arrivals = s.arrivals := rfl
@[simp] theorem State.modPress_parts (s : State) (u : Nat) (f : Press → Press) : (s.modPress u f).parts = s.parts := rfl
@[simp] theorem State.modPress_intake (s : State) (u : Nat) (f : Press → Press) : (s.modPress u f).intake = s.intake := rfl
@[simp] theorem State.modPress_fabric (s : State) (u : Nat) (f : Press → Press) : (s.modPress u f).fabric = s.fabric := rfl
@[simp] theorem State.modPress_host (s : State) (u : Nat) (f : Press → Press) : (s.modPress u f).host = s.host := rfl
@[simp] theorem State.modPress_rtp (s : State) (u : Nat) (f : Press → Press) : (s.modPress u f).rtp = s.rtp := rfl
@[simp] theorem State.modPress_dict (s : State) (u : Nat) (f : Press → Press) : (s.modPress u f).dict = s.dict := rfl
@[simp] theorem State.modPress_power (s : State) (u : Nat) (f : Press → Press) : (s.modPress u f).power = s.power := rfl
@[simp] theorem State.modPress_start (s : State) (u : Nat) (f : Press → Press) : (s.modPress u f).start = s.start := rfl
@[simp] theorem State.modPress_errors (s : State) (u : Nat) (f : Press → Press) : (s.modPress u f).errors = s.errors := rfl

/-! ## `modPort` -/

@[simp] theorem State.modPort_pending (s : State) (p : Nat) (f : Port → Port) : (s.modPort p f).pending = s.pending := rfl
@[simp] theorem State.modPort_free (s : State) (p : Nat) (f : Port → Port) : (s.modPort p f).free = s.free := rfl
@[simp] theorem State.modPort_mem (s : State) (p : Nat) (f : Port → Port) : (s.modPort p f).mem = s.mem := rfl
@[simp] theorem State.modPort_marks (s : State) (p : Nat) (f : Port → Port) : (s.modPort p f).marks = s.marks := rfl
@[simp] theorem State.modPort_sealed (s : State) (p : Nat) (f : Port → Port) : (s.modPort p f).sealed = s.sealed := rfl
@[simp] theorem State.modPort_cores (s : State) (p : Nat) (f : Port → Port) : (s.modPort p f).cores = s.cores := rfl
@[simp] theorem State.modPort_signals (s : State) (p : Nat) (f : Port → Port) : (s.modPort p f).signals = s.signals := rfl
@[simp] theorem State.modPort_arrivals (s : State) (p : Nat) (f : Port → Port) : (s.modPort p f).arrivals = s.arrivals := rfl
@[simp] theorem State.modPort_parts (s : State) (p : Nat) (f : Port → Port) : (s.modPort p f).parts = s.parts := rfl
@[simp] theorem State.modPort_intake (s : State) (p : Nat) (f : Port → Port) : (s.modPort p f).intake = s.intake := rfl
@[simp] theorem State.modPort_press (s : State) (p : Nat) (f : Port → Port) : (s.modPort p f).press = s.press := rfl
@[simp] theorem State.modPort_host (s : State) (p : Nat) (f : Port → Port) : (s.modPort p f).host = s.host := rfl
@[simp] theorem State.modPort_rtp (s : State) (p : Nat) (f : Port → Port) : (s.modPort p f).rtp = s.rtp := rfl
@[simp] theorem State.modPort_dict (s : State) (p : Nat) (f : Port → Port) : (s.modPort p f).dict = s.dict := rfl
@[simp] theorem State.modPort_power (s : State) (p : Nat) (f : Port → Port) : (s.modPort p f).power = s.power := rfl
@[simp] theorem State.modPort_start (s : State) (p : Nat) (f : Port → Port) : (s.modPort p f).start = s.start := rfl
@[simp] theorem State.modPort_errors (s : State) (p : Nat) (f : Port → Port) : (s.modPort p f).errors = s.errors := rfl

/-! ## `modSession` -/

@[simp] theorem State.modSession_pending (s : State) (part peer : Nat) (f : LinkSession → LinkSession) : (s.modSession part peer f).pending = s.pending := rfl
@[simp] theorem State.modSession_free (s : State) (part peer : Nat) (f : LinkSession → LinkSession) : (s.modSession part peer f).free = s.free := rfl
@[simp] theorem State.modSession_mem (s : State) (part peer : Nat) (f : LinkSession → LinkSession) : (s.modSession part peer f).mem = s.mem := rfl
@[simp] theorem State.modSession_marks (s : State) (part peer : Nat) (f : LinkSession → LinkSession) : (s.modSession part peer f).marks = s.marks := rfl
@[simp] theorem State.modSession_sealed (s : State) (part peer : Nat) (f : LinkSession → LinkSession) : (s.modSession part peer f).sealed = s.sealed := rfl
@[simp] theorem State.modSession_cores (s : State) (part peer : Nat) (f : LinkSession → LinkSession) : (s.modSession part peer f).cores = s.cores := rfl
@[simp] theorem State.modSession_signals (s : State) (part peer : Nat) (f : LinkSession → LinkSession) : (s.modSession part peer f).signals = s.signals := rfl
@[simp] theorem State.modSession_arrivals (s : State) (part peer : Nat) (f : LinkSession → LinkSession) : (s.modSession part peer f).arrivals = s.arrivals := rfl
@[simp] theorem State.modSession_parts (s : State) (part peer : Nat) (f : LinkSession → LinkSession) : (s.modSession part peer f).parts = s.parts := rfl
@[simp] theorem State.modSession_intake (s : State) (part peer : Nat) (f : LinkSession → LinkSession) : (s.modSession part peer f).intake = s.intake := rfl
@[simp] theorem State.modSession_press (s : State) (part peer : Nat) (f : LinkSession → LinkSession) : (s.modSession part peer f).press = s.press := rfl
@[simp] theorem State.modSession_host (s : State) (part peer : Nat) (f : LinkSession → LinkSession) : (s.modSession part peer f).host = s.host := rfl
@[simp] theorem State.modSession_rtp (s : State) (part peer : Nat) (f : LinkSession → LinkSession) : (s.modSession part peer f).rtp = s.rtp := rfl
@[simp] theorem State.modSession_dict (s : State) (part peer : Nat) (f : LinkSession → LinkSession) : (s.modSession part peer f).dict = s.dict := rfl
@[simp] theorem State.modSession_power (s : State) (part peer : Nat) (f : LinkSession → LinkSession) : (s.modSession part peer f).power = s.power := rfl
@[simp] theorem State.modSession_start (s : State) (part peer : Nat) (f : LinkSession → LinkSession) : (s.modSession part peer f).start = s.start := rfl
@[simp] theorem State.modSession_errors (s : State) (part peer : Nat) (f : LinkSession → LinkSession) : (s.modSession part peer f).errors = s.errors := rfl

/-! ## `sendPackets` -/

@[simp] theorem State.sendPackets_pending (s : State) (l : List OutPacket) : (s.sendPackets l).pending = s.pending := rfl
@[simp] theorem State.sendPackets_free (s : State) (l : List OutPacket) : (s.sendPackets l).free = s.free := rfl
@[simp] theorem State.sendPackets_mem (s : State) (l : List OutPacket) : (s.sendPackets l).mem = s.mem := rfl
@[simp] theorem State.sendPackets_marks (s : State) (l : List OutPacket) : (s.sendPackets l).marks = s.marks := rfl
@[simp] theorem State.sendPackets_sealed (s : State) (l : List OutPacket) : (s.sendPackets l).sealed = s.sealed := rfl
@[simp] theorem State.sendPackets_cores (s : State) (l : List OutPacket) : (s.sendPackets l).cores = s.cores := rfl
@[simp] theorem State.sendPackets_signals (s : State) (l : List OutPacket) : (s.sendPackets l).signals = s.signals := rfl
@[simp] theorem State.sendPackets_arrivals (s : State) (l : List OutPacket) : (s.sendPackets l).arrivals = s.arrivals := rfl
@[simp] theorem State.sendPackets_parts (s : State) (l : List OutPacket) : (s.sendPackets l).parts = s.parts := rfl
@[simp] theorem State.sendPackets_intake (s : State) (l : List OutPacket) : (s.sendPackets l).intake = s.intake := rfl
@[simp] theorem State.sendPackets_press (s : State) (l : List OutPacket) : (s.sendPackets l).press = s.press := rfl
@[simp] theorem State.sendPackets_host (s : State) (l : List OutPacket) : (s.sendPackets l).host = s.host := rfl
@[simp] theorem State.sendPackets_rtp (s : State) (l : List OutPacket) : (s.sendPackets l).rtp = s.rtp := rfl
@[simp] theorem State.sendPackets_dict (s : State) (l : List OutPacket) : (s.sendPackets l).dict = s.dict := rfl
@[simp] theorem State.sendPackets_power (s : State) (l : List OutPacket) : (s.sendPackets l).power = s.power := rfl
@[simp] theorem State.sendPackets_start (s : State) (l : List OutPacket) : (s.sendPackets l).start = s.start := rfl
@[simp] theorem State.sendPackets_errors (s : State) (l : List OutPacket) : (s.sendPackets l).errors = s.errors := rfl

/-! ## `putIncoming` -/

@[simp] theorem State.putIncoming_pending (s : State) (sender tag : Nat) (x : Option Incoming) : (s.putIncoming sender tag x).pending = s.pending := rfl
@[simp] theorem State.putIncoming_free (s : State) (sender tag : Nat) (x : Option Incoming) : (s.putIncoming sender tag x).free = s.free := rfl
@[simp] theorem State.putIncoming_mem (s : State) (sender tag : Nat) (x : Option Incoming) : (s.putIncoming sender tag x).mem = s.mem := rfl
@[simp] theorem State.putIncoming_marks (s : State) (sender tag : Nat) (x : Option Incoming) : (s.putIncoming sender tag x).marks = s.marks := rfl
@[simp] theorem State.putIncoming_sealed (s : State) (sender tag : Nat) (x : Option Incoming) : (s.putIncoming sender tag x).sealed = s.sealed := rfl
@[simp] theorem State.putIncoming_cores (s : State) (sender tag : Nat) (x : Option Incoming) : (s.putIncoming sender tag x).cores = s.cores := rfl
@[simp] theorem State.putIncoming_signals (s : State) (sender tag : Nat) (x : Option Incoming) : (s.putIncoming sender tag x).signals = s.signals := rfl
@[simp] theorem State.putIncoming_arrivals (s : State) (sender tag : Nat) (x : Option Incoming) : (s.putIncoming sender tag x).arrivals = s.arrivals := rfl
@[simp] theorem State.putIncoming_parts (s : State) (sender tag : Nat) (x : Option Incoming) : (s.putIncoming sender tag x).parts = s.parts := rfl
@[simp] theorem State.putIncoming_intake (s : State) (sender tag : Nat) (x : Option Incoming) : (s.putIncoming sender tag x).intake = s.intake := rfl
@[simp] theorem State.putIncoming_press (s : State) (sender tag : Nat) (x : Option Incoming) : (s.putIncoming sender tag x).press = s.press := rfl
@[simp] theorem State.putIncoming_host (s : State) (sender tag : Nat) (x : Option Incoming) : (s.putIncoming sender tag x).host = s.host := rfl
@[simp] theorem State.putIncoming_rtp (s : State) (sender tag : Nat) (x : Option Incoming) : (s.putIncoming sender tag x).rtp = s.rtp := rfl
@[simp] theorem State.putIncoming_dict (s : State) (sender tag : Nat) (x : Option Incoming) : (s.putIncoming sender tag x).dict = s.dict := rfl
@[simp] theorem State.putIncoming_power (s : State) (sender tag : Nat) (x : Option Incoming) : (s.putIncoming sender tag x).power = s.power := rfl
@[simp] theorem State.putIncoming_start (s : State) (sender tag : Nat) (x : Option Incoming) : (s.putIncoming sender tag x).start = s.start := rfl
@[simp] theorem State.putIncoming_errors (s : State) (sender tag : Nat) (x : Option Incoming) : (s.putIncoming sender tag x).errors = s.errors := rfl

/-! ## `modRing` -/

@[simp] theorem State.modRing_pending (s : State) (r : Nat) (f : Ring → Ring) : (s.modRing r f).pending = s.pending := rfl
@[simp] theorem State.modRing_free (s : State) (r : Nat) (f : Ring → Ring) : (s.modRing r f).free = s.free := rfl
@[simp] theorem State.modRing_mem (s : State) (r : Nat) (f : Ring → Ring) : (s.modRing r f).mem = s.mem := rfl
@[simp] theorem State.modRing_marks (s : State) (r : Nat) (f : Ring → Ring) : (s.modRing r f).marks = s.marks := rfl
@[simp] theorem State.modRing_sealed (s : State) (r : Nat) (f : Ring → Ring) : (s.modRing r f).sealed = s.sealed := rfl
@[simp] theorem State.modRing_cores (s : State) (r : Nat) (f : Ring → Ring) : (s.modRing r f).cores = s.cores := rfl
@[simp] theorem State.modRing_signals (s : State) (r : Nat) (f : Ring → Ring) : (s.modRing r f).signals = s.signals := rfl
@[simp] theorem State.modRing_arrivals (s : State) (r : Nat) (f : Ring → Ring) : (s.modRing r f).arrivals = s.arrivals := rfl
@[simp] theorem State.modRing_parts (s : State) (r : Nat) (f : Ring → Ring) : (s.modRing r f).parts = s.parts := rfl
@[simp] theorem State.modRing_intake (s : State) (r : Nat) (f : Ring → Ring) : (s.modRing r f).intake = s.intake := rfl
@[simp] theorem State.modRing_press (s : State) (r : Nat) (f : Ring → Ring) : (s.modRing r f).press = s.press := rfl
@[simp] theorem State.modRing_fabric (s : State) (r : Nat) (f : Ring → Ring) : (s.modRing r f).fabric = s.fabric := rfl
@[simp] theorem State.modRing_rtp (s : State) (r : Nat) (f : Ring → Ring) : (s.modRing r f).rtp = s.rtp := rfl
@[simp] theorem State.modRing_dict (s : State) (r : Nat) (f : Ring → Ring) : (s.modRing r f).dict = s.dict := rfl
@[simp] theorem State.modRing_power (s : State) (r : Nat) (f : Ring → Ring) : (s.modRing r f).power = s.power := rfl
@[simp] theorem State.modRing_start (s : State) (r : Nat) (f : Ring → Ring) : (s.modRing r f).start = s.start := rfl
@[simp] theorem State.modRing_errors (s : State) (r : Nat) (f : Ring → Ring) : (s.modRing r f).errors = s.errors := rfl

/-! ## `putEntry` -/

@[simp] theorem State.putEntry_pending (s : State) (index sub : Nat) (data : List Byte) : (s.putEntry index sub data).pending = s.pending := rfl
@[simp] theorem State.putEntry_free (s : State) (index sub : Nat) (data : List Byte) : (s.putEntry index sub data).free = s.free := rfl
@[simp] theorem State.putEntry_mem (s : State) (index sub : Nat) (data : List Byte) : (s.putEntry index sub data).mem = s.mem := rfl
@[simp] theorem State.putEntry_marks (s : State) (index sub : Nat) (data : List Byte) : (s.putEntry index sub data).marks = s.marks := rfl
@[simp] theorem State.putEntry_sealed (s : State) (index sub : Nat) (data : List Byte) : (s.putEntry index sub data).sealed = s.sealed := rfl
@[simp] theorem State.putEntry_cores (s : State) (index sub : Nat) (data : List Byte) : (s.putEntry index sub data).cores = s.cores := rfl
@[simp] theorem State.putEntry_signals (s : State) (index sub : Nat) (data : List Byte) : (s.putEntry index sub data).signals = s.signals := rfl
@[simp] theorem State.putEntry_arrivals (s : State) (index sub : Nat) (data : List Byte) : (s.putEntry index sub data).arrivals = s.arrivals := rfl
@[simp] theorem State.putEntry_parts (s : State) (index sub : Nat) (data : List Byte) : (s.putEntry index sub data).parts = s.parts := rfl
@[simp] theorem State.putEntry_intake (s : State) (index sub : Nat) (data : List Byte) : (s.putEntry index sub data).intake = s.intake := rfl
@[simp] theorem State.putEntry_press (s : State) (index sub : Nat) (data : List Byte) : (s.putEntry index sub data).press = s.press := rfl
@[simp] theorem State.putEntry_fabric (s : State) (index sub : Nat) (data : List Byte) : (s.putEntry index sub data).fabric = s.fabric := rfl
@[simp] theorem State.putEntry_host (s : State) (index sub : Nat) (data : List Byte) : (s.putEntry index sub data).host = s.host := rfl
@[simp] theorem State.putEntry_rtp (s : State) (index sub : Nat) (data : List Byte) : (s.putEntry index sub data).rtp = s.rtp := rfl
@[simp] theorem State.putEntry_power (s : State) (index sub : Nat) (data : List Byte) : (s.putEntry index sub data).power = s.power := rfl
@[simp] theorem State.putEntry_start (s : State) (index sub : Nat) (data : List Byte) : (s.putEntry index sub data).start = s.start := rfl
@[simp] theorem State.putEntry_errors (s : State) (index sub : Nat) (data : List Byte) : (s.putEntry index sub data).errors = s.errors := rfl

/-! ## `setDomain` -/

@[simp] theorem State.setDomain_pending (s : State) (d : Nat) (v : DomState) : (s.setDomain d v).pending = s.pending := rfl
@[simp] theorem State.setDomain_free (s : State) (d : Nat) (v : DomState) : (s.setDomain d v).free = s.free := rfl
@[simp] theorem State.setDomain_mem (s : State) (d : Nat) (v : DomState) : (s.setDomain d v).mem = s.mem := rfl
@[simp] theorem State.setDomain_marks (s : State) (d : Nat) (v : DomState) : (s.setDomain d v).marks = s.marks := rfl
@[simp] theorem State.setDomain_sealed (s : State) (d : Nat) (v : DomState) : (s.setDomain d v).sealed = s.sealed := rfl
@[simp] theorem State.setDomain_cores (s : State) (d : Nat) (v : DomState) : (s.setDomain d v).cores = s.cores := rfl
@[simp] theorem State.setDomain_signals (s : State) (d : Nat) (v : DomState) : (s.setDomain d v).signals = s.signals := rfl
@[simp] theorem State.setDomain_arrivals (s : State) (d : Nat) (v : DomState) : (s.setDomain d v).arrivals = s.arrivals := rfl
@[simp] theorem State.setDomain_parts (s : State) (d : Nat) (v : DomState) : (s.setDomain d v).parts = s.parts := rfl
@[simp] theorem State.setDomain_intake (s : State) (d : Nat) (v : DomState) : (s.setDomain d v).intake = s.intake := rfl
@[simp] theorem State.setDomain_press (s : State) (d : Nat) (v : DomState) : (s.setDomain d v).press = s.press := rfl
@[simp] theorem State.setDomain_fabric (s : State) (d : Nat) (v : DomState) : (s.setDomain d v).fabric = s.fabric := rfl
@[simp] theorem State.setDomain_host (s : State) (d : Nat) (v : DomState) : (s.setDomain d v).host = s.host := rfl
@[simp] theorem State.setDomain_rtp (s : State) (d : Nat) (v : DomState) : (s.setDomain d v).rtp = s.rtp := rfl
@[simp] theorem State.setDomain_dict (s : State) (d : Nat) (v : DomState) : (s.setDomain d v).dict = s.dict := rfl
@[simp] theorem State.setDomain_start (s : State) (d : Nat) (v : DomState) : (s.setDomain d v).start = s.start := rfl
@[simp] theorem State.setDomain_errors (s : State) (d : Nat) (v : DomState) : (s.setDomain d v).errors = s.errors := rfl

/-! ## `modIsland` -/

@[simp] theorem State.modIsland_pending (s : State) (c : CoreId) (f : Island → Island) : (s.modIsland c f).pending = s.pending := rfl
@[simp] theorem State.modIsland_free (s : State) (c : CoreId) (f : Island → Island) : (s.modIsland c f).free = s.free := rfl
@[simp] theorem State.modIsland_mem (s : State) (c : CoreId) (f : Island → Island) : (s.modIsland c f).mem = s.mem := rfl
@[simp] theorem State.modIsland_marks (s : State) (c : CoreId) (f : Island → Island) : (s.modIsland c f).marks = s.marks := rfl
@[simp] theorem State.modIsland_sealed (s : State) (c : CoreId) (f : Island → Island) : (s.modIsland c f).sealed = s.sealed := rfl
@[simp] theorem State.modIsland_cores (s : State) (c : CoreId) (f : Island → Island) : (s.modIsland c f).cores = s.cores := rfl
@[simp] theorem State.modIsland_signals (s : State) (c : CoreId) (f : Island → Island) : (s.modIsland c f).signals = s.signals := rfl
@[simp] theorem State.modIsland_arrivals (s : State) (c : CoreId) (f : Island → Island) : (s.modIsland c f).arrivals = s.arrivals := rfl
@[simp] theorem State.modIsland_parts (s : State) (c : CoreId) (f : Island → Island) : (s.modIsland c f).parts = s.parts := rfl
@[simp] theorem State.modIsland_intake (s : State) (c : CoreId) (f : Island → Island) : (s.modIsland c f).intake = s.intake := rfl
@[simp] theorem State.modIsland_press (s : State) (c : CoreId) (f : Island → Island) : (s.modIsland c f).press = s.press := rfl
@[simp] theorem State.modIsland_fabric (s : State) (c : CoreId) (f : Island → Island) : (s.modIsland c f).fabric = s.fabric := rfl
@[simp] theorem State.modIsland_host (s : State) (c : CoreId) (f : Island → Island) : (s.modIsland c f).host = s.host := rfl
@[simp] theorem State.modIsland_rtp (s : State) (c : CoreId) (f : Island → Island) : (s.modIsland c f).rtp = s.rtp := rfl
@[simp] theorem State.modIsland_dict (s : State) (c : CoreId) (f : Island → Island) : (s.modIsland c f).dict = s.dict := rfl
@[simp] theorem State.modIsland_start (s : State) (c : CoreId) (f : Island → Island) : (s.modIsland c f).start = s.start := rfl
@[simp] theorem State.modIsland_errors (s : State) (c : CoreId) (f : Island → Island) : (s.modIsland c f).errors = s.errors := rfl

/-! ## `addHistory` -/

@[simp] theorem State.addHistory_pending (s : State) (e : BootEntry) : (s.addHistory e).pending = s.pending := rfl
@[simp] theorem State.addHistory_free (s : State) (e : BootEntry) : (s.addHistory e).free = s.free := rfl
@[simp] theorem State.addHistory_mem (s : State) (e : BootEntry) : (s.addHistory e).mem = s.mem := rfl
@[simp] theorem State.addHistory_marks (s : State) (e : BootEntry) : (s.addHistory e).marks = s.marks := rfl
@[simp] theorem State.addHistory_sealed (s : State) (e : BootEntry) : (s.addHistory e).sealed = s.sealed := rfl
@[simp] theorem State.addHistory_cores (s : State) (e : BootEntry) : (s.addHistory e).cores = s.cores := rfl
@[simp] theorem State.addHistory_signals (s : State) (e : BootEntry) : (s.addHistory e).signals = s.signals := rfl
@[simp] theorem State.addHistory_arrivals (s : State) (e : BootEntry) : (s.addHistory e).arrivals = s.arrivals := rfl
@[simp] theorem State.addHistory_parts (s : State) (e : BootEntry) : (s.addHistory e).parts = s.parts := rfl
@[simp] theorem State.addHistory_intake (s : State) (e : BootEntry) : (s.addHistory e).intake = s.intake := rfl
@[simp] theorem State.addHistory_press (s : State) (e : BootEntry) : (s.addHistory e).press = s.press := rfl
@[simp] theorem State.addHistory_fabric (s : State) (e : BootEntry) : (s.addHistory e).fabric = s.fabric := rfl
@[simp] theorem State.addHistory_host (s : State) (e : BootEntry) : (s.addHistory e).host = s.host := rfl
@[simp] theorem State.addHistory_rtp (s : State) (e : BootEntry) : (s.addHistory e).rtp = s.rtp := rfl
@[simp] theorem State.addHistory_power (s : State) (e : BootEntry) : (s.addHistory e).power = s.power := rfl
@[simp] theorem State.addHistory_errors (s : State) (e : BootEntry) : (s.addHistory e).errors = s.errors := rfl

/-! ## `flashWrote` -/

@[simp] theorem State.flashWrote_pending (s : State) (region : Nat) : (s.flashWrote region).pending = s.pending := rfl
@[simp] theorem State.flashWrote_free (s : State) (region : Nat) : (s.flashWrote region).free = s.free := rfl
@[simp] theorem State.flashWrote_mem (s : State) (region : Nat) : (s.flashWrote region).mem = s.mem := rfl
@[simp] theorem State.flashWrote_marks (s : State) (region : Nat) : (s.flashWrote region).marks = s.marks := rfl
@[simp] theorem State.flashWrote_sealed (s : State) (region : Nat) : (s.flashWrote region).sealed = s.sealed := rfl
@[simp] theorem State.flashWrote_cores (s : State) (region : Nat) : (s.flashWrote region).cores = s.cores := rfl
@[simp] theorem State.flashWrote_signals (s : State) (region : Nat) : (s.flashWrote region).signals = s.signals := rfl
@[simp] theorem State.flashWrote_arrivals (s : State) (region : Nat) : (s.flashWrote region).arrivals = s.arrivals := rfl
@[simp] theorem State.flashWrote_parts (s : State) (region : Nat) : (s.flashWrote region).parts = s.parts := rfl
@[simp] theorem State.flashWrote_intake (s : State) (region : Nat) : (s.flashWrote region).intake = s.intake := rfl
@[simp] theorem State.flashWrote_press (s : State) (region : Nat) : (s.flashWrote region).press = s.press := rfl
@[simp] theorem State.flashWrote_fabric (s : State) (region : Nat) : (s.flashWrote region).fabric = s.fabric := rfl
@[simp] theorem State.flashWrote_host (s : State) (region : Nat) : (s.flashWrote region).host = s.host := rfl
@[simp] theorem State.flashWrote_rtp (s : State) (region : Nat) : (s.flashWrote region).rtp = s.rtp := rfl
@[simp] theorem State.flashWrote_power (s : State) (region : Nat) : (s.flashWrote region).power = s.power := rfl
@[simp] theorem State.flashWrote_start (s : State) (region : Nat) : (s.flashWrote region).start = s.start := rfl
@[simp] theorem State.flashWrote_errors (s : State) (region : Nat) : (s.flashWrote region).errors = s.errors := rfl

/-! ## `requestRails` -/

@[simp] theorem State.requestRails_pending (s : State) (mode : Nat) : (s.requestRails mode).pending = s.pending := rfl
@[simp] theorem State.requestRails_free (s : State) (mode : Nat) : (s.requestRails mode).free = s.free := rfl
@[simp] theorem State.requestRails_mem (s : State) (mode : Nat) : (s.requestRails mode).mem = s.mem := rfl
@[simp] theorem State.requestRails_marks (s : State) (mode : Nat) : (s.requestRails mode).marks = s.marks := rfl
@[simp] theorem State.requestRails_sealed (s : State) (mode : Nat) : (s.requestRails mode).sealed = s.sealed := rfl
@[simp] theorem State.requestRails_cores (s : State) (mode : Nat) : (s.requestRails mode).cores = s.cores := rfl
@[simp] theorem State.requestRails_signals (s : State) (mode : Nat) : (s.requestRails mode).signals = s.signals := rfl
@[simp] theorem State.requestRails_arrivals (s : State) (mode : Nat) : (s.requestRails mode).arrivals = s.arrivals := rfl
@[simp] theorem State.requestRails_parts (s : State) (mode : Nat) : (s.requestRails mode).parts = s.parts := rfl
@[simp] theorem State.requestRails_intake (s : State) (mode : Nat) : (s.requestRails mode).intake = s.intake := rfl
@[simp] theorem State.requestRails_press (s : State) (mode : Nat) : (s.requestRails mode).press = s.press := rfl
@[simp] theorem State.requestRails_fabric (s : State) (mode : Nat) : (s.requestRails mode).fabric = s.fabric := rfl
@[simp] theorem State.requestRails_host (s : State) (mode : Nat) : (s.requestRails mode).host = s.host := rfl
@[simp] theorem State.requestRails_rtp (s : State) (mode : Nat) : (s.requestRails mode).rtp = s.rtp := rfl
@[simp] theorem State.requestRails_dict (s : State) (mode : Nat) : (s.requestRails mode).dict = s.dict := rfl
@[simp] theorem State.requestRails_start (s : State) (mode : Nat) : (s.requestRails mode).start = s.start := rfl
@[simp] theorem State.requestRails_errors (s : State) (mode : Nat) : (s.requestRails mode).errors = s.errors := rfl

/-! ## `healthEvent` -/

@[simp] theorem State.healthEvent_pending (s : State) (kind value : Nat) : (s.healthEvent kind value).pending = s.pending := rfl
@[simp] theorem State.healthEvent_free (s : State) (kind value : Nat) : (s.healthEvent kind value).free = s.free := rfl
@[simp] theorem State.healthEvent_mem (s : State) (kind value : Nat) : (s.healthEvent kind value).mem = s.mem := rfl
@[simp] theorem State.healthEvent_marks (s : State) (kind value : Nat) : (s.healthEvent kind value).marks = s.marks := rfl
@[simp] theorem State.healthEvent_sealed (s : State) (kind value : Nat) : (s.healthEvent kind value).sealed = s.sealed := rfl
@[simp] theorem State.healthEvent_cores (s : State) (kind value : Nat) : (s.healthEvent kind value).cores = s.cores := rfl
@[simp] theorem State.healthEvent_signals (s : State) (kind value : Nat) : (s.healthEvent kind value).signals = s.signals := rfl
@[simp] theorem State.healthEvent_arrivals (s : State) (kind value : Nat) : (s.healthEvent kind value).arrivals = s.arrivals := rfl
@[simp] theorem State.healthEvent_parts (s : State) (kind value : Nat) : (s.healthEvent kind value).parts = s.parts := rfl
@[simp] theorem State.healthEvent_intake (s : State) (kind value : Nat) : (s.healthEvent kind value).intake = s.intake := rfl
@[simp] theorem State.healthEvent_press (s : State) (kind value : Nat) : (s.healthEvent kind value).press = s.press := rfl
@[simp] theorem State.healthEvent_fabric (s : State) (kind value : Nat) : (s.healthEvent kind value).fabric = s.fabric := rfl
@[simp] theorem State.healthEvent_host (s : State) (kind value : Nat) : (s.healthEvent kind value).host = s.host := rfl
@[simp] theorem State.healthEvent_rtp (s : State) (kind value : Nat) : (s.healthEvent kind value).rtp = s.rtp := rfl
@[simp] theorem State.healthEvent_dict (s : State) (kind value : Nat) : (s.healthEvent kind value).dict = s.dict := rfl
@[simp] theorem State.healthEvent_power (s : State) (kind value : Nat) : (s.healthEvent kind value).power = s.power := rfl
@[simp] theorem State.healthEvent_start (s : State) (kind value : Nat) : (s.healthEvent kind value).start = s.start := rfl

/-! ## `sendMsix`, `sendErrorMsix` and `logError`, which send or keep a message -/

@[simp] theorem State.sendMsix_pending (s : State) (port vector : Nat) : (s.sendMsix port vector).pending = s.pending := by
  unfold State.sendMsix; split <;> rfl
@[simp] theorem State.sendMsix_free (s : State) (port vector : Nat) : (s.sendMsix port vector).free = s.free := by
  unfold State.sendMsix; split <;> rfl
@[simp] theorem State.sendMsix_mem (s : State) (port vector : Nat) : (s.sendMsix port vector).mem = s.mem := by
  unfold State.sendMsix; split <;> rfl
@[simp] theorem State.sendMsix_marks (s : State) (port vector : Nat) : (s.sendMsix port vector).marks = s.marks := by
  unfold State.sendMsix; split <;> rfl
@[simp] theorem State.sendMsix_sealed (s : State) (port vector : Nat) : (s.sendMsix port vector).sealed = s.sealed := by
  unfold State.sendMsix; split <;> rfl
@[simp] theorem State.sendMsix_cores (s : State) (port vector : Nat) : (s.sendMsix port vector).cores = s.cores := by
  unfold State.sendMsix; split <;> rfl
@[simp] theorem State.sendMsix_signals (s : State) (port vector : Nat) : (s.sendMsix port vector).signals = s.signals := by
  unfold State.sendMsix; split <;> rfl
@[simp] theorem State.sendMsix_arrivals (s : State) (port vector : Nat) : (s.sendMsix port vector).arrivals = s.arrivals := by
  unfold State.sendMsix; split <;> rfl
@[simp] theorem State.sendMsix_parts (s : State) (port vector : Nat) : (s.sendMsix port vector).parts = s.parts := by
  unfold State.sendMsix; split <;> rfl
@[simp] theorem State.sendMsix_intake (s : State) (port vector : Nat) : (s.sendMsix port vector).intake = s.intake := by
  unfold State.sendMsix; split <;> rfl
@[simp] theorem State.sendMsix_press (s : State) (port vector : Nat) : (s.sendMsix port vector).press = s.press := by
  unfold State.sendMsix; split <;> rfl
@[simp] theorem State.sendMsix_fabric (s : State) (port vector : Nat) : (s.sendMsix port vector).fabric = s.fabric := by
  unfold State.sendMsix; split <;> rfl
@[simp] theorem State.sendMsix_rtp (s : State) (port vector : Nat) : (s.sendMsix port vector).rtp = s.rtp := by
  unfold State.sendMsix; split <;> rfl
@[simp] theorem State.sendMsix_dict (s : State) (port vector : Nat) : (s.sendMsix port vector).dict = s.dict := by
  unfold State.sendMsix; split <;> rfl
@[simp] theorem State.sendMsix_power (s : State) (port vector : Nat) : (s.sendMsix port vector).power = s.power := by
  unfold State.sendMsix; split <;> rfl
@[simp] theorem State.sendMsix_start (s : State) (port vector : Nat) : (s.sendMsix port vector).start = s.start := by
  unfold State.sendMsix; split <;> rfl
@[simp] theorem State.sendMsix_errors (s : State) (port vector : Nat) : (s.sendMsix port vector).errors = s.errors := by
  unfold State.sendMsix; split <;> rfl

theorem foldl_keeps {α β : Type} (g : State → β) (f : State → α → State) (h : ∀ s x, g (f s x) = g s) (l : List α) (s : State) :
    g (l.foldl f s) = g s := by
  induction l generalizing s with
  | nil => rfl
  | cons x t ih => exact (ih (f s x)).trans (h s x)

/-- A message of the error log changes what `sendMsix` changes. -/
theorem State.sendErrorMsix_keeps {β : Type} (g : State → β) (h : ∀ (s : State) (p v : Nat), g (s.sendMsix p v) = g s) (s : State) (cls : Nat)
    (part : Option Nat) : g (s.sendErrorMsix cls part) = g s := by
  have hp : ∀ (s : State) (q : Nat), g (if s.linked q then s.sendMsix q 64 else s) = g s := by
    intro s q; split
    · exact h s q 64
    · rfl
  unfold State.sendErrorMsix
  split
  · rfl
  · split
    · split
      · exact foldl_keeps g _ hp _ s
      · exact h s _ _
    · exact foldl_keeps g _ hp _ s

@[simp] theorem State.sendErrorMsix_pending (s : State) (cls : Nat) (part : Option Nat) : (s.sendErrorMsix cls part).pending = s.pending :=
  State.sendErrorMsix_keeps (·.pending) (fun s p v => State.sendMsix_pending s p v) s cls part
@[simp] theorem State.sendErrorMsix_free (s : State) (cls : Nat) (part : Option Nat) : (s.sendErrorMsix cls part).free = s.free :=
  State.sendErrorMsix_keeps (·.free) (fun s p v => State.sendMsix_free s p v) s cls part
@[simp] theorem State.sendErrorMsix_mem (s : State) (cls : Nat) (part : Option Nat) : (s.sendErrorMsix cls part).mem = s.mem :=
  State.sendErrorMsix_keeps (·.mem) (fun s p v => State.sendMsix_mem s p v) s cls part
@[simp] theorem State.sendErrorMsix_marks (s : State) (cls : Nat) (part : Option Nat) : (s.sendErrorMsix cls part).marks = s.marks :=
  State.sendErrorMsix_keeps (·.marks) (fun s p v => State.sendMsix_marks s p v) s cls part
@[simp] theorem State.sendErrorMsix_sealed (s : State) (cls : Nat) (part : Option Nat) : (s.sendErrorMsix cls part).sealed = s.sealed :=
  State.sendErrorMsix_keeps (·.sealed) (fun s p v => State.sendMsix_sealed s p v) s cls part
@[simp] theorem State.sendErrorMsix_cores (s : State) (cls : Nat) (part : Option Nat) : (s.sendErrorMsix cls part).cores = s.cores :=
  State.sendErrorMsix_keeps (·.cores) (fun s p v => State.sendMsix_cores s p v) s cls part
@[simp] theorem State.sendErrorMsix_signals (s : State) (cls : Nat) (part : Option Nat) : (s.sendErrorMsix cls part).signals = s.signals :=
  State.sendErrorMsix_keeps (·.signals) (fun s p v => State.sendMsix_signals s p v) s cls part
@[simp] theorem State.sendErrorMsix_arrivals (s : State) (cls : Nat) (part : Option Nat) : (s.sendErrorMsix cls part).arrivals = s.arrivals :=
  State.sendErrorMsix_keeps (·.arrivals) (fun s p v => State.sendMsix_arrivals s p v) s cls part
@[simp] theorem State.sendErrorMsix_parts (s : State) (cls : Nat) (part : Option Nat) : (s.sendErrorMsix cls part).parts = s.parts :=
  State.sendErrorMsix_keeps (·.parts) (fun s p v => State.sendMsix_parts s p v) s cls part
@[simp] theorem State.sendErrorMsix_intake (s : State) (cls : Nat) (part : Option Nat) : (s.sendErrorMsix cls part).intake = s.intake :=
  State.sendErrorMsix_keeps (·.intake) (fun s p v => State.sendMsix_intake s p v) s cls part
@[simp] theorem State.sendErrorMsix_press (s : State) (cls : Nat) (part : Option Nat) : (s.sendErrorMsix cls part).press = s.press :=
  State.sendErrorMsix_keeps (·.press) (fun s p v => State.sendMsix_press s p v) s cls part
@[simp] theorem State.sendErrorMsix_fabric (s : State) (cls : Nat) (part : Option Nat) : (s.sendErrorMsix cls part).fabric = s.fabric :=
  State.sendErrorMsix_keeps (·.fabric) (fun s p v => State.sendMsix_fabric s p v) s cls part
@[simp] theorem State.sendErrorMsix_rtp (s : State) (cls : Nat) (part : Option Nat) : (s.sendErrorMsix cls part).rtp = s.rtp :=
  State.sendErrorMsix_keeps (·.rtp) (fun s p v => State.sendMsix_rtp s p v) s cls part
@[simp] theorem State.sendErrorMsix_dict (s : State) (cls : Nat) (part : Option Nat) : (s.sendErrorMsix cls part).dict = s.dict :=
  State.sendErrorMsix_keeps (·.dict) (fun s p v => State.sendMsix_dict s p v) s cls part
@[simp] theorem State.sendErrorMsix_power (s : State) (cls : Nat) (part : Option Nat) : (s.sendErrorMsix cls part).power = s.power :=
  State.sendErrorMsix_keeps (·.power) (fun s p v => State.sendMsix_power s p v) s cls part
@[simp] theorem State.sendErrorMsix_start (s : State) (cls : Nat) (part : Option Nat) : (s.sendErrorMsix cls part).start = s.start :=
  State.sendErrorMsix_keeps (·.start) (fun s p v => State.sendMsix_start s p v) s cls part
@[simp] theorem State.sendErrorMsix_errors (s : State) (cls : Nat) (part : Option Nat) : (s.sendErrorMsix cls part).errors = s.errors :=
  State.sendErrorMsix_keeps (·.errors) (fun s p v => State.sendMsix_errors s p v) s cls part
@[simp] theorem State.logError_pending (s : State) (e : ErrorEvent) : (s.logError e).pending = s.pending := by
  simp [State.logError]
@[simp] theorem State.logError_free (s : State) (e : ErrorEvent) : (s.logError e).free = s.free := by
  simp [State.logError]
@[simp] theorem State.logError_mem (s : State) (e : ErrorEvent) : (s.logError e).mem = s.mem := by
  simp [State.logError]
@[simp] theorem State.logError_marks (s : State) (e : ErrorEvent) : (s.logError e).marks = s.marks := by
  simp [State.logError]
@[simp] theorem State.logError_sealed (s : State) (e : ErrorEvent) : (s.logError e).sealed = s.sealed := by
  simp [State.logError]
@[simp] theorem State.logError_cores (s : State) (e : ErrorEvent) : (s.logError e).cores = s.cores := by
  simp [State.logError]
@[simp] theorem State.logError_signals (s : State) (e : ErrorEvent) : (s.logError e).signals = s.signals := by
  simp [State.logError]
@[simp] theorem State.logError_arrivals (s : State) (e : ErrorEvent) : (s.logError e).arrivals = s.arrivals := by
  simp [State.logError]
@[simp] theorem State.logError_parts (s : State) (e : ErrorEvent) : (s.logError e).parts = s.parts := by
  simp [State.logError]
@[simp] theorem State.logError_intake (s : State) (e : ErrorEvent) : (s.logError e).intake = s.intake := by
  simp [State.logError]
@[simp] theorem State.logError_press (s : State) (e : ErrorEvent) : (s.logError e).press = s.press := by
  simp [State.logError]
@[simp] theorem State.logError_fabric (s : State) (e : ErrorEvent) : (s.logError e).fabric = s.fabric := by
  simp [State.logError]
@[simp] theorem State.logError_rtp (s : State) (e : ErrorEvent) : (s.logError e).rtp = s.rtp := by
  simp [State.logError]
@[simp] theorem State.logError_dict (s : State) (e : ErrorEvent) : (s.logError e).dict = s.dict := by
  simp [State.logError]
@[simp] theorem State.logError_power (s : State) (e : ErrorEvent) : (s.logError e).power = s.power := by
  simp [State.logError]
@[simp] theorem State.logError_start (s : State) (e : ErrorEvent) : (s.logError e).start = s.start := by
  simp [State.logError]

end Sys2Proof.Machine
end

