-- ==== Sys2Proof/Laws/Memory.lean ====
section
/-! SUPPORT. The canonical form of memory is kept by every operation that writes memory, and by a core's cycles (R171, R183). -/

namespace Sys2Proof.Machine

/-! ## What a byte reads as after a write -/

theorem Memory.read_write {m : Memory} {lo : Nat} (a : Nat) (b : Byte) (h : Memory.wfFrom lo m = true) (x : Nat) :
    Memory.read (Memory.write m a b) x = if x = a then b else Memory.read m x := by
  induction m generalizing lo with
  | nil => simpa [Memory.write] using Memory.read_consCell (t := []) b rfl x
  | cons c t ih =>
    obtain ⟨k, v⟩ := c
    simp only [Memory.wfFrom, Bool.and_eq_true, decide_eq_true_eq] at h
    unfold Memory.write
    split
    · apply Memory.read_consCell
      simp only [Memory.wfFrom, Bool.and_eq_true, decide_eq_true_eq]
      exact ⟨⟨by omega, h.1.2⟩, h.2⟩
    · split
      · rename_i _ hk
        subst hk
        rw [Memory.read_consCell b h.2]
        by_cases hx : x = k
        · simp [hx]
        · by_cases hl : x < k
          · simp [Memory.read, hx, Ne.symm hx, hl, Memory.read_below h.2 (show x < k + 1 by omega)]
          · simp [Memory.read, hx, Ne.symm hx, hl]
      · simp only [Memory.read]
        by_cases hk : k = x
        · subst hk; simp [show ¬ k = a by omega]
        · by_cases hl : x < k
          · simp [hk, hl, show ¬ x = a by omega]
          · simp [hk, hl, ih h.2]

/-- A byte outside the bytes written reads as before. -/
theorem Memory.read_writeBytes_other {m : Memory} (a : Nat) (l : List Byte) (h : m.wf = true) (x : Nat) (hx : x < a ∨ a + l.length ≤ x) :
    Memory.read (Memory.writeBytes m a l) x = Memory.read m x := by
  induction l generalizing m a with
  | nil => rfl
  | cons b t ih =>
    simp only [List.length_cons] at hx
    rw [Memory.writeBytes, ih _ (Memory.write_wf a b h) (by omega), Memory.read_write a b h, if_neg (by omega)]

/-- A byte written reads as written. -/
theorem Memory.read_writeBytes_at {m : Memory} (a : Nat) (l : List Byte) (h : m.wf = true) (i : Nat) (hi : i < l.length) :
    Memory.read (Memory.writeBytes m a l) (a + i) = l[i] := by
  induction l generalizing m a i with
  | nil => simp at hi
  | cons b t ih =>
    cases i with
    | zero =>
      rw [Memory.writeBytes, Memory.read_writeBytes_other _ _ (Memory.write_wf a b h) _ (by omega), Memory.read_write a b h]
      simp
    | succ n =>
      have := ih (a + 1) (Memory.write_wf a b h) n (by simpa using hi)
      simpa [Memory.writeBytes, Nat.add_assoc, Nat.add_comm 1 n] using this

/-! ## The form is kept -/

theorem State.MemInv.of_mem {s t : State} (h : s.MemInv) (e : t.mem = s.mem) : t.MemInv := by
  unfold State.MemInv at *; rwa [e]

theorem State.MemInv.store {s : State} (h : s.MemInv) (a : Nat) (data : List Byte) (m : Bool) : (s.store a data m).MemInv :=
  Memory.writeBytes_wf a data h

theorem State.MemInv.storeRuns {s : State} (h : s.MemInv) (c : CoreId) (runs : List (Nat × List Byte)) (m : Bool) : (s.storeRuns c runs m).MemInv :=
  Memory.foldl_wf _ (fun _ r hm => Memory.writeBytes_wf r.1 r.2 hm) _ h

theorem State.MemInv.zeroSpan {s : State} (h : s.MemInv) (a n : Nat) : (s.zeroSpan a n).MemInv := Memory.clearRange_wf _ _ h

/-- An invariant that each element keeps is kept by a fold. -/
theorem foldl_keeps_inv {α β : Type} (P : α → Prop) (f : α → β → α) (hf : ∀ s x, P s → P (f s x)) (l : List β) {s : α} (h : P s) : P (l.foldl f s) := by
  induction l generalizing s with
  | nil => exact h
  | cons x t ih => exact ih (hf s x h)

theorem State.MemInv.foldl {α : Type} {f : State → α → State} (hf : ∀ s x, s.MemInv → (f s x).MemInv) (l : List α) {s : State} (h : s.MemInv) :
    (l.foldl f s).MemInv := foldl_keeps_inv State.MemInv f hf l h

theorem State.MemInv.reseal {s : State} (h : s.MemInv) (n : Nat) : (s.reseal n).MemInv := by
  unfold State.reseal
  dsimp only
  split
  · exact h
  · exact Memory.writeBytes_wf _ _ h

theorem State.MemInv.put {s : State} (h : s.MemInv) (a : Nat) (data : List Byte) (m : Bool) : (s.put a data m).MemInv := by
  unfold State.put
  split
  · exact (State.MemInv.foldl (fun s n hs => hs.reseal n) _ h).store a data _
  · exact h.store a data _

theorem State.MemInv.putMarked {s : State} (h : s.MemInv) (a : Nat) (data : List MByte) : (s.putMarked a data).MemInv := by
  unfold State.putMarked
  split
  · exact h.put a _ false
  · exact h.put a _ false

theorem State.MemInv.waxWriteTile {s : State} (h : s.MemInv) (d : BitVec 256) (t : Nat) (tile : List Byte) (marks : List Bool) :
    (s.waxWriteTile d t tile marks).MemInv := by
  unfold State.waxWriteTile
  refine State.MemInv.put ?_ _ _ _
  split
  · exact State.MemInv.foldl (fun s x hs => hs.put _ _ _) _ h
  · exact h.put _ _ _

theorem State.MemInv.putWax {s : State} (h : s.MemInv) (p : Option Nat) (d : BitVec 256) (ofs : Nat) (data : List MByte) : (s.putWax p d ofs data).MemInv :=
  State.MemInv.foldl (fun _ _ hs => State.MemInv.waxWriteTile hs _ _ _ _) _ h

theorem State.seenBy_mem (s : State) (p : Option Nat) : (s.seenBy p).mem = s.mem := by
  unfold State.seenBy State.seenFrom; split
  · split <;> rfl
  · rfl

theorem State.MemInv.caveView {s : State} (h : s.MemInv) (p : Option Nat) (u : CaveUse) : (s.caveView p u).MemInv :=
  Memory.foldl_wf _ (fun _ _ hm => Memory.foldl_wf _ (fun _ _ hm => Memory.write_wf _ _ hm) _ hm) _ (h.of_mem (State.seenBy_mem s p))

theorem State.MemInv.zeroLocalStores {s : State} (h : s.MemInv) : (zeroLocalStores s).MemInv := Memory.filter_wf _ h

@[simp] theorem State.storeScrubs_mem (s : State) : s.storeScrubs.mem = s.mem := by
  unfold State.storeScrubs; dsimp only; split <;> rfl

theorem State.MemInv.zeroHbm {s : State} (h : s.MemInv) : (zeroHbm s).MemInv :=
  State.MemInv.of_mem (t := Machine.zeroHbm s) (s := { s with mem := s.mem.filter fun c => !isHbm c.1 }) (Memory.filter_wf _ h)
    (by simp [Machine.zeroHbm])

/-! ## Parts of a core's cycles that leave memory as it is -/

@[simp] theorem State.schedule_mem (s : State) (c : CoreId) (l : List Sched) : (s.schedule c l).mem = s.mem := rfl

@[simp] theorem State.countPerf_mem (s : State) (c : CoreId) (code n : Nat) : (s.countPerf c code n).mem = s.mem := by
  unfold State.countPerf; split <;> rfl

@[simp] theorem State.countMarked_mem (s : State) (c : CoreId) (a n : Nat) : (s.countMarked c a n).mem = s.mem := by
  unfold State.countMarked; split
  · rfl
  · exact State.countPerf_mem _ _ _ _

@[simp] theorem State.auditEvent_mem (s : State) (c : CoreId) (code : Nat) (i : BitVec 14) (h : Bool) (n : Word) : (s.auditEvent c code i h n).mem = s.mem :=
  rfl

@[simp] theorem State.auditStop_mem (s : State) (c : CoreId) : (s.auditStop c).mem = s.mem := rfl

@[simp] theorem State.auditRows_mem (s : State) (c : CoreId) (e : Sched) (rows : List Nat) : (s.auditRows c e rows).mem = s.mem := by
  unfold State.auditRows
  dsimp only
  split
  · rfl
  · split
    · rfl
    · exact (State.auditStop_mem _ _).trans (foldl_keeps (·.mem) _ (fun s _ => State.auditEvent_mem s c _ _ _ _) _ s)

@[simp] theorem State.poisonHalt_mem (s : State) (c : CoreId) (e : Sched) (i : Nat) : (s.poisonHalt c e i).mem = s.mem := by
  simp [State.poisonHalt]

@[simp] theorem State.touched_mem (s : State) (c : CoreId) : (s.touched c).mem = s.mem := by
  unfold State.touched
  split
  · rfl
  · split
    · rfl
    · dsimp only; split <;> rfl

@[simp] theorem State.incSem_mem (s : State) (c : CoreId) (r n : Nat) (sender : Option CoreId) (p : Place) : (s.incSem c r n sender p).mem = s.mem := by
  unfold State.incSem
  dsimp only
  split <;> simp

/-! ## A core's cycles -/

/-- A scheduled act keeps the form. -/
theorem State.MemInv.applyAct {s : State} (h : s.MemInv) (c : CoreId) (e : Sched) : (applyAct c e s).MemInv := by
  unfold Machine.applyAct
  dsimp only
  split
  case h_9 => exact h.storeRuns _ _ _
  case h_21 =>
    split
    · exact State.MemInv.foldl (fun s b hs => hs.store _ _ _) _ h
    · split
      · exact h.of_mem (by simp)
      · exact (State.MemInv.foldl (fun s b hs => hs.store _ _ _) _ h).of_mem rfl
  case h_10 =>
    have hc : ∀ (l : List Move) (s : State), (l.foldl (fun s m => s.countMarked c m.addr m.len) s).mem = s.mem := fun l s =>
      foldl_keeps (·.mem) _ (fun s m => State.countMarked_mem s c _ _) l s
    split <;> exact h.of_mem (by rw [State.schedule_mem, hc])
  case h_18 => exact h.of_mem (by rw [State.schedule_mem]; split <;> simp)
  all_goals first
    | exact h.of_mem rfl
    | (refine h.of_mem ?_; split <;> first | rfl | simp; done)
    | exact h.of_mem (by simp)
    | (split <;> exact h.of_mem (by simp))
    | (refine h.of_mem ?_; dsimp only; split <;> (try split) <;> first | rfl | simp)

theorem State.MemInv.runActs (c : CoreId) (upto : Option Nat) (fuel : Nat) {s : State} (h : s.MemInv) : (runActs c upto fuel s).MemInv := by
  induction fuel generalizing s with
  | zero => exact h
  | succ n ih =>
    unfold Machine.runActs
    split
    · exact h
    · split
      · refine ih (State.MemInv.applyAct ?_ c _)
        exact h
      · exact h

theorem State.MemInv.runTo {s : State} (h : s.MemInv) (c : CoreId) (t : Nat) : (runTo c t s).MemInv := h.runActs c _ _

theorem State.MemInv.drain {s : State} (h : s.MemInv) (c : CoreId) : (drain c s).MemInv := h.runActs c _ _

theorem State.MemInv.runPending {s : State} (h : s.MemInv) (c : CoreId) : (runPending c s).MemInv := by
  unfold Machine.runPending
  split
  · exact h.runTo c _
  · exact h.drain c

end Sys2Proof.Machine
end

