-- ==== Sys2Proof/Laws/IssueMemory.lean ====
section
/-! SUPPORT. The canonical form of memory is kept by faults, by stopping cores and by the issue of any instruction whose effect keeps
it (R59, R96, R457). -/

namespace Sys2Proof.Machine

theorem State.MemInv.logFault {s : State} (h : s.MemInv) (c : CoreId) (e : FaultEntry) : (s.logFault c e).MemInv := h

theorem State.MemInv.logError {s : State} (h : s.MemInv) (e : ErrorEvent) : (s.logError e).MemInv := h.of_mem (State.logError_mem s e)

theorem State.MemInv.stopIssue {s : State} (h : s.MemInv) (c : CoreId) (st : RunState) : (stopIssue c st s).MemInv := State.MemInv.drain (by exact h) c

theorem State.MemInv.haltCore {s : State} (h : s.MemInv) (c : CoreId) (f : FaultReq) (p : Place) : (haltCore c f p s).MemInv := by
  unfold Machine.haltCore
  refine State.MemInv.stopIssue ?_ c .halted
  split
  · exact State.MemInv.logError (h.logFault _ _) _
  · exact h.logFault _ _

theorem State.MemInv.modCore {s : State} (h : s.MemInv) (c : CoreId) (f : Core → Core) : (s.modCore c f).MemInv := h.of_mem (by simp)

theorem State.MemInv.stopCore {s : State} (h : s.MemInv) (c : CoreId) : (stopCore c s).MemInv := by
  unfold Machine.stopCore
  split
  · exact h.modCore _ _
  · exact h.stopIssue _ _

theorem State.MemInv.takeFault {s : State} (h : s.MemInv) (c : CoreId) (f : FaultReq) (p : Place) : (takeFault c f p s).MemInv := by
  unfold Machine.takeFault
  dsimp only
  split
  · split
    · exact ((h.modCore c _).logFault _ _).modCore _ _
    · exact (h.modCore c _).haltCore _ _ _
  · exact h.haltCore _ _ _
  · exact h.logFault _ _

@[simp] theorem settlePress_mem (s : State) (u : Nat) : (settlePress s u).mem = s.mem := by
  unfold settlePress
  split
  · split <;> rfl
  · rfl

theorem State.MemInv.partitionFatal {s : State} (h : s.MemInv) (p : Nat) : (partitionFatal p s).MemInv := by
  unfold Machine.partitionFatal
  split
  · exact h
  · have h1 : (List.foldl (fun s c => Machine.stopCore c s) s (s.coresOf p)).MemInv :=
      State.MemInv.foldl (fun s c hs => hs.stopCore c) (s.coresOf p) h
    refine h1.of_mem ?_
    dsimp only
    rw [State.modPart_mem]
    exact foldl_keeps (·.mem) _ (fun s u => by simp) _ _

theorem State.MemInv.partError {s : State} (h : s.MemInv) (e : ErrorEvent) : (s.partError e).MemInv := by
  unfold State.partError
  dsimp only
  split
  · exact (h.logError e).partitionFatal _
  · exact h.logError e

@[simp] theorem auditIssue_mem (c : CoreId) (old added : List Sched) (reads : List Nat) (p : Place) (s : State) :
    (auditIssue c old added reads p s).mem = s.mem := by
  unfold auditIssue
  dsimp only
  split
  · rfl
  · split
    · rfl
    · rw [State.auditStop_mem]
      exact (foldl_keeps (·.mem) _ (fun s _ => State.auditEvent_mem s c _ _ _ _) _ _).trans
        (foldl_keeps (·.mem) _ (fun s _ => State.auditEvent_mem s c _ _ _ _) _ s)

theorem State.MemInv.drainEnded {s : State} (h : s.MemInv) (c : CoreId) : (drainEnded c s).MemInv := by
  unfold Machine.drainEnded
  split
  · exact h
  · exact h
  · exact h.drain c

theorem State.MemInv.finishIssue {x : Issue} {e : Effect} (h : e.st.MemInv) (unit : Nat) (p : Place) : (finishIssue x unit p e).MemInv := by
  unfold Machine.finishIssue
  dsimp only
  split
  · exact State.MemInv.takeFault (h.of_mem (by simp)) _ _ _
  · exact State.MemInv.drainEnded (h.of_mem (by simp)) _

theorem State.MemInv.skipIssue {x : Issue} (h : x.st.MemInv) : (skipIssue x).MemInv := h.of_mem (by simp [Machine.skipIssue])

theorem Issue.cleared_mem (x : Issue) : x.cleared.st.mem = x.st.mem := by
  unfold Issue.cleared; split <;> rfl

/-- Issue keeps the form when the instruction's immediate effect does. -/
theorem State.MemInv.issue {s : State} (h : s.MemInv) (r : CoreRow) (c : CoreId) {body : Issue → Except FaultReq Effect}
    (hb : ∀ (x : Issue) (e : Effect), x.st.MemInv → body x = .ok e → e.st.MemInv) : (issue r c body s).MemInv := by
  have h0 := h.runTo c ((s.core c).flight.now - 1)
  have h1 := h0.runTo c (s.core c).flight.now
  have hx : ∀ x : Issue, x.st.mem = (Machine.runTo c (s.core c).flight.now (Machine.runTo c ((s.core c).flight.now - 1) s)).mem → x.cleared.st.MemInv :=
    fun x e => h1.of_mem ((Issue.cleared_mem x).trans e)
  unfold Machine.issue
  dsimp only
  split
  · exact h
  · split
    · exact h0.drain c
    · split
      · exact h1.takeFault _ _ _
      · split
        · exact h1.partError _
        · split
          · exact h
          · split
            · exact State.MemInv.skipIssue (hx _ rfl)
            · split
              · exact h.modCore _ _
              · split
                · exact State.MemInv.takeFault (hx _ rfl) _ _ _
                · split
                  · exact State.MemInv.takeFault (hx _ rfl) _ _ _
                  · exact State.MemInv.finishIssue (hb _ _ (hx _ rfl) ‹_›) _ _

/-- A row whose meaning's effect starts from the state it was given, as every instruction without an immediate effect does. -/
theorem State.MemInv.issue_of_st {s : State} (h : s.MemInv) (r : CoreRow) (c : CoreId) {body : Issue → Except FaultReq Effect}
    (hb : ∀ (x : Issue) (e : Effect), body x = .ok e → e.st.mem = x.st.mem) : (Machine.issue r c body s).MemInv :=
  h.issue r c fun x e hx he => hx.of_mem (hb x e he)

end Sys2Proof.Machine
end

