-- ==== Sys2Proof/Laws/Cores.lean ====
section
/-! SUPPORT. A core's cycles, its faults and the issue of its instructions leave every other core as it was (R9, R78, R96). -/

namespace Sys2Proof.Machine

theorem State.core_congr {s t : State} (h : t.cores = s.cores) (d : CoreId) : t.core d = s.core d := by unfold State.core; rw [h]

@[simp] theorem State.core_logError (s : State) (e : ErrorEvent) (d : CoreId) : (s.logError e).core d = s.core d := State.core_congr (by simp) d
@[simp] theorem State.core_modPart (s : State) (p : Nat) (f : Part → Part) (d : CoreId) : (s.modPart p f).core d = s.core d := rfl
@[simp] theorem State.core_store (s : State) (a : Nat) (data : List Byte) (m : Bool) (d : CoreId) : (s.store a data m).core d = s.core d := rfl
@[simp] theorem State.core_storeRuns (s : State) (c : CoreId) (runs : List (Nat × List Byte)) (m : Bool) (d : CoreId) :
    (s.storeRuns c runs m).core d = s.core d := rfl

theorem State.core_modRegs_other (s : State) {c d : CoreId} (f : CoreRegs → CoreRegs) (h : d ≠ c) : (s.modRegs c f).core d = s.core d :=
  s.core_modCore_other _ h

theorem State.core_schedule_other (s : State) {c d : CoreId} (l : List Sched) (h : d ≠ c) : (s.schedule c l).core d = s.core d :=
  s.core_modCore_other _ h

theorem State.core_logFault_other (s : State) {c d : CoreId} (e : FaultEntry) (h : d ≠ c) : (s.logFault c e).core d = s.core d :=
  s.core_modCore_other _ h

theorem State.core_countPerf_other (s : State) {c d : CoreId} (code n : Nat) (h : d ≠ c) : (s.countPerf c code n).core d = s.core d := by
  unfold State.countPerf; split
  · exact s.core_modCore_other _ h
  · rfl

theorem State.core_countMarked_other (s : State) {c d : CoreId} (a n : Nat) (h : d ≠ c) : (s.countMarked c a n).core d = s.core d := by
  unfold State.countMarked; split
  · rfl
  · exact s.core_countPerf_other _ _ h

theorem State.core_auditEvent_other (s : State) {c d : CoreId} (code : Nat) (i : BitVec 14) (b : Bool) (n : Word) (h : d ≠ c) :
    (s.auditEvent c code i b n).core d = s.core d := by
  unfold State.auditEvent
  rw [State.core_logFault_other _ _ h, State.core_modCore_other _ _ h]

theorem State.core_auditStop_other (s : State) {c d : CoreId} (h : d ≠ c) : (s.auditStop c).core d = s.core d := s.core_modCore_other _ h

theorem State.core_auditRows_other (s : State) {c d : CoreId} (e : Sched) (rows : List Nat) (h : d ≠ c) : (s.auditRows c e rows).core d = s.core d := by
  unfold State.auditRows
  dsimp only
  split
  · rfl
  · split
    · rfl
    · rw [State.core_auditStop_other _ h]
      exact foldl_keeps (·.core d) _ (fun s _ => State.core_auditEvent_other s _ _ _ _ h) _ s

theorem State.core_poisonHalt_other (s : State) {c d : CoreId} (e : Sched) (i : Nat) (h : d ≠ c) : (s.poisonHalt c e i).core d = s.core d := by
  unfold State.poisonHalt
  dsimp only
  rw [State.core_logError, State.core_logFault_other _ _ h, State.core_modCore_other _ _ h]

theorem State.core_touched (s : State) (c d : CoreId) : (s.touched c).core d = s.core d := by
  unfold State.touched
  split
  · rfl
  · split
    · rfl
    · dsimp only; split <;> rfl

theorem State.core_incSem_other (s : State) {c d : CoreId} (r n : Nat) (sender : Option CoreId) (p : Place) (h : d ≠ c) :
    (s.incSem c r n sender p).core d = s.core d := by
  unfold State.incSem
  dsimp only
  split
  · rw [State.core_touched, State.core_modCore_other _ _ h]
  · rw [State.core_logFault_other _ _ h, State.core_touched, State.core_modCore_other _ _ h]

/-- A scheduled act of a core changes no other core. -/
theorem core_applyAct_other {c d : CoreId} (e : Sched) (s : State) (h : d ≠ c) : (applyAct c e s).core d = s.core d := by
  unfold applyAct
  dsimp only
  split
  case h_10 =>
    have hc : ∀ (l : List Move) (s : State), (l.foldl (fun s m => s.countMarked c m.addr m.len) s).core d = s.core d := fun l s =>
      foldl_keeps (·.core d) _ (fun s m => State.core_countMarked_other s _ _ h) l s
    split <;> rw [State.core_schedule_other _ _ h, hc]
  case h_18 => rw [State.core_schedule_other _ _ h]; split <;> simp [State.core_auditRows_other _ _ _ h]
  case h_21 =>
    have hs : ∀ (f : Nat → Nat) (g : Nat → List Byte) (m : Bool) (l : List Nat) (s : State),
        (l.foldl (fun s b => s.store (f b) (g b) m) s).core d = s.core d := fun f g m l s =>
      foldl_keeps (·.core d) _ (fun s b => State.core_store s (f b) (g b) m d) l s
    split
    · exact hs _ _ _ _ s
    · split
      · exact State.core_poisonHalt_other _ _ _ h
      · rw [State.core_schedule_other _ _ h]; exact hs _ _ _ _ s
  all_goals try
    simp only [State.core_modRegs_other _ _ h, State.core_modCore_other _ _ h, State.core_schedule_other _ _ h, State.core_countMarked_other _ _ _ h,
      State.core_countPerf_other _ _ _ h, State.core_auditRows_other _ _ _ h, State.core_poisonHalt_other _ _ _ h, State.core_incSem_other _ _ _ _ _ h,
      State.core_touched, State.core_storeRuns]
  all_goals
    split <;> first | rfl | simp only [State.core_modRegs_other _ _ h, State.core_schedule_other _ _ h, State.core_auditRows_other _ _ _ h]

theorem core_runActs_other {c d : CoreId} (upto : Option Nat) (fuel : Nat) (s : State) (h : d ≠ c) : (runActs c upto fuel s).core d = s.core d := by
  induction fuel generalizing s with
  | zero => rfl
  | succ n ih =>
    unfold runActs
    split
    · rfl
    · split
      · rw [ih, core_applyAct_other _ _ h, State.core_modCore_other _ _ h]
      · rfl

theorem core_runTo_other {c d : CoreId} (t : Nat) (s : State) (h : d ≠ c) : (runTo c t s).core d = s.core d := core_runActs_other _ _ s h

theorem core_drain_other {c d : CoreId} (s : State) (h : d ≠ c) : (drain c s).core d = s.core d := core_runActs_other _ _ s h

theorem core_runPending_other {c d : CoreId} (s : State) (h : d ≠ c) : (runPending c s).core d = s.core d := by
  unfold runPending; split
  · exact core_runTo_other _ s h
  · exact core_drain_other s h

theorem core_stopIssue_other {c d : CoreId} (st : RunState) (s : State) (h : d ≠ c) : (stopIssue c st s).core d = s.core d := by
  unfold stopIssue; rw [core_drain_other _ h, State.core_modCore_other _ _ h]

theorem core_haltCore_other {c d : CoreId} (f : FaultReq) (p : Place) (s : State) (h : d ≠ c) : (haltCore c f p s).core d = s.core d := by
  unfold haltCore
  dsimp only
  rw [core_stopIssue_other _ _ h]
  split <;> simp [State.core_logFault_other _ _ h]

theorem core_takeFault_other {c d : CoreId} (f : FaultReq) (p : Place) (s : State) (h : d ≠ c) : (takeFault c f p s).core d = s.core d := by
  unfold takeFault
  dsimp only
  split
  · split
    · rw [State.core_modCore_other _ _ h, State.core_logFault_other _ _ h, State.core_modCore_other _ _ h]
    · rw [core_haltCore_other _ _ _ h, State.core_modCore_other _ _ h]
  · exact core_haltCore_other _ _ _ h
  · exact State.core_logFault_other _ _ h

theorem core_startCore_other {c d : CoreId} (half : Bool) (entry : BitVec 14) (s : State) (h : d ≠ c) : (startCore c half entry s).core d = s.core d := by
  unfold startCore
  dsimp only
  split
  · rfl
  · exact State.core_modCore_other _ _ h

theorem core_stopCore_other {c d : CoreId} (s : State) (h : d ≠ c) : (stopCore c s).core d = s.core d := by
  unfold stopCore; split
  · exact State.core_modCore_other _ _ h
  · exact core_stopIssue_other _ _ h

end Sys2Proof.Machine
end

