-- ==== Sys2Proof/Laws/Drain.lean ====
section
/-! SUPPORT. Running a core's schedule to its end leaves nothing scheduled (R78, R95, R96): every act gives rise to less work
than its own. -/

namespace Sys2Proof.Machine

theorem foldl_add_start (l : List Nat) (n : Nat) : l.foldl (· + ·) n = n + l.foldl (· + ·) 0 := by
  induction l generalizing n with
  | nil => simp
  | cons x t ih => simp only [List.foldl_cons]; rw [ih, ih (0 + x)]; omega

@[simp] theorem schedWork_nil : schedWork [] = 0 := rfl

@[simp] theorem schedWork_cons (e : Sched) (l : List Sched) : schedWork (e :: l) = e.act.work + schedWork l := by
  simp only [schedWork, List.map_cons, List.foldl_cons]; rw [foldl_add_start]; omega

theorem Act.one_le_work (a : Act) : 1 ≤ a.work := by
  unfold Act.work; split <;> first | omega | exact Nat.mul_pos (by omega) (by omega) | (split <;> omega)

theorem schedWork_insert (l : List Sched) (e : Sched) : schedWork (insertSched l e) = schedWork l + e.act.work := by
  induction l with
  | nil => simp [insertSched]
  | cons h t ih =>
    unfold insertSched
    split
    · simp <;> omega
    · simp [ih] <;> omega

theorem schedWork_inserts (l m : List Sched) : schedWork (m.foldl insertSched l) = schedWork l + schedWork m := by
  induction m generalizing l with
  | nil => simp
  | cons h t ih => simp only [List.foldl_cons, ih, schedWork_insert, schedWork_cons]; omega

theorem schedWork_filter (l : List Sched) (f : Sched → Bool) : schedWork (l.filter f) ≤ schedWork l := by
  induction l with
  | nil => simp
  | cons h t ih =>
    rw [List.filter_cons]
    split <;> simp only [schedWork_cons] <;> omega

/-- A core's schedule. -/
def State.schedOf (s : State) (c : CoreId) : List Sched := (s.core c).flight.sched

theorem State.schedOf_schedule (s : State) (c : CoreId) (l : List Sched) :
    schedWork ((s.schedule c l).schedOf c) = schedWork (s.schedOf c) + schedWork l := by
  unfold State.schedOf State.schedule
  rw [State.core_modCore]
  exact schedWork_inserts _ _

theorem State.schedOf_of_same {s t : State} {c : CoreId} (h : SameIssue (s.core c) (t.core c)) : t.schedOf c = s.schedOf c := by
  unfold State.schedOf; rw [h.flight]

theorem State.schedOf_countPerf (s : State) (c : CoreId) (code n : Nat) : (s.countPerf c code n).schedOf c = s.schedOf c :=
  State.schedOf_of_same (s.countPerf_spec c code n).2

theorem State.schedOf_countMarked (s : State) (c : CoreId) (a n : Nat) : (s.countMarked c a n).schedOf c = s.schedOf c := by
  unfold State.countMarked; split
  · rfl
  · exact s.schedOf_countPerf ..

theorem State.schedOf_logFault (s : State) (c : CoreId) (e : FaultEntry) : (s.logFault c e).schedOf c = s.schedOf c :=
  State.schedOf_of_same (s.logFault_spec c e).2

theorem State.schedOf_modRegs (s : State) (c : CoreId) (f : CoreRegs → CoreRegs) : (s.modRegs c f).schedOf c = s.schedOf c := by
  unfold State.schedOf State.modRegs; rw [State.core_modCore]

theorem State.schedOf_auditStop (s : State) (c : CoreId) : (s.auditStop c).schedOf c = s.schedOf c := by
  unfold State.schedOf State.auditStop; rw [State.core_modCore]; split <;> rfl

theorem State.schedOf_auditRows (s : State) (c : CoreId) (e : Sched) (rows : List Nat) : (s.auditRows c e rows).schedOf c = s.schedOf c := by
  unfold State.auditRows
  dsimp only
  split
  · rfl
  · split
    · rfl
    · rw [State.schedOf_auditStop]
      exact State.schedOf_of_same (foldl_audit_spec _ s c _ _ _ _).2

theorem State.schedOf_congr {s t : State} (h : t.cores = s.cores) (c : CoreId) : t.schedOf c = s.schedOf c := by
  unfold State.schedOf; rw [State.core_congr h]

theorem State.schedOf_touched (s : State) (c d : CoreId) : (s.touched c).schedOf d = s.schedOf d := by
  unfold State.schedOf; rw [State.core_touched]

theorem State.schedOf_incSem (s : State) (c : CoreId) (r n : Nat) (sender : Option CoreId) (p : Place) :
    (s.incSem c r n sender p).schedOf c = s.schedOf c := by
  unfold State.incSem
  dsimp only
  split
  · rw [State.schedOf_touched]; unfold State.schedOf; rw [State.core_modCore]
  · rw [State.schedOf_logFault, State.schedOf_touched]; unfold State.schedOf; rw [State.core_modCore]

theorem schedWork_poisonHalt (s : State) (c : CoreId) (e : Sched) (i : Nat) :
    schedWork ((s.poisonHalt c e i).schedOf c) ≤ schedWork (s.schedOf c) := by
  unfold State.poisonHalt
  dsimp only
  rw [State.schedOf_congr (State.logError_cores _ _), State.schedOf_logFault]
  unfold State.schedOf
  rw [State.core_modCore]
  exact schedWork_filter _ _

theorem schedWork_later (e : Sched) (acts : List (Nat × Nat × Act)) :
    schedWork (e.later acts) = (acts.map fun a => a.2.2.work).foldl (· + ·) 0 := by
  unfold schedWork Sched.later; rw [List.map_map]; rfl

theorem work_ones {α : Type} (l : List α) (f : α → Act) (h : ∀ x, (f x).work = 1) :
    ((l.map fun x => (f x).work).foldl (· + ·) 0) = l.length := by
  induction l with
  | nil => rfl
  | cons x t ih => simp only [List.map_cons, List.foldl_cons, List.length_cons]; rw [foldl_add_start, ih, h]; omega

theorem writeSys_flight (k : Core) (n : Nat) (v : Word) (now : Nat) : (writeSys k n v now).flight = k.flight := by
  unfold writeSys; simp only [apply_ite Core.flight, ite_self]

theorem foldl_cons_add (n : Nat) (l : List Nat) : (n :: l).foldl (· + ·) 0 = n + l.foldl (· + ·) 0 := by
  rw [List.foldl_cons, Nat.zero_add, foldl_add_start]

/-- An act leaves less work than it was. -/
theorem schedWork_applyAct (c : CoreId) (e : Sched) (s : State) :
    schedWork ((applyAct c e s).schedOf c) + 1 ≤ schedWork (s.schedOf c) + e.act.work := by
  have one := e.act.one_le_work
  have hs : ∀ (f : Nat → Nat) (g : Nat → List Byte) (m : Bool) (l : List Nat) (s : State),
      (l.foldl (fun s b => s.store (f b) (g b) m) s).schedOf c = s.schedOf c := fun f g m l s =>
    foldl_keeps (·.schedOf c) (fun s b => s.store (f b) (g b) m) (fun _ _ => rfl) l s
  have hm : ∀ (l : List Move) (s : State), (l.foldl (fun s m => s.countMarked c m.addr m.len) s).schedOf c = s.schedOf c := fun l s =>
    foldl_keeps (·.schedOf c) _ (fun s _ => State.schedOf_countMarked s ..) l s
  unfold applyAct
  dsimp only
  split
  all_goals (rename_i heq; rw [heq] at one ⊢)
  case h_7 n v =>
    have : (s.modCore c fun k => writeSys k n v e.cycle).schedOf c = s.schedOf c := by
      unfold State.schedOf; rw [State.core_modCore, writeSys_flight]
    rw [this]; exact Nat.add_le_add_left one _
  case h_9 => exact Nat.add_le_add_left one _
  case h_10 =>
    split
    · rename_i hl
      rw [State.schedOf_schedule, hm, schedWork_later, List.map_map]
      simp only [Function.comp_def]
      rw [work_ones _ _ fun _ => rfl]
      simp [Act.work, hl] <;> omega
    · rename_i hl
      rw [State.schedOf_schedule, hm, schedWork_later]
      simp [Act.work, hl] <;> omega
  case h_13 =>
    split <;> rw [State.schedOf_schedule, State.schedOf_auditRows, schedWork_later] <;> split <;> simp [Act.work] <;> omega
  case h_14 => have := schedWork_poisonHalt s c e; exact Nat.add_le_add (this _) one
  case h_15 => rw [State.schedOf_schedule, State.schedOf_auditRows, schedWork_later]; split <;> simp [Act.work] <;> omega
  case h_17 p i =>
    rw [State.schedOf_schedule, State.schedOf_countPerf, State.schedOf_auditRows, schedWork_later]
    rw [List.map_cons, foldl_cons_add]
    have hw : ∀ i, (Act.mmtRow p i).work = (p.d.length + 2) * (p.rows - i) + (p.d.length + 2) := fun i => by
      change (p.d.length + 2) * (p.rows - i + 1) = _; rw [Nat.mul_add, Nat.mul_one]
    have ho : ∀ g m, (Act.mmtOut p i g m).work = p.d.length + 1 := fun _ _ => rfl
    rw [hw, ho]
    split
    · rename_i hi
      rw [List.map_cons, foldl_cons_add, hw]
      have h : p.rows - i = p.rows - (i + 1) + 1 := by omega
      rw [h, Nat.mul_add]
      simp only [List.map_nil, List.foldl_nil]; omega
    · simp only [List.map_nil, List.foldl_nil]; omega
  case h_18 =>
    rw [State.schedOf_schedule, schedWork_later, List.map_map]
    simp only [Function.comp_def]
    rw [work_ones _ _ fun _ => rfl]
    split <;> simp only [State.schedOf_auditRows, Act.work, List.length_zipIdx] <;> omega
  case h_21 =>
    split
    · rw [hs]; omega
    · split
      · have := schedWork_poisonHalt s c e; exact Nat.add_le_add (this _) one
      · rw [State.schedOf_schedule, hs, schedWork_later]; simp [Act.work]
  case h_24 => exact Nat.add_le_add (by unfold State.schedOf; rw [State.core_modCore]; exact Nat.le_refl _) one
  all_goals try
    simp only [State.schedOf_modRegs, State.schedOf_schedule, State.schedOf_countMarked,
      State.schedOf_countPerf, State.schedOf_incSem, State.schedOf_touched, schedWork_later]
  all_goals try (simp [Act.work]; done)
  all_goals split <;> (try simp only [State.schedOf_modRegs]) <;> simp [Act.work] <;> omega

theorem schedWork_runActs (c : CoreId) (fuel : Nat) (s : State) (h : schedWork (s.schedOf c) ≤ fuel) : (runActs c none fuel s).schedOf c = [] := by
  induction fuel generalizing s with
  | zero =>
    unfold runActs
    cases hs : s.schedOf c with
    | nil => rfl
    | cons e t => rw [hs, schedWork_cons] at h; have := e.act.one_le_work; omega
  | succ n ih =>
    unfold runActs
    split
    · rename_i hs; exact hs
    · rename_i e rest hs
      simp only [Option.all_none, if_true]
      have ha := schedWork_applyAct c e (s.modCore c fun k => { k with flight := { k.flight with
          sched := rest, now := max k.flight.now (if e.phase = phaseClip then e.cycle - 1 else e.cycle) } })
      have hr : (s.modCore c fun k => { k with flight := { k.flight with
          sched := rest, now := max k.flight.now (if e.phase = phaseClip then e.cycle - 1 else e.cycle) } }).schedOf c = rest := by
        unfold State.schedOf; rw [State.core_modCore]
      rw [hr] at ha
      have hw : schedWork (s.schedOf c) = e.act.work + schedWork rest := by
        unfold State.schedOf; rw [hs, schedWork_cons]
      exact ih _ (Nat.le_of_lt_succ (Nat.lt_of_lt_of_le ha (by omega)))

/-- Once a core has drained nothing is scheduled. -/
theorem drain_sched (c : CoreId) (s : State) : ((drain c s).core c).flight.sched = [] := schedWork_runActs c _ s (Nat.le_refl _)

/-- A core with nothing scheduled has nothing to drain, and its cycles change nothing. -/
theorem drain_idle {c : CoreId} {s : State} (h : (s.core c).flight.sched = []) : drain c s = s := by unfold drain; rw [h]; rfl
theorem runTo_idle {c : CoreId} {s : State} (t : Nat) (h : (s.core c).flight.sched = []) : runTo c t s = s := by unfold runTo; rw [h]; rfl

end Sys2Proof.Machine
end

