-- ==== Sys2Proof/Laws/Wake.lean ====
section
/-! SUPPORT. What the wake of dozing domains can do: it puts the dozing ones of a list On, counts them, and touches nothing else
(R414, R423). -/

namespace Sys2Proof.Machine

@[simp] theorem wakeDomain_mem (d : Nat) (s : State) : (wakeDomain d s).mem = s.mem := by unfold wakeDomain; split <;> rfl

@[simp] theorem wakeDomain_cores (d : Nat) (s : State) : (wakeDomain d s).cores = s.cores := by unfold wakeDomain; split <;> rfl

/-- A wake changes the power state alone. -/
theorem wakeDomain_frame (d : Nat) (s : State) : { wakeDomain d s with power := s.power } = s := by unfold wakeDomain; split <;> rfl

/-- A domain after the wake of another or of itself. -/
theorem wakeDomain_domain (d e : Nat) (s : State) : (wakeDomain d s).domain e = if e = d ∧ s.domain d = .doze then .on else s.domain e := by
  unfold wakeDomain
  split
  · rename_i h
    by_cases hed : e = d
    · subst hed
      simp [State.domain, Tbl.getD, Tbl.get?_put_self] at *
      simp [h]
    · simp [State.domain, Tbl.getD, Tbl.get?_put_other _ _ hed, hed]
  · rename_i h
    simp [h]

@[simp] theorem wakeFor_mem (l : List Nat) (s : State) : (wakeFor l s).mem = s.mem := by
  unfold wakeFor
  induction l generalizing s with
  | nil => rfl
  | cons d l ih => simp [ih]

@[simp] theorem wakeFor_cores (l : List Nat) (s : State) : (wakeFor l s).cores = s.cores := by
  unfold wakeFor
  induction l generalizing s with
  | nil => rfl
  | cons d l ih => simp [ih]

@[simp] theorem wakeFor_core (l : List Nat) (s : State) (c : CoreId) : (wakeFor l s).core c = s.core c := by
  simp [State.core]

/-- A list of wakes changes the power state alone. -/
theorem wakeFor_frame (l : List Nat) (s : State) : { wakeFor l s with power := s.power } = s := by
  unfold wakeFor
  induction l generalizing s with
  | nil => rfl
  | cons d l ih =>
    have h := ih (wakeDomain d s)
    have h' := wakeDomain_frame d s
    rw [List.foldl_cons]
    have e : ∀ (t u : State), { t with power := u.power } = u → ∀ p, { t with power := p } = { u with power := p } := by
      intro t u h p
      rw [← h]
    rw [e _ _ h s.power, h']

/-- A domain after a list of wakes: On if it dozed and stands in the list, otherwise as it was. -/
theorem wakeFor_domain (l : List Nat) (e : Nat) (s : State) :
    (wakeFor l s).domain e = if e ∈ l ∧ s.domain e = .doze then .on else s.domain e := by
  unfold wakeFor
  induction l generalizing s with
  | nil => simp
  | cons d l ih =>
    rw [List.foldl_cons, ih, wakeDomain_domain]
    by_cases h1 : e = d
    · subst h1
      by_cases h2 : s.domain e = .doze <;> simp [h2]
    · simp [h1]

end Sys2Proof.Machine
end

