-- ==== Sys2Proof/WellFormed.lean ====
section
/-! DEFINITION. Which commands are well formed: every operand that names a thing of the device names one
that the spec says exists. A command that is not well formed still has its meaning (it changes nothing or is
refused as the spec says); the checks say which commands the outside world can send. -/

namespace Sys2Proof

/-- A logical core ID names a core: ROW 0–11 (R15). -/
def coreOk (c : CoreId) : Bool := decide (bits c.toNat 4 4 < 12)
/-- A stream queue, 0–3 (R198). -/
def queueOk (q : Nat) : Bool := decide (q < 4)
/-- A press unit, 0–31 (R247). -/
def pressOk (u : Nat) : Bool := decide (u < 32)
/-- A partition, 0–15 (R366). -/
def partOk (p : Nat) : Bool := decide (p < 16)
/-- A compute die, 0–3 (R12). -/
def dieOk (d : Nat) : Bool := decide (d < 4)
/-- A stack, 0–15 (R12). -/
def stackOk (k : Nat) : Bool := decide (k < 16)
/-- A job ring, 0–63 (R332). -/
def ringOk (r : Nat) : Bool := decide (r < 64)
/-- A CXL port, 0–1 (R328). -/
def cxlPortOk (p : Nat) : Bool := decide (p < 2)
/-- A Hjelis Link port, 0–23 (R305). -/
def linkPortOk (p : Nat) : Bool := decide (p < 24)
/-- A power domain, 0–83 (R410). -/
def domainOk (d : Nat) : Bool := decide (d < 84)
/-- A rail, numbered 0–12 in the order of R406. -/
def railOk (r : Nat) : Bool := decide (r < 13)
/-- A temperature sensor: a logical core's, or a sub 1–21 of UNIT_TEMP (R397). -/
def sensorOk (t : Sensor) : Bool :=
  match t with
  | .core c => coreOk c
  | .unit n => decide (1 ≤ n) && decide (n ≤ 21)
  | .engine n => decide (n ≤ 32)
/-- A wheel, 0–262,143 (R220). -/
def wheelOk (w : Nat) : Bool := decide (w < 262144)
/-- An intake engine, 0–31 (R212). -/
def engineOk (e : Nat) : Bool := decide (e < 32)
/-- A barrier ID, 0–1,023 (R286). -/
def barrierOk (b : Nat) : Bool := decide (b < 1024)

/-- The check of a command's operands. -/
def Instr.wf (i : Instr) : Bool :=
  match i with
  | .copy c q _ => coreOk c && queueOk q
  | .fill c q _ => coreOk c && queueOk q
  | .convert c q _ => coreOk c && queueOk q
  | .streamCompletion c q => coreOk c && queueOk q
  | .semaphoreIncrement a bid _ => coreOk a && coreOk bid
  | .barrierNodeReport p bid d => partOk p && barrierOk bid && dieOk d
  | .deviceReport p bid _ _ _ => partOk p && barrierOk bid
  | .barrierCompletion p bid _ => partOk p && barrierOk bid
  | .barrierReleaseDelivery c bid _ => coreOk c && barrierOk bid
  | .ironVisit p => partOk p
  | .gather c _ => coreOk c
  | .scatter c _ => coreOk c
  | .scatterAdd c _ => coreOk c
  | .knifeCompletion c => coreOk c
  | .caveMigrationStart p _ => partOk p
  | .caveMigrationComplete p _ _ => partOk p
  | .pressDescriptorTake u => pressOk u
  | .vsetl u => pressOk u
  | .pld u _ => pressOk u
  | .pst u => pressOk u
  | .padd u => pressOk u
  | .psub u => pressOk u
  | .pmul u => pressOk u
  | .pfma u => pressOk u
  | .pmin u => pressOk u
  | .pmax u => pressOk u
  | .psqrt u => pressOk u
  | .precip u => pressOk u
  | .psign u => pressOk u
  | .pabs u => pressOk u
  | .pneg u => pressOk u
  | .pend u => pressOk u
  | .pressCompletion u => pressOk u
  | .put c _ => coreOk c
  | .get c => coreOk c
  | .putSet c _ => coreOk c
  | .putGroup c _ => coreOk c
  | .allreduce c _ _ => coreOk c
  | .fabricCompletion c _ => coreOk c
  | .linkFrameReceive p _ _ _ => linkPortOk p
  | .portDown p => linkPortOk p
  | .portRetrainComplete p _ => linkPortOk p
  | .portRetrain _ p _ => linkPortOk p
  | .linkSessionEstablish p _ _ _ => partOk p
  | .linkRekey p _ _ _ => partOk p
  | .checkpointCommit p _ _ => partOk p
  | .watchLineInvalidate r _ => ringOk r
  | .jobAdmit r _ => ringOk r
  | .jobStep r => ringOk r
  | .jobRelease r => ringOk r
  | .releaseComplete r => ringOk r
  | .segmentLoad r => ringOk r
  | .barrierLoad r => ringOk r
  | .groupLoad r => ringOk r
  | .multicastAllocate r => ringOk r
  | .multicastFree r => ringOk r
  | .peerGrant r => ringOk r
  | .peerRevoke r => ringOk r
  | .ringEnable r _ _ => ringOk r
  | .ringDisable r => ringOk r
  | .wheelOpen r => ringOk r
  | .feed r => ringOk r
  | .feedResume r => ringOk r
  | .close r => ringOk r
  | .closeAbort r => ringOk r
  | .query r => ringOk r
  | .queryClear r => ringOk r
  | .hdmWrite p _ _ _ => cxlPortOk p
  | .hdmRead p _ _ => cxlPortOk p
  | .cxlLinkTrain p _ _ _ => cxlPortOk p
  | .controlRegisterWrite p _ _ _ => cxlPortOk p
  | .coreCtlStart p _ _ _ _ => cxlPortOk p
  | .coreCtlStop p _ => cxlPortOk p
  | .coreCtlDump p _ _ => cxlPortOk p
  | .coreCtlContinue p _ => cxlPortOk p
  | .imemLoadedSet p _ _ => cxlPortOk p
  | .imemWrite p _ _ _ _ _ => cxlPortOk p
  | .fltHeadWrite p _ => cxlPortOk p
  | .faultLogRead p _ _ => cxlPortOk p
  | .caveMapWrite p e _ => cxlPortOk p && decide (e < 8)
  | .coreReset p _ => partOk p
  | .rowReset p _ => partOk p
  | .resetDrainComplete p => partOk p
  | .groupStart w e => wheelOk w && engineOk e
  | .watchdogExpiry w e => wheelOk w && engineOk e
  | .groupComplete w e _ => wheelOk w && engineOk e
  | .encodeGop w e _ => wheelOk w && engineOk e
  | .slotWrite w => wheelOk w
  | .consumedReread w => wheelOk w
  | .partitionReset p _ => partOk p
  | .partitionResetComplete p => partOk p
  | .scrubComplete u _ => stackOk u
  | .avsbusAck d _ => dieOk d
  | .domainPowerGood d l => domainOk d && decide (l.length = 13)
  | .domainPowerLoss d r _ => domainOk d && railOk r
  | .dozeEntry d => domainOk d
  | .dozeWake d _ => domainOk d
  | .startSupplyTimeout d => domainOk d
  | .memoryLinkRetrain k _ => stackOk k
  | .memoryLinkLost k => stackOk k
  | .meshFailure d => dieOk d
  | .stewardSilent u => dieOk u || (decide (0x10 ≤ u) && decide (u ≤ 0x1F))
  | .deepRestWakeComplete l n => l.all domainOk && n.all fun e => cxlPortOk e.1
  | .thermalSample t _ => sensorOk t
  | .powerLimitAdjust c _ _ _ _ => coreOk c
  | .cycleCountWrap c => coreOk c
  | .nop c => coreOk c
  | .trapEntry c => coreOk c
  | .poisonRowHalt c => coreOk c
  | .waitRelease c _ => coreOk c
  | .fenceHeldRelease c => coreOk c
  | .barrierArrival c => coreOk c
  | .startFetchBegin c _ => coreOk c
  | .swapiResume c _ => coreOk c
  | .dumpDone c => coreOk c
  | .rtcStop c => coreOk c
  | _ => true

end Sys2Proof
end

