-- ==== Sys2Proof/Tests/Slice0.lean ====
section
/-! SUPPORT. Tests of the model on small states: well-formedness, examples that the spec gives, and for each claim states that meet
its hypotheses. -/

namespace Sys2Proof.Tests

set_option Elab.async false

open Sys2Proof Sys2Proof.Machine

/-! ## Well-formedness: an ill-formed term for each check -/

theorem test_wf_core : (Instr.nop 0x0C0).wf = false ∧ (Instr.nop 0x0BF).wf = true := by decide
theorem test_wf_queue : (Instr.streamCompletion 0 4).wf = false ∧ (Instr.streamCompletion 0 3).wf = true := by decide
theorem test_wf_press : (Instr.padd 32).wf = false ∧ (Instr.padd 31).wf = true := by decide
theorem test_wf_part : (Instr.ironVisit 16).wf = false ∧ (Instr.ironVisit 15).wf = true := by decide
theorem test_wf_die : (Instr.meshFailure 4).wf = false ∧ (Instr.meshFailure 3).wf = true := by decide
theorem test_wf_stack : (Instr.memoryLinkLost 16).wf = false ∧ (Instr.memoryLinkLost 15).wf = true := by decide
theorem test_wf_ring : (Instr.query 64).wf = false ∧ (Instr.query 63).wf = true := by decide
theorem test_wf_cxl_port : (Instr.coreCtlStop 2 0).wf = false ∧ (Instr.coreCtlStop 1 0).wf = true := by decide
theorem test_wf_link_port : (Instr.portDown 24).wf = false ∧ (Instr.portDown 23).wf = true := by decide
theorem test_wf_domain : (Instr.dozeWake 84 []).wf = false ∧ (Instr.dozeWake 83 []).wf = true := by decide
theorem test_wf_wheel : (Instr.slotWrite 262144).wf = false ∧ (Instr.slotWrite 262143).wf = true := by decide
theorem test_wf_engine : (Instr.groupStart 0 32).wf = false ∧ (Instr.groupStart 0 31).wf = true := by decide
theorem test_wf_barrier : (Instr.barrierCompletion 0 1024 0).wf = false ∧ (Instr.barrierCompletion 0 1023 0).wf = true := by decide
theorem test_wf_steward : (Instr.stewardSilent 4).wf = false ∧ (Instr.stewardSilent 0x1F).wf = true := by decide
theorem test_wf_wake : (Instr.deepRestWakeComplete [84] []).wf = false ∧ (Instr.deepRestWakeComplete [0, 83] []).wf = true
      ∧ (Instr.deepRestWakeComplete [] [(2, 0, 0)]).wf = false := by decide
theorem test_wf_rail : (Instr.domainPowerLoss 0 13 0).wf = false ∧ (Instr.domainPowerLoss 83 12 0).wf = true := by decide
theorem test_wf_rails : (Instr.domainPowerGood 0 [0]).wf = false ∧ (Instr.domainPowerGood 83 (List.replicate 13 0)).wf = true := by decide
theorem test_wf_sensor : (Instr.thermalSample (.unit 22) 0).wf = false ∧ (Instr.thermalSample (.unit 21) 0).wf = true := by decide
theorem test_wf_cave_map : (Instr.caveMapWrite 0 8 0).wf = false ∧ (Instr.caveMapWrite 1 7 0).wf = true := by decide

/-! ## Helpers -/

/-- The checks of `Issues` as one test. -/
def issuesB (r : CoreRow) (c : CoreId) (s : State) : Bool :=
  s.clocked c && (s.core c).canIssue && ((runTo c ((s.core c).flight.now - 1) s).core c).canIssue && decide ((s.coreAtIssue c).ctl.pc ≤ 16383)
    && ((s.coreAtIssue c).markedFetch (s.coreAtIssue c).ctl.pc (s.nextWord c)).isNone && r.owns (s.coreAtIssue c) (s.nextWord c)
    && predHolds (s.coreAtIssue c).regs (wPred (s.nextWord c)) && (s.dozing r c (s.coreAtIssue c) (s.nextWord c)).isNone
    && (issueFault r (s.nextIssue c)).isNone && (s.coreAtIssue c).ctl.state == .running && (s.coreAtIssue c).ctl.audit != 2

theorem issues_of {r : CoreRow} {c : CoreId} {s : State} (h : issuesB r c s = true) : Issues r c s := by
  simp only [issuesB, Bool.and_eq_true, decide_eq_true_eq, beq_iff_eq, bne_iff_ne, Option.isNone_iff_eq_none] at h
  obtain ⟨⟨⟨⟨⟨⟨⟨⟨⟨⟨h0, h1⟩, h2⟩, h3⟩, h4⟩, h5⟩, h6⟩, h7⟩, h8⟩, h9⟩, h10⟩ := h
  exact ⟨⟨h0, h1, h2, h3, h4, h5⟩, h6, h7, h8, h9, h10⟩

/-- An instruction word: engine, opcode, DST, SRC1, SRC2 and IMM; PRED 0. -/
def word (eng opc dst src1 src2 imm : Nat) : Nat :=
  eng * 2 ^ 4 + opc * 2 ^ 8 + dst * 2 ^ 16 + src1 * 2 ^ 22 + src2 * 2 ^ 28 + imm * 2 ^ 40

/-- A double-word: the same with LONG = 1 and its second word. -/
def longWord (eng opc dst src1 src2 imm second : Nat) : Nat := word eng opc dst src1 src2 imm + 2 ^ 7 + second * 2 ^ 64

/-- A segment descriptor, valid and read-write, in a tier. -/
def segment (base limit tier : Nat) : BitVec 256 :=
  BitVec.ofNat 256 (base + limit * 2 ^ 64 + 2 ^ 128 + 2 ^ 129 + 2 ^ 130 + tier * 2 ^ 132)

/-- An On device whose partition 0 owns unit 0, with segment 0 over the local store of core 0. -/
def device : State :=
  let s := State.reset
  let rec0 : PartRec := { PartRec.reset with valid := true, tenant := 1 }
  let s := s.modPart 0 fun q => { q with layout := rec0, segs := [(0, segment 0 0x7FFFFF 0)] }
  { s with
    rtp := { s.rtp with puMap := s.rtp.puMap.set 0 0 }
    host := { s.host with linkWidth := #v[16, 0], linkRate := #v[6, 0] }
    start := { s.start with isOn := true, present := 0xFFFF, step := 11, refclkLocked := true }
    power := { s.power with domains := (List.range 84).map fun d => (d, .on) } }

/-- That device with core 0 in a state, and something done to the core. -/
def withCore (f : Core → Core) : State := device.setCore 0 (f Core.reset)

/-- Core 0 Running at word 0, which is the given one. -/
def ran (w : Nat) (k : Core) : Core :=
  { k with ctl := { k.ctl with state := .running, loadedA := true, imem := [(0, BitVec.ofNat 64 w), (1, BitVec.ofNat 64 (w / 2 ^ 64))] } }

/-- The device with core 0 running one instruction. -/
def running (w : Nat) : State := withCore (ran w)

/-- The same with core 0's registers changed. -/
def runningWith (w : Nat) (f : CoreRegs → CoreRegs) : State := withCore fun k => { ran w k with regs := f k.regs }

/-! ## The block -/

theorem test_meets_StepKeepsMemoryForm :
    Memory.wf State.reset.mem = true ∧ ∃ t, step (State.reset.push (.nop 0)) = .next t := ⟨rfl, _, rfl⟩
theorem test_meets_EveryCommandAnswersNext : State.reset.pending = [] := rfl
theorem test_meets_MemoryReadsAsWritten : Memory.wf [(4, 1), (7, 2)] = true := by decide
theorem test_meets_HardwiredRegisters : 0 < 32 ∧ 31 < 32 := by decide

/-! ## Scalar instructions -/

theorem test_meets_ScalarArithmetic :
    [0x01, 0x02, 0x03, 0x04, 0x05, 0x06, 0x07, 0x08, 0x10, 0x11, 0x12, 0x13, 0x14, 0x15].all
      (fun op => issuesB (scalarRow op legalXXX) 0 (running (word 0 op 0 1 31 0))) = true := by decide
theorem test_meets_ScalarImmediates :
    ([0x09, 0x0B, 0x0C].all fun op => issuesB (scalarRow op legalXX) 0 (running (word 0 op 31 1 0 0xFFFFFF))) = true
      ∧ issuesB (scalarRow 0x0A legalX) 0 (running (word 0 0x0A 0 0 0 0x800000)) = true
      ∧ issuesB (scalarRow 0x00 fun _ _ => true) 0 (running (word 0 0x00 0 0 0 0)) = true := by decide

/-- Does a state's next instruction read unmarked sources? -/
def unmarkedSources (s : State) : Bool :=
  let x := s.nextIssue 0
  !x.k.regs.markX (wSrc1 x.w) && !x.k.regs.markX (wSrc2 x.w)

theorem test_meets_CompareAndSystemRegisters :
    ([0, 5].all fun cond => issuesB (scalarRow 0x18 legalCmp) 0 (running (word 0 0x18 7 1 2 cond)) && unmarkedSources (running (word 0 0x18 7 1 2 cond))) = true
      ∧ ([0x00, 0x83, 0xC2, 0xD0, 0xE0, 0x13F, 0x22F, 0x30F].all fun n => issuesB (scalarRow 0x28 legalMovs) 0 (running (word 0 0x28 1 0 0 n))) = true
      ∧ ([0x00, 0x7C, 0xC0, 0x13F, 0x22F, 0x30F].all fun n =>
          issuesB (scalarRow 0x29 legalSets) 0 (running (word 0 0x29 0 1 0 n)) && unmarkedSources (running (word 0 0x29 0 1 0 n))) = true := by decide

theorem test_meets_ScalarMemory :
    ([(0x20, Right.rd, legalXX, false), (0x21, Right.wr, legalSt, true)].all fun r =>
      [0, 0x7FFFF8].all fun a =>
        let s := running (word 0 r.1 1 0 2 a)
        let x := s.nextIssue 0
        issuesB (scalarRow r.1 r.2.2.1) 0 s && unmarkedSources s
          && (x.st.ownAccess 0 (addOffset (x.k.regs.readX (wSrc1 x.w)) (wSimm x.w)) 8 r.2.1 8).isOk
          && (lsPort x.k x.now [{ cycle := x.now + 1, bytes := 8, write := r.2.2.2 }]).isNone) = true := by decide

theorem test_meets_Branches :
    issuesB (scalarRow 0x30 fun _ _ => true) 0 (running (word 0 0x30 0 0 0 16383)) = true
      ∧ ([(0x31, 5), (0x32, 5), (0x33, 5), (0x34, 5), (0x31, 0), (0x32, 0), (0x33, 0), (0x34, 0)].all fun b =>
          let s := runningWith (word 0 b.1 0 1 2 16383) fun g => g.writeX 1 b.2 false
          issuesB (scalarRow b.1 legalBranch) 0 s && unmarkedSources s) = true := by decide

theorem test_meets_SwapReturnStop :
    ([true, false].all fun b => issuesB (scalarRow 0x41 fun _ _ => true) 0
        (withCore fun k => let k := ran (word 0 0x41 0 0 0 9) k; { k with ctl := { k.ctl with loadedB := b } })) = true
      ∧ issuesB (scalarRow 0x43 fun k _ => k.ctl.handler) 0
          (withCore fun k => let k := ran (word 0 0x43 0 0 0 0) k; { k with ctl := { k.ctl with handler := true } }) = true
      ∧ issuesB (scalarRow 0x44 fun _ _ => true) 0 (running (word 0 0x44 0 0 0 0)) = true := by decide

/-- Core 0 waits for a trap entry. -/
def trapped : State := withCore fun k => { k with ctl := { k.ctl with state := .running, hold := .trapEntry } }

theorem test_meets_TrapEntry :
    (trapped.core 0).ctl.hold = .trapEntry ∧ (trapped.core 0).ctl.state = .running ∧ ((drain 0 trapped).core 0).ctl.state = .running ∧ (State.reset.core 0).ctl.hold ≠ .trapEntry := by decide

theorem test_meets_TakingAFault :
    faultClass 0x09 = .trap ∧ faultClass 0x0D = .halt
      ∧ (let s := withCore fun k => { k with sys := { k.sys with trapEnable := true } }
         (s.core 0).ctl.handler = false ∧ (s.core 0).sys.trapEnable = true)
      ∧ (let s := withCore fun k => { k with ctl := { k.ctl with handler := true } }
         (s.core 0).ctl.handler = true) := by decide

theorem test_meets_OrderOfChecks :
    (let x := (withCore fun k => let k := ran 0 k
        { k with ctl := { k.ctl with pc := 1, imem := [(1, BitVec.ofNat 64 (longWord 0 0x40 0 0 0 0 0))] } }).nextIssue 0
     wLong x.w = true ∧ x.k.ctl.pc % 2 = 1)
      ∧ (let x := (running (word 0 0xFF 0 0 0 0)).nextIssue 0
         ¬ (wLong x.w = true ∧ x.k.ctl.pc % 2 = 1) ∧ reservedWord x.w = true)
      ∧ (let x := (withCore fun k => let k := ran (word 0 0x41 0 0 0 0) k; { k with ctl := { k.ctl with handler := true } }).nextIssue 0
         wLong x.w = false ∧ reservedWord x.w = false ∧ x.k.ctl.handler = true ∧ wEng x.w = 0 ∧ wOpc x.w = 0x41)
      ∧ (let x := (withCore fun k => let k := ran (word 0 0x01 0 0 0 0) k
                    { k with flight := { k.flight with now := 3, busy := k.flight.busy.set 0 4 } }).nextIssue 0
         reservedWord x.w = false ∧ x.k.ctl.handler = false ∧ x.now < (x.k.flight.busy[(scalarRow 0x01 legalXXX).unit]?).getD 0) := by decide

theorem test_meets_SkippedInstruction :
    let s := running (word 0 0x01 1 1 1 0 + 1)
    let r := scalarRow 0x01 legalXXX
    (s.core 0).canIssue = true ∧ ((runTo 0 ((s.core 0).flight.now - 1) s).core 0).canIssue = true ∧ (s.coreAtIssue 0).ctl.pc ≤ 16383
      ∧ (s.coreAtIssue 0).markedFetch (s.coreAtIssue 0).ctl.pc (s.nextWord 0) = none ∧ r.owns (s.coreAtIssue 0) (s.nextWord 0) = true
      ∧ predHolds (s.coreAtIssue 0).regs (wPred (s.nextWord 0)) = false := by decide

/-- A loop level. -/
def level (start endAt index count : Nat) : LoopLevel :=
  { LoopLevel.reset with active := true, start := BitVec.ofNat _ start, endAt := BitVec.ofNat _ endAt, index := BitVec.ofNat _ index, count := BitVec.ofNat _ count }

theorem test_meets_LoopAndNopn :
    (([1, 2 ^ 20] : List Word).all fun n =>
      let s := runningWith (longWord 0 0x40 4 0 0 0 0x10) fun g => g.writeX 1 n false
      let x := s.nextIssue 0
      let g := x.k.regs
      issuesB { scalarRow 0x40 (fun _ _ => true) with long := true } 0 s && decide (activeLevels g + loopDepth x.w ≤ 4)
        && ((List.range (loopDepth x.w)).all fun i => !g.markX (loopCountReg x.w i) && decide (1 ≤ (g.readX (loopCountReg x.w i)).toNat)
          && decide ((g.readX (loopCountReg x.w i)).toNat ≤ 2 ^ 20) && decide (x.k.ctl.pc + 2 ≤ loopEnd x.w i)
          && decide (loopEnd x.w i ≤ enclosingEnd g x.w (activeLevels g) i))) = true
      ∧ ([1, 0xFFFFF].all fun n => issuesB (scalarRow 0x42 fun _ w => decide (nopCount w ≠ 0)) 0 (running (word 0 0x42 0 0 0 n))) = true := by decide

theorem test_meets_LoopBack :
    let g : CoreRegs := { CoreRegs.reset with loops := CoreRegs.reset.loops.set 0 (level 2 7 0 2) }
    g.loops[(0 : Fin 4)].active = true ∧ g.loops[(0 : Fin 4)].endAt.toNat = 7
      ∧ (∀ i : Fin 4, (0 : Fin 4) < i → g.loops[i].active = false ∨ g.loops[i].endAt.toNat ≠ 7)
      ∧ g.loops[(0 : Fin 4)].index.toNat + 1 < g.loops[(0 : Fin 4)].count.toNat ∧ g.loops[(0 : Fin 4)].count.toNat ≤ 2 ^ 20 := by decide

theorem test_meets_ScheduledActs :
    Memory.wf device.mem = true ∧ device.marks = [] := by decide


/-! ## Vector instructions -/

/-- The vector fields: PG, ZM, ESZ, FMT, OPX and FMT2. -/
def vfields (pg zm esz fmt opx fmt2 : Nat) : Nat := pg + zm * 2 ^ 4 + esz * 2 ^ 5 + fmt * 2 ^ 7 + opx * 2 ^ 11 + fmt2 * 2 ^ 19

/-- The device with core 0 running a vector instruction, every element of P0 active. -/
def vrunning (w : Nat) : State := runningWith w fun g => { g with p := g.p.set 0 (BitVec.allOnes 256) }

theorem test_meets_VectorInteger :
    ((List.range 10).all fun op => [0, 3].all fun esz => [0, 1].all fun sgn =>
      issuesB (vectorRow op legalVecInt) 0 (vrunning (word 1 op 31 1 2 (vfields 0 sgn esz sgn 0 0)))) = true := by decide

theorem test_meets_VectorMoves :
    issuesB (vectorRow 0x0A fun w => two32 w && intForm w) 0 (vrunning (word 1 0x0A 31 1 0 (vfields 0 0 3 0 0 0))) = true
      ∧ issuesB (vectorRow 0x0B fun w => two32 w && intForm w) 0 (vrunning (word 1 0x0B 31 1 0 (vfields 0 0 0 0 0 0))) = true
      ∧ issuesB (vectorRow 0x0C legalVecInt) 0 (vrunning (word 1 0x0C 31 1 2 (vfields 0 0 0 0 0 0))) = true
      ∧ issuesB (vectorRow 0x0D fun w => field32 (wDst w) && intForm w) 0 (vrunning (word 1 0x0D 31 0 0 0)) = true
      ∧ (let s := vrunning (word 1 0x0E 31 1 2 (vfields 0 0 2 1 0 0))
         issuesB (vectorRow 0x0E legalVecInt) 0 s && !(s.nextIssue 0).k.regs.markV 2) = true := by decide

/-- Are no V and no X registers of a state's next issue marked? -/
def nothingMarked (s : State) : Bool := (s.nextIssue 0).k.regs.vMark == 0 && (s.nextIssue 0).k.regs.xMark == 0

theorem test_meets_Predicates :
    (let at' (op : Nat) (l : Nat → Bool) (dst f : Nat) : Bool :=
      issuesB (vectorRow op l) 0 (vrunning (word 1 op dst 1 2 f)) && nothingMarked (vrunning (word 1 op dst 1 2 f))
     at' 0x10 legalVcmp 15 (vfields 0 0 2 0 5 0) && at' 0x10 legalVcmp 15 (vfields 0 0 2 0 8 0) && at' 0x58 legalPgen 15 0 && at' 0x59 legalPgen 15 0
       && at' 0x5A (fun w => field16 (wDst w) && bareForm w) 15 0 && at' 0x5B legalPP 15 0 && at' 0x5C legalPP 15 0 && at' 0x5D legalPP 15 0
       && at' 0x5E (fun w => field16 (wDst w) && field16 (wSrc1 w) && bareForm w) 15 0
       && at' 0x5F (fun w => field32 (wDst w) && field16 (wSrc1 w) && bareForm w) 31 0
       && at' 0x60 (fun w => field16 (wDst w) && bareForm w) 15 0 && at' 0x61 (fun w => field16 (wSrc1 w) && bareForm w) 0 0
       && at' 0x62 (fun w => field32 (wDst w) && bareForm w) 31 0) = true := by decide

theorem test_meets_VectorFloat :
    ([0x20, 0x21, 0x22, 0x24, 0x25].all fun op => issuesB (vectorRow op legalFp2) 0 (vrunning (word 1 op 31 1 2 (vfields 0 0 2 0 0 0)))) = true
      ∧ ([0x26, 0x27, 0x40, 0x41, 0x42].all fun op => issuesB (vectorRow op legalFp1) 0 (vrunning (word 1 op 31 1 0 (vfields 0 0 2 0 0 0)))) = true
      ∧ issuesB (vectorRow 0x23 fun w => three32 w && field32 (wSrc3 w) && fp32Form w) 0
          (vrunning (word 1 0x23 31 1 2 (vfields 0 0 2 0 0 0) + 3 * 2 ^ 34)) = true := by decide

theorem test_meets_VectorWideDotReduce :
    ([vfields 0 0 0 0 0 0, vfields 0 0 1 1 1 0, vfields 0 0 1 0 2 1, vfields 0 0 1 0 3 2].all fun f =>
        issuesB (vectorRow 0x30 legalVmulw) 0 (vrunning (word 1 0x30 31 1 2 f))) = true
      ∧ issuesB (vectorRow 0x31 fun w => three32 w && intForm w && vEsz w == 2) 0 (vrunning (word 1 0x31 31 1 2 (vfields 0 0 2 1 0 0))) = true
      ∧ issuesB (vectorRow 0x32 fun w => three32 w && vEsz w == 2 && vFmt w == 0 && vOpx w == 0 && (vFmt2 w == 1 || vFmt2 w == 2)) 0
          (vrunning (word 1 0x32 31 1 2 (vfields 0 0 2 0 0 2))) = true
      ∧ ([0x48, 0x49].all fun op => issuesB (vectorRow op legalFp1) 0 (vrunning (word 1 op 31 1 0 (vfields 0 0 2 0 0 0)))) = true
      ∧ issuesB (vectorRow 0x4A fun w => two32 w && intForm w && decide (2 ≤ vEsz w)) 0 (vrunning (word 1 0x4A 31 1 0 (vfields 0 0 3 0 0 0))) = true := by
  decide

theorem test_meets_ConversionAndCulture :
    ([vfields 0 0 1 1 0 0, vfields 0 1 0 0 2 3, vfields 0 0 3 3 3 0].all fun f =>
        let s := vrunning (word 1 0x38 31 1 0 f)
        issuesB (vectorRow 0x38 legalVcvt) 0 s && nothingMarked s) = true
      ∧ ([5, 13].all fun fmt =>
          let s := vrunning (word 1 0x39 31 1 2 (vfields 0 0 2 fmt 0 0))
          issuesB (vectorRow 0x39 legalVcvtq) 0 s && nothingMarked s) = true
      ∧ (let s := vrunning (word 1 0x50 31 0 1 (vfields 0 0 2 0 3 0) + 2 * 2 ^ 34)
         issuesB (vectorRow 0x50 legalCult) 0 s && nothingMarked s) = true
      ∧ (let s := vrunning (word 1 0x51 15 1 1 (vfields 0 0 2 0 0 0) + 2 * 2 ^ 34)
         issuesB (vectorRow 0x51 fun w => decide (wDst w < 16) && field32 (wSrc1 w) && field32 (wSrc2 w) && field32 (wSrc3 w) && vEsz w == 2 && bareForm w) 0 s
           && nothingMarked s) = true := by decide

/-- The hypotheses of the claim on vector memory for one row: it issues, every active element resolves, nothing is marked, ports are free. -/
def vmemMeets (op : Nat) (m : MemForm) (store : Bool) (s : State) : Bool :=
  let x := s.nextIssue 0
  issuesB (vmemRow op m) 0 s && decide (firstElement x < vl (vSize x.w)) && !(activeElements x).isEmpty
    && ((activeElements x).all fun i => (elementAccess x m (if store then .wr else .rd) i).isOk)
    && (memPoison x m).isNone && (lsPort x.k x.now (memPorts x m store)).isNone && nothingMarked s

theorem test_meets_VectorMemory_loads :
    ([(0x80, .unit 1), (0x82, .strided), (0x84, .unit 2), (0x85, .unit 3), (0x86, .unit 4), (0x8A, .unit 1), (0x8C, .indexed), (0x8D, .indexed)].all
      fun r : Nat × MemForm => vmemMeets r.1 r.2 false (vrunning (longWord 1 r.1 1 0 0 (vfields 0 0 2 0 0 0) 0))) = true := by decide +kernel
theorem test_meets_VectorMemory_stores :
    ([(0x81, .unit 1), (0x83, .strided), (0x87, .unit 2), (0x88, .unit 3), (0x89, .unit 4), (0x8E, .indexed)].all
      fun r : Nat × MemForm => vmemMeets r.1 r.2 true (vrunning (longWord 1 r.1 1 0 0 (vfields 0 0 3 0 0 0) 0))) = true := by decide +kernel

/-! ## The tile pipe and the array -/

/-- A matrix-unit double-word: opcode, DST, SRC1, SRC2, rows, row bytes / 16, the bits from FMT up, and the second word. -/
def tileWord (opc dst src1 src2 rows rb high second : Nat) : Nat :=
  longWord 2 opc dst src1 src2 0 second + (rows - 1) * 2 ^ 34 + (rb - 1) * 2 ^ 39 + high * 2 ^ 42

theorem test_meets_TileMoves :
    ([(true, 1, 1), (true, 32, 8), (false, 32, 8)].all fun q : Bool × Nat × Nat =>
      let s := running (tileWord (if q.1 then 1 else 2) 1 1 0 q.2.1 q.2.2 4 0)
      let x := s.nextIssue 0
      let r : Right := if q.1 then .rd else .wr
      let p := x.k.regs.pal 1
      let addr := (addressOperand x.k.regs (mSrcOp x.w)).1
      issuesB (matrixRow (if q.1 then 0x01 else 0x02) 2 fun _ => true) 0 s && (operandPoison x (mSrcOp x.w)).isNone
        && (tileShape x p q.1 addr (rowUses p false (tFirst x.w) (tRows x.w) (x.now + if q.1 then 6 else 1))).isNone
        && ((List.range (tRows x.w)).all fun i => (x.st.ownAccess 0 (addOffset addr (i * tStride x.w : Nat)) (tBytes x.w) r 1).isOk
              && !x.k.regs.tileMarked p (tFirst x.w + i))
        && (lsPort x.k x.now ((List.range (tRows x.w)).map fun i =>
              ({ cycle := x.now + (if q.1 then 1 else 2) + i, bytes := tBytes x.w, write := !q.1 } : PortUse))).isNone) = true := by decide

theorem test_meets_ArrayInstructions_wld :
    (let s := running (tileWord 0x10 0 0 1 1 1 (1 + 1 * 2 ^ 4) 0)
     issuesB (matrixRow 0x10 3 fun _ => true) 0 s && (arrayShape .wld (s.nextIssue 0) 0 0).isNone) = true := by decide
theorem test_meets_ArrayInstructions_mmt :
    (let s := running (tileWord 0x11 4 0 1 32 4 (1 + 1 * 2 ^ 4) 2)
     issuesB (matrixRow 0x11 3 fun _ => true) 0 s && (arrayShape .mmt (s.nextIssue 0) 0 0).isNone) = true := by decide +kernel
theorem test_meets_ArrayInstructions_mms :
    (let s := runningWith (tileWord 0x20 1 0 1 1 4 (1 + 1 * 2 ^ 4) (0x10000 * 2 ^ 42)) fun g => g.writeX 1 1 false
     let x := s.nextIssue 0
     let src := (addressOperand x.k.regs (mSrcOp x.w)).1
     let out := (addressOperand x.k.regs (mOutOp x.w)).1
     issuesB (matrixRow 0x20 3 fun w => field32 (wDst w)) 0 s && !x.k.regs.markX (wDst x.w) && (operandPoison x (mSrcOp x.w)).isNone
       && (operandPoison x (mOutOp x.w)).isNone && (arrayShape .mms x src out).isNone && (x.st.ownAccess 0 src (tBytes x.w) .rd 1).isOk
       && (x.st.ownAccess 0 out (128 * 4) .wr 1).isOk && (lsPort x.k x.now (mmsPorts x 8 1 4)).isNone) = true := by decide

/-- A core whose schedule holds a marked row in its write cycle. -/
def markedRow : Sched := { cycle := 3, phase := phaseWrite, seq := 0, index := 0, half := false, count := 1, act := .poisonRow 31 }
theorem test_meets_PoisonRowHalts :
    let s := withCore fun k => let k := ran 0 k; { k with flight := { k.flight with now := 4, sched := [markedRow] } }
    (s.core 0).ctl.state = .running ∧ (s.core 0).flight.sched = [markedRow] ∧ markedRow.phase = phaseWrite
      ∧ markedRow.cycle < (s.core 0).flight.now ∧ (device.core 0).flight.sched = [] := by decide


/-! ## The sync unit, barriers and the iron -/

/-- A job of partition 0 with a mailbox at 0x1000 and a fabric ring at 0x2000 of every local store, and two press entries a unit. -/
def job0 : Job :=
  { tag := 1, ring := 0, hbmBytes := 4096, caveSlots := 1, lsBytes := 0x4000, stepBarrier := 1, interval := 1, partner := 0xFFFF, mirrorTag := 0
    manifest := [], mailboxOfs := 0x1000, mailboxSem := 3, fabricOfs := 0x2000, fabricEntries := 8, pressOfs := 0, pressEntries := 2
    stagingPu := 0xFF, stagingGib := 0, hdmSlot := 0, stagingOfs := 0, bases := [(0, 0x02000000000000)], caveWindow := 0, cavePages := [], caveWaits := []
    migrated := 0, gen := 0, bufs := #v[{ gen := 0, state := .writing }, { gen := 0, state := .stable }], stepNo := 0, stepRing := none
    arrived := [], unstable := [], arrivalImages := [], image := none, draining := none, drainImage := none, drainSent := none, queued := [], mirrorBytes := 0, mirrorOffset := 0
    slots := #v[none, none], newest := 0, independence := 0 }

/-- The device with partition 0 changed. -/
def withPart (f : Part → Part) : State := device.modPart 0 f
/-- A state with its job admitted to partition 0. -/
def withJob (s : State) : State := s.modPart 0 fun q => { q with job := some job0 }

theorem test_meets_SemaphoreInstructions :
    ([word 5 0x01 31 0 0 1, word 5 0x01 0 0 0 0xFFFF].all fun w => issuesB (syncRow 0x01 (fun _ _ => true) legalSemCount) 0 (running w)
        && !((running w).nextIssue 0).k.flight.holdsEffects) = true
      ∧ (issuesB (syncRow 0x03 (fun _ _ => true) fun w => field32 (wDst w) && field32 (wSrc1 w)) 0 (running (word 5 0x03 31 1 0 0))
        && nothingMarked (running (word 5 0x03 31 1 0 0))) = true
      ∧ issuesB (syncRow 0x04 (fun _ _ => true) fun w => field32 (wDst w) && field32 (wSrc1 w)) 0 (running (word 5 0x04 1 31 0 0)) = true := by decide

/-- Core 0 Waiting on S5 for 2, with a count in it. -/
def waiting (n : BitVec 16) : State :=
  withCore fun k => { k with ctl := { k.ctl with state := .waiting, hold := .wait 5 2 }, regs := { k.regs with sems := k.regs.sems.set 5 n } }

theorem test_meets_WaitAndRelease :
    ([0, 2].all fun n : BitVec 16 => issuesB (syncRow 0x02 (fun _ _ => true) legalSemCount) 0
        (runningWith (word 5 0x02 5 0 0 2) fun g => { g with sems := g.sems.set 5 n })) = true
      ∧ (let s := waiting 2
         (s.core 0).ctl.hold = .wait 5 2 ∧ (s.core 0).ctl.state = .waiting ∧ ((runTo 0 1 s).core 0).ctl.state = .waiting
           ∧ (2 : BitVec 16).toNat ≤ (((runTo 0 1 s).core 0).regs.readS 5).toNat) := by decide

/-- The device with a job, core 0 running RSIGNAL with a target word in X1. -/
def rsignalling (v : Word) : State := withJob (runningWith (word 5 0x05 0 1 0 0) fun g => g.writeX 1 v false)

theorem test_meets_RemoteSignal_core :
    ([(0x0010001, false), (0x0010FFF, true), (0x0000001, true)].all fun q : Word × Bool =>
      let s := rsignalling q.1
      let x := s.nextIssue 0
      issuesB { syncRow 0x05 (fun k w => !pressForm k w) fun w => field32 (wSrc1 w) with reaches := reachesMesh } 0 s && nothingMarked s
        && !x.k.flight.holdsEffects && !q.1.getLsbD 15 && (targetRefused x.st 0 (x.k.regs.readX (wSrc1 x.w)) == q.2)) = true := by decide
theorem test_meets_RemoteSignal_press :
    (let v : Word := 0x100008000
     let s := rsignalling v
     let x := s.nextIssue 0
     issuesB { syncRow 0x05 pressForm fun w => field32 (wSrc1 w) with reaches := reachesPress } 0 s && nothingMarked s && !x.k.flight.holdsEffects
       && v.getLsbD 15 && !targetRefused x.st 0 (x.k.regs.readX (wSrc1 x.w))
       && decide ((x.st.pressUnit (bits v.toNat 32 5)).available < x.st.pressEntries (x.st.corePart 0))) = true := by decide

/-- A fabric fence mark that is not complete, and a signal that it holds. -/
def openMark : FenceMark := { cls := .f, seq := 0, produced := 1 }
def heldSignal : HeldEffect := { seq := 0, index := 0, half := false, count := 1, effect := .signal 31 0xFFFF }

theorem test_meets_Fences :
    ([0x08, 0x09, 0x0A].all fun op => issuesB (syncRow op (fun _ _ => true) fun _ => true) 0 (running (word 5 op 0 0 0 0))) = true
      ∧ (let s := withCore fun k => let k := ran (word 5 0x01 1 0 0 1) k; { k with flight := { k.flight with marks := [openMark] } }
         issuesB (syncRow 0x01 (fun _ _ => true) legalSemCount) 0 s && (s.nextIssue 0).k.flight.holdsEffects) = true
      ∧ (let s := withCore fun k => { k with flight := { k.flight with marks := [openMark], held := [heldSignal] } }
         ((runPending 0 s).core 0).flight.held = [heldSignal]
           ∧ ∀ m ∈ ((runPending 0 s).core 0).flight.marks, heldSignal.seq ≤ m.seq ∨ ((runPending 0 s).core 0).flight.markDone m = true) := by decide

/-- A signal on its way from core 1 to semaphore 31 of core 0. -/
def flying : Flying := { sender := 1, target := 0, sem := 31, count := 0xFFFF }
theorem test_meets_SignalArrives :
    let s : State := { device with signals := [] ++ flying :: [] }
    s.signals = [] ++ { sender := 1, target := 0, sem := 31, count := 0xFFFF } :: []
      ∧ (∀ f ∈ ([] : List Flying), ¬ (f.sender = 1 ∧ f.target = 0 ∧ f.sem = 31)) ∧ (s.core 0).flight.resetting = false := by decide

theorem test_meets_BarIssue :
    ([0, 1].all fun mode =>
      let s := running (word 5 0x10 31 1 2 mode)
      issuesB { syncRow 0x10 (fun _ w => if mode = 0 then !bit (wImm w) 0 else bit (wImm w) 0) legalBar with reaches := reachesNode } 0 s
        && nothingMarked s && !(s.nextIssue 0).k.flight.holdsEffects) = true := by decide

/-- A barrier over core 0, open at epoch 4, with arrivals counted and held. -/
def barrier0 (counted early : List Arrival) : Barrier :=
  let n : BarNode := { BarNode.reset with openEpoch := 4, counted := counted, early := early }
  { Barrier.reset with entry := 1, members := [0], nodes := Barrier.reset.nodes.set 0 n, rootEpoch := 4 }
def arrival0 (waits : Bool) : Arrival := { core := 0, waits := waits, sem := 31 }

theorem test_meets_BarrierArrivals_classes :
    barValid Barrier.reset.entry = false ∧ barValid (barrier0 [] []).entry = true ∧ (1 : CoreId) ∉ (barrier0 [] []).members
      ∧ (0 : CoreId) ∈ (barrier0 [] []).members ∧ (∀ a ∈ ((barrier0 [] []).node 0).counted, a.core ≠ 0)
      ∧ (∃ a ∈ ((barrier0 [arrival0 true] []).node 0).counted, a.core = 0) ∧ (∃ a ∈ ((barrier0 [] [arrival0 true]).node 0).early, a.core = 0)
      ∧ ((4 : BitVec 16) - 4).toNat = 0 ∧ ((5 : BitVec 16) - 4).toNat = 1 ∧ ((6 : BitVec 16) - 4).toNat = 2
      ∧ ((4 : BitVec 16) - 4 + 32767).toNat = 32767 ∧ ((4 : BitVec 16) - 4 + 32768).toNat = 32768 := by decide

/-- An arrival on its way to the node of die 0. -/
def arriving : FlyingArrival :=
  { core := 0, bid := 1, epoch := 4, waits := true, sem := 0, index := 0, half := false, count := 1
    image := { pc := 0, half := false, issueCount := 0, loops := Vector.replicate 4 .reset, sems := Vector.replicate 32 0 } }
theorem test_meets_BarrierArrivals :
    let s := { device with arrivals := [arriving] }.modCore 0 fun k => { k with ctl := { k.ctl with hold := .bar 1 4 0 } }
    s.arrivals = arriving :: [] ∧ arriving.core = 0 ∧ s.corePart 0 = some 0 ∧ (s.core 0).ctl.hold = .bar arriving.bid arriving.epoch 0 := by decide

/-- A barrier of partition 0 whose one member lies on die 1, all of it arrived. -/
def elsewhere (entry : BitVec 256) : Barrier :=
  let n : BarNode := { BarNode.reset with counted := [{ core := 0x100, waits := true, sem := 0 }] }
  { Barrier.reset with entry := entry, members := [0x100], nodes := Barrier.reset.nodes.set 1 n }
theorem test_meets_BarrierReports :
    (let s := withPart fun q => { q with barriers := [(2, elsewhere 1)] }
     let b := s.barrier 0 2
     barValid b.entry = true ∧ 1 ≠ s.rootDie 0 ∧ b.dieMembers 1 ≠ [] ∧ b.dieComplete 1 = true ∧ (b.node 1).reported = false
       ∧ (b.node 1).releasing = [] ∧ (b.node 1).openEpoch = b.rootEpoch ∧ b.completing = false)
      ∧ (let s := withPart fun q => { q with barriers := [(2, elsewhere 3)] }
         let s : State := { s with fabric := { s.fabric with groupState := 2, assignedId := 7 } }
         let b := s.barrier 0 2
         barValid b.entry = true ∧ barScope b.entry = true ∧ s.isHead = true ∧ 8 ≠ s.fabricId ∧ (0 : BitVec 16) = b.rootEpoch
           ∧ b.completing = false ∧ (∀ d ∈ b.devices, d.1 ≠ 8) ∧ (1 : BitVec 16) = b.rootEpoch + 1 ∧ (∀ d ∈ b.earlyDevices, d.1 ≠ 8)
           ∧ (2 : BitVec 16) ≠ b.rootEpoch ∧ (2 : BitVec 16) ≠ b.rootEpoch + 1) := by decide

theorem test_meets_BarrierRelease :
    (let s := withPart fun q => { q with barriers := [(2, barrier0 [arrival0 true] [])] }
     completionDue s 0 (s.barrier 0 2) = true ∧ ∀ j, (s.part 0).job = some j → j.stepBarrier ≠ 2) := by
  refine ⟨by decide, ?_⟩
  intro j h
  have : (none : Option Job) = some j := h
  cases this
/-- A barrier that is releasing core 0. -/
def releasing0 (waits : Bool) : State :=
  let n : BarNode := { BarNode.reset with releasing := [arrival0 waits] }
  let b : Barrier := { Barrier.reset with entry := 1, members := [0], nodes := Barrier.reset.nodes.set 0 n }
  (withPart fun q => { q with barriers := [(2, b)] }).setCore 0
    { Core.reset with ctl := { Core.reset.ctl with state := if waits then .waiting else .running, hold := if waits then .bar 2 0 31 else .none } }
theorem test_meets_BarrierRelease_delivery :
    ([true, false].all fun w =>
      let s := releasing0 w
      (s.core 0).flight.answer.isNone && !(s.core 0).flight.resetting && s.corePart 0 == some 0
        && ((s.barrier 0 2).node 0).releasing.find? (fun a => a.core == 0) == some (arrival0 w)
        && (!w || ((s.core 0).ctl.hold == .bar 2 0 31 && ((s.barrier 0 2).node 0).openEpoch == 0
          && ((runTo 0 ((s.core 0).flight.now - 1 + max 1 3) s).core 0).ctl.state == .waiting))) = true := by decide

theorem test_meets_IronVisit :
    let s := running 0
    let q := s.part 0
    q.resetting = false ∧ q.fatal = false ∧ (0 : CoreId) ∈ s.coresOf 0 ∧ ironStopped (s.core 0) = false
      ∧ (s.coresOf 0)[q.iron.next]? = some 0 ∧ q.iron.next + 1 < (s.coresOf 0).length := by decide +kernel


/-! ## Stream and knife engines -/

/-- A stream descriptor: its low fields, SRC, DST, BYTES0, three counts, and the first stride of source and destination. -/
def streamRec (op sfmt dfmt scale src dst bytes c1 s1 d1 : Nat) : BitVec 1024 :=
  BitVec.ofNat 1024 (op + 7 * 2 ^ 8 + sfmt * 2 ^ 16 + dfmt * 2 ^ 20 + scale * 2 ^ 32 + src * 2 ^ 64 + dst * 2 ^ 128 + bytes * 2 ^ 192
    + c1 * 2 ^ 224 + 2 ^ 240 + 2 ^ 256 + s1 * 2 ^ 272 + d1 * 2 ^ 416)
/-- Such a descriptor in a queue, its segments as segment 0 of the device; its record lies at 0x100. -/
def streamJob (raw : BitVec 1024) (o : Option DescOutcome) : StreamJob :=
  { raw := raw, record := 0x100, srcSeg := segment 0 0x7FFFFF 0, dstSeg := segment 0 0x7FFFFF 0, id := 0, cave := .reset, outcome := o, clips := (0, 0, 0) }
/-- The device with a queue of core 0 holding jobs. -/
def streamed (q : Nat) (jobs : List StreamJob) : State :=
  withCore fun k => { k with flight := { k.flight with streams := k.flight.streams.setIfInBounds q { StreamQ.reset with jobs := jobs } } }

/-- A knife descriptor: OP, ELEM_BYTES, IDXW, COUNT, the three addresses, BOUND. -/
def knifeRec (op elem idxw count index table dense bound : Nat) : BitVec 512 :=
  BitVec.ofNat 512 (op + elem * 2 ^ 16 + idxw * 2 ^ 29 + count * 2 ^ 32 + 9 * 2 ^ 56 + index * 2 ^ 64 + table * 2 ^ 128 + dense * 2 ^ 192 + bound * 2 ^ 336)
/-- Such a descriptor in the knife. -/
def knifeJob (raw : BitVec 512) (o : Option DescOutcome) : KnifeJob :=
  { raw := raw, record := 0x100, indexSeg := segment 0 0x7FFFFF 0, tableSeg := segment 0 0x7FFFFF 0, denseSeg := segment 0 0x7FFFFF 0, id := 0
    cave := .reset, outcome := o }
/-- The device with the knife of core 0 holding jobs. -/
def knifed (jobs : List KnifeJob) : State :=
  withCore fun k => { k with flight := { k.flight with knife := { Knife.reset with jobs := jobs } } }
/-- What a completed descriptor answers. -/
def okOutcome : DescOutcome := { status := 0, cause := 0, done := 1, faultIndex := 0 }

theorem test_meets_Enqueue :
    ([0, 3].all fun q =>
      let s := running (word 3 0x01 0 1 0 q)
      let x := s.nextIssue 0
      issuesB (streamRow 0x01 fun w => field32 (wSrc1 w)) 0 s && nothingMarked s
        && (x.st.ownAccess 0 (BitVec.ofNat 64 ((x.k.regs.readX (wSrc1 x.w)).toNat / 128 * 128)) 128 .rd 1).isOk
        && decide ((x.k.flight.stream (wImm x.w % 4)).jobs.length < 16)) = true
      ∧ (let s := running (word 4 0x01 0 1 0 0)
         let x := s.nextIssue 0
         issuesB (knifeRow 0x01 fun w => field32 (wSrc1 w)) 0 s && nothingMarked s
          && (x.st.ownAccess 0 (BitVec.ofNat 64 ((x.k.regs.readX (wSrc1 x.w)).toNat / 64 * 64)) 64 .rd 1).isOk
          && decide (x.k.flight.knife.jobs.length < 8)) = true
      ∧ issuesB (streamRow 0x02 fun _ => true) 0 (running (word 3 0x02 0 0 0 2)) = true
      ∧ issuesB (knifeRow 0x02 fun _ => true) 0 (running (word 4 0x02 0 0 0 0)) = true := by decide

/-- Does a queue accept its head, with every row moved? -/
def streamOk (op q : Nat) (j : StreamJob) : Bool :=
  let s := streamed q [j]
  decide (q < 4) && (((runPending 0 s).core 0).flight.stream q).jobs.head? == some j && sdOp j.raw == op && decide (1 ≤ op) && decide (op ≤ 3)
    && j.outcome.isNone && !j.cave.begun && ((runPending 0 s).core 0).flight.writesBefore j.id && !((runPending 0 s).core 0).flight.resetting
    && !(((runPending 0 s).core 0).flight.stream q).skipping && !badStream j
    && (streamAccess (s.streamBegins 0 q) ((s.streamBegins 0 q).corePart 0) j).isNone && !(dstSpan j).inImem
    && (streamPages (s.streamBegins 0 q) j).isEmpty && (streamRows 0 j (s.streamBegins 0 q)).fail.isNone

theorem test_meets_StreamTransfers :
    streamOk 1 0 (streamJob (streamRec 1 0 0 0 0x1000 0x2000 3 2 16 4) none) = true
      ∧ streamOk 2 3 (streamJob (streamRec 2 0 0 0 0x0123456789ABCDEF 0x2000 8 2 0 8) none) = true
      ∧ streamOk 3 1 (streamJob (streamRec 3 0 1 0x3F800000 0x1000 0x2000 8 1 0 0) none) = true := by decide +kernel

theorem test_meets_StreamRow :
    ([streamRec 2 0 0 0 0x0123456789ABCDEF 0x2000 8 2 0 8, streamRec 1 0 0 0 0x1000 0x7FFFFD 3 1 0 0].all fun r =>
      let j := streamJob r none
      let a := segAddr j.dstSeg (rowOffset (sdDst j.raw) (rowShift j.raw (sdDstStride j.raw) 0))
      let b := segAddr j.srcSeg (rowOffset (sdSrc j.raw) (rowShift j.raw (sdSrcStride j.raw) 0))
      Memory.wf device.mem && !segWax j.dstSeg && segTier j.dstSeg == 0 && decide (a + sdBytes j.raw ≤ 0x0200000000) && decide (0 < sdBytes j.raw)
        && ((sdOp j.raw == 2 && sdBytes j.raw % 8 == 0) || (sdOp j.raw == 1 && !segWax j.srcSeg && segTier j.srcSeg == 0
              && decide (b + sdBytes j.raw ≤ 0x0200000000) && device.marks.isEmpty && j.cave.pages.isEmpty))) = true := by decide +kernel

theorem test_meets_StreamCompletion :
    (let j := streamJob (streamRec 1 0 0 0 0x1000 0x2000 3 2 16 4) (some okOutcome)
     let s := streamed 3 [j]
     let d := runPending 0 s
     ((s.core 0).flight.stream 3).jobs = j :: [] ∧ ((d.core 0).flight.stream 3).jobs = j :: [] ∧ j.outcome = some okOutcome
       ∧ j.record + 128 ≤ 0x0200000000 ∧ d.mem.wf = true ∧ (d.core 0).flight.resetting = false) := by decide +kernel

/-- Does the knife accept its head? -/
def knifeOk (op : Nat) (j : KnifeJob) : Bool :=
  let s := knifed [j]
  ((runPending 0 s).core 0).flight.knife.jobs.head? == some j && knifeOp j == op && decide (1 ≤ op) && decide (op ≤ 3) && j.outcome.isNone
    && !j.cave.begun && ((runPending 0 s).core 0).flight.writesBefore j.id && !((runPending 0 s).core 0).flight.resetting
    && !((runPending 0 s).core 0).flight.knife.skipping && !badKnife 0 j && (knifeElements 0 j (s.knifeBegins 0)).waits.isEmpty

theorem test_meets_KnifeTransfers :
    ([1, 2, 3].all fun op => knifeOk op (knifeJob (knifeRec op 4 0 2 0x1000 0x2000 0x3000 1) none)
        && (knifeElements 0 (knifeJob (knifeRec op 4 0 2 0x1000 0x2000 0x3000 1) none) ((knifed []).knifeBegins 0)).fault.isNone) = true
      ∧ knifeOk 1 (knifeJob (knifeRec 1 4 0 1 0x1000 0x7FFFFFFF0000 0x3000 0) none) = true
      ∧ (knifeElements 0 (knifeJob (knifeRec 1 4 0 1 0x1000 0x7FFFFFFF0000 0x3000 0) none) ((knifed []).knifeBegins 0)).fault.isSome = true := by decide +kernel

/-- Element 0 with the index 0: memory with index 1 at 0x1000. -/
def indexOne : State := { device with mem := [(0x1000, 1)] }
theorem test_meets_KnifeElementFaults :
    (let j := knifeJob (knifeRec 1 4 0 1 0x800000 0x2000 0x3000 0) none
     readIndex device 0 j 0 = none)
      ∧ (let j := knifeJob (knifeRec 1 4 0 1 0x1000 0x2000 0x3000 1) none
         readIndex indexOne 0 j 0 = some 1 ∧ kdBound j.raw ≠ 0 ∧ kdBound j.raw ≤ 1)
      ∧ (let j := knifeJob (knifeRec 1 4 0 1 0x1000 0x7FFFFC 0x3000 2) none
         readIndex indexOne 0 j 0 = some 1 ∧ 1 < kdBound j.raw ∧ knifeFault indexOne (some 0) j 0 1 ≠ none)
      ∧ (let j := knifeJob (knifeRec 1 4 0 1 0x1000 0x7FFFF8 0x3000 2) none
         readIndex indexOne 0 j 0 = some 1 ∧ 1 < kdBound j.raw ∧ knifeFault indexOne (some 0) j 0 1 = none ∧ elementPages indexOne j 0 1 = []) := by
  decide +kernel

theorem test_meets_KnifeCompletion :
    (let j := knifeJob (knifeRec 1 4 0 1 0x1000 0x2000 0x3000 0) (some okOutcome)
     let s := knifed [j]
     let d := runPending 0 s
     (s.core 0).flight.knife.jobs = j :: [] ∧ (d.core 0).flight.knife.jobs = j :: [] ∧ j.outcome = some okOutcome
       ∧ j.record + 64 ≤ 0x0200000000 ∧ d.mem.wf = true ∧ (d.core 0).flight.resetting = false) := by decide +kernel

/-- A job of one cave slot, with pages and waits. -/
def caveJob (pages : List CavePage) (waits : List Nat) : Job := { job0 with cavePages := pages, caveWaits := waits, caveWindow := 0x02000000000000 }
def page0 (ready : Bool) : CavePage := { page := 0x03000000000000, slot := 0, age := 0, ready := ready }
theorem test_meets_CaveMigration :
    (let j := caveJob [] [0x03000000000000]
     (((device.modPart 0 fun q => { q with job := some j }).part 0).job = some j) ∧ 0x03000000000000 ∈ j.caveWaits ∧ j.freeSlot = some 0)
      ∧ (let j := caveJob [page0 true] [0x03000000010000]
         0x03000000010000 ∈ j.caveWaits ∧ (∀ c ∈ j.cavePages, c.page ≠ 0x03000000010000) ∧ j.freeSlot = none ∧ j.oldestPage = some (page0 true))
      ∧ (let j := caveJob [page0 false] []
         j.cavePages.find? (fun c => c.page == 0x03000000000000 && !c.ready) = some (page0 false)) := by decide +kernel

/-! ## Press units -/

/-- A press descriptor: PROG_LEN, CORE 0, GEN 0, PROG, COUNT 1, K0, and stream 0 valid in FP32 at an address. -/
def pressDesc (len prog k0 base : Nat) : BitVec 3072 :=
  BitVec.ofNat 3072 (len + 5 * 2 ^ 8 + prog * 2 ^ 64 + 2 ^ 128 + k0 * 2 ^ 448 + (4 + 16 + base * 2 ^ 64) * 2 ^ 1024)
/-- The device with a job and press unit 0 changed. -/
def pressed (f : Press → Press) (m : List (Nat × List Byte)) : State :=
  let s := (withJob device).modPress 0 f
  m.foldl (fun s w => { s with mem := Memory.writeBytes s.mem w.1 w.2 }) s
/-- A press ring entry with the descriptor d, and the program VSETL, PEND at the job's reservation. -/
def pressReady (d : BitVec 3072) : State :=
  pressed (fun q => { q with available := 1 }) [(pressEntryAddr job0 0 0, leBytes 384 d.toNat), (0x02000000000800, leBytes 4 1)]
/-- Does the press meet a descriptor as the claim on taking it supposes? -/
def takesOk (d : BitVec 3072) (ok : Bool) : Bool :=
  let s := pressReady d
  let q := s.pressUnit 0
  let e := BitVec.ofNat 3072 (s.peekNat (pressEntryAddr job0 0 q.readIndex.toNat) 384)
  let prog := (List.range (pdLen e)).map fun i => BitVec.ofNat 32 (s.peekNat (pdProg e + 4 * i) 4)
  s.unitPart 0 == some 0 && (s.part 0).job == some job0 && !s.pressHalted 0 && q.desc.isNone && q.available == 1 && !q.skipping && e == d
    && (pressFault s 0 job0 0 e prog).isNone == ok && !mustHold job0 e

theorem test_meets_PressTakes_start : takesOk (pressDesc 1 0x02000000000800 0x3F800000 0x02000000000900) true = true := by decide +kernel
theorem test_meets_PressTakes_refused : takesOk (pressDesc 0 0x02000000000800 0x3F800000 0x02000000000900) false = true := by decide +kernel

/-- Press unit 0 with one press instruction next. -/
def pressing (w : BitVec 32) : State :=
  pressed (fun q => { q with desc := some (pressDesc 1 0x02000000000800 0 0x02000000000900), prog := [w], vl := 1 }) []
/-- Is that instruction of an opcode, and may the unit run it? -/
def pressRunsB (op : Nat) (w : BitVec 32) : Bool :=
  let s := pressing w
  (s.pressUnit 0).current == some (pressDesc 1 0x02000000000800 0 0x02000000000900, w) && piOp w == op && !s.pressHalted 0

theorem test_meets_PressArithmetic :
    ([0x08, 0x09, 0x0A, 0x0B, 0x0C, 0x0D, 0x0E, 0x0F, 0x10, 0x11, 0x12].all fun op => pressRunsB op (BitVec.ofNat 32 (op + 15 * 64 + 2 ^ 22))) = true := by
  decide +kernel
theorem test_meets_PressLoadStoreEnd :
    ([0x00, 0x01, 0x02, 0x03].all fun op => pressRunsB op (BitVec.ofNat 32 op)) = true
      ∧ (let d := pressDesc 1 0x02000000000800 0 0x02000000000900
         let t := pdStream d 0
         ((pressing 2).fetch (psBuffer t (pdGen d - 1)) (psWidth t)).2 = false ∧ pdCount d ≤ 0 + 1 ∧ 0 < pdCount d)
      ∧ (pressing 0).pressFatal 0 = false
      ∧ (let s := (pressing 0).modPart 0 fun q => { q with fatal := true }
         s.pressFatal 0 = true ∧ (s.pressUnit 0).current = some (pressDesc 1 0x02000000000800 0 0x02000000000900, 0)) := by decide +kernel
theorem test_meets_PressCompletion :
    (let d := pressDesc 1 0x02000000000800 0 0x02000000000900
     let s := pressed (fun q => { q with desc := some d, outcome := some okOutcome, available := 1 }) []
     s.unitPart 0 = some 0 ∧ (s.part 0).job = some job0 ∧ (s.pressUnit 0).desc = some d ∧ (s.pressUnit 0).outcome = some okOutcome
       ∧ s.pressHalted 0 = false) := by decide +kernel


/-! ## The fabric -/

/-- A fabric ring entry: OP, RFMT, GROUP, DIES, SRC, DST, BYTES, SET. -/
def fabricRec (op rfmt group dies src dst bytes set : Nat) : BitVec 512 :=
  BitVec.ofNat 512 (op + 6 * 2 ^ 8 + rfmt * 2 ^ 16 + group * 2 ^ 24 + dies * 2 ^ 36 + src * 2 ^ 64 + dst * 2 ^ 128 + bytes * 2 ^ 192 + set * 2 ^ 224)
/-- The device in fabric ID 0, a route to device 5 by port 2, segment 1 over device 5's window, group 3 of devices 0 and 5; the ring of
core 0 holds one entry. -/
def fabricReady (r : BitVec 512) : State :=
  let s := withPart fun q => { q with segs := [(0, segment 0 0x7FFFFF 0), (1, segment (0x80000000000000 + 5 * 2 ^ 40) 0xFFFF 5),
    (2, segment (0x80000000000000 + 6 * 2 ^ 40) 0xFFFF 5)], job := some job0 }
  let s : State := { s with
    fabric := { s.fabric with assignedId := 0, routes := [(5, routeEntry [(2, 4)])], ports := [(2, { Port.reset with width := 4, neighbour := 5 })], mcast := [(3, (0, BitVec.ofNat 512 0x5000 ||| BitVec.shiftLeft 0x42 384))] }
    mem := Memory.writeBytes (Memory.writeBytes s.mem 0x2000 [1]) 0x2040 (leBytes 64 r.toNat) }
  s.setCore 0 Core.reset
/-- Does the ring of core 0 accept that entry? -/
def fabricOk (op : Nat) (r : BitVec 512) : Bool :=
  let s := fabricReady r
  let d := s.fabricBegins 0
  (match nextFabricEntry 0 (runPending 0 s) with
    | some (p, j, e) => p == 0 && j == job0 && e == r
    | none => false)
  && fdOp r == op && decide (1 ≤ op) && decide (op ≤ 5) && !((runPending 0 s).core 0).flight.fabric.skipping && !badField d r (d.fabricDst 0 r)
  && (!(op == 4 || op == 5) || (d.mcastMembers 0 (fdGroup r)).isSome)
  && (fabricAccess d (some 0) r (fabricSpan (d.segOf (some 0) (fdSrc r)) (fdSrc r) (fdBytes r)) (fabricSpan (d.fabricDst 0 r) (fdDst r) (fdBytes r))).isNone
def putRec : BitVec 512 := fabricRec 1 0 0 0 0x4000 0x0100000000000040 64 0
def getRec : BitVec 512 := fabricRec 2 0 0 0 0x0100000000000040 0x4000 64 0
def putSetRec : BitVec 512 := fabricRec 3 0 0 1 0x4000 0x3FC0 64 (1 + 2 ^ 2 + 2 ^ 14)
def putGroupRec : BitVec 512 := fabricRec 4 0 3 0 0x4000 0x40 64 0
def allreduceRec : BitVec 512 := fabricRec 5 0 3 0 0x4000 0x5000 64 0
/-- The port of that entry's transfer to a device. -/
def portOf (id : Nat) (put : Bool) (r : BitVec 512) : PortChoice :=
  (((fabricReady r).fabricBegins 0).fabricRun 0 0 job0 r).port ((fabricReady r).fabricBegins 0) id put
/-- What device 5 posts. -/
def posting : PeerVector := { id := 5, bytes := 64, rfmt := 0, data := List.replicate 64 0, poisoned := false }

theorem test_meets_FabricSends_put :
    fabricOk 1 putRec = true ∧ portOf 5 true putRec = .take 2 ∧ ((fabricReady putRec).fabricBegins 0).sessionReady 0 5 = true
      ∧ peerDevice (segAddr (((fabricReady putRec).fabricBegins 0).fabricDst 0 putRec) (offsetOf (fdDst putRec))) = 5 := by decide +kernel
theorem test_meets_FabricSends_get :
    fabricOk 2 getRec = true ∧ portOf 5 false getRec = .take 2 ∧ ((fabricReady getRec).fabricBegins 0).sessionReady 0 5 = true := by
  decide +kernel
/-- A PUT through segment 2, over the window of device 6, to which no route leads. -/
def putLostRec : BitVec 512 := fabricRec 1 0 0 0 0x4000 0x0200000000000040 64 0
theorem test_meets_FabricSends_unreachable : fabricOk 1 putLostRec = true ∧ portOf 6 true putLostRec = .unreachable
    ∧ peerDevice (segAddr (((fabricReady putLostRec).fabricBegins 0).fabricDst 0 putLostRec) (offsetOf (fdDst putLostRec))) = 6 := by decide +kernel
theorem test_meets_FabricSends_putGroup :
    (let s := fabricReady putGroupRec
     let d := s.fabricBegins 0
     fabricOk 4 putGroupRec = true ∧ d.mcastMembers 0 3 = some [0, 5] ∧ [0, 5].filter (· != d.fabricId) = [5]
       ∧ portOf 5 true putGroupRec = .take 2 ∧ d.sessionReady 0 5 = true)
      ∧ ((((fabricReady putGroupRec).fabricBegins 0).fabricRun 0 0 job0 putGroupRec).ports ((fabricReady putGroupRec).fabricBegins 0) true [5] = .take [2]) := by
  refine ⟨by decide +kernel, ?_⟩
  exact congrArg (fun q => PortChoices.cons q (.take [])) (show portOf 5 true putGroupRec = .take 2 by decide +kernel)
theorem test_meets_FabricSetAndReduce :
    fabricOk 3 putSetRec = true
      ∧ (let s := fabricReady allreduceRec
         let d := s.fabricBegins 0
         let x := d.fabricRun 0 0 job0 allreduceRec
         fabricOk 5 allreduceRec = true ∧ d.mcastMembers 0 3 = some [0, 5] ∧ portOf 5 false allreduceRec = .take 2 ∧ d.sessionReady 0 5 = true
           ∧ [posting].find? (fun v => v.id == 5) = some posting ∧ posting.bytes = fdBytes allreduceRec ∧ posting.rfmt = fdRfmt allreduceRec
           ∧ posting.poisoned = false ∧ anyMarked (x.source { noValue := none, ecc := [] } 64 d).1 = false)
      ∧ ((((fabricReady allreduceRec).fabricBegins 0).fabricRun 0 0 job0 allreduceRec).ports ((fabricReady allreduceRec).fabricBegins 0) false [5] = .take [2]) := by
  refine ⟨by decide +kernel, by decide +kernel, ?_⟩
  exact congrArg (fun q => PortChoices.cons q (.take [])) (show portOf 5 false allreduceRec = .take 2 by decide +kernel)
theorem test_meets_ReduceOrder : 2 ≤ (List.replicate 32 0).length ∧ (List.replicate 32 0).length ≤ 32 := by decide

/-- A PUT in progress at core 0. -/
def inFlight (o : Option DescOutcome) (lost : Bool) : FabricJob := { raw := putRec, dstSeg := 0, ports := [2], lost := lost, reduced := none, outcome := o }
theorem test_meets_FabricCompletion :
    let s := (withJob device).setCore 0 { Core.reset with flight := { Core.reset.flight with fabric := { consumed := 0, current := some (inFlight none false), skipping := false, pinned := [] } } }
    s.corePart 0 = some 0 ∧ (s.part 0).job = some job0 ∧ (s.core 0).flight.fabric.current = some (inFlight none false) ∧ fdOp putRec ≠ 2
      ∧ ((runPending 0 s).core 0).flight.resetting = false := by decide +kernel
theorem test_meets_FabricVerdicts :
    (inFlight (some okOutcome) false).outcome = some okOutcome ∧ (inFlight none true).lost = true ∧ (inFlight none false).outcome = none := by decide

/-- The device with a grant to device 5 of 256 bytes of partition 0. -/
def granted : State := withPart fun q => { q with grants := [{ sender := 5, unit := 0, tag := 1, bytes := 256, base := 0x02000000000000 }] }
theorem test_meets_PeerTraffic :
    granted.deafTo 5 = false ∧ { granted with fabric := { granted.fabric with joinStatus := 2 } }.deafTo 5 = true
      ∧ (let s : State := granted.modPart 0 fun q => { q with layout := { q.layout with conf := true } }
         s.confidential (some 0) = true ∧ s.grantFor 5 0x020000000000C0 (max 1 64) = some 0)
      ∧ granted.grantFor 5 0x020000000000C0 (max 1 64) = some 0 ∧ (granted.part 0).resetting = false
      ∧ granted.confidential (some 0) = false ∧ granted.grantFor 5 0x020000000000C1 (max 1 64) = none ∧ granted.grantFor 4 0x02000000000000 (max 1 0) = none := by
  decide

/-- The device with port 0 as given. -/
def withPort (q : Port) : State := { device with fabric := { device.fabric with ports := [(0, q)] } }
def trainedPort : Port := { Port.reset with width := 4, neighbour := 5 }
/-- A frame of core 0's transfer that is not acknowledged. -/
def sentFrame : LinkFrame := { seq := 0, ack := 0, vcmap := [1], credits := (0, 0), owner := .core 0, replays := 0 }
/-- An empty frame of SEQ 1, with the CRC of its trailer. -/
def frameTrailer : BitVec 256 := 1 + BitVec.ofNat 256 (frameCrc [] 1 * 2 ^ 32)
theorem test_meets_LinkFrames_accepted : trSeq frameTrailer = 1 ∧ trCrc frameTrailer = (crc32 ([] ++ leBytes 24 (field frameTrailer 64 192))).toNat := by
  decide +kernel
theorem test_meets_LinkFrames : ((withPort trainedPort).port 0).carries = true := by decide
theorem test_meets_PortLife :
    ((withPort trainedPort).port 0).width ≠ 0 ∧ ((withPort trainedPort).port 0).isDown = false
      ∧ ((withPort { trainedPort with retraining := true }).port 0).retraining = true
      ∧ (∀ e ∈ (withPort { trainedPort with retraining := true }).fabric.ports, e.2.wanted = false)
      ∧ (let s := (withPort { trainedPort with unacked := [sentFrame] }).setCore 0
          { Core.reset with flight := { Core.reset.flight with fabric := { consumed := 0, current := some { inFlight none false with ports := [0] }, skipping := false, pinned := [] } } }
         (s.core 0).flight.fabric.current = some { inFlight none false with ports := [0] } ∧ sentFrame ∈ (s.port 0).unacked ∧ sentFrame.owner = .core 0) := by decide +kernel
theorem test_meets_Routing :
    State.reset.fabric.groupState = 0 ∧ Tbl.get? State.reset.fabric.topology 3 ≠ some [] ∧ (3 : Nat) ∉ State.reset.fabric.takeover.dropped
      ∧ ({ State.reset.fabric with groupState := 1 } : Fabric).groupState = 1
      ∧ (let s := fabricReady 0
         (s.core 0).flight.fabric.pinned = [] ∧ s.fabric.takeover.dropped.contains 5 = false ∧ s.fabric.joinStatus = 0
           ∧ (∀ a ∈ s.routeTo 5, (s.port a.1).carries = true) ∧ 0 < ((s.routeTo 5).map (·.2)).foldl (· + ·) 0
           ∧ (s.port (pickPort 0 0 (s.routeTo 5))).carries = true) := by decide +kernel

/-- A member of the domain. -/
def member (id serial : Nat) (registrar : Bool) : DomainMember :=
  { id := id, serial := serial, group := 1, candidate := false, registrar := registrar, reachable := true }
/-- A device that asks for a fabric ID, in ring group 1. -/
def asksFor (id : Nat) : State :=
  { State.reset with
    dict := { State.reset.dict with entries := Tbl.put (Tbl.put State.reset.dict.entries (256 * 0x2500 + 1) (leBytes 2 id)) (256 * 0x2500 + 5) [1, 0] }
    fabric := { State.reset.fabric with assignedId := 4 } }
theorem test_meets_JoiningAndHead_join :
    (asksFor 4095).dictNat 0x2500 1 0xFFFF = 4095 ∧ (∀ m ∈ [member 0 1 false], m.id ≠ 4095) ∧ (∃ m ∈ [member 4095 1 false], m.id = 4095)
      ∧ (asksFor 0xFFFF).dictNat 0x2500 1 0xFFFF = 0xFFFF ∧ (∃ m ∈ [member 0 1 true], m.registrar = true) ∧ freeId [member 0 1 true] = some 1
      ∧ (∀ m ∈ [member 0 1 false], m.registrar = false) ∧ (asksFor 0xFFFF).dictNat 0x2500 3 0 = 0 := by decide +kernel
theorem test_meets_JoiningAndHead_head :
    let me := (asksFor 4).self
    me.group ≠ 0xFFFF ∧ (asksFor 4).fabric.assignedId ≠ 0xFFFF ∧ (∃ m ∈ groupMembers [] [me] me.group, m.id = me.id)
      ∧ headOf ((groupMembers [] [me] me.group).filter (·.reachable)) = some me := by
  have h : groupMembers [] [(asksFor 4).self] (asksFor 4).self.group = [(asksFor 4).self] := by simp [groupMembers]
  have hc : (asksFor 4).self.candidate = false := by decide
  have hr : (asksFor 4).self.reachable = true := rfl
  refine ⟨by decide, by decide, ?_, ?_⟩
  · rw [h]; exact ⟨_, List.mem_singleton.mpr rfl, rfl⟩
  · rw [h]; simp [headOf, lowestSerial, hc, hr]

/-- The device with a confidential partition 0, and a session of it with device 5. -/
def confidential (l : List LinkSession) : State :=
  let s := withPart fun q => { q with layout := { q.layout with conf := true } }
  { s with fabric := { s.fabric with sessions := l } }
def session5 (n m : Nat) : LinkSession := { part := 0, peer := 5, keyOut := 1, keyIn := 2, countOut := n, countIn := m }
theorem test_meets_LinkSessions :
    (confidential []).confidential (some 0) = true ∧ (confidential []).session 0 5 = none
      ∧ (confidential [session5 (2 ^ 48) 0]).session 0 5 = some (session5 (2 ^ 48) 0) ∧ (confidential [session5 0 (2 ^ 48)]).session 0 5 = some (session5 0 (2 ^ 48)) := by
  decide


/-! ## The host attachment -/

/-- The device with ring 0 enabled in partition 0, 64 KiB of host memory at 0x10000 granted, a record in progress, the partition further
changed, and host memory as listed. -/
def hosted (rcd : Option (BitVec 2048)) (f : Part → Part) (m : List (Nat × List Byte)) : State :=
  let s := withPart fun q => f { q with layout := { q.layout with rings := 1, grants := [{ base := hostAddr 0x10000, tier := 4, length := 0x10000 }] } }
  let s := s.modRing 0 fun q => { q with enable := true, current := rcd, ringBase := 0x10000, prodLine := 0x11000, cplBase := 0x12000 }
  { s with mem := m.foldl (fun t w => Memory.writeBytes t (hostAddr w.1) w.2) s.mem }
/-- A record: KIND, SEQ, JOB, and the body from byte 16 on. -/
def record (kind seq job body : Nat) : BitVec 2048 := BitVec.ofNat 2048 (kind + seq * 2 ^ 32 + job * 2 ^ 64 + body * 2 ^ 128)
/-- A CONTROL record: subcommand, image address 0x14000, and the operands from bit 256 on. -/
def control (sub operands : Nat) : BitVec 2048 := record 4 1 1 (sub + 0x14000 * 2 ^ 64 + operands * 2 ^ 128)
/-- Is a record of a kind and subcommand in progress at ring 0 of partition 0? -/
def inProgress (s : State) (kind : Nat) (sub : Option Nat) (rcd : BitVec 2048) : Bool := currentRecord s 0 kind sub == some (0, rcd)

theorem test_meets_CompletionRecord :
    Memory.wf device.mem = true ∧ cplOk.status < 256 ∧ (device.ring 0).msix = false
      ∧ (let s := device.modRing 0 fun q => { q with msix := true }
         let s : State := { s with host := { s.host with msixTable := Tbl.put s.host.msixTable 3 0 } }
         (s.ring 0).msix = true) := by decide

/-- A taken record: SEQ 5 of kind 2 lies at the front of ring 0. -/
def ringWith (last : Option (BitVec 32)) : State :=
  (hosted none id [(0x10000, leBytes 256 (record 2 5 1 0).toNat)]).modRing 0 fun q => { q with lastSeq := last, produced := 1 }
theorem test_meets_RecordTaken :
    ([none, some 4, some 6].all fun l =>
      let s := ringWith l
      let q := s.ring 0
      let rcd := BitVec.ofNat 2048 (s.peekNat (hostAddr (q.ringBase.toNat + 256 * (q.consumed.toNat % q.entries))) 256)
      rcd == record 2 5 1 0 && q.lastSeq == l && !badHeader rcd && recKind rcd == 2) = true := by decide +kernel
theorem test_meets_Rings :
    (let s := (hosted none id []).modRing 0 fun q => { q with enable := false }
     (s.ring 0).enable = false ∧ s.ringsUp = true ∧ s.ringPart 0 = some 0 ∧ (s.ring 0).ringLog2.toNat < 12 ∧ (s.ring 0).cplLog2.toNat < 12)
      ∧ ((hosted none id []).ring 0).enable = true ∧ ((hosted (some 0) id []).ring 0).current.isSome = true ∧ regionOf (hostAddr 0x11000) = .host := by
  decide +kernel

/-- An admission block with one manifest row: HBM bytes, local-store bytes, the step barrier, no partner, offsets and sizes as for `job0`. -/
def block0 (hbm rows : Nat) : Nat :=
  hbm + 0x4000 * 2 ^ 96 + 1 * 2 ^ 128 + 0xFFFF * 2 ^ (8 * 0x18) + rows * 2 ^ (8 * 0x20) + 0x1000 * 2 ^ (8 * 0x24) + 3 * 2 ^ (8 * 0x28) + 0x2000 * 2 ^ (8 * 0x2C)
    + 8 * 2 ^ (8 * 0x30) + 2 * 2 ^ (8 * 0x38)
def admitRec : BitVec 2048 := record 1 1 1 (0x10000 + 0x11000 * 2 ^ 64)
/-- An ADMIT in progress with that block at 0x10000. -/
def admitting (b : Nat) (f : Part → Part) : State := hosted (some admitRec) f [(0x10000, leBytes 128 b)]
theorem test_meets_JobAdmission :
    (let s := admitting (block0 0x1000 1) id
     let b := s.peek (hostAddr 0x10000) 512
     inProgress s 1 none admitRec && (s.part 0).job.isNone && !(s.part 0).scrubbing && s.hostGranted 0 (field admitRec 128 64) 512
       && (blockChecks s 0 b).all (fun f => !f.2) && blockNat b 0x20 2 == 1 && s.hostGranted 0 (recImage admitRec) 32
       && (match placeJob s 0 (blockNat b 0 8) (blockNat b 0x0C 4) with
           | .ok bases =>
             let j := jobOf 1 0 b [0] bases
             (partnerRefusal s 0 j { feed := 0, mirrorBytes := 0, mirrorOffset := 0, confidential := false }).isNone && (j.hdmSlots (s.part 0).layout.port).isEmpty
           | .error _ => false)) = true := by decide +kernel
theorem test_meets_AdmissionRefused :
    (inProgress (admitting 0 fun q => { q with job := some job0 }) 1 none admitRec = true
        ∧ ((admitting 0 fun q => { q with job := some job0 }).part 0).job.isSome = true
        ∧ ((admitting 0 fun q => { q with scrub := .running }).part 0).scrubbing = true)
      ∧ (let s := admitting (block0 0x1000 4097) id
         (blockChecks s 0 (s.peek (hostAddr 0x10000) 512)).find? (·.2) = some (0x20, true))
      ∧ (let s := admitting (block0 0x1000000000 0) id
         let b := s.peek (hostAddr 0x10000) 512
         ((blockChecks s 0 b).all (fun f => !f.2) && blockNat b 0x20 2 == 0
           && (match placeJob s 0 (blockNat b 0 8) (blockNat b 0x0C 4) with | .error e => e == 0 | .ok _ => false)) = true) := by decide +kernel

/-- A STEP of the job in progress. -/
def stepRec : BitVec 2048 := record 2 1 1 7
theorem test_meets_JobStep :
    ([none, some 1].all fun o =>
      let s := hosted (some stepRec) (fun q => { q with job := some { job0 with stepRing := o } }) []
      inProgress s 2 none stepRec && ((s.part 0).job.any fun j => j.stepRing == o) && !badJob s 0 stepRec && !((s.core 0).flight.resetting)) = true := by
  decide +kernel
theorem test_meets_JobRelease :
    (let rcd := record 5 1 1 0
     let s := hosted (some rcd) (fun q => { q with job := some job0 }) []
     inProgress s 5 none rcd && !badJob s 0 rcd && (s.part 0).releasing.isNone) = true
      ∧ (let rcd := record 5 1 1 0
         let s := hosted (some rcd) (fun q => { q with job := some job0, releasing := some 0 }) []
         inProgress s 5 none rcd && (s.part 0).releasing == some 0 && releaseReady s 0 && !(s.part 0).layout.conf) = true := by decide +kernel

/-- Selects entry 0 and the last of n, with image entries at 0x14000; entry 0 as given. -/
def loading (sub operands : Nat) (entry : BitVec 256) : State :=
  hosted (some (control sub operands)) (fun q => { q with job := some job0 }) [(0x14000, leBytes 32 entry.toNat)]
theorem test_meets_SegmentLoad :
    ([(segment 0 0x7FFFFF 0, none), (segment 0 0x7FFFFF 1, some 1), (segment 0x02000000000000 4096 2, some 2)].all fun q : BitVec 256 × Option Nat =>
      let rcd := control 1 (1 + 2 ^ 255)
      let s := loading 1 (1 + 2 ^ 255) q.1
      inProgress s 4 (some 1) rcd && !controlReserved rcd [(192, 512)] && (if q.2.isNone then s.hostGranted 0 (recImage rcd) 8192 else true)
        && rcd.toNat.testBit 256 && rcd.toNat.testBit 511 && imageEntry s (recImage rcd) 0 == q.1 && imageEntry s (recImage rcd) 255 == 0
        && segValid q.1 && ((segmentChecks s 0 q.1).find? (·.2)).map (·.1) == q.2) = true := by decide +kernel

/-- A barrier entry over core 0 with so many devices. -/
def barEntry (devices : Nat) : BitVec 256 := BitVec.ofNat 256 (1 + 4 * 2 ^ 16 + (1 + 2 ^ 2 + 2 ^ 14) * 2 ^ 64 + devices * 2 ^ 192)
theorem test_meets_BarrierLoad :
    ([(barEntry 1, none), (barEntry 2, some 3)].all fun q : BitVec 256 × Option Nat =>
      let rcd := control 2 (1 + 2 ^ 1023)
      let s := loading 2 (1 + 2 ^ 1023) q.1
      inProgress s 4 (some 2) rcd && !controlReserved rcd [(192, 1280)] && s.hostGranted 0 (recImage rcd) 32768
        && rcd.toNat.testBit 256 && rcd.toNat.testBit 1279 && imageEntry s (recImage rcd) 0 == q.1 && imageEntry s (recImage rcd) 1023 == 0
        && barValid q.1 && ((barrierChecks s 0 0 q.1).find? (·.2)).map (·.1) == q.2) = true := by decide +kernel

/-- A group-table entry in use with core 0. -/
def groupEntry0 : BitVec 256 := 1 ||| BitVec.shiftLeft 1 192
theorem test_meets_GroupLoad :
    (let rcd := control 3 (2 ^ 64 + 2 ^ 127)
     let s := loading 3 (2 ^ 64 + 2 ^ 127) groupEntry0
     inProgress s 4 (some 3) rcd && !controlReserved rcd [(192, 264), (320, 576)] && s.hostGranted 0 (recImage rcd) 8192 && field rcd 256 8 == 0
       && rcd.toNat.testBit 320 && rcd.toNat.testBit 383 && !groupRefused s 0 0 0 groupEntry0 && imageEntry s (recImage rcd) 0 == groupEntry0
       && imageEntry s (recImage rcd) 63 == 0 && !groupRefused s 0 0 63 0) = true := by decide +kernel

/-- A multicast group of devices 0 and 4095. -/
def groupOf2 : BitVec 512 := BitVec.ofNat 512 (4095 * 2 ^ 12) ||| BitVec.shiftLeft 0x42 384
theorem test_meets_MulticastGroups :
    (let rcd := control 4 0
     let s := hosted (some rcd) id [(0x14000, leBytes 64 groupOf2.toNat)]
     inProgress s 4 (some 4) rcd && !controlReserved rcd [(192, 256)] && s.hostGranted 0 (recImage rcd) 64 && (Tbl.get? s.fabric.mcast 0).isNone
       && mcastOk (BitVec.ofNat 512 (s.peekNat (hostAddr (recImage rcd)) 64))) = true
      ∧ (let rcd := record 4 1 1 (5 + 1023 * 2 ^ 128)
         let s := hosted (some rcd) id []
         let s : State := { s with fabric := { s.fabric with mcast := [(1023, (0, groupOf2))] } }
         inProgress s 4 (some 5) rcd && !controlReserved rcd [(192, 266)] && field rcd 256 10 == 1023 && Tbl.get? s.fabric.mcast 1023 == some (0, groupOf2)) = true := by
  decide +kernel
theorem test_meets_PeerGrants :
    (let rcd := record 4 1 1 (6 + 5 * 2 ^ 128 + 7 * 2 ^ 160 + 4096 * 2 ^ 192)
     let s := hosted (some rcd) id []
     inProgress s 4 (some 6) rcd && !controlReserved rcd [(192, 276), (288, 384)] && (s.presentUnits 0).contains (field rcd 268 8)
       && (s.placeRange 0 (field rcd 320 64)).isSome) = true
      ∧ (let rcd := record 4 1 1 (7 + 1 * 2 ^ 160)
         let g : PeerGrant := { sender := 5, unit := 0, tag := 1, bytes := 256, base := 0x02000000000000 }
         let s := hosted (some rcd) (fun q => { q with grants := [g] }) []
         inProgress s 4 (some 7) rcd && !controlReserved rcd [(192, 256), (288, 320)]
           && (s.part 0).grants.find? (fun g => g.tag == BitVec.ofNat 32 (field rcd 288 32)) == some g && !s.grantInUse g) = true := by decide +kernel
theorem test_meets_ControlReserved :
    ([(1, [(192, 512)]), (2, [(192, 1280)]), (3, [(192, 264), (320, 576)]), (4, [(192, 256)]), (5, [(192, 266)]), (6, [(192, 276), (288, 384)]),
      (7, [(192, 256), (288, 320)])].all fun q : Nat × List (Nat × Nat) =>
      let rcd := record 4 1 1 (q.1 + 1 * 2 ^ 8)
      inProgress (hosted (some rcd) id []) 4 (some q.1) rcd && controlReserved rcd q.2) = true := by decide +kernel

/-- The device with slot 0 of port 0's HDM window mapped. -/
def mapped : State := { device with host := { device.host with hdm := [(0, 0x02000000000000)] } }
theorem test_meets_HdmWindow :
    mapped.hdmAddr 0 0 = some 0x02000000000000 ∧ mapped.hdmAddr 0 0x3FFFFFFF = some 0x0200003FFFFFFF ∧ mapped.hdmAddr 0 0x40000000 = none
      ∧ mapped.hdmAddr 1 0 = none := by decide
theorem test_meets_CaveMapAndLinks :
    (∀ p ∈ device.parts, p.2.job = none) ∧ (∃ p ∈ (withJob device).parts, p.2.job.isSome = true)
      ∧ (let s : State := { device with start := { device.start with bifurcated := true, whey := false } }
         s.start.bifurcated = true ∧ s.start.whey = false) := by
  refine ⟨?_, ?_, by decide⟩
  · decide +kernel
  · decide +kernel


/-! ## Control windows, a core's control block, resets -/

/-- Core 0 with its control block changed. -/
def ctl (f : CoreCtl → CoreCtl) : State := withCore fun k => { k with ctl := f k.ctl }

theorem test_meets_RefusedWindows :
    device.reachesCore 1 0 = false ∧ State.reset.reachesCore 0 0 = false
      ∧ (withPart fun q => { q with resetting := true }).reachesCore 0 0 = false := by decide
theorem test_meets_CoreStart :
    ((ctl id).reachesCore 0 0 = true ∧ ((ctl id).core 0).ctl.state = .stopped ∧ ((ctl id).core 0).flight.resetting = false ∧ (ctl id).coreFatal 0 = false)
      ∧ (let s := ctl fun k => { k with loadedA := true }
         s.reachesCore 0 0 = true ∧ (s.core 0).ctl.loadedA = true)
      ∧ (let s := ctl fun k => { k with state := .halted }
         s.reachesCore 0 0 = true ∧ (s.core 0).ctl.state ≠ .stopped) := by decide
theorem test_meets_CoreStopContinue :
    (let s := ctl fun k => { k with state := .running }
     s.reachesCore 0 0 = true ∧ (s.core 0).ctl.state ≠ .dumping ∧ (s.core 0).flight.sched = [])
      ∧ (let s := ctl fun k => { k with state := .stoppedAtCount }
         s.reachesCore 0 0 = true ∧ (s.core 0).ctl.state = .stoppedAtCount ∧ s.confidential (s.corePart 0) = false ∧ s.coreFatal 0 = false) := by decide
/-- Core 0 Stopped with a dump address, segment 0 over HBM writable or not. -/
def dumpable (s1 : RunState) (seg : BitVec 256) : State :=
  let s := withPart fun q => { q with segs := [(0, seg)] }
  s.setCore 0 { Core.reset with ctl := { Core.reset.ctl with state := s1, dumpAddr := 0x02000000000000 } }
theorem test_meets_CoreDump :
    ([(RunState.stopped, segment 0x02000000000000 0xFFFFFFF 2, true), (.stoppedAtCount, segment 0x02000000000000 0xFFF 2, false)].all
      fun q : RunState × BitVec 256 × Bool =>
      let s := dumpable q.1 q.2.1
      let v := s.modCore 0 fun k => { k with ctl := { k.ctl with ctlDumpLs := true } }
      s.reachesCore 0 0 && !s.confidential (s.corePart 0) && (s.core 0).ctl.state == q.1 && !(s.core 0).flight.resetting
        && (v.dumpFault 0).isNone == q.2.2) = true
      ∧ ((dumpable .dumping 0).core 0).ctl.state = .dumping := by decide +kernel
theorem test_meets_HalfLoaded :
    (let s := ctl fun k => { k with state := .waiting, hold := .start true 9, loadedB := true }
     (s.core 0).ctl.hold = .start true 9 ∧ (s.core 0).ctl.state = .waiting ∧ (s.core 0).ctl.loadedB = true)
      ∧ (let s := ctl fun k => { k with state := .waiting, hold := .swapi 9, loadedB := true }
         (s.core 0).ctl.hold = .swapi 9 ∧ (s.core 0).ctl.state = .waiting ∧ (s.core 0).ctl.half = false ∧ (s.core 0).ctl.loadedB = true
           ∧ ((runTo 0 ((s.core 0).flight.now - 1 + max 1 0) s).core 0).ctl.state = .waiting) := by decide
theorem test_meets_RunToCount :
    (let s := ctl fun k => { k with state := .running, rtcEnable := true }
     let k := s.core 0
     k.ctl.state = .running ∧ k.ctl.hold = .none ∧ k.ctl.rtcEnable = true ∧ k.sys.issueCount = k.ctl.rtcLimit.setWidth 64 ∧ k.flight.queuesEmpty = true
       ∧ s.confidential (s.corePart 0) = false ∧ k.flight.sched = [])
      ∧ (let s := ctl fun k => { k with rtcLimit := 1 }
         (s.core 0).sys.issueCount ≠ (s.core 0).ctl.rtcLimit.setWidth 64) := by decide
theorem test_meets_WindowWrites :
    (let s := ctl fun k => { k with state := .running }
     s.reachesCore 0 0 = true ∧ (s.core 0).ctl.fetching = true ∧ (s.core 0).ctl.half = false)
      ∧ (let s := ctl id
         s.reachesCore 0 0 = true ∧ (s.core 0).ctl.fetching = false) := by decide
theorem test_meets_ControlRegisters :
    (device.ringPort 63 = 0 ∧ (device.ring 63).enable = false) ∧ device.ringsUp = true ∧ (device.part 0).layout.valid = true
      ∧ (device.part 0).layout.port = 0 ∧ (0x1400 : Word).toNat = (0 : CoreId).toNat + 2 ^ 10 + 2 ^ 12 := by decide
theorem test_meets_CoreResets :
    (let q := device.part 0
     q.layout.valid = true ∧ q.resetting = false ∧ q.scrubbing = false ∧ q.resetCtl.busy = false ∧ device.mayReset 0 0 = true ∧ device.mayReset 0 0x3FF = false) := by
  decide
theorem test_meets_ResetEnds :
    ([1, 2].all fun k : BitVec 2 =>
      let s := withPart fun q => { q with resetCtl := { q.resetCtl with busy := true, kind := k } }
      let q := (s.part 0).resetCtl
      q.busy && q.kind == k && q.cores.all (fun c => (s.core c).flight.fabric.current.isNone) && q.cores.contains 0 && Memory.wf s.mem) = true := by decide


/-! ## Checkpoints and takeovers -/

/-- An image of generation g with the record of core 0. -/
def image0 (g : BitVec 32) : SchedImage :=
  { gen := g, step := 7, fabricId := 0, units := 1, rings := [], epochs := [], cores := [(0, { arriving.image with pc := 9 })], press := [], wheels := [] }
/-- A job that drains generation 2 to device 5. -/
def drainJob : Job := { job0 with partner := 5, draining := some 2, drainImage := some (image0 2) }
theorem test_meets_CheckpointCommit :
    ([none, some [0]].all fun sent : Option (List Byte) =>
      let j : Job := { drainJob with drainSent := sent }
      let s := withPart fun q => { q with job := some j }
      let s : State := { s with fabric := { s.fabric with routes := [(5, routeEntry [(2, 4)])], ports := [(2, { Port.reset with width := 4, neighbour := 5 })] } }
      (s.part 0).job == some j && j.draining == some 2 && j.drainImage == some (image0 2) && j.queued == [] && s.routeTo j.partner.toNat != []
        && s.portToward j.partner.toNat == some 2 && s.sessionReady 0 j.partner.toNat) = true := by decide +kernel

/-- The head of a ring group: partition 0 runs the group's job, with buffer and image of generation 2 and the transfer of core 0. -/
def headOfGroup (t : Option FabricJob) : State :=
  let j : Job := { job0 with image := some (image0 2), bufs := #v[{ gen := 2, state := .stable }, { gen := 1, state := .stable }], slots := #v[some 2, none] }
  let s := withPart fun q => { q with job := some j, barriers := [(1, { barrier0 [] [] with entry := 3 })] }
  let s : State := { s with
    fabric := { s.fabric with groupState := 2, assignedId := 7 }
    dict := { s.dict with entries := Tbl.put s.dict.entries (256 * 0x2520 + 3) [9, 0] } }
  s.setCore 0 { Core.reset with
    ctl := { Core.reset.ctl with state := .running }, flight := { Core.reset.flight with fabric := { consumed := 0, current := t, skipping := false, pinned := [] } } }
def failed8 : FailedDevice := { id := 8, group := 1, fatal := true, presentPu := 1, partnerFeed := none, mirrorFeeds := [] }
def spare9 (on : Bool) : SpareInfo := { id := 9, isOn := on, presentPu := 0xFFFF, feed := 0, feedOverride := false, layout := [], sessions := [] }
def group8 : GroupView := { choice := none, gens := [some 2], slots := [], copies := [] }

theorem test_meets_TakeoverBegins :
    (let s := headOfGroup (some (inFlight none false))
     let d := fenceAndHold failed8.id s
     s.fabric.takeover.phase = 0 ∧ s.fabric.groupState = 2 ∧ s.mayReplace failed8 = true ∧ s.keepsWorking failed8 [] = false ∧ 0 ∈ d.groupParts ∧ 0 ∈ d.coresOf 0 ∧ (d.core 0).flight.fabric.current.isSome = true) := by decide +kernel
theorem test_meets_TakeoverBegins_kinds :
    (let s := headOfGroup none
     let f : FailedDevice := { failed8 with fatal := false }
     let routed : State := { s with fabric := { s.fabric with routes := [(8, routeEntry [(2, 4)])] } }
     let late : State := { routed with fabric := { routed.fabric with takeover := { routed.fabric.takeover with stragglers := [8] } } }
     routed.fabric.groupState = 2 ∧ routed.mayReplace f = false ∧ late.mayReplace f = true ∧ late.keepsWorking f [] = true ∧ late.fabric.takeover.phase = 0)
      ∧ (device.fabric.groupState = 0 ∧ ({ group8 with choice := some device.fabricId } : GroupView).choice = some device.fabricId)
      ∧ ({ device with fabric := { device.fabric with groupState := 1 } } : State).fabric.groupState = 1 := by decide +kernel
theorem test_meets_TakeoverBegins_none :
    (let s := headOfGroup none
     let d := fenceAndHold failed8.id s
     (d.groupParts.all fun p => (d.coresOf p).all fun c => (d.core c).flight.fabric.current.isNone) = true ∧ s.fabric.groupState = 2
       ∧ spareOk failed8 (spare9 false) = false) := by decide +kernel
theorem test_meets_TakeoverRestores :
    (let s := headOfGroup none
     let d := fenceAndHold failed8.id s
     let u := takeIdentity failed8.id 9 failed8.group d
     s.fabric.takeover.phase == 0 && s.fabric.groupState == 2 && s.mayReplace failed8 && !s.keepsWorking failed8 [spare9 true] && (d.groupParts.all fun p => (d.coresOf p).all fun c => (d.core c).flight.fabric.current.isNone)
       && d.chooseSpare failed8 [spare9 true] == some (spare9 true) && u.groupParts == [0] && !u.confidential (some 0)
       && groupGen (u.groupParts.map fun p => ((u.part p).job.bind Job.committedGen)) group8.gens == some 2
       && ((u.part 0).job.any fun j => match restoreSource j 2 (u.restoredWheels 0) [] with | .ok x => x.image == image0 2 | .error _ => false)) = true := by decide +kernel
theorem test_meets_TakeoverResume :
    (let s := headOfGroup none
     let s : State := { s.modPart 0 fun q => { q with held := true } with fabric := { s.fabric with takeover := { s.fabric.takeover with phase := 1 } } }
     s.fabric.takeover.phase = 1 ∧ s.runsGroupJob 0 = true ∧ (s.part 0).held = true ∧ (s.part 0).job.bind (·.image) = some (image0 2)
       ∧ (0 : CoreId) ∈ s.coresOf 0 ∧ (0 : CoreId).toNat ∈ (image0 2).cores.map (·.1)) := by decide +kernel

/-! ## The intake -/

/-- A recipe: a core ring (or HBM) of two slots on core 0, 16 × 16 pictures in 16 × 16 patches of one bf16 channel, one row a slot. -/
def recipe0 (ring : Bool) : BitVec 1024 :=
  BitVec.ofNat 1024 ((if ring then 1 else 0) + 2 ^ 12 + 16 * 2 ^ 64 + 16 * 2 ^ 80 + 16 * 2 ^ 96 + 16 * 2 ^ 112 + 16 * 2 ^ 128 + 16 * 2 ^ 136 + 2 ^ 144 + 2 ^ 152
    + 2 ^ 160) ||| BitVec.shiftLeft (BitVec.ofNat 1024 ((if ring then 2 ^ 15 else 0) + 0x1000 * 2 ^ 16 + 2 * 2 ^ 48 + 1024 * 2 ^ 64)) 384
/-- An intake record: CMD, F0 to F2, CODEC, WHEEL, the addresses, SIZE, DPB_SIZE, CPL_COUNT. -/
def intakeRec (cmd flags codec wheel a b c d size dpb cpl : Nat) : BitVec 2048 :=
  record 3 1 1 (cmd + flags * 2 ^ 8 + codec * 2 ^ 24 + wheel * 2 ^ 64 + a * 2 ^ 96 + b * 2 ^ 160) |||
    BitVec.shiftLeft (BitVec.ofNat 2048 (c + d * 2 ^ 64 + size * 2 ^ 128 + dpb * 2 ^ 192 + cpl * 2 ^ 224)) 352
/-- The device with an intake record in progress for the job, an engine granted, wheels as listed. -/
def intake (rcd : BitVec 2048) (wheels : Tbl Wheel) (m : List (Nat × List Byte)) : State :=
  let s := hosted (some rcd) (fun q => { q with job := some { job0 with hbmBytes := 0x100000 }, layout := { q.layout with engines := 1 } }) []
  { s with
    intake := { s.intake with wheels := wheels, enginesPresent := 1 }
    mem := m.foldl (fun t w => Memory.writeBytes t w.1 w.2) s.mem }
/-- Is that record the ring's intake command? -/
def commands (s : State) (cmd : Nat) (f0 : Option Bool) (rcd : BitVec 2048) : Bool :=
  intakeRecord s 0 cmd f0 == some (0, rcd) && (s.part 0).job.isSome && !badJob s 0 rcd && !icReserved rcd
def hbm0 : Nat := 0x02000000000000
/-- A decode wheel of partition 0 in a state. -/
def wheel0 (state : Nat) : Wheel :=
  { Wheel.reset with state := state, cplBase := BitVec.ofNat 64 (hbm0 + 0x4000), cplCount := 2, srcBase := BitVec.ofNat 64 hbm0, srcSize := 0x100, recipe := recipe0 true }

theorem test_meets_WheelOpens_decode :
    ([true, false].all fun ring =>
      let rcd := intakeRec 1 0 0 0 hbm0 (hbm0 + 0x1000) (hbm0 + 0x2000) (hbm0 + 0x4000) 0x100 1 2
      let s := intake rcd [] [(hbm0 + 0x1000, leBytes 128 (recipe0 ring).toNat)]
      let recipe := BitVec.ofNat 1024 ((s.seenBy (some 0)).peekNat (icAddrB rcd) 128)
      commands s 1 none rcd && ((s.part 0).job.any fun j => (openRefusal s 0 j rcd).isNone) && s.freeWheel 0 == some 0 && decide (icCodec rcd < 4)
        && recipe == recipe0 ring && s.corePart (rcCore recipe) == some 0 && !recipeBad recipe && s.intake.wheels.isEmpty) = true := by decide +kernel
/-- Encode parameters: 64 × 64 pictures, one picture a GOP. -/
def params0 : BitVec 512 := BitVec.ofNat 512 (64 + 64 * 2 ^ 16 + 2 ^ 80 + 2 ^ 98)
theorem test_meets_WheelOpens_encode :
    (let rcd := intakeRec 1 0 8 0 hbm0 (hbm0 + 0x1000) (hbm0 + 0x2000) (hbm0 + 0x4000) 0x100 32 2
     let s := intake rcd [] [(hbm0 + 0x1000, leBytes 64 params0.toNat)]
     let params := BitVec.ofNat 512 ((s.seenBy (some 0)).peekNat (icAddrB rcd) 64)
     commands s 1 none rcd && ((s.part 0).job.any fun j => (openRefusal s 0 j rcd).isNone) && s.freeWheel 0 == some 0 && decide (4 ≤ icCodec rcd)
       && params == params0 && !encodeBad (icCodec rcd) params && decide (encodeRegion (icPar rcd) params ≤ 4096 * icDpbSize rcd)) = true := by decide +kernel

/-- A clip-list entry: one group, one frame, tag 7. -/
def clipEntry : BitVec 256 := BitVec.ofNat 256 (2 ^ 64 + 2 ^ 128 + 7 * 2 ^ 160)
theorem test_meets_Feeds :
    ([(1, false), (4, true)].all fun q : Nat × Bool =>
      let rcd := intakeRec 2 (if q.2 then 1 else 0) 0 0 (hbm0 + 0x1000) 0 0 0 1 0 0
      let s := intake rcd [(0, wheel0 q.1)] [(hbm0 + 0x1000, leBytes 32 clipEntry.toNat)]
      commands s 2 (some q.2) rcd && s.usableWheel 0 (icWheel rcd) == some (wheel0 q.1) && icCount rcd == 1 && s.sourceRange 0 (icAddrA rcd) 32
        && ((s.part 0).job.any fun j => (decodeEntry (wheel0 q.1) j (s.clipEntry 0 (icAddrA rcd))).isNone) && decide ((wheel0 q.1).pendingCount.toNat + 1 ≤ 65535)) = true := by decide +kernel

/-- A clip in progress with a status and tubelets that wait. -/
def clipRun0 (status : Option Nat) (ready : List Tubelet) : ClipRun :=
  { startClip (clipOf clipEntry) 0 with status := status, ready := ready }
/-- A group of clip 0 on an engine. -/
def groupRun0 (engine : Nat) : GroupRun := { engine := engine, seq := 0, start := 0, pos := 0, size := 1, finished := false, fails := false, expiries := [] }
theorem test_meets_Closes :
    ([([], true), ([groupRun0 0], false)].all fun q : List GroupRun × Bool =>
      let rcd := intakeRec 3 (if q.2 then 1 else 0) 0 0 0 0 0 0 0 0 0
      let v := { wheel0 1 with running := q.1 }
      let s := intake rcd [(0, v)] []
      commands s 3 (some q.2) rcd && s.usableWheel 0 (icWheel rcd) == some v && v.run.isNone && v.clips.isEmpty) = true := by decide +kernel
theorem test_meets_Queries :
    ([hbm0 + 0x1000, hostAddr 0x14000].all fun a =>
      let rcd := intakeRec 4 1 0 0 a 0 0 0 0 0 0
      let s := intake rcd [(0, wheel0 1)] []
      commands s 4 (some true) rcd && s.usableWheel 0 (icWheel rcd) == some (wheel0 1)
        && (((s.part 0).job.any fun j => inJobHbm j a 256) || (spanRegion a 256 == .host && s.inPart (some 0) a 256))) = true := by decide +kernel
theorem test_meets_GroupStarts :
    (let s := intake 0 [(0, { wheel0 1 with clips := [hbm0 + 0x1000] })] [(hbm0 + 0x1000, leBytes 32 clipEntry.toNat)]
     let v := s.wheel 0
     s.wheelRuns v && decide (v.codec.toNat < 4) && s.engineFree v 0 && !v.ringFull && decide (v.atWork < v.groupLimit) && !v.srcRes
       && v.cave.waits.isEmpty && ((s.beginClip v).run.any fun x => x.status.isNone && decide (x.started < x.clip.groups.toNat) && x.started == 0)) = true := by decide +kernel
theorem test_meets_GroupProgress :
    (let s := intake 0 [(0, { wheel0 2 with running := [groupRun0 0, groupRun0 1], run := some (clipRun0 none []) })] []
     (s.wheel 0).state = 2 ∧ (s.wheel 0).running = groupRun0 0 :: [groupRun0 1] ∧ (groupRun0 0).engine = 0 ∧ (∀ k ∈ [groupRun0 1], k.engine = 0 → k.finished = true)
       ∧ (groupRun0 0).engine ≠ 1 ∧ (∃ k ∈ [groupRun0 1], k.engine = 1 ∧ k.finished = false) ∧ (s.wheel 0).closing = none
       ∧ (s.wheel 0).run = some (clipRun0 none []) ∧ (clipRun0 none []).status = none ∧ (clipRun0 none []).seq = (groupRun0 0).seq
       ∧ (s.part (s.wheel 0).part).held = false) := by decide +kernel
theorem test_meets_DamagePolicy :
    (∀ i, ({ info := i, planes := [], causes := [1], damaged := true } : OutPicture).damaged = true) ∧ (wheel0 1).policy = 0
      ∧ ({ wheel0 1 with policy := 1 } : Wheel).policy = 1 ∧ ({ wheel0 1 with policy := 2 } : Wheel).policy = 2 := ⟨fun _ => rfl, by decide⟩
/-- A tubelet that waits. -/
def tubelet0 : Tubelet := { index := 0, affected := false, bytes := List.replicate 512 1 }
theorem test_meets_SlotWrites :
    ([(some 0x00, [tubelet0]), (none, [tubelet0, tubelet0])].all fun q : Option Nat × List Tubelet =>
      let s := intake 0 [(0, { wheel0 2 with run := some (clipRun0 q.1 q.2) })] []
      let v := s.wheel 0
      v.state == 2 && v.run == some (clipRun0 q.1 q.2) && rcRing v.recipe && !v.ringFull && !(s.part v.part).held && !(s.core (rcCore v.recipe)).flight.resetting
        && (q.1.isSome || decide (rcRows v.recipe < q.2.length))) = true := by decide +kernel
theorem test_meets_ConsumedReread :
    let v := (intake 0 [(0, wheel0 1)] []).wheel 0
    v.state ≠ 0 ∧ v.codec.toNat < 4 ∧ rcRing v.recipe = true := by decide +kernel
theorem test_meets_ClipCompletion :
    let v := (intake 0 [(0, { wheel0 2 with run := some (clipRun0 (some 0) []) })] []).wheel 0
    v.state ≠ 0 ∧ v.run = some (clipRun0 (some 0) []) ∧ (clipRun0 (some 0) []).status = some 0 ∧ (clipRun0 (some 0) []).ready = [] ∧ v.closing = none
      ∧ v.codec.toNat < 4 ∧ rcRing v.recipe = true := by decide +kernel
theorem test_meets_EncodesGop :
    (let s := intake 0 [(0, { wheel0 1 with codec := 8, clips := [hbm0 + 0x1000] })] [(hbm0 + 0x1000, leBytes 32 clipEntry.toNat)]
     let v := s.wheel 0
     s.wheelRuns v && decide (4 ≤ v.codec.toNat) && s.engineFree v 0 && ((s.beginClip v).run.any fun x => x.status.isNone)) = true := by decide +kernel


/-! ## The root of trust -/

/-- The device with the RTP changed. -/
def rtp (f : Rtp → Rtp) : State := { device with rtp := f device.rtp }
/-- The RTP with an owner and a nonce; more of it changed. -/
def owned (f : Rtp → Rtp) : State := rtp fun r => f { r with ownerSlots := [1], nonce := some 7 }
/-- Does the mailbox take a command? -/
def takes (s : State) : Bool := s.rtpUp && s.rtp.background == .none && !s.rtp.error
/-- Is the command the owner's, with nonce 7 and a signature that verifies? -/
def ownerOk (s : State) : Bool := !s.rtp.ownerSlots.isEmpty && s.rtp.nonce == some 7

theorem test_meets_Mailbox :
    device.rtpUp = true ∧ (rtp fun r => { r with background := .reset 0 }).rtpUp = true ∧ (rtp fun r => { r with background := .reset 0 }).rtp.background ≠ .none
      ∧ device.rtp.background = .none ∧ (rtp fun r => { r with error := true }).rtp.error = true := by decide
theorem test_meets_OwnerAuthentication :
    takes device = true ∧ device.rtp.ownerSlots = [] ∧ takes (owned id) = true ∧ (owned id).rtp.nonce ≠ some 8 := by decide +kernel
theorem test_meets_Fuses :
    (takes device = true ∧ device.rtp.ownerSlots.length < 4 ∧ device.guardActive = false)
      ∧ (takes (owned id) = true ∧ ownerOk (owned id) = true)
      ∧ (let s := owned fun r => { r with ownerSlots := [1, 2, 3, 4] }
         takes s = true ∧ ownerOk s = true ∧ 4 ≤ s.rtp.ownerSlots.length)
      ∧ (let s : State := { owned id with dict := { device.dict with guardIo18 := true } }
         takes s = true ∧ ownerOk s = true ∧ s.guardActive = true)
      ∧ (let s := owned fun r => { r with bundleLoaded := true, svn := 63 }
         takes s = true ∧ ownerOk s = true ∧ s.rtp.bundleLoaded = true ∧ s.guardActive = false ∧ s.rtp.svn.toNat < 64) := by decide +kernel

/-- A whole bundle's header: an SVN, the machine code, images 1 to 5. -/
def bundle0 (machine svn : Nat) : List Byte :=
  leBytes 4 0x4E424A48 ++ leBytes 2 1 ++ leBytes 2 machine ++ leBytes 4 svn ++ leBytes 4 5 ++ leBytes 8 0x5000 ++ List.replicate 40 0
    ++ ((List.range 5).flatMap fun i => leBytes 8 (i + 1 + 64 * 2 ^ 32) ++ leBytes 8 (0x1000 + 64 * i) ++ List.replicate 48 0)
def verdict0 : BundleVerdict := { keyHash := 7, signatureOk := true, badDigest := none, testFailed := none }
/-- The device in step 4, which waits for a bundle; its signing slot 0 has a key. -/
def awaiting : State := { device with
  rtp := { device.rtp with signing := 1, signingHash := device.rtp.signingHash.set 0 7 }, start := { device.start with isOn := false, step := 4 } }
theorem test_meets_BundleLoad :
    (takes awaiting = true ∧ awaiting.deviceState = some 6 ∧ awaiting.rtp.owner ≠ some .oap ∧ chunkReach [(0x18, [1])] 1 0 < 0x18)
      ∧ (takes device = true ∧ device.deviceState ≠ some 6) := by decide
theorem test_meets_BundleLoad_checks :
    bundleRefusal awaiting (bundle0 0x00B0 63) verdict0 = none ∧ bundleRefusal awaiting (bundle0 0x00B0 63) { verdict0 with testFailed := some 3 } = none
      ∧ bundleFormat (bundle0 0x00B0 64) = false ∧ bundleFormat (bundle0 0x00B1 0) = true
      ∧ bundleRefusal { awaiting with rtp := { awaiting.rtp with minSvn := 1 } } (bundle0 0x00B0 0) verdict0 = some 5 := by decide +kernel

/-- A layout image: units by PU_MAP, and the records of partitions 0 and 1. -/
def image0' (units : List Byte) (r0 r1 : Nat) : List Byte := units ++ List.replicate 48 0 ++ leBytes 128 r0 ++ leBytes 128 r1 ++ List.replicate 1792 0
def allFree : List Byte := List.replicate 16 0xFF
/-- Partition 0 with rings 0 and 1, engine 0, tenant 1. -/
def validRec : Nat := 1 + 2 ^ 32 + 3 * 2 ^ 64 + 2 ^ 128
theorem test_meets_LayoutBegins :
    takes (owned id) = true ∧ ownerOk (owned id) = true ∧ (owned id).start.isOn = true ∧ (image0' allFree validRec 0).length = 2112
      ∧ (let s' : State := { owned id with rtp := { (owned id).rtp with nonce := none } }
         layoutRefusal s' (image0' allFree validRec 0) = some (3, 0) ∧ layoutRefusal s' (image0' allFree 0 0) = none)
      ∧ (owned id).ringsOf 0 = []
      ∧ (let s := hosted (some 0) id []
         s.changes (image0' allFree 0 0) 0 = true ∧ 0 ∈ s.ringsOf 0 ∧ (s.ring 0).enable = true ∧ (s.ring 0).current.isSome = true)
      ∧ (owned id).changes (image0' allFree 0 0) 0 = true ∧ 0 ∈ (owned id).leaving (image0' allFree 0 0) 0 := by decide +kernel
theorem test_meets_LayoutConditions :
    (let i := image0' (0 :: List.replicate 15 0xFF) (validRec + 2) 0
     layoutRefusal device i = none ∧ imageUnit i 0 = 0 ∧ (imageRec i 0).conf = true ∧ device.changes i 0 = true)
      ∧ (let i := image0' (0 :: 1 :: List.replicate 14 0xFF) validRec (1 + 4 * 2 ^ 64)
         layoutRefusal device i = none ∧ (imageRec i 1).valid = true) := by decide +kernel
theorem test_meets_LayoutEnds :
    (let i := image0' (0 :: List.replicate 15 0xFF) validRec 0
     let s := rtp fun r => { r with background := .layout i true, unitScrub := [(0, .complete)] }
     s.rtp.background = .layout i true ∧ s.rtp.error = false ∧ ((s.changed i).flatMap (s.leaving i)) = [] ∧ s.changes i 0 = true ∧ s.changes i 1 = false ∧ (imageRec i 0).valid = true)
      ∧ (let i := image0' allFree 0 0
         let s := rtp fun r => { r with background := .layout i true, unitScrub := [(0, .complete)] }
         ((s.changed i).flatMap (s.leaving i)) = [0] ∧ Tbl.get? s.rtp.unitScrub 0 = some .complete ∧ s.changes i 0 = true ∧ (imageRec i 0).valid = false) := by
  decide +kernel
theorem test_meets_PartitionResets :
    (takes (owned id) = true ∧ ownerOk (owned id) = true ∧ (owned id).start.isOn = true ∧ ((owned id).part 0).layout.valid = true
        ∧ ((owned id).part 0).scrubbing = false)
      ∧ (let s : State := { withPart fun q => { q with resetting := true } with rtp := { device.rtp with background := .reset 0 } }
         (s.rtp.background == .reset 0 && (s.part 0).resetting && (s.coresOf 0).all (fun c => (s.core c).flight.fabric.current.isNone)
           && !(s.part 0).layout.conf) = true) := by decide +kernel
theorem test_meets_ZeroizeAndScrubs :
    (takes (owned id) = true ∧ ownerOk (owned id) = true ∧ (owned id).start.isOn = true ∧ (owned id).start.present ≠ 0 ∧ (owned id).unitPresent 15 = true)
      ∧ (let s := rtp fun r => { r with unitScrub := [(0, .running)] }
         Tbl.get? s.rtp.unitScrub 0 = some .running ∧ s.rtp.background ≠ .zeroize ∧ (0 : CoreId) ∈ allCores ∧ unitOf 0 = 0) := by decide +kernel
theorem test_meets_SpdmSessions :
    takes device = true
      ∧ (let s := rtp fun r => { r with
           attestKey := some 1, spdmVersion := true, layoutImage := [0], spdm := [{ id := 1, tenant := none, key := 4 }, { id := 2, tenant := some 1, key := 5 }] }
         s.spdmUp = true ∧ s.rtp.spdmVersion = true ∧ s.isTenant 1 0 = true ∧ (∀ k, k < 16 → s.isTenant 2 k = false) ∧ s.rtp.layoutImage ≠ [] ∧ s.spdmTenant (some 1) = some none
           ∧ s.spdmTenant (some 2) = some (some 1) ∧ s.measurement none 7 ≠ none ∧ s.measurement (some 1) 7 ≠ none ∧ (s.part 0).layout.valid = true) := by decide +kernel


/-! ## The dictionary and its transports -/

/-- The device with its dictionary changed. -/
def dict (f : Dict → Dict) : State := { device with dict := f device.dict }

theorem test_meets_DictionaryReads :
    highestSub 0x0FFF = none ∧ highestSub 0x1000 = some 7 ∧ highestSub 0x2404 = some 128 ∧ (entryOf 0x1210 1).access = .wo .calibrator ∧ 1 ≤ 2 ∧ 7 < 8 := by decide +kernel
theorem test_meets_DictionaryRights :
    (entryOf 0x1000 1).access = .ro ∧ (entryOf 0x2000 1).access = .rw .operator ∧ (entryOf 0x11F0 1).access = .rtp ∧ (entryOf 0x1101 1).access = .rw .calibrator
      ∧ provisioned 0x1101 1 = true ∧ provisioned 0x2000 1 = false := by decide +kernel
theorem test_meets_DictionaryWrites :
    (highestSub 0x0FFF = none ∧ highestSub 0x2000 = some 6 ∧ device.mayWrite (.oap .observer) 0x2000 1 (entryOf 0x2000 1) = some 0x04)
      ∧ device.mayWrite (.oap .operator) 0x2000 1 (entryOf 0x2000 1) = none ∧ (entryOf 0x2000 1).len = 1
      ∧ device.refusesValue 0x2000 1 (entryOf 0x2000 1) [3] = some 0x06 ∧ device.refusesValue 0x2000 1 (entryOf 0x2000 1) [2] = none
      ∧ recordOf 0x2000 1 (entryOf 0x2000 1) [2] = some (.entry 0x2000 1 [2]) ∧ (dict fun d => { d with guardWarn := true }).guardActive = true
      ∧ device.guardActive = false ∧ (List.replicate 16 ({ rcd := .factory, origin := .command } : JournalWrite)).length = 16
      ∧ device.mayWrite (.oap .operator) 0x2000 5 (entryOf 0x2000 5) = none ∧ device.refusesValue 0x2000 5 (entryOf 0x2000 5) [2] = none
      ∧ recordOf 0x2000 5 (entryOf 0x2000 5) [2] = none := by decide +kernel
/-- The device with a certificate and an opened Calibrator session. -/
def calibrating : State :=
  dict fun d => { d with cert := some 1, sessions := [{ id := 1, role := .calibrator, proven := true, lastSeq := 0, response := none }] }
/-- Is a write of one entry such that the transport carries it and the flash must take it? -/
def flashTakes (via : Via) (s : State) (index sub : Nat) (data : List Byte) : Bool :=
  let e := entryOf index sub
  s.carries via == some none && (highestSub index).any (fun n => decide (sub ≤ n)) && (s.mayWrite via index sub e).isNone && data.length == e.len
    && (s.refusesValue index sub e data).isNone && (recordOf index sub e data).isSome && !s.guardActive && decide (s.dict.queue.length < 16)
theorem test_meets_JournalledWrites :
    State.reset.answers = false ∧ ([(0x2000, 1, [2]), (0x2000, 2, [1]), (0x2000, 3, [1]), (0x2000, 4, [0]), (0x2002, 1, [0]), (0x1101, 4, [1]),
        (0x3000, 2, leBytes 4 5000), (0x1210, 1, textFact), (0x2520, 10, [0, 0])].all fun r : Nat × Nat × List Byte => flashTakes (.oap .calibrator) calibrating r.1 r.2.1 r.2.2) = true
      ∧ flashTakes .i3c { device with start := { device.start with whey := true } } 0x2402 4 [1] = true
      ∧ State.reset.carries .i3c = none ∧ device.carries (.oap .calibrator) = some (some (dictStatus 0x0A)) ∧ calibrating.oapUp = true
      ∧ { calibrating with start := { calibrating.start with isOn := false, step := 0 } }.oapUp = false := by decide +kernel
theorem test_meets_LiveWrites :
    (let may (index sub : Nat) : Bool := (device.mayWrite .i3c index sub (entryOf index sub)).isNone
     (device.carries .i3c == some none && may 0x2000 5 && may 0x2303 2 && may 0x2503 24 && may 0x2001 2 && may 0x2402 3 && !device.restRefused) = true)
      ∧ (withPort trainedPort).carries .i3c = some none ∧ (Tbl.get? (withPort trainedPort).fabric.ports 0).isSome = true ∧ (withJob device).restRefused = true := by decide +kernel
/-- One write that waits. -/
def waitingWrite (r : JournalRecord) : JournalWrite := { rcd := r, origin := .command }
theorem test_meets_JournalStored :
    (dict fun d => { d with queue := [waitingWrite (.entry 0x2000 1 [2])] }).dict.queue = waitingWrite (.entry 0x2000 1 [2]) :: []
      ∧ device.dict.i3cNext = [] ∧ device.dict.flashAbsent = false ∧ (waitingWrite .factory).rcd = .factory ∧ (waitingWrite .wheyExit).rcd = .wheyExit := by decide +kernel
theorem test_meets_SupplyGuard :
    (device.guardActive = false ∧ device.dict.i3cNext = [] ∧ (1710 * 1000 : Int) = 1710000 + device.monitorOffset 0x3021
        ∧ 1709 * 1000 + device.monitorOffset 0x3021 < (1710000 : Int) ∧ 689 * 1000 + device.monitorOffset 0x3022 < (690000 : Int)
        ∧ device.dict.queue = [] ∧ (dict fun d => { d with queue := [waitingWrite .factory] }).dict.queue = [waitingWrite .factory])
      ∧ (let s : State := { device with start := { device.start with isOn := false, step := 5 } }
         s.starting = true ∧ s.start.step = 5 ∧ s.start.entered = false ∧ s.start.whey = false ∧ s.start.counted = false
           ∧ ({ s.start with failing := some 3 } : Start).failing = some 3)
      ∧ (dict fun d => { d with saveDue := true }).dict.saveDue = true ∧ device.dict.saveDue = false
      ∧ (device.dict.flashAbsent = false ∧ 2 ≤ device.start.step ∧ device.start.isOn = true ∧ (dict fun d => { d with guardWarn := true }).guardActive = true) := by decide +kernel
theorem test_meets_DictAccess :
    takes device = true ∧ takes (owned id) = true ∧ ownerOk (owned id) = true ∧ highestSub 0x2000 = some 6 ∧ (entryOf 0x2000 1).access ≠ .rtp
      ∧ (owned id).guardActive = false ∧ (owned id).dict.queue.length < 16 := by decide +kernel

/-- A session, and the device with it; a management certificate has been issued. -/
def session1 (proven : Bool) : OapSession := { id := 1, role := .operator, proven := proven, lastSeq := 4, response := some dictOk }
def oap (l : List OapSession) : State := dict fun d => { d with cert := some 1, sessions := l, entries := Tbl.put d.entries (entryKey 0x1101 2) (leBytes 48 9) }
def cert0 (valid : Bool) (issuer : BitVec 384) : OperatorCert := { issuerHash := issuer, serial := 1, valid := valid }
/-- A request of session 1. -/
def request (opcode : BitVec 8) (seq : BitVec 32) (tagOk : Bool) : OapRequest :=
  { source := 0x80FE, dest := 0x80FE, port := 1, version := 1, opcode := opcode, length := 1, session := 1, seq := seq, index := 0x2000, sub := 1, data := [2], tagOk := tagOk }
/-- A SESSION_OPEN of 98 bytes. -/
def opening : OapRequest := { request 3 0 true with session := 0, length := 98, data := List.replicate 98 0 }
theorem test_meets_OapSessions :
    (oapTaken (request 1 5 true) = true ∧ isLinkLocal 0x80FE = true ∧ isLinkLocal 0x80FF = false ∧ oapTaken opening = true ∧ oapMisfit opening 0x03 opening.data.length = none
        ∧ (oap []).oapSession 0 = none ∧ oapMisfit (request 4 0 true) 0x04 1 = none ∧ oapMisfit (request 5 5 true) 0x05 1 = none)
      ∧ ((oap []).oapUp = true ∧ (oap []).dict.cert.isSome = true ∧ (oap []).dict.sessions.length < 8 ∧ (cert0 true 9).valid = true ∧ (oap []).denied 1 = false
        ∧ (oap []).anchorRole (cert0 true 9) = some .operator ∧ (cert0 false 9).valid = false ∧ (oap []).anchorRole (cert0 true 8) = none)
      ∧ ((oap [session1 false]).oapSession 1 = some (session1 false) ∧ (session1 false).proven = false)
      ∧ ((oap [session1 true]).oapSession 1 = some (session1 true) ∧ (request 5 5 true).session ≠ 0 ∧ (request 5 5 true).seq = (session1 true).lastSeq + 1) := by
  decide +kernel
theorem test_meets_OapRequests :
    let s := oap [session1 true]
    s.oapUp = true ∧ s.oapSession 1 = some (session1 true) ∧ (request 1 5 false).tagOk = false ∧ (request 1 4 true).seq = (session1 true).lastSeq
      ∧ (session1 true).response = some dictOk ∧ (request 1 6 true).seq ≠ (session1 true).lastSeq ∧ (request 1 6 true).seq ≠ (session1 true).lastSeq + 1
      ∧ oapMisfit (request 1 5 true) 0x01 1 = none ∧ oapMisfit (request 9 5 true) 0x01 1 = some 6 ∧ oapMisfit (request 2 5 true) 0x02 1 = none
      ∧ (request 1 5 true).seq = (session1 true).lastSeq + 1 ∧ highestSub 0x2000 = some 6 ∧ s.mayWrite (.oap .operator) 0x2000 1 (entryOf 0x2000 1) = none
      ∧ [(2 : Byte)].length = (entryOf 0x2000 1).len ∧ s.refusesValue 0x2000 1 (entryOf 0x2000 1) [2] = none
      ∧ recordOf 0x2000 1 (entryOf 0x2000 1) [2] = some (.entry 0x2000 1 [2]) ∧ s.guardActive = false ∧ s.dict.queue.length < 16 := by decide +kernel
theorem test_meets_BundleChunks :
    (device.oapUp = true ∧ device.oapSession 0 = none ∧ device.dictNat 0x11F0 1 0 = 0
        ∧ oapTaken { request 6 0 true with session := 0, length := 9 } = true ∧ oapMisfit { request 6 0 true with length := 9 } 0x06 (8 + 1) = none)
      ∧ (let s : State := { awaiting with dict := { awaiting.dict with entries := Tbl.put (Tbl.put [] (entryKey 0x11F0 1) [1]) (entryKey 0x11F0 2) (leBytes 16 0x80FE) } }
         s.oapUp = true ∧ s.oapSession 0 = none ∧ s.dictNat 0x11F0 1 0 ≠ 0 ∧ leNat (s.stored 0x11F0 2) = (0x80FE : BitVec 128).toNat ∧ s.deviceState = some 6
           ∧ ({ s.rtp with owner := some .mailbox } : Rtp).owner = some .mailbox ∧ s.rtp.owner ≠ some .mailbox ∧ chunkReach [(0x18, [1])] 1 0 < 0x18) := by decide +kernel
theorem test_meets_I3cSideband :
    device.answers = true ∧ 255 < (List.replicate 256 (0 : Byte)).length ∧ highestSub 0x1000 = some 7 ∧ device.mayWrite .i3c 0x1000 7 (entryOf 0x1000 7) = some 0x03
      ∧ device.i3cWaits = false ∧ device.dict.i3cNext = [] ∧ (dict fun d => { d with queue := [{ rcd := .factory, origin := .i3c }] }).i3cWaits = true := by decide +kernel
theorem test_meets_Plca :
    device.plcaNode = 0 ∧ (dict fun d => { d with i3cStrap := 3 }).plcaNode = 3 := by decide +kernel


/-! ## Power -/

/-- The device with its power state changed. -/
def power (f : Power → Power) : State := { device with power := f device.power }

theorem test_meets_DozeEntry :
    ([0, 12, 14, 15, 64].all fun d => device.start.isOn && !device.power.deepRest && device.dozeEnabled && canDoze d && device.domain d == .on && domainIdle device d) = true
      ∧ (power fun p => { p with dozeOffUntilWrite := true }).dozeEnabled = false ∧ 13 % 16 = 13
      ∧ (0 : CoreId) ∈ domainCores 0 ∧ ((ctl fun k => { k with state := .halted }).core 0).ctl.state ≠ .stopped := by decide +kernel
theorem test_meets_DozeWake :
    (power fun p => { p with domains := [(0, .doze)] }).domain 0 = .doze ∧ ((ctl fun k => { k with hold := .doze 0 }).core 0).ctl.hold = .doze 0
      ∧ device.domain 0 ≠ .doze ∧ (power fun p => { p with deepRest := true, domains := [] }).domainRuns 0 = false := by decide +kernel
theorem test_meets_ThermalSteps :
    (let s := device
     s.start.refclkLocked = true ∧ s.power.tripped = false ∧ s.power.deepRest = false ∧ coreExists 0 = true ∧ s.activeIsland 0 = true
       ∧ s.throttleTemp ≤ 879 ∧ s.throttleTemp - 24 < s.throttleTemp - 1 ∧ s.throttleTemp = 760) := by decide +kernel
theorem test_meets_ThermalTrip :
    device.start.refclkLocked = true ∧ device.power.tripped = false ∧ device.power.deepRest = false ∧ coreExists 0 = true ∧ (880 : Int) ≤ 880
      ∧ device.guardActive = false ∧ (dict fun d => { d with guardAon := true }).guardActive = true := by decide +kernel
theorem test_meets_PowerLimits :
    device.start.isOn = true ∧ device.power.deepRest = false ∧ device.activeIsland 0 = true ∧ device.powerCeiling = 2400
      ∧ device.nextInDemand 0 true false [(0, 5), (1, 4)] = true ∧ device.nextInDemand 1 true false [(0, 5), (1, 4)] = false
      ∧ ((device.modIsland 0 fun i => { i with rail := 9 }).nextInDemand 0 false true []) = true := by decide +kernel
theorem test_meets_ModeChanges :
    (let s := power fun p => { p with target := some 2 }
     s.power.target = some 2 ∧ s.power.ackWaiting = [] ∧ s.power.pendingModes = [])
      ∧ (let s := power fun p => { p with target := some 1, pendingModes := [2] }
         s.power.target = some 1 ∧ s.power.ackWaiting = [] ∧ s.power.pendingModes = [2] ∧ s.start.refclkLocked = true ∧ 1 < 2)
      ∧ (let s := power fun p => { p with target := some 2, pendingModes := [0] }
         s.power.target = some 2 ∧ s.power.ackWaiting = [] ∧ s.power.pendingModes = [0] ∧ 0 < 2)
      ∧ device.power.target = none ∧ (power fun p => { p with target := some 1, ackWaiting := [3] }).power.ackWaiting ≠ [] ∧ device.answers = true := by decide +kernel
theorem test_meets_DeepRestWake :
    (power fun p => { p with oscillatorStopped := true }).power.oscillatorStopped = true
      ∧ (let s := power fun p => { p with deepRest := true, domains := [(0, .deepRest), (1, .deepRest), (81, .on)] }
         s.power.deepRest = true ∧ s.power.oscillatorStopped = false ∧ (83 : Nat) ∉ [0] ∧ s.domain 0 = .deepRest ∧ s.domain 81 ≠ .deepRest)
      ∧ (Tbl.get? (withPort trainedPort).fabric.ports 0).isSome = true := by decide +kernel
theorem test_meets_DomainSupplies :
    (let s := power fun p => { p with domains := [(81, .on)] }
     s.mayPower 0 = true ∧ s.domainUp 0 = false ∧ railsGood 0 railMinimum = true ∧ (∃ r ∈ domainRails 0, ([] : List Nat)[r]?.getD 0 < (railMinimum[r]?).getD 0))
      ∧ (5 ∉ domainRails 0 ∧ 0 ∈ domainRails 0 ∧ 579 + 20 < (railMinimum[0]?).getD 0 ∧ (railMinimum[0]?).getD 0 ≤ 580 + 20 ∧ 699 + 20 < 720)
      ∧ State.reset.start.step < 2 ∧ device.start.step ≠ 0 ∧ device.domainUp 0 = true
      ∧ (let s : State := { device with start := { device.start with isOn := false } }
         s.domainUp 0 = true ∧ s.start.isOn = false)
      ∧ (device.start.isOn = true ∧ device.power.deepRest = false ∧ isRowDomain 0 = true ∧ dieStopped device 0 = true ∧ isRowDomain 64 = false)
      ∧ dieStopped (ctl fun k => { k with state := .halted }) 0 = false := by decide +kernel

/-! ## Resets, the start, device errors -/

/-- A device in a step of its start. -/
def starting (n : Nat) (f : Start → Start) : State := { device with start := f { device.start with isOn := false, step := n } }
/-- A step that finds nothing. -/
def stepOk : StepOutcome :=
  { selfTestFailed := none, calibrationOk := true, settingsForeign := false, defects := [], damaged := [], fallback := false, bridgeLost := false
    hubLost := false, ports := [], stacksFailed := [], silentRails := []
    flash := some { bytes := 2 ^ 26, page := 256, sector := 65536, programMicros := 1000 } }
/-- Is a state in the middle of a start with the step's supplies good? -/
def inStep (s : State) (n : Nat) : Bool := s.starting && s.start.step == n && s.stepPowered n

theorem test_meets_DeviceResets :
    (starting 5 id).dict.queue = [] ∧ 5 ≤ (starting 5 id).start.step ∧ (starting 5 id).start.ended = false
      ∧ (starting 11 fun t => { t with warmPending := true }).start.warmPending = true ∧ device.start.warmPending = false := by decide +kernel
theorem test_meets_FirstSteps :
    State.reset.start.step = 0 ∧ device.start.step ≠ 0 ∧ device.starting = false ∧ inStep (starting 2 id) 2 = true ∧ inStep (starting 3 id) 3 = true
      ∧ inStep (starting 5 id) 5 = true ∧ stepOk.defects = [] ∧ flashMissing stepOk.flash = false ∧ (starting 5 id).start.entered = false ∧ (starting 5 id).start.counted = false ∧ (starting 5 id).guardActive = false
      ∧ ({ starting 5 id with dict := { device.dict with guardWarn := true } } : State).guardActive = true ∧ device.dict.flashAbsent = false
      ∧ inStep (starting 6 id) 6 = true := by decide +kernel
/-- A device whose units have all been lost. -/
def noUnits (n : Nat) : State := starting n fun t => { t with failedStacks := List.range 16 }
theorem test_meets_TestSteps :
    ([7, 8, 9, 10].all fun n => inStep (starting n id) n && !(starting n id).flashHeld && stepOk.defects.isEmpty && (starting n id).start.presentOf != 0) = true
      ∧ inStep (noUnits 7) 7 = true ∧ inStep (noUnits 8) 8 = true ∧ inStep (noUnits 10) 10 = true ∧ (noUnits 7).start.presentOf = 0
      ∧ ({ noUnits 7 with dict := { device.dict with guardWarn := true } } : State).flashHeld = true := by decide +kernel
theorem test_meets_EntersOn :
    (starting 11 id).starting = true ∧ (starting 11 id).start.step = 11 ∧ (starting 11 id).stepPowered 11 = true ∧ (starting 11 id).flashHeld = false
      ∧ ({ starting 11 id with dict := { device.dict with guardWarn := true } } : State).flashHeld = true := by decide +kernel
/-- One entry for core 0's unit. -/
def defect0 : Defect := { kind := 1, unit := 0, location := 0, point := 0 }
theorem test_meets_EyeMap :
    ((recordDefect (starting 7 id) defect0).start.defects.any fun x => eyeKey x == eyeKey (eyeEntry 1 0 0 7 0 0)) = true
      ∧ ((starting 7 id).start.defects.any fun x => eyeKey x == eyeKey (eyeEntry 1 0 0 7 0 0)) = false ∧ (starting 7 id).start.eyeMap.length < 16384 := by
  decide +kernel
/-- A full eye map. -/
def fullMap : State := starting 7 fun t => { t with eyeMap := List.replicate 16384 0 }
theorem test_meets_EyeMap_full : 16384 ≤ fullMap.start.eyeMap.length := Nat.le_of_eq (List.length_replicate ..).symm
theorem test_meets_StartTimeouts :
    (let s : State := { starting 7 id with power := { device.power with domains := [(81, .on)] } }
     s.starting = true ∧ stepNeeds 7 0 = true ∧ s.domainUp 0 = false)
      ∧ (starting 5 id).starting = true ∧ (starting 6 id).starting = true ∧ device.starting = false ∧ device.domainUp 0 = true := by decide +kernel
theorem test_meets_DeviceErrors :
    device.stewardsRun = true ∧ device.unitPart 0 = some 0 ∧ (device.part 0).resetting = false ∧ device.unitPart 1 = none ∧ device.guardActive = false := by decide +kernel
theorem test_meets_CycleCountWraps :
    (device.core 0).flight.now - (device.core 0).sys.cycZero < 2 ^ 48
      ∧ (let s := withCore fun k => { k with flight := { k.flight with now := 2 ^ 48 } }
         2 ^ 48 ≤ (s.core 0).flight.now - (s.core 0).sys.cycZero) := by decide +kernel


/-! ## What the spec's own examples and tables say -/

/-- R108: "T0 reads 0x0010, T1 reads 0x0011 and T8 reads 0x0410". -/
theorem test_default_palette :
    (Core.reset.regs.pal 0, Core.reset.regs.pal 1, Core.reset.regs.pal 8) = (0x0010, 0x0011, 0x0410) := by decide

/-- An MMT into T8–T11 with ATILE = T4, KEEP = 1 and ACC = 1. -/
def keptMmt (rows : Nat) : Nat := tileWord 0x11 8 0 1 rows 4 (1 + 2 ^ 4 + 2 ^ 8 + 2 ^ 10) 4
/-- Such an MMT at IMEM word 0 and again at word 2, its weights loaded; the first issued at core cycle 100, the second is to
issue at a later one. -/
def secondMmt (rows cycle : Nat) : State :=
  let s := withCore fun k =>
    let k := ran (keptMmt rows) k
    { k with
      ctl := { k.ctl with imem := k.ctl.imem ++ [(2, BitVec.ofNat 64 (keptMmt rows)), (3, BitVec.ofNat 64 (keptMmt rows / 2 ^ 64))] }
      regs := { k.regs with latches := { k.regs.latches with wfmt := 1, slot := .s16 } }
      flight := { k.flight with now := 100 } }
  match execMmt 0 s with
  | .next t => t.modCore 0 fun k => { k with flight := { k.flight with now := cycle } }
  | _ => s
/-- The code and the detail of the fault that an MMT raises. -/
def mmtFault (s : State) : Option (Nat × Nat) :=
  match tileMode (s.nextIssue 0) with
  | .error f => some (f.code, f.detail)
  | .ok _ => none

/-- 04, "accumulating twice into one tile set": with M = 5 the second MMT raises TSHAPE with rule BANK at cycle 105; at 106, or with a
row count of 4 or 6, it does not. -/
theorem test_bank_collision :
    issuesB (matrixRow 0x11 3 fun _ => true) 0 (secondMmt 5 105) = true ∧ mmtFault (secondMmt 5 105) = some (0x0A, 0x0D) ∧ mmtFault (secondMmt 5 106) = none
      ∧ mmtFault (secondMmt 4 104) = none ∧ mmtFault (secondMmt 6 106) = none := by decide +kernel

/-- 05, "Gathers and the fifth element": a knife gather whose element 4 lies past the segment's limit has STATUS PARTIAL, DONE 4, CAUSE
LIMIT and FAULT_INDEX the element's index. -/
theorem test_fifth_element :
    (let j := knifeJob (knifeRec 1 4 0 16 0x1000 0 0x3000 0) none
     let j := { j with tableSeg := segment 0 63 0 }
     let s : State := { knifed [j] with mem := [(0x1002, 1), (0x1004, 2), (0x1006, 3), (0x1008, 16), (0x100A, 5)] }
     match execGather 0 { noValue := none, ecc := [] } s with
     | .next t => (((t.core 0).flight.knife.jobs.head?).bind (·.outcome)).map fun o => (o.status.toNat, o.done, o.cause.toNat, o.faultIndex.toNat)
     | _ => none) = some (1, 4, 2, 16) := by decide +kernel

/-- An arrival of core 0x011 at its node. -/
def arrival11 (e : BitVec 16) : FlyingArrival := { arriving with core := 0x011, bid := 17, epoch := e, waits := false, sem := 6 }
/-- 09, "a slow member and a double entry": with epoch 0x0000 open, 0x0000 is counted, 0x0001 held as early and 0x0002 an OVERRUN; 0xFFFF,
one before the wrap, is STALE. -/
theorem test_epochs_across_the_wrap :
    ((epochClass 0x0000 0x0000, epochClass 0x0001 0x0000, epochClass 0x0002 0x0000, epochClass 0xFFFF 0x0000) = (.current, .early, .overrun, .stale))
      ∧ epochClass 0x0000 0xFFFF = .early := by decide

/-- 11, "one step record across the wrap": with 256 slots, completion 8191 goes to slot 255 with PHASE 0 and completion 8192 to slot 0 with
PHASE 1; the last bit of a record is its PHASE. -/
theorem test_phase_across_the_wrap :
    let q : Ring := { Ring.reset with cplLog2 := 4, cplNext := 8191 }
    let r := record 2 0xFFFFFFFF 1 0
    let last (n : BitVec 32) : Option Byte := (completionBytes { q with cplNext := n } r cplOk)[31]?
    (8191 % q.slots, last 8191, 8192 % q.slots, last 8192) = (255, some 0x00, 0, some 0x80)
      ∧ (completionBytes q r cplOk).take 4 = [0xFF, 0xFF, 0xFF, 0xFF] := by decide +kernel

/-- 13, the write of "FACT" that the guard meets after copy A: the new values hold and RESTORE_COUNT rises by 1; met before copy A is
done, they keep their old ones. -/
theorem test_factory_write_meets_the_guard :
    (let s := dict fun d => { d with
       entries := Tbl.put d.entries (entryKey 0x2000 1) [3], queue := [waitingWrite .factory] }
     [true, false].map fun copyA => match execSupplyGuardActivate .pwrWarn copyA s with
     | .next t => (t.dict.restoreCount - s.dict.restoreCount, t.guardActive)
     | _ => (9, false)) = [(1, true), (0, true)] := by decide +kernel

/-- 15, "a second bad core": two bad cores of row 4 of die C1 leave PRESENT_PU 0xFFDF. -/
theorem test_second_bad_core :
    let bad (col : Nat) : Defect := { kind := 3, unit := 1, location := 4 + col * 2 ^ 4, point := 0 }
    let s := recordDefect (starting 8 id) (bad 3)
    (s.start.presentOf, (recordDefect s (bad 11)).start.presentOf) = (0xFFFF, 0xFFDF) := by decide +kernel

/-- The table gives no row bits, so no word spells a command. -/
theorem test_no_word_spells_a_command : decodeTableWord 64 0xFF = none := rfl

end Sys2Proof.Tests
end

section
/-! # The scope statements of the state: memory -/

namespace Sys2Proof.Machine

/-- A byte at or above the start of the bytes written reads as the one written there, and as before past their end. -/
theorem Memory.read_writeBytes_from {m : Memory} (a : Nat) (l : List Byte) (h : m.wf = true) (i : Nat) :
    Memory.read (Memory.writeBytes m a l) (a + i) = (l[i]?).getD (Memory.read m (a + i)) := by
  by_cases hi : i < l.length
  · rw [Memory.read_writeBytes_at a l h i hi, List.getElem?_eq_getElem hi, Option.getD_some]
  · rw [Memory.read_writeBytes_other a l h _ (by omega), List.getElem?_eq_none (by omega), Option.getD_none]

/-- Settles O4: a byte below the bytes written keeps its value, and one at or above their start is `a + i`. -/
theorem memoryReadsAsWritten : Obligations.MemoryReadsAsWritten := by
  intro m a x l h
  split
  · rename_i hx
    obtain ⟨i, rfl⟩ := Nat.exists_eq_add_of_le hx
    rw [Memory.read_writeBytes_from a l h, Nat.add_sub_cancel_left]
  · exact Memory.read_writeBytes_other a l h x (by omega)

end Sys2Proof.Machine
end

section
/-! # Vector arithmetic: what the parts of a vector meaning are, stated once (R134–R140) -/

namespace Sys2Proof.Machine

/-! ## Fields of a number, and numbers packed from fields -/

/-- Bits below bit n of a number are those of the number modulo 2^n. -/
theorem bits_mod_two_pow (m : Nat) {n lo len : Nat} (h : lo + len ≤ n) : bits (m % 2 ^ n) lo len = bits m lo len := by
  refine Nat.eq_of_testBit_eq fun j => ?_
  simp only [bits, Nat.testBit_mod_two_pow, Nat.testBit_shiftRight]
  by_cases hj : j < len
  · have : lo + j < n := by omega
    simp [this]
  · simp [hj]

/-- What is added above bit k leaves the bits below. -/
theorem bits_add_two_pow_mul (a b : Nat) {k lo len : Nat} (h : lo + len ≤ k) : bits (a + 2 ^ k * b) lo len = bits a lo len := by
  rw [← bits_mod_two_pow _ h, Nat.add_mul_mod_self_left, bits_mod_two_pow _ h]

theorem bits_toNat_ofNat (m : Nat) {n lo len : Nat} (h : lo + len ≤ n) : bits (BitVec.ofNat n m).toNat lo len = bits m lo len := by
  rw [BitVec.toNat_ofNat, bits_mod_two_pow _ h]

/-- Field i of packed fields is element i, cut to its width. -/
theorem bits_packFields (w : Nat) (l : List Nat) (i : Nat) : bits (packFields w l) (w * i) w = elemAt l i % 2 ^ w := by
  induction l generalizing i with
  | nil => simp [packFields, bits, elemAt]
  | cons v t ih =>
    cases i with
    | zero => simp [packFields, bits, elemAt]
    | succ i =>
      have hdiv : (v % 2 ^ w + 2 ^ w * packFields w t) / 2 ^ w = packFields w t := by
        rw [Nat.add_mul_div_left _ _ (Nat.two_pow_pos w), Nat.div_eq_of_lt (Nat.mod_lt _ (Nat.two_pow_pos w)), Nat.zero_add]
      have hshift : packFields w (v :: t) >>> (w * (i + 1)) = packFields w t >>> (w * i) := by
        rw [Nat.mul_succ, Nat.add_comm, Nat.shiftRight_add, packFields, Nat.shiftRight_eq_div_pow _ w, hdiv]
      simpa [bits, hshift, elemAt] using ih i

/-- Field i of a register that packed fields are put into. -/
theorem bits_ofNat_packFields {n w i : Nat} (l : List Nat) (h : w * (i + 1) ≤ n) :
    bits (BitVec.ofNat n (packFields w l)).toNat (w * i) w = elemAt l i % 2 ^ w := by
  rw [bits_toNat_ofNat _ (by rw [← Nat.mul_succ]; exact h), bits_packFields]

/-! ## Lists over the elements of a register (R134, R136) -/

theorem elemAt_map_range (f : Nat → Nat) {n i : Nat} (h : i < n) : elemAt ((List.range n).map f) i = f i := by
  simp [elemAt, h]

theorem elemAt_elems (v : BitVec 2048) {s i : Nat} (h : i < vl s) : elemAt (elems v s) i = bits v.toNat (8 * s * i) (8 * s) :=
  elemAt_map_range _ h

theorem elems_four (v : BitVec 2048) : elems v 4 = (List.range 64).map fun i => bits v.toNat (32 * i) 32 := rfl

/-- Element i of the middle part of a list, which stands after b others. -/
theorem elemAt_middle (b z : Nat) (f : Nat → Nat) (t : List Nat) {n i : Nat} (h : i < n) :
    elemAt (List.replicate b z ++ (List.range n).map f ++ t) (b + i) = f i := by
  simp [elemAt, List.append_assoc, List.getElem?_append_right, List.getElem?_append_left, h]

/-- The predicate's bits beside the elements of a list over the same indices. -/
theorem activeBits_zip {α : Type} (g : CoreRegs) (w n : Nat) (f : Nat → α) :
    (activeBits g w n).zip ((List.range n).map f) = (List.range n).map fun i => ((g.readP (vPg w)).toNat.testBit i, f i) :=
  List.zip_map' ..

theorem zipIdx_map_range {α : Type} (n : Nat) (f : Nat → α) : ((List.range n).map f).zipIdx = (List.range n).map fun i => (f i, i) := by
  refine List.ext_getElem (by simp) fun i _ _ => by simp

/-- The second components at the indices whose first component holds. -/
theorem filter_fst_map_snd {α : Type} (l : List Nat) (a : Nat → Bool) (f : Nat → α) :
    ((l.map fun i => (a i, f i)).filter (·.1)).map (·.2) = (l.filter a).map f := by
  simp [List.filter_map, Function.comp_def]

/-! ## The issue of a vector instruction (R138) -/

theorem poisonV_none {g : CoreRegs} {l : List Nat} (h : ∀ r ∈ l, g.markV r = false) : poisonV g l = none := by
  simp only [poisonV, Option.map_eq_none_iff, List.find?_eq_none]
  exact fun r hr => by simp [h r hr]

/-- An instruction that issues with effect is legally encoded (R64). -/
theorem Issues.legal {r : CoreRow} {c : CoreId} {s : State} (h : Issues r c s) : r.legal (s.nextIssue c).k (s.nextIssue c).w = true := by
  have hs := h.sound
  unfold issueFault at hs
  split at hs
  · cases hs
  · split at hs
    · cases hs
    next hl =>
      rw [Bool.or_eq_true, not_or] at hl
      simpa using hl.2

/-- A vector row whose meaning answers plain acts has issued with them, its unit held for two cycles. -/
theorem issued_of_vplain {opc : Nat} {legal : Nat → Bool} {c : CoreId} {s : State} {body : Issue → Except FaultReq Effect} {reads : List Nat}
    {acts : List (Nat × Nat × Act)} (h : Issues (vectorRow opc legal) c s) (hb : body (s.nextIssue c) = .ok ((s.nextIssue c).vplain reads acts)) :
    Issued c s (issue (vectorRow opc legal) c body s) 1 2 1 acts :=
  issue_next h hb rfl rfl rfl rfl rfl rfl

/-- The same as the completion of the row's command, for acts equal to the meaning's. -/
theorem completes_of_vplain {i : Instr} {opc : Nat} {legal : Nat → Bool} {c : CoreId} {s : State} {body : Issue → Except FaultReq Effect}
    {reads : List Nat} {acts acts' : List (Nat × Nat × Act)} (hi : exec i s = issueOut (vectorRow opc legal) c body s)
    (h : Issues (vectorRow opc legal) c s) (hb : body (s.nextIssue c) = .ok ((s.nextIssue c).vplain reads acts)) (ha : acts = acts') :
    Completes i s fun t => Issued c s t 1 2 1 acts' :=
  ⟨_, hi, ha ▸ issued_of_vplain h hb⟩

end Sys2Proof.Machine
end

section
/-! # Vector FP32, widening, dot and reduction forms (R55, R56, R142–R145, R149) -/

namespace Sys2Proof.Machine

theorem any_markV_src1 (g : CoreRegs) (w : Nat) : ((src1 w).any fun r => g.markV r) = g.markV (wSrc1 w) := by
  simp [src1]

theorem any_markV_src12 (g : CoreRegs) (w : Nat) : ((src12 w).any fun r => g.markV r) = (g.markV (wSrc1 w) || g.markV (wSrc2 w)) := by
  simp [src12]

theorem any_markV_src12_dst (g : CoreRegs) (w : Nat) :
    ((src12 w ++ [wDst w]).any fun r => g.markV r) = (g.markV (wSrc1 w) || g.markV (wSrc2 w) || g.markV (wDst w)) := by
  simp [src12, Bool.or_assoc]

/-- Lane i of an FP32 form is the operation on lane i of each source. -/
theorem vecFp_ok (latency : Nat) (regs : Nat → List Nat) (f : List Nat → Nat) (x : Issue) :
    vecFp latency regs f x = .ok (x.vplain ((regs x.w).map auditV) (vResult x latency 4 (vZm x.w) (activeBits x.k.regs x.w 64)
      ((List.range 64).map fun i => f ((regs x.w).map fun r => bits (x.k.regs.readV r).toNat (32 * i) 32))
      ((regs x.w).any fun r => x.k.regs.markV r))) := by
  have hvals : (List.range 64).map (fun i => f (((regs x.w).map fun r => elems (x.k.regs.readV r) 4).map fun l => elemAt l i))
      = (List.range 64).map fun i => f ((regs x.w).map fun r => bits (x.k.regs.readV r).toNat (32 * i) 32) := by
    refine List.map_congr_left fun i hi => ?_
    simp [elemAt_elems _ (show i < vl 4 from List.mem_range.mp hi), Function.comp_def]
  simp only [vecFp, hvals]

/-- A two-operand FP32 row completes with its operation on each pair of lanes. -/
theorem completes_fp2 {i : Instr} {opc : Nat} (f : Nat → Nat → Nat) {c : CoreId} {s : State}
    (hi : exec i s = issueOut (vectorRow opc legalFp2) c (vecFp 5 src12 (onTwo f)) s) (h : Issues (vectorRow opc legalFp2) c s) :
    Completes i s fun t =>
      let x := s.nextIssue c
      let g := x.k.regs
      Issued c s t 1 2 1 (vResult x 5 4 (vZm x.w) (activeBits g x.w 64)
        ((List.range 64).map fun i => f (bits (g.readV (wSrc1 x.w)).toNat (32 * i) 32) (bits (g.readV (wSrc2 x.w)).toNat (32 * i) 32))
        (g.markV (wSrc1 x.w) || g.markV (wSrc2 x.w))) := by
  refine completes_of_vplain hi h (vecFp_ok ..) ?_
  rw [any_markV_src12]
  rfl

/-- A one-operand FP32 row completes with its operation on each lane. -/
theorem completes_fp1 {i : Instr} {opc latency : Nat} (f : Nat → Nat) {c : CoreId} {s : State}
    (hi : exec i s = issueOut (vectorRow opc legalFp1) c (vecFp latency src1 (onOne f)) s) (h : Issues (vectorRow opc legalFp1) c s) :
    Completes i s fun t =>
      let x := s.nextIssue c
      let g := x.k.regs
      Issued c s t 1 2 1 (vResult x latency 4 (vZm x.w) (activeBits g x.w 64)
        ((List.range 64).map fun i => f (bits (g.readV (wSrc1 x.w)).toNat (32 * i) 32)) (g.markV (wSrc1 x.w))) := by
  refine completes_of_vplain hi h (vecFp_ok ..) ?_
  rw [any_markV_src1]
  rfl

theorem completes_vfma {c : CoreId} {s : State} (h : Issues (vectorRow 0x23 fun w => three32 w && field32 (wSrc3 w) && fp32Form w) c s) :
    Completes (.vfma c) s fun t =>
      let x := s.nextIssue c
      let g := x.k.regs
      let lane (r i : Nat) : Nat := bits (g.readV r).toNat (32 * i) 32
      Issued c s t 1 2 1 (vResult x 5 4 (vZm x.w) (activeBits g x.w 64)
        ((List.range 64).map fun i => fmaF32 (lane (wSrc1 x.w) i) (lane (wSrc2 x.w) i) (lane (wSrc3 x.w) i))
        (g.markV (wSrc1 x.w) || g.markV (wSrc2 x.w) || g.markV (wSrc3 x.w))) := by
  refine completes_of_vplain rfl h (vecFp_ok ..) ?_
  simp only [List.any_cons, List.any_nil, Bool.or_false, Bool.or_assoc]
  rfl

theorem vectorFloat_claim : Claim.VectorFloat := by
  refine ⟨?_, ?_, fun _ _ => completes_vfma⟩
  · simp only [List.forall_mem_cons, List.not_mem_nil, false_implies, implies_true, and_true]
    exact ⟨fun _ _ h => completes_fp2 addF32 rfl h, fun _ _ h => completes_fp2 subF32 rfl h,
      fun _ _ h => completes_fp2 mulF32 rfl h, fun _ _ h => completes_fp2 minF32 rfl h, fun _ _ h => completes_fp2 maxF32 rfl h⟩
  · simp only [List.forall_mem_cons, List.not_mem_nil, false_implies, implies_true, and_true]
    exact ⟨fun _ _ h => completes_fp1 (fun a => fp32.encode (fp32.decode a).abs) rfl h,
      fun _ _ h => completes_fp1 (fun a => fp32.encode (fp32.decode a).negate) rfl h,
      fun _ _ h => completes_fp1 recipF32 rfl h, fun _ _ h => completes_fp1 rsqrtF32 rfl h, fun _ _ h => completes_fp1 expF32 rfl h⟩

/-- The lanes of a tree: the register's where the predicate is active, the neutral value elsewhere. -/
theorem vecReduce_ok (f : Nat → Nat → Nat) (neutral : Nat) (x : Issue) :
    vecReduce f neutral x = .ok (x.vplain [auditV (wSrc1 x.w)] (vWhole x 12 4 [reduceTree f ((List.range 64).map fun i =>
      if (x.k.regs.readP (vPg x.w)).toNat.testBit i then bits (x.k.regs.readV (wSrc1 x.w)).toNat (32 * i) 32 else neutral)]
      (x.k.regs.markV (wSrc1 x.w)))) := by
  have hlanes : ((activeBits x.k.regs x.w 64).zip (elems (x.k.regs.readV (wSrc1 x.w)) 4)).map (fun p => if p.1 then p.2 else neutral)
      = (List.range 64).map fun i =>
        if (x.k.regs.readP (vPg x.w)).toNat.testBit i then bits (x.k.regs.readV (wSrc1 x.w)).toNat (32 * i) 32 else neutral := by
    rw [elems_four, activeBits_zip, List.map_map]
    rfl
  simp only [vecReduce, hlanes]

/-- The sum over the elements, an inactive one entering as 0. -/
theorem vecReduceInt_ok (x : Issue) :
    vecReduceInt x = .ok (x.vplain [auditV (wSrc1 x.w)] (vWhole x 12 (vSize x.w) [((List.range (vl (vSize x.w))).map fun i =>
      if (x.k.regs.readP (vPg x.w)).toNat.testBit i then bits (x.k.regs.readV (wSrc1 x.w)).toNat (8 * vSize x.w * i) (8 * vSize x.w) else 0).sum
        % 2 ^ (8 * vSize x.w)] (x.k.regs.markV (wSrc1 x.w)))) := by
  have hsum : (((activeBits x.k.regs x.w (vl (vSize x.w))).zip (elems (x.k.regs.readV (wSrc1 x.w)) (vSize x.w))).map
        fun p => if p.1 then p.2 else 0).foldl (· + ·) 0
      = ((List.range (vl (vSize x.w))).map fun i =>
        if (x.k.regs.readP (vPg x.w)).toNat.testBit i then bits (x.k.regs.readV (wSrc1 x.w)).toNat (8 * vSize x.w * i) (8 * vSize x.w) else 0).sum := by
    rw [elems, activeBits_zip, List.map_map, List.sum_eq_foldl]
    rfl
  simp only [vecReduceInt, hsum]

theorem vectorWideDotReduce_claim : Claim.VectorWideDotReduce := by
  intro c s
  refine ⟨fun h => ?vmulw, fun h => ?vdot4, fun h => ?vdot2, ?trees, fun h => ?vredadd⟩
  case vmulw =>
    refine completes_of_vplain rfl h rfl ?_
    rw [any_markV_src12]
  case vdot4 =>
    refine completes_of_vplain rfl h rfl ?_
    rw [any_markV_src12_dst]
    rfl
  case vdot2 =>
    refine completes_of_vplain rfl h rfl ?_
    rw [any_markV_src12_dst]
    rfl
  case trees =>
    simp only [List.forall_mem_cons, List.not_mem_nil, false_implies, implies_true, and_true]
    exact ⟨fun h => completes_of_vplain rfl h (vecReduce_ok ..) rfl, fun h => completes_of_vplain rfl h (vecReduce_ok ..) rfl⟩
  case vredadd => exact completes_of_vplain rfl h (vecReduceInt_ok _) rfl

/-- Settles O14: every row's meaning is plain acts on the lanes of its sources. -/
theorem vectorFloat : Obligations.VectorFloat := ⟨vectorFloat_claim, vectorWideDotReduce_claim⟩

end Sys2Proof.Machine
end

section
/-! # Vector conversions and culture instructions (R43–R52, R146–R150) -/

namespace Sys2Proof.Machine

/-! ## VCVT: n elements of the wider format, which stand from one place of the destination on (R146) -/

/-- Is index i active under the governing predicate (R136)? -/
def vActive (x : Issue) (i : Nat) : Bool := (x.k.regs.readP (vPg x.w)).toNat.testBit i

/-- The number of elements that a VCVT converts. -/
def vcvtCount (w : Nat) : Nat := vl (max (fmtBytes (vFmt2 w)) (fmtBytes (vFmt w)))

/-- The destination element that a VCVT's element 0 goes to. -/
def vcvtFirst (w : Nat) : Nat := if fmtBytes (vFmt w) < fmtBytes (vFmt2 w) then vEsz w * vcvtCount w else 0

/-- The elements of the destination past those of a VCVT. -/
def vcvtPast (w : Nat) : Nat :=
  if fmtBytes (vFmt w) < fmtBytes (vFmt2 w) then vl (fmtBytes (vFmt w)) - (vEsz w + 1) * vcvtCount w else 0

/-- Element i of a VCVT converted (R45–R47, R147). -/
def vcvtElem (x : Issue) (i : Nat) : Converted :=
  convertFloat (floatFmt (vFmt x.w)) (convOvf (BitVec.ofNat 8 (vOpx x.w)))
    (if convRnd (BitVec.ofNat 8 (vOpx x.w)) then .stochastic ((cultAt x (vEsz x.w * vcvtCount x.w + i)).x0 % 65536) else .near)
    ((floatFmt (vFmt2 x.w)).decode (elemAt (elems (x.k.regs.readV (wSrc1 x.w)) (fmtBytes (vFmt2 x.w)))
      (if fmtBytes (vFmt x.w) < fmtBytes (vFmt2 x.w) then i else vEsz x.w * vcvtCount x.w + i)))

/-- The converted elements, each with its activity. -/
def vcvtDone (x : Issue) : List (Bool × Converted) :=
  (activeBits x.k.regs x.w (vcvtCount x.w)).zip ((List.range (vcvtCount x.w)).map (vcvtElem x))

/-- A list over a VCVT's elements at their places of the destination. -/
def vcvtPlaced {α : Type} (w : Nat) (blank : α) (l : List α) : List α :=
  List.replicate (vcvtFirst w) blank ++ l ++ List.replicate (vcvtPast w) blank

/-- The bytes that a VCVT writes. -/
def vcvtMask (x : Issue) : BitVec 256 :=
  BitVec.ofNat 256 (packFields (fmtBytes (vFmt x.w))
    ((vcvtPlaced x.w false ((activeBits x.k.regs x.w (vcvtCount x.w)).map fun a => a || vZm x.w)).map
      fun b => if b then 2 ^ fmtBytes (vFmt x.w) - 1 else 0))

/-- The value that a VCVT writes. -/
def vcvtValue (x : Issue) : BitVec 2048 :=
  BitVec.ofNat 2048 (packFields (8 * fmtBytes (vFmt x.w)) (vcvtPlaced x.w 0 ((vcvtDone x).map fun p => if p.1 then p.2.code else 0)))

/-- The X registers that a VCVT reads: the generator's parameters, under RND = 1 (R147). -/
def vcvtParams (w : Nat) : List Nat := if convRnd (BitVec.ofNat 8 (vOpx w)) then [wSrc2 w, wSrc3 w] else []

theorem vecConvert_eq (x : Issue) :
    vecConvert x = checked [poisonX x.k.regs (vcvtParams x.w), poisonV x.k.regs [wSrc1 x.w]]
      (x.vplain (auditV (wSrc1 x.w) :: (vcvtParams x.w).map auditX) ((x.now + 5, phaseResult, .wV (wDst x.w) (vcvtMask x) (vcvtValue x) false)
        :: clipActs x 5 (BitVec.ofNat 8 (vOpx x.w)) (((vcvtDone x).filter (·.1)).map (·.2)))) := rfl

theorem vcvtDone_eq (x : Issue) : vcvtDone x = (List.range (vcvtCount x.w)).map fun i => (vActive x i, vcvtElem x i) := activeBits_zip ..

/-- A VCVT on unmarked registers raises nothing, and counts its active elements. -/
theorem vecConvert_ok {x : Issue} (hv : x.k.regs.markV (wSrc1 x.w) = false)
    (hx : convRnd (BitVec.ofNat 8 (vOpx x.w)) = true → x.k.regs.markX (wSrc2 x.w) = false ∧ x.k.regs.markX (wSrc3 x.w) = false) :
    vecConvert x = .ok (x.vplain (auditV (wSrc1 x.w) :: (vcvtParams x.w).map auditX)
      ((x.now + 5, phaseResult, .wV (wDst x.w) (vcvtMask x) (vcvtValue x) false)
        :: clipActs x 5 (BitVec.ofNat 8 (vOpx x.w)) (((List.range (vcvtCount x.w)).filter (vActive x)).map (vcvtElem x)))) := by
  have hxs : poisonX x.k.regs (vcvtParams x.w) = none := by
    refine poisonX_none ?_
    unfold vcvtParams
    split
    next hr => simpa using hx hr
    next => simp
  have hvs : poisonV x.k.regs [wSrc1 x.w] = none := poisonV_none (by simpa using hv)
  rw [vecConvert_eq, checked_ok (by simp [hxs, hvs]), vcvtDone_eq, filter_fst_map_snd]

/-- The elements of a VCVT lie within the destination: its PART is below the ratio of the formats' widths. -/
theorem vcvt_within {w i : Nat} (hl : legalVcvt w = true) (hi : i < vcvtCount w) : fmtBytes (vFmt w) * (vcvtFirst w + i + 1) ≤ 256 := by
  simp only [legalVcvt, Bool.and_eq_true, decide_eq_true_eq] at hl
  obtain ⟨⟨_, hpart⟩, _⟩ := hl
  unfold vcvtFirst
  unfold vcvtCount vl at hi ⊢
  generalize fmtBytes (vFmt w) = db at *
  generalize fmtBytes (vFmt2 w) = sb at *
  split
  next hlt =>
    rw [Nat.max_eq_left (by omega)] at hi ⊢
    rw [Nat.max_eq_right (by omega), Nat.min_eq_left (by omega)] at hpart
    calc db * (vEsz w * (256 / sb) + i + 1)
      _ ≤ db * ((vEsz w + 1) * (256 / sb)) := Nat.mul_le_mul_left _ (by rw [Nat.succ_mul]; omega)
      _ ≤ db * (sb / db * (256 / sb)) := Nat.mul_le_mul_left _ (Nat.mul_le_mul_right _ hpart)
      _ = db * (sb / db) * (256 / sb) := (Nat.mul_assoc ..).symm
      _ ≤ sb * (256 / sb) := Nat.mul_le_mul_right _ (Nat.mul_div_le ..)
      _ ≤ 256 := Nat.mul_div_le ..
  next hge =>
    rw [Nat.max_eq_right (by omega)] at hi
    calc db * (0 + i + 1)
      _ ≤ db * (256 / db) := Nat.mul_le_mul_left _ (by omega)
      _ ≤ 256 := Nat.mul_div_le ..

theorem elemAt_vcvtPlaced (w : Nat) (f : Nat → Nat) {i : Nat} (hi : i < vcvtCount w) :
    elemAt (vcvtPlaced w 0 ((List.range (vcvtCount w)).map f)) (vcvtFirst w + i) = f i :=
  elemAt_middle _ _ _ _ hi

/-- A VCVT writes its active elements, and under zeroing all of them (R140). -/
theorem bits_vcvtMask {x : Issue} {i : Nat} (hl : legalVcvt x.w = true) (hi : i < vcvtCount x.w) :
    bits (vcvtMask x).toNat (fmtBytes (vFmt x.w) * (vcvtFirst x.w + i)) (fmtBytes (vFmt x.w))
      = if vActive x i || vZm x.w then 2 ^ fmtBytes (vFmt x.w) - 1 else 0 := by
  have hfields : (vcvtPlaced x.w false ((activeBits x.k.regs x.w (vcvtCount x.w)).map fun a => a || vZm x.w)).map
        (fun b => if b then 2 ^ fmtBytes (vFmt x.w) - 1 else 0)
      = vcvtPlaced x.w 0 ((List.range (vcvtCount x.w)).map fun i => if vActive x i || vZm x.w then 2 ^ fmtBytes (vFmt x.w) - 1 else 0) := by
    simp [vcvtPlaced, activeBits, vActive, Function.comp_def]
  rw [vcvtMask, bits_ofNat_packFields _ (vcvt_within hl hi), hfields, elemAt_vcvtPlaced _ _ hi]
  refine Nat.mod_eq_of_lt ?_
  have := Nat.two_pow_pos (fmtBytes (vFmt x.w))
  split <;> omega

/-- A VCVT's value at an element: its code where it is active, and zero elsewhere. -/
theorem bits_vcvtValue {x : Issue} {i : Nat} (hl : legalVcvt x.w = true) (hi : i < vcvtCount x.w) :
    bits (vcvtValue x).toNat (8 * fmtBytes (vFmt x.w) * (vcvtFirst x.w + i)) (8 * fmtBytes (vFmt x.w))
      = if vActive x i then (vcvtElem x i).code % 2 ^ (8 * fmtBytes (vFmt x.w)) else 0 := by
  have hfit : 8 * fmtBytes (vFmt x.w) * (vcvtFirst x.w + i + 1) ≤ 2048 := by
    have := vcvt_within hl hi
    rw [Nat.mul_assoc]
    omega
  rw [vcvtValue, bits_ofNat_packFields _ hfit, vcvtDone_eq, List.map_map, elemAt_vcvtPlaced _ _ hi]
  simp only [Function.comp_apply, apply_ite (· % 2 ^ (8 * fmtBytes (vFmt x.w))), Nat.zero_mod]

/-! ## VCVTQ: 64 codes packed from byte 0, and the scales of B4 from byte 32 on (R148) -/

/-- Element i of a VCVTQ converted. -/
def vcvtqElem (x : Issue) (i : Nat) : Converted :=
  cvtqElem (vFmt x.w) (convOvf (BitVec.ofNat 8 (vOpx x.w))) (elems (x.k.regs.readV (wSrc2 x.w)) 1) (i / 32)
    (bits (x.k.regs.readV (wSrc1 x.w)).toNat (32 * i) 32)

/-- The source elements of a VCVTQ, each with its activity and its index. -/
def vcvtqItems (x : Issue) : List ((Bool × Nat) × Nat) := ((activeBits x.k.regs x.w 64).zip (elems (x.k.regs.readV (wSrc1 x.w)) 4)).zipIdx

/-- The converted elements, each with its activity. -/
def vcvtqDone (x : Issue) : List (Bool × Converted) :=
  (vcvtqItems x).map fun p =>
    (p.1.1, cvtqElem (vFmt x.w) (convOvf (BitVec.ofNat 8 (vOpx x.w))) (elems (x.k.regs.readV (wSrc2 x.w)) 1) (p.2 / 32) p.1.2)

/-- The codes of the two blocks. -/
def vcvtqCodes (x : Issue) : List Nat :=
  (vcvtqDone x).zipIdx.map fun p => if p.1.1 then p.1.2.code else cvtqZero (vFmt x.w) (elems (x.k.regs.readV (wSrc2 x.w)) 1) (p.2 / 32)

/-- The scale that a B4 block gets: 255 with a NaN input (R45, R480). -/
def vcvtqScale (x : Issue) (b : Nat) : Nat :=
  if (vcvtqItems x).any fun p => p.1.1 && p.2 / 32 == b && cvtqNan (vFmt x.w) (elems (x.k.regs.readV (wSrc2 x.w)) 1) b p.1.2 then 255
  else elemAt (elems (x.k.regs.readV (wSrc2 x.w)) 1) b

/-- The scales of B4 at their bytes. -/
def vcvtqScales (x : Issue) : Nat := if vFmt x.w = 5 then vcvtqScale x 0 * 2 ^ 256 + vcvtqScale x 1 * 2 ^ 264 else 0

/-- The value that a VCVTQ writes. -/
def vcvtqValue (x : Issue) : BitVec 2048 := BitVec.ofNat 2048 (packFields (storageBits (vFmt x.w)) (vcvtqCodes x) + vcvtqScales x)

theorem vecQuantise_eq (x : Issue) :
    vecQuantise x = checked [poisonV x.k.regs [wSrc2 x.w], poisonV x.k.regs [wSrc1 x.w]]
      (x.vplain ((src12 x.w).map auditV) ((x.now + 5, phaseResult, .wV (wDst x.w) (BitVec.allOnes 256) (vcvtqValue x) false)
        :: clipActs x 5 (BitVec.ofNat 8 (vOpx x.w)) (((vcvtqDone x).filter (·.1)).map (·.2)))) := rfl

theorem vcvtqDone_eq (x : Issue) : vcvtqDone x = (List.range 64).map fun i => (vActive x i, vcvtqElem x i) := by
  rw [vcvtqDone, vcvtqItems, elems_four, activeBits_zip, zipIdx_map_range, List.map_map]
  rfl

/-- A VCVTQ on unmarked registers raises nothing, and counts its active elements. -/
theorem vecQuantise_ok {x : Issue} (h1 : x.k.regs.markV (wSrc1 x.w) = false) (h2 : x.k.regs.markV (wSrc2 x.w) = false) :
    vecQuantise x = .ok (x.vplain ((src12 x.w).map auditV)
      ((x.now + 5, phaseResult, .wV (wDst x.w) (BitVec.allOnes 256) (vcvtqValue x) false)
        :: clipActs x 5 (BitVec.ofNat 8 (vOpx x.w)) (((List.range 64).filter (vActive x)).map (vcvtqElem x)))) := by
  have hp1 : poisonV x.k.regs [wSrc1 x.w] = none := poisonV_none (by simpa using h1)
  have hp2 : poisonV x.k.regs [wSrc2 x.w] = none := poisonV_none (by simpa using h2)
  rw [vecQuantise_eq, checked_ok (by simp [hp1, hp2]), vcvtqDone_eq, filter_fst_map_snd]

/-- A code of a blocked format takes 4 or 8 bits, and one of B4 takes 4. -/
theorem storageBits_blocked {f : Nat} (h : isBlocked f = true) : storageBits f ≤ 8 ∧ (f = 5 → storageBits f = 4) := by
  have hall : ∀ f, f < 14 → isBlocked f = true → storageBits f ≤ 8 ∧ (f = 5 → storageBits f = 4) := by decide
  have hlt : f < 14 := by
    simp only [isBlocked, Bool.and_eq_true, decide_eq_true_eq] at h
    omega
  exact hall f hlt h

/-- Two fields, at bit k and m bits above it, as one number at bit k. -/
theorem mul_two_pow_add (a b k m : Nat) : a * 2 ^ k + b * 2 ^ (k + m) = 2 ^ k * (a + 2 ^ m * b) := by
  rw [Nat.pow_add, Nat.mul_add, Nat.mul_comm a, Nat.mul_comm b, Nat.mul_assoc]

/-- The scales of a VCVTQ lie past its codes. -/
theorem bits_add_vcvtqScales (x : Issue) (body : Nat) {i : Nat} (hb : isBlocked (vFmt x.w) = true) (hi : i < 64) :
    bits (body + vcvtqScales x) (storageBits (vFmt x.w) * i) (storageBits (vFmt x.w))
      = bits body (storageBits (vFmt x.w) * i) (storageBits (vFmt x.w)) := by
  unfold vcvtqScales
  split
  next h5 =>
    rw [show 264 = 256 + 8 from rfl, mul_two_pow_add, (storageBits_blocked hb).2 h5, bits_add_two_pow_mul _ _ (by omega)]
  next => rfl

/-- A VCVTQ's value at an element: its code where it is active, and its block's zero point elsewhere. -/
theorem bits_vcvtqValue {x : Issue} {i : Nat} (hb : isBlocked (vFmt x.w) = true) (hi : i < 64) :
    bits (vcvtqValue x).toNat (storageBits (vFmt x.w) * i) (storageBits (vFmt x.w))
      = (if vActive x i then (vcvtqElem x i).code else cvtqZero (vFmt x.w) (elems (x.k.regs.readV (wSrc2 x.w)) 1) (i / 32))
          % 2 ^ storageBits (vFmt x.w) := by
  have hfit : storageBits (vFmt x.w) * i + storageBits (vFmt x.w) ≤ 2048 := by
    have := Nat.mul_le_mul (storageBits_blocked hb).1 (Nat.succ_le_of_lt hi)
    rw [Nat.mul_succ] at this
    omega
  rw [vcvtqValue, bits_toNat_ofNat _ hfit, bits_add_vcvtqScales x _ hb hi, bits_packFields, vcvtqCodes, vcvtqDone_eq, zipIdx_map_range,
    List.map_map, elemAt_map_range _ hi]
  rfl

/-! ## The statement -/

/-- An instruction whose one check is that its X registers are unmarked. -/
theorem checked_poisonX {g : CoreRegs} {l : List Nat} {e : Effect} (h : ∀ r ∈ l, g.markX r = false) : checked [poisonX g l] e = .ok e :=
  checked_ok (List.forall_mem_singleton.2 (poisonX_none h))

theorem isBlocked_of_legalVcvtq {w : Nat} (h : legalVcvtq w = true) : isBlocked (vFmt w) = true := by
  simp only [legalVcvtq, Bool.and_eq_true] at h
  exact h.1.2

/-- Settles O15: the model's lists of elements are read at each element, and the generator's output is as it stands. -/
theorem vectorConversions : Obligations.VectorConversions := by
  intro c s
  refine ⟨fun h hv hx => ?vcvt, fun h h1 h2 => ?vcvtq, fun h h2 h3 => ?vcult, fun h h1 h2 h3 => ?vcultdrop⟩
  case vcvt =>
    exact ⟨_, rfl, vcvtMask _, vcvtValue _, issued_of_vplain h (vecConvert_ok hv hx), fun i hi =>
      ⟨bits_vcvtMask h.legal hi, bits_vcvtValue h.legal hi⟩⟩
  case vcvtq =>
    exact ⟨_, rfl, vcvtqValue _, issued_of_vplain h (vecQuantise_ok h1 h2), fun i hi => bits_vcvtqValue (isBlocked_of_legalVcvtq h.legal) hi⟩
  case vcult =>
    exact completes_of_vplain rfl h (checked_poisonX (List.forall_mem_cons.2 ⟨h2, List.forall_mem_singleton.2 h3⟩)) rfl
  case vcultdrop =>
    exact completes_of_vplain rfl h (checked_poisonX (List.forall_mem_cons.2 ⟨h1, List.forall_mem_cons.2 ⟨h2, List.forall_mem_singleton.2 h3⟩⟩)) rfl

end Sys2Proof.Machine
end

section
/-! # The registers and the scheduled acts (R61, R62, R78, R183) -/

namespace Sys2Proof.Machine

@[simp] theorem CoreRegs.readF_zero (g : CoreRegs) : g.readF 0 = true := by simp [CoreRegs.readF]

@[simp] theorem CoreRegs.writeF_zero (g : CoreRegs) (b : Bool) : g.writeF 0 b = g := by simp [CoreRegs.writeF]

/-- X[q] after a write to X[r]. -/
theorem CoreRegs.readX_writeX_eq (g : CoreRegs) {r : Nat} (q : Nat) (v : Word) (m : Bool) (hr : r < 32) :
    (g.writeX r v m).readX q = if q = r ∧ r ≠ 0 then v else g.readX q := by
  by_cases hq : q = r
  · subst hq
    by_cases h0 : q = 0
    · simp [h0]
    · simp [h0, CoreRegs.readX_writeX g v m h0 hr]
  · simp [hq, CoreRegs.readX_writeX_other g v m hq]

theorem hardwiredRegisters_claim : Claim.HardwiredRegisters := fun g _ q v m b hr =>
  ⟨CoreRegs.readX_writeX_eq g q v m hr, CoreRegs.readX_zero _, CoreRegs.writeX_zero g v m, CoreRegs.readF_zero _, CoreRegs.writeF_zero g b⟩

/-- With no line marked, reading the local store counts nothing. -/
theorem State.countMarked_of_unmarked {s : State} (h : s.marks = []) (c : CoreId) (a n : Nat) : s.countMarked c a n = s := by
  simp [State.countMarked, h]

theorem State.marked_of_unmarked {s : State} (h : s.marks = []) (a n : Nat) : s.marked a n = false := by
  simp [State.marked, h]

/-- A byte of memory after one run of bytes is written to a core's local store. -/
theorem State.read_storeRuns_one {s : State} (h : s.MemInv) (c : CoreId) (a : Nat) (data : List Byte) (m : Bool) (x : Nat) :
    Memory.read (s.storeRuns c [(a, data)] m).mem x =
      if lsBase c + a ≤ x ∧ x < lsBase c + a + data.length then (data[x - (lsBase c + a)]?).getD 0 else Memory.read s.mem x := by
  change Memory.read (Memory.writeBytes s.mem (lsBase c + a) data) x = _
  split
  next hx =>
    obtain ⟨i, rfl⟩ := Nat.exists_eq_add_of_le hx.1
    have hi : i < data.length := by omega
    rw [Memory.read_writeBytes_at _ data h i hi, Nat.add_sub_cancel_left, List.getElem?_eq_getElem hi, Option.getD_some]
  next hx => exact Memory.read_writeBytes_other _ data h x (by omega)

theorem scheduledActs_claim : Claim.ScheduledActs := by
  intro c s e
  refine ⟨fun r v m he => ?x, fun r v he => ?f, fun r m v k he => ?v, fun a data he hs x => ?store, fun r a he hm => ?load⟩
  case x => simp only [applyAct, he]
  case f => simp only [applyAct, he]
  case v => simp only [applyAct, he]
  case store =>
    have : applyAct c e s = s.storeRuns c [(a, data)] false := by simp only [applyAct, he]
    rw [this, State.read_storeRuns_one hs]
  case load =>
    have hact : applyAct c e s = s.schedule c (e.later [(e.cycle + 5, phaseResult, .wX r (BitVec.ofNat 64 (s.readNat (lsBase c + a) 8)) false)]) := by
      simp only [applyAct, he, State.countMarked_of_unmarked hm, State.lsBytes, State.marked_of_unmarked hm, State.readNat]
    rw [hact]
    exact ⟨rfl, by rw [State.schedule, State.core_modCore]; rfl⟩

/-- Settles O5: each register set is read as it was written, and each act is one write of a register, the store or the schedule. -/
theorem registersAndScheduledActs : Obligations.RegistersAndScheduledActs := ⟨hardwiredRegisters_claim, scheduledActs_claim⟩

end Sys2Proof.Machine
end

section
/-! # The scalar instructions: what their meanings answer (R68–R72, R78, R79) -/

namespace Sys2Proof.Machine

/-! ## Arithmetic, logic, shifts and immediates -/

/-- A row of an operation on two X registers completes with its operation's result after its latency. -/
theorem completes_binary {i : Instr} {opc latency occupancy : Nat} {f : Word → Word → Word} {c : CoreId} {s : State}
    (hi : exec i s = issueOut (scalarRow opc legalXXX) c (binary latency occupancy f) s) (h : Issues (scalarRow opc legalXXX) c s) :
    Completes i s fun t =>
      let x := s.nextIssue c
      let a := wSrc1 x.w
      let b := wSrc2 x.w
      Issued c s t 0 occupancy 1 [(x.now + latency, phaseResult,
        .wX (wDst x.w) (f (x.k.regs.readX a) (x.k.regs.readX b)) (x.k.regs.markX a || x.k.regs.markX b))] :=
  ⟨_, hi, issue_next h rfl rfl rfl rfl rfl rfl rfl⟩

/-- A row of an operation on an X register and the immediate completes with its operation's result a cycle later. -/
theorem completes_unary {i : Instr} {opc : Nat} {f : Word → Nat → Word} {c : CoreId} {s : State}
    (hi : exec i s = issueOut (scalarRow opc legalXX) c (unary f) s) (h : Issues (scalarRow opc legalXX) c s) :
    Completes i s fun t =>
      let x := s.nextIssue c
      Issued c s t 0 1 1 [(x.now + 1, phaseResult, .wX (wDst x.w) (f (x.k.regs.readX (wSrc1 x.w)) x.w) (x.k.regs.markX (wSrc1 x.w)))] :=
  ⟨_, hi, issue_next h rfl rfl rfl rfl rfl rfl rfl⟩

theorem scalarArithmetic_claim : Claim.ScalarArithmetic := by
  simp only [Claim.ScalarArithmetic, List.forall_mem_cons, List.not_mem_nil, false_implies, implies_true, and_true]
  exact ⟨fun _ _ => completes_binary (f := fun a b => a + b) rfl, fun _ _ => completes_binary (f := fun a b => a - b) rfl,
    fun _ _ => completes_binary (f := fun a b => a &&& b) rfl, fun _ _ => completes_binary (f := fun a b => a ||| b) rfl,
    fun _ _ => completes_binary (f := fun a b => a ^^^ b) rfl, fun _ _ => completes_binary (f := fun a b => a <<< shiftAmount b) rfl,
    fun _ _ => completes_binary (f := fun a b => a >>> shiftAmount b) rfl,
    fun _ _ => completes_binary (f := fun a b => a.sshiftRight (shiftAmount b)) rfl,
    fun _ _ => completes_binary (f := fun a b => a * b) rfl, fun _ _ => completes_binary (f := mulHigh) rfl,
    fun _ _ => completes_binary (f := divSigned) rfl, fun _ _ => completes_binary (f := remSigned) rfl,
    fun _ _ => completes_binary (f := divUnsigned) rfl, fun _ _ => completes_binary (f := remUnsigned) rfl⟩

theorem scalarImmediates_claim : Claim.ScalarImmediates := by
  refine ⟨?forms, fun c s h => ?movi, fun c s h => ?nop⟩
  case forms =>
    simp only [List.forall_mem_cons, List.not_mem_nil, false_implies, implies_true, and_true]
    exact ⟨fun _ _ => completes_unary (f := fun a w => a + toWord (wSimm w)) rfl, fun _ _ => completes_unary (f := fun a w => a <<< (wImm w % 64)) rfl,
      fun _ _ => completes_unary (f := fun a w => a ||| BitVec.ofNat 64 (wImm w)) rfl⟩
  case movi => exact ⟨_, rfl, issue_next h rfl rfl rfl rfl rfl rfl rfl⟩
  case nop => exact ⟨_, rfl, issue_next h rfl rfl rfl rfl rfl rfl rfl⟩

/-- Settles O6: every row's meaning is one result at its operation's latency. -/
theorem scalarOperations : Obligations.ScalarOperations := ⟨scalarArithmetic_claim, scalarImmediates_claim⟩

/-! ## CMP, MOVS, SETS, LD and ST -/

/-- The six condition codes that CMP's encoding admits name a comparison (R68). -/
theorem condition?_isSome {cc : Nat} (h : cc < 6) (a b : Word) : (condition? cc a b).isSome = true := by
  match cc, h with
  | 0, _ | 1, _ | 2, _ | 3, _ | 4, _ | 5, _ => rfl

theorem legalCmp_condition {k : Core} {w : Nat} (h : legalCmp k w = true) : wImm w % 8 < 6 := by
  simp only [legalCmp, Bool.and_eq_true, decide_eq_true_eq] at h
  exact h.2

/-- A comparison of unmarked registers under a condition code that names one is one write of the flag. -/
theorem compare_ok {x : Issue} {v : Bool} (h1 : x.k.regs.markX (wSrc1 x.w) = false) (h2 : x.k.regs.markX (wSrc2 x.w) = false)
    (hv : condition? (wImm x.w % 8) (x.k.regs.readX (wSrc1 x.w)) (x.k.regs.readX (wSrc2 x.w)) = some v) :
    compare x = .ok { x.plain with
      acts := [(x.now + 1, phaseResult, .wF (wDst x.w) v)], reads := [auditX (wSrc1 x.w), auditX (wSrc2 x.w)] } := by
  simp only [compare, Issue.x, hv, Option.getD_some]
  exact checked_poisonX (List.forall_mem_cons.2 ⟨h1, List.forall_mem_singleton.2 h2⟩)

theorem compareAndSystemRegisters_claim : Claim.CompareAndSystemRegisters := by
  refine ⟨fun c s h h1 h2 => ?cmp, fun c s h => ?movs, fun c s h h1 => ?sets⟩
  case cmp =>
    obtain ⟨v, hv⟩ := Option.isSome_iff_exists.1 (condition?_isSome (legalCmp_condition (k := (s.nextIssue c).k) h.legal)
      ((s.nextIssue c).k.regs.readX (wSrc1 (s.nextIssue c).w)) ((s.nextIssue c).k.regs.readX (wSrc2 (s.nextIssue c).w)))
    exact ⟨_, rfl, v, hv, issue_next h (compare_ok h1 h2 hv) rfl rfl rfl rfl rfl rfl⟩
  case movs =>
    have hread : (s.nextIssue c).st.corePart (s.nextIssue c).core = (s.nextIssue c).st.corePart c := by rw [State.nextIssue_core]
    exact ⟨_, rfl, hread ▸ issue_next h rfl rfl rfl rfl rfl rfl rfl⟩
  case sets => exact ⟨_, rfl, issue_next h (checked_poisonX (List.forall_mem_singleton.2 h1)) rfl rfl rfl rfl rfl rfl⟩

/-- An 8-byte access that the segment grants raises nothing, and lies at its offset in the local store (R69). -/
theorem ownWord_ok {x : Issue} {c : CoreId} {a : Word} {r : Right} {d : Nat} (hc : x.core = c) (h : x.st.ownAccess c a 8 r 8 = .ok d) :
    ownWord x a r = (none, d - lsBase c) := by
  simp only [ownWord, hc, h]

/-- A load whose checks pass is one read of the local store in the next cycle. -/
theorem scalarLoad_ok {x : Issue} {c : CoreId} {d : Nat} (hc : x.core = c) (hm : x.k.regs.markX (wSrc1 x.w) = false)
    (ha : x.st.ownAccess c (addOffset (x.k.regs.readX (wSrc1 x.w)) (wSimm x.w)) 8 .rd 8 = .ok d)
    (hp : lsPort x.k x.now [{ cycle := x.now + 1, bytes := 8, write := false }] = none) :
    scalarLoad x = .ok { x.plain with
      acts := [(x.now + 1, phaseRead, .ldRead (wDst x.w) (d - lsBase c))], reads := [auditX (wSrc1 x.w)],
      ports := [{ cycle := x.now + 1, bytes := 8, write := false }] } := by
  have hx : poisonX x.k.regs [wSrc1 x.w] = none := poisonX_none (List.forall_mem_singleton.2 hm)
  simp only [scalarLoad, Issue.x, ownWord_ok hc ha]
  exact checked_ok (by simp [hx, hp])

/-- A store whose checks pass is one write of the local store in the next cycle. -/
theorem scalarStore_ok {x : Issue} {c : CoreId} {d : Nat} (hc : x.core = c) (hm : x.k.regs.markX (wSrc1 x.w) = false)
    (hm2 : x.k.regs.markX (wSrc2 x.w) = false)
    (ha : x.st.ownAccess c (addOffset (x.k.regs.readX (wSrc1 x.w)) (wSimm x.w)) 8 .wr 8 = .ok d)
    (hp : lsPort x.k x.now [{ cycle := x.now + 1, bytes := 8, write := true }] = none) :
    scalarStore x = .ok { x.plain with
      acts := [(x.now + 1, phaseWrite, .lsWrite [(d - lsBase c, leBytes 8 (x.k.regs.readX (wSrc2 x.w)).toNat)] false)],
      reads := [auditX (wSrc1 x.w), auditX (wSrc2 x.w)], ports := [{ cycle := x.now + 1, bytes := 8, write := true }] } := by
  have hx : poisonX x.k.regs [wSrc1 x.w] = none := poisonX_none (List.forall_mem_singleton.2 hm)
  have hx2 : poisonX x.k.regs [wSrc2 x.w] = none := poisonX_none (List.forall_mem_singleton.2 hm2)
  simp only [scalarStore, Issue.x, ownWord_ok hc ha]
  exact checked_ok (by simp [hx, hx2, hp])

theorem scalarMemory_claim : Claim.ScalarMemory :=
  ⟨fun c s _ h hm ha hp => ⟨_, rfl, issue_next h (scalarLoad_ok (s.nextIssue_core c) hm ha hp) rfl rfl rfl rfl rfl rfl⟩,
    fun c s _ h hm hm2 ha hp => ⟨_, rfl, issue_next h (scalarStore_ok (s.nextIssue_core c) hm hm2 ha hp) rfl rfl rfl rfl rfl rfl⟩⟩

/-- Settles O7: on unmarked registers every row's meaning is one act in the next cycles. -/
theorem scalarFlagsSystemMemory : Obligations.ScalarFlagsSystemMemory := ⟨compareAndSystemRegisters_claim, scalarMemory_claim⟩

end Sys2Proof.Machine
end

section
/-! # Branches, SWAPI, RETT and STOP: where issue goes (R68, R76, R92, R95, R98) -/

namespace Sys2Proof.Machine

/-- A core whose next instruction has been accepted with nothing to schedule, before its flow is applied: it has counted, and
what its flow depends on is as the instruction found it (R67, R79). -/
structure Accepted (c : CoreId) (s v : State) : Prop where
  elsewhere : SameElsewhere c (s.atIssue c) v
  regs : (v.core c).regs = (s.nextIssue c).k.regs
  sched : (v.core c).flight.sched = (s.coreAtIssue c).flight.sched
  now : (v.core c).flight.now = (s.coreAtIssue c).flight.now
  count : (v.core c).sys.issueCount = (s.coreAtIssue c).sys.issueCount + 1
  epc : (v.core c).sys.epc = (s.nextIssue c).k.sys.epc
  state : (v.core c).ctl.state = .running
  pc : (v.core c).ctl.pc = (s.nextIssue c).k.ctl.pc
  half : (v.core c).ctl.half = (s.nextIssue c).k.ctl.half
  saved : (v.core c).ctl.savedLoops = (s.nextIssue c).k.ctl.savedLoops

theorem Accepted.of_beforeFlow {r : CoreRow} {c : CoreId} {s v : State} {e : Effect} (h : Issues r c s) (hb : BeforeFlow r c s v e)
    (hst : e.st = (s.nextIssue c).st) (ha : e.acts = []) : Accepted c s v := by
  obtain ⟨el, same⟩ := hb
  rw [hst] at el
  rw [hst, State.nextIssue_st_core] at same
  constructor
  · exact (s.nextIssue_st c).trans el
  · rw [same.regs]; rfl
  · rw [same.flight]; simp [Core.accept, Effect.entries, ha]
  · rw [same.flight]; simp [Core.accept]
  · rw [same.count]; simp [Core.accept, State.nextIssue_sys]
  · rw [same.epc]; rfl
  · rw [same.state]; simpa [Core.accept] using h.going
  · rw [same.pc]; rfl
  · rw [same.half]; rfl
  · rw [same.saved]; rfl

/-- An instruction that does nothing but direct issue: its flow is applied to the accepted core. -/
theorem issue_flow {r : CoreRow} {c : CoreId} {s : State} (h : Issues r c s) {body : Issue → Except FaultReq Effect} {e : Effect} {fl : Flow}
    (hb : body (s.nextIssue c) = .ok e) (hst : e.st = (s.nextIssue c).st) (hf : e.fault = none) (hfl : e.flow = fl) (ha : e.acts = []) :
    ∃ v, Accepted c s v ∧
      issue r c body s = drainEnded c (v.modCore c fun k => applyFlow (s.coreAtIssue c).ctl.pc (instrWords (s.nextWord c)) fl k) := by
  subst hfl
  obtain ⟨v, hv, heq⟩ := finishIssue_flow h (by rw [hst, State.nextIssue_st_core]) hf
  exact ⟨v, .of_beforeFlow h hv hst ha, by rw [issue_of_issues h, hb]; exact heq⟩

theorem drainEnded_running {c : CoreId} {s : State} (h : (s.core c).ctl.state = .running) : drainEnded c s = s := by
  simp only [drainEnded, h]

theorem drainEnded_waiting {c : CoreId} {s : State} (h : (s.core c).ctl.state = .waiting) : drainEnded c s = s := by
  simp only [drainEnded, h]

theorem drainEnded_stopped {c : CoreId} {s : State} (h : (s.core c).ctl.state = .stopped) : drainEnded c s = drain c s := by
  simp only [drainEnded, h]

/-- An accepted core of which a flow changes only where and when issue goes on. -/
theorem Accepted.diverted {c : CoreId} {s v : State} (h : Accepted c s v) {f : Core → Core} {cycles pc : Nat} {regs : CoreRegs}
    (hs : (f (v.core c)).flight.sched = (v.core c).flight.sched) (hr : (f (v.core c)).regs = regs) (hp : (f (v.core c)).ctl.pc = pc)
    (hn : (f (v.core c)).flight.now = (v.core c).flight.now + cycles) (hi : (f (v.core c)).sys.issueCount = (v.core c).sys.issueCount) :
    Diverted c s (v.modCore c f) cycles pc regs where
  elsewhere := h.elsewhere.trans (.modCore ..)
  sched := by rw [State.core_modCore, hs, h.sched]
  regs := by rw [State.core_modCore, hr]
  pc := by rw [State.core_modCore, hp]
  now := by rw [State.core_modCore, hn, h.now]
  count := by rw [State.core_modCore, hi, h.count]

/-- A taken branch (R76, R79). -/
theorem issue_jump {r : CoreRow} {c : CoreId} {s : State} (h : Issues r c s) {body : Issue → Except FaultReq Effect} {e : Effect} {target : Nat}
    (hb : body (s.nextIssue c) = .ok e) (hst : e.st = (s.nextIssue c).st) (hf : e.fault = none) (hfl : e.flow = .jump target) (ha : e.acts = []) :
    Diverted c s (issue r c body s) 3 target (branchLoops target (s.nextIssue c).k.regs) := by
  obtain ⟨v, hv, heq⟩ := issue_flow h hb hst hf hfl ha
  rw [heq, drainEnded_running (by rw [State.core_modCore]; exact hv.state)]
  exact hv.diverted rfl (by rw [← hv.regs]; rfl) rfl rfl rfl

/-- A conditional branch on unmarked registers. -/
theorem completes_branch {i : Instr} {opc : Nat} (holds : Word → Word → Bool) {c : CoreId} {s : State}
    (hi : exec i s = issueOut (scalarRow opc legalBranch) c (branch holds) s) (h : Issues (scalarRow opc legalBranch) c s) :
    let x := s.nextIssue c
    x.k.regs.markX (wSrc1 x.w) = false → x.k.regs.markX (wSrc2 x.w) = false →
    Completes i s fun t =>
      if holds (x.k.regs.readX (wSrc1 x.w)) (x.k.regs.readX (wSrc2 x.w)) then
        Diverted c s t 3 (wImm x.w % 16384) (branchLoops (wImm x.w % 16384) x.k.regs)
      else Issued c s t 0 1 1 [] := by
  intro x h1 h2
  have hb : branch holds x = .ok _ := checked_poisonX (List.forall_mem_cons.2 ⟨h1, List.forall_mem_singleton.2 h2⟩)
  refine ⟨_, hi, ?_⟩
  split
  next ht => exact issue_jump h hb rfl rfl (if_pos ht) rfl
  next hn => exact issue_next h hb rfl rfl (if_neg hn) rfl rfl rfl

theorem branches_claim : Claim.Branches := by
  refine ⟨fun c s h => ?always, ?conditional⟩
  case always => exact ⟨_, rfl, issue_jump h rfl rfl rfl rfl rfl⟩
  case conditional =>
    simp only [List.forall_mem_cons, List.not_mem_nil, false_implies, implies_true, and_true]
    exact ⟨fun _ _ => completes_branch (branchHolds 0x31) rfl, fun _ _ => completes_branch (branchHolds 0x32) rfl,
      fun _ _ => completes_branch (branchHolds 0x33) rfl, fun _ _ => completes_branch (branchHolds 0x34) rfl⟩

/-- A half's LOADED flag as the other half's test reads it. -/
theorem CoreCtl.loaded_not (k : CoreCtl) (half : Bool) : k.loaded (!half) = if half then k.loadedA else k.loadedB := by
  cases half <;> rfl

theorem completes_swapi {c : CoreId} {s : State} (h : Issues (scalarRow 0x41 fun _ _ => true) c s) :
    let x := s.nextIssue c
    Completes (.swapi c) s fun t =>
      if (if x.k.ctl.half then x.k.ctl.loadedA else x.k.ctl.loadedB) then
        Diverted c s t 3 (wImm x.w % 16384) (x.k.regs.exitFrom 0) ∧ (t.core c).ctl.half = !x.k.ctl.half
      else
        Diverted c s t 1 x.k.ctl.pc (x.k.regs.exitFrom 0) ∧ (t.core c).ctl.half = x.k.ctl.half ∧ (t.core c).ctl.state = .waiting
          ∧ (t.core c).ctl.hold = .swapi (BitVec.ofNat 14 (wImm x.w % 16384)) := by
  intro x
  refine ⟨_, rfl, ?_⟩
  rw [← CoreCtl.loaded_not]
  split
  next hl =>
    obtain ⟨v, hv, heq⟩ := issue_flow (body := swapHalf) h rfl rfl rfl (if_pos hl) rfl
    rw [heq, drainEnded_running (by rw [State.core_modCore]; exact hv.state)]
    exact ⟨hv.diverted rfl (by rw [← hv.regs]; rfl) rfl rfl rfl, by rw [State.core_modCore, ← hv.half]; rfl⟩
  next hl =>
    obtain ⟨v, hv, heq⟩ := issue_flow (body := swapHalf) h rfl rfl rfl (if_neg hl) rfl
    rw [heq, drainEnded_waiting (by rw [State.core_modCore]; rfl)]
    refine ⟨hv.diverted rfl (by rw [← hv.regs]; rfl) hv.pc rfl rfl, ?_, ?_, ?_⟩
    all_goals rw [State.core_modCore]
    · exact hv.half
    · rfl
    · rfl

theorem completes_rett {c : CoreId} {s : State} (h : Issues (scalarRow 0x43 fun k _ => k.ctl.handler) c s) :
    let x := s.nextIssue c
    Completes (.rett c) s fun t =>
      Diverted c s t 3 (x.k.sys.epc.toNat % 16384) { x.k.regs with loops := x.k.ctl.savedLoops }
        ∧ (t.core c).ctl.handler = false ∧ (t.core c).ctl.reissue = true := by
  intro x
  obtain ⟨v, hv, heq⟩ := issue_flow (body := fun x => .ok { x.plain with flow := .rett }) h rfl rfl rfl rfl rfl
  refine ⟨_, rfl, ?_⟩
  rw [heq, drainEnded_running (by rw [State.core_modCore]; exact hv.state)]
  refine ⟨hv.diverted rfl ?_ ?_ rfl rfl, ?_, ?_⟩
  · rw [← hv.regs, ← hv.saved]; rfl
  · rw [← hv.epc]; exact BitVec.toNat_setWidth ..
  all_goals rw [State.core_modCore]; rfl

theorem stop_ends_issue {c : CoreId} {s : State} (h : Issues (scalarRow 0x44 fun _ _ => true) c s) :
    ∃ u, SameElsewhere c (s.atIssue c) u ∧ (u.core c).ctl.state = .stopped ∧ (u.core c).flight.sched = (s.coreAtIssue c).flight.sched
      ∧ (u.core c).sys.issueCount = (s.coreAtIssue c).sys.issueCount + 1 ∧ exec (.stop c) s = .next (drain c u) := by
  obtain ⟨v, hv, heq⟩ := issue_flow (body := fun x => .ok { x.plain with flow := .stop }) h rfl rfl rfl rfl rfl
  rw [drainEnded_stopped (by rw [State.core_modCore]; rfl)] at heq
  refine ⟨_, hv.elsewhere.trans (.modCore ..), ?_, ?_, ?_, congrArg Host.Outcome.next heq⟩
  all_goals rw [State.core_modCore]
  · rfl
  · exact hv.sched
  · exact hv.count

/-- Settles O8: each of these instructions is its flow, applied to the accepted core. -/
theorem branchesAndReturns : Obligations.BranchesAndReturns :=
  ⟨branches_claim, fun _ _ => completes_swapi, fun _ _ => completes_rett, fun _ _ => stop_ends_issue⟩

end Sys2Proof.Machine
end

section
/-! # LOOP, NOPN and the ends of iterations (R68, R73–R77) -/

namespace Sys2Proof.Machine

/-! ## Immediate effects on the core that issues -/

theorem Issues.running {r : CoreRow} {c : CoreId} {s : State} (h : Issues r c s) : ((s.nextIssue c).st.core c).ctl.state = .running := by
  rw [State.nextIssue_st_core, State.nextIssue_ctl]
  exact h.going

theorem Issues.unstopped {r : CoreRow} {c : CoreId} {s : State} (h : Issues r c s) : ((s.nextIssue c).st.core c).ctl.audit ≠ 2 := by
  rw [State.nextIssue_st_core, State.nextIssue_ctl]
  exact h.audited

/-- An instruction whose immediate effect leaves the core's control block as it is, and which schedules nothing. -/
theorem issue_continues_of_ctl {r : CoreRow} {c : CoreId} {s : State} (h : Issues r c s) {body : Issue → Except FaultReq Effect} {e : Effect}
    {n : Nat} {u : State} (hb : body (s.nextIssue c) = .ok e) (hu : e.st = u) (hctl : (u.core c).ctl = ((s.nextIssue c).st.core c).ctl)
    (hf : e.fault = none) (hfl : e.flow = .next n) (ha : e.acts = []) : Continues c s u (issue r c body s) n :=
  issue_continues h hb hu (hctl ▸ h.running) (hctl ▸ h.unstopped) hf hfl ha

theorem State.ctl_modRegs (s : State) (c : CoreId) (f : CoreRegs → CoreRegs) : ((s.modRegs c f).core c).ctl = (s.core c).ctl := by
  rw [State.modRegs, State.core_modCore]

/-! ## LOOP and NOPN -/

theorem loopCountOk_iff {v : Word} : loopCountOk v = true ↔ 1 ≤ v.toNat ∧ v.toNat ≤ 2 ^ 20 := by
  rw [loopCountOk, Bool.and_eq_true, decide_eq_true_eq, decide_eq_true_eq]

/-- A LOOP whose counts, depth and ends are legal sets its levels up (R73–R75). -/
theorem setLoop_ok {x : Issue} {c : CoreId} (hc : x.core = c)
    (hl : ∀ i, i < loopDepth x.w → x.k.regs.markX (loopCountReg x.w i) = false ∧ 1 ≤ (x.k.regs.readX (loopCountReg x.w i)).toNat
      ∧ (x.k.regs.readX (loopCountReg x.w i)).toNat ≤ 2 ^ 20 ∧ x.k.ctl.pc + 2 ≤ loopEnd x.w i
      ∧ loopEnd x.w i ≤ enclosingEnd x.k.regs x.w (activeLevels x.k.regs) i)
    (hd : activeLevels x.k.regs + loopDepth x.w ≤ 4) :
    setLoop x = .ok { x.plain with
      st := x.st.modRegs c fun g => { g with loops := loopLevels g x.w (activeLevels x.k.regs) x.k.ctl.pc }
      reads := ((List.range (loopDepth x.w)).map (loopCountReg x.w)).map auditX } := by
  have hmark : poisonX x.k.regs ((List.range (loopDepth x.w)).map (loopCountReg x.w)) = none :=
    poisonX_none (by simpa using fun i hi => (hl i hi).1)
  have hcount : (((List.range (loopDepth x.w)).map (loopCountReg x.w)).all fun r => loopCountOk (x.x r)) = true := by
    simp only [List.all_map, List.all_eq_true, List.mem_range, Function.comp_apply, loopCountOk_iff, Issue.x]
    intro i hi
    obtain ⟨_, hlo, hhi, _⟩ := hl i hi
    exact ⟨hlo, hhi⟩
  have hends : ((List.range (loopDepth x.w)).all fun i => decide (x.k.ctl.pc + 2 ≤ loopEnd x.w i)
      && decide (loopEnd x.w i ≤ enclosingEnd x.k.regs x.w (activeLevels x.k.regs) i)) = true := by
    simp only [List.all_eq_true, List.mem_range, Bool.and_eq_true, decide_eq_true_eq]
    intro i hi
    obtain ⟨_, _, _, hends⟩ := hl i hi
    exact hends
  subst hc
  simp only [setLoop]
  exact checked_ok (by simp only [hmark, hcount, hends, hd, if_true]; simp)

theorem completes_loop {c : CoreId} {s : State} (h : Issues { scalarRow 0x40 (fun _ _ => true) with long := true } c s) :
    let x := s.nextIssue c
    let g := x.k.regs
    let D := activeLevels g
    (∀ i, i < loopDepth x.w → g.markX (loopCountReg x.w i) = false ∧ 1 ≤ (g.readX (loopCountReg x.w i)).toNat
      ∧ (g.readX (loopCountReg x.w i)).toNat ≤ 2 ^ 20 ∧ x.k.ctl.pc + 2 ≤ loopEnd x.w i ∧ loopEnd x.w i ≤ enclosingEnd g x.w D i) →
    D + loopDepth x.w ≤ 4 →
    Completes (.loop c) s fun t => Continues c s (x.st.modRegs c fun g => { g with loops := loopLevels g x.w D x.k.ctl.pc }) t 1 :=
  fun hl hd => ⟨_, rfl, issue_continues_of_ctl h (setLoop_ok (s.nextIssue_core c) hl hd) rfl (State.ctl_modRegs ..) rfl rfl rfl⟩

/-- A new level of a LOOP is active, at index 0 with its count. -/
theorem loopLevels_new (g : CoreRegs) (w D index : Nat) (j : Fin 4) (hlo : D ≤ j.val) (hhi : j.val < D + loopDepth w) :
    (loopLevels g w D index)[j] =
      { active := true, index := 0, count := (g.readX (loopCountReg w (j.val - D))).setWidth 21,
        endAt := BitVec.ofNat 14 (loopEnd w (j.val - D)), start := BitVec.ofNat 14 (index + 2) } := by
  simp [loopLevels, hhi, Nat.not_lt.2 hlo]

/-- What NOPN's meaning answers: its cycles but the first count as held (R462). -/
theorem nopn_effect {x : Issue} {c : CoreId} {n : Nat} (hc : x.core = c) (hn : nopCount x.w = n) :
    (.ok { x.plain with st := x.st.countPerf x.core 0x03 (nopCount x.w - 1), flow := .next (nopCount x.w) } : Except FaultReq Effect)
      = .ok { x.plain with st := x.st.countPerf c 0x03 (n - 1), flow := .next n } := by
  rw [hc, hn]

theorem completes_nopn {c : CoreId} {s : State} (h : Issues (scalarRow 0x42 fun _ w => decide (nopCount w ≠ 0)) c s) :
    Completes (.nopn c) s fun t => ∃ u, Continues c s u t (wImm (s.nextWord c) % 2 ^ 20) ∧ SameElsewhere c (s.atIssue c) u
      ∧ (u.core c).regs = (s.nextIssue c).k.regs ∧ (u.core c).flight = (s.coreAtIssue c).flight
      ∧ (u.core c).sys.issueCount = (s.coreAtIssue c).sys.issueCount + 1 := by
  have hbody := nopn_effect (s.nextIssue_core c) (congrArg nopCount (s.nextIssue_w c))
  obtain ⟨el, same⟩ := (s.nextIssue c).st.countPerf_spec c 0x03 (nopCount (s.nextWord c) - 1)
  have hrun := same.state.trans h.running
  have haud := same.audit.trans_ne h.unstopped
  generalize (s.nextIssue c).st.countPerf c 0x03 (nopCount (s.nextWord c) - 1) = u at hbody el same hrun haud
  refine ⟨_, rfl, u, issue_continues h hbody rfl hrun haud rfl rfl rfl, (s.nextIssue_st c).trans el, ?_, ?_, ?_⟩
  · rw [same.regs, State.nextIssue_st_core]
  · rw [same.flight, State.nextIssue_st_core, State.nextIssue_flight]
  · rw [same.count, State.nextIssue_st_core, State.nextIssue_sys]

theorem loopAndNopn_claim : Claim.LoopAndNopn := by
  refine ⟨fun _ _ => completes_loop, fun g w D index j hlo hhi => ?new, fun _ _ => completes_nopn⟩
  case new =>
    rw [loopLevels_new g w D index j hlo hhi]
    exact ⟨rfl, rfl, rfl⟩

/-! ## A loop-back (R74, R77) -/

/-- Level j as the loop ends test it. -/
theorem getD_loops (g : CoreRegs) (j : Fin 4) : (g.loops[j.val]?).getD .reset = g.loops[j] := by simp

/-- A level that is inactive or ends at another word ends no iteration at a word. -/
theorem LoopLevel.ends_eq_false {l : LoopLevel} {index : Nat} (h : l.active = false ∨ l.endAt.toNat ≠ index) :
    (l.active && l.endAt.toNat == index) = false := by
  obtain ha | he := h
  · simp [ha]
  · simp [he]

/-- Levels that end no iteration at a word are passed over. -/
theorem loopEnds_inner {g : CoreRegs} {index j : Nat} (n : Nat) (hn : n ≤ 4)
    (h : ∀ i : Fin 4, j < i.val → i.val < n → g.loops[i].active = false ∨ g.loops[i].endAt.toNat ≠ index) (hj : j < n) :
    loopEnds index n g = loopEnds index (j + 1) g := by
  induction n with
  | zero => omega
  | succ n ih =>
    by_cases hjn : j = n
    · rw [hjn]
    · have hlevel := h ⟨n, by omega⟩ (by simp; omega) (by simp)
      have hpass : (((g.loops[n]?).getD .reset).active && ((g.loops[n]?).getD .reset).endAt.toNat == index) = false := by
        rw [getD_loops g ⟨n, by omega⟩]
        exact LoopLevel.ends_eq_false hlevel
      rw [loopEnds]
      simp only [hpass]
      exact ih (by omega) (fun i hi hin => h i hi (by omega)) (by omega)

/-- At the end word of level j with iterations left, level j loops back. -/
theorem loopEnds_back {g : CoreRegs} {index : Nat} (j : Fin 4) (ha : g.loops[j].active = true) (he : g.loops[j].endAt.toNat = index)
    (hi : g.loops[j].index.toNat + 1 < g.loops[j].count.toNat) :
    loopEnds index (j.val + 1) g = ((g.advance j.val).loopBack j.val, some g.loops[j].start.toNat) := by
  simp only [loopEnds, getD_loops, ha, he, hi, beq_self_eq_true, Bool.and_self, if_true]

/-- The increments of a level move the bases alone. -/
theorem CoreRegs.advance_a (g : CoreRegs) (j : Fin 4) (a : Fin 16) :
    (g.advance j.val).a[a] = { g.a[a] with base := addOffset g.a[a].base (g.a[a].inc[j]).toInt } := by
  simp [CoreRegs.advance]

theorem CoreRegs.loopBack_self (g : CoreRegs) (j : Fin 4) : (g.loopBack j.val).loops[j] = { g.loops[j] with index := g.loops[j].index + 1 } := by
  simp [CoreRegs.loopBack]

theorem CoreRegs.loopBack_outer (g : CoreRegs) {i j : Fin 4} (h : i < j) : (g.loopBack j.val).loops[i] = g.loops[i] := by
  have h1 : i.val ≠ j.val := by omega
  have h2 : ¬ j < i := by omega
  simp [CoreRegs.loopBack, h1, h2]

theorem loopBack_claim : Claim.LoopBack := by
  intro g index words j ha he hin hi _
  have hends : loopEnds index 4 g = ((g.advance j.val).loopBack j.val, some g.loops[j].start.toNat) := by
    rw [loopEnds_inner 4 (by omega) (fun i hji _ => hin i hji) j.isLt, loopEnds_back j ha he hi]
  have hadv : advancePc g index words = ((g.advance j.val).loopBack j.val, g.loops[j].start.toNat) := by rw [advancePc, hends]; rfl
  have hself : ((g.advance j.val).loopBack j.val).loops[j] = { g.loops[j] with index := g.loops[j].index + 1 } := CoreRegs.loopBack_self ..
  have hbase : ∀ a : Fin 16, ((g.advance j.val).loopBack j.val).a[a] = { g.a[a] with base := addOffset g.a[a].base (g.a[a].inc[j]).toInt } :=
    g.advance_a j
  intro t
  rw [show t = _ from hadv]
  refine ⟨rfl, by rw [hself], by rw [hself]; exact ha, fun i hij => CoreRegs.loopBack_outer _ hij, fun a => ?_, rfl, rfl, rfl, rfl, rfl⟩
  rw [hbase]
  exact ⟨rfl, rfl⟩

/-- Settles O9: LOOP and NOPN are one immediate effect; a loop-back is what the innermost ending level does. -/
theorem loops : Obligations.Loops := ⟨loopAndNopn_claim, loopBack_claim⟩

end Sys2Proof.Machine
end

section
/-! # Faults and trap entry (R96–R98, R100) -/

namespace Sys2Proof.Machine

/-! ## Trap entry (R98) -/

theorem completes_trapEntry {c : CoreId} {s : State} (hh : (s.core c).ctl.hold = .trapEntry) (hs : (s.core c).ctl.state = .running)
    (hd : ((drain c s).core c).ctl.state = .running) :
    Completes (.trapEntry c) s fun t =>
      let d := drain c s
      SameElsewhere c d t ∧ (t.core c).ctl.handler = true ∧ (t.core c).ctl.hold = .none ∧ (t.core c).ctl.pc = (d.core c).sys.tvec.toNat
        ∧ (s.core c).flight.now + 1 ≤ (t.core c).flight.now ∧ (t.core c).regs = (d.core c).regs := by
  refine ⟨_, congrArg Host.Outcome.next (if_pos ⟨hh, hs⟩), ?_⟩
  simp only [enterTrap, if_pos hd, State.core_modCore]
  exact ⟨.modCore .., trivial, trivial, trivial, Nat.le_max_left .., trivial⟩

theorem trapEntry_claim : Claim.TrapEntry := fun _ _ =>
  ⟨completes_trapEntry, fun hh => congrArg Host.Outcome.next (if_neg fun h => hh h.1)⟩

/-! ## Taking a fault (R96, R98, R100) -/

/-- Outside a handler a fault is the one that is raised. -/
theorem effectiveFault_outside (f : FaultReq) : effectiveFault f false = f := by simp [effectiveFault]

/-- In a handler a TRAP fault is a DOUBLE_FAULT. -/
theorem effectiveFault_inside {f : FaultReq} (h : faultClass f.code = .trap) : effectiveFault f true = doubleFault f.code := by
  simp [effectiveFault, h]

theorem effectiveFault_halt {f : FaultReq} (h : faultClass f.code = .halt) (b : Bool) : effectiveFault f b = f := by
  simp [effectiveFault, h]

/-- The core's last fault is the one logged last, whether or not its entry is redacted (R95, R104). -/
theorem State.lastFault_logFault (s : State) (c : CoreId) (e : FaultEntry) : ((s.logFault c e).core c).ctl.lastFault = e.code := by
  unfold State.logFault
  rw [State.core_modCore]
  dsimp only
  split <;> rfl

/-- Logging a fault changes the core's log and its last fault alone. -/
theorem State.core_logFault_sys (s : State) (c : CoreId) (e : FaultEntry) : ((s.logFault c e).core c).sys = (s.core c).sys := by
  unfold State.logFault
  rw [State.core_modCore]

/-- A TRAP fault that the handler takes: EPC, CAUSE and the log are written, and issue waits for the trap entry (R98). -/
theorem takeFault_trap {c : CoreId} {f : FaultReq} {p : Place} {s : State} (hf : faultClass f.code = .trap) (hh : (s.core c).ctl.handler = false)
    (he : (s.core c).sys.trapEnable = true) :
    takeFault c f p s = ((s.modCore c fun k => { k with sys := k.sys.trapped f p }).logFault c (faultEntry f p)).modCore c fun k =>
      { k with ctl := { k.ctl with hold := .trapEntry, savedLoops := k.regs.loops } } := by
  simp only [takeFault, hh, effectiveFault_outside, hf, he, if_true]

theorem takeFault_untrapped {c : CoreId} {f : FaultReq} {p : Place} {s : State} (hf : faultClass f.code = .trap) (hh : (s.core c).ctl.handler = false)
    (he : (s.core c).sys.trapEnable = false) :
    takeFault c f p s = haltCore c f p (s.modCore c fun k => { k with sys := k.sys.trapped f p }) := by
  simp [takeFault, hh, effectiveFault_outside, hf, he]

theorem takeFault_inHandler {c : CoreId} {f : FaultReq} {p : Place} {s : State} (hf : faultClass f.code = .trap) (hh : (s.core c).ctl.handler = true) :
    takeFault c f p s = haltCore c (doubleFault f.code) p s := by
  have hclass : faultClass (doubleFault f.code).code = .halt := by rfl
  simp only [takeFault, hh, effectiveFault_inside hf, hclass]

theorem takeFault_halt {c : CoreId} {f : FaultReq} {p : Place} {s : State} (hf : faultClass f.code = .halt) :
    takeFault c f p s = haltCore c f p s := by
  simp only [takeFault, effectiveFault_halt hf, hf]

theorem takingAFault_claim : Claim.TakingAFault := by
  intro c f p s
  refine ⟨fun hf hh he => ?trap, takeFault_untrapped, takeFault_inHandler, takeFault_halt⟩
  case trap =>
    have hlog := (s.modCore c fun k => { k with sys := k.sys.trapped f p }).logFault_spec c (faultEntry f p)
    have hlast := (s.modCore c fun k => { k with sys := k.sys.trapped f p }).lastFault_logFault c (faultEntry f p)
    have hsys := (s.modCore c fun k => { k with sys := k.sys.trapped f p }).core_logFault_sys c (faultEntry f p)
    obtain ⟨el, same⟩ := hlog
    rw [takeFault_trap hf hh he]
    generalize (s.modCore c fun k => { k with sys := k.sys.trapped f p }).logFault c (faultEntry f p) = u at *
    rw [State.core_modCore] at same hsys
    simp only [State.core_modCore, hsys, same.regs, hlast]
    exact ⟨((SameElsewhere.modCore ..).trans el).trans (.modCore ..), trivial, rfl, rfl, rfl, trivial, trivial, rfl⟩

/-- Settles O10: trap entry is the drained core at TVEC, and each class of fault has its one effect. -/
theorem traps : Obligations.Traps := ⟨trapEntry_claim, takingAFault_claim⟩

end Sys2Proof.Machine
end

section
/-! # The checks before issue, a skipped instruction, the wrap of CYCLE_COUNT (R63–R67, R71, R464, R479) -/

namespace Sys2Proof.Machine

/-! ## The order of the checks (R479) -/

theorem issueFault_misaligned (r : CoreRow) {x : Issue} (hl : wLong x.w = true) (hp : x.k.ctl.pc % 2 = 1) : issueFault r x = some illAlign := by
  simp [issueFault, hl, hp]

/-- A double-word at an odd word is what the first check looks for. -/
theorem aligned_of_not {w pc : Nat} (h : ¬ (wLong w = true ∧ pc % 2 = 1)) : (wLong w && pc % 2 == 1) = false := by
  simpa [Bool.and_eq_false_iff, imp_iff_not_or] using h

theorem issueFault_reserved {r : CoreRow} {x : Issue} (ha : ¬ (wLong x.w = true ∧ x.k.ctl.pc % 2 = 1))
    (h : reservedWord x.w = true ∨ r.legal x.k x.w = false) : issueFault r x = some illegalOp := by
  have hbad : (reservedWord x.w || !r.legal x.k x.w) = true := by simpa using h
  simp [issueFault, aligned_of_not ha, hbad]

theorem issueFault_inHandler {r : CoreRow} {x : Issue} (ha : ¬ (wLong x.w = true ∧ x.k.ctl.pc % 2 = 1)) (hr : reservedWord x.w = false)
    (hl : r.legal x.k x.w = true) (h : x.k.ctl.handler = true ∧ wEng x.w = 0 ∧ (wOpc x.w = 0x40 ∨ wOpc x.w = 0x41)) :
    issueFault r x = some (doubleFault 0) := by
  obtain ⟨hh, he, ho⟩ := h
  have hop : (wOpc x.w == 0x40 || wOpc x.w == 0x41) = true := by simpa using ho
  simp [issueFault, aligned_of_not ha, hr, hl, hh, he, hop]

theorem issueFault_busy {r : CoreRow} {x : Issue} (ha : ¬ (wLong x.w = true ∧ x.k.ctl.pc % 2 = 1)) (hr : reservedWord x.w = false)
    (hl : r.legal x.k x.w = true) (hh : x.k.ctl.handler = false) (hb : x.now < (x.k.flight.busy[r.unit]?).getD 0) :
    issueFault r x = some engineBusy := by
  simp [issueFault, aligned_of_not ha, hr, hl, hh, hb]

theorem orderOfChecks_claim : Claim.OrderOfChecks := fun r _ =>
  ⟨issueFault_misaligned r, issueFault_reserved, issueFault_inHandler, issueFault_busy⟩

/-! ## A skipped instruction (R67) -/

/-- A fetched instruction whose predicate fails is skipped. -/
theorem issue_of_skipped {r : CoreRow} {c : CoreId} {s : State} (h : Fetches r c s) (body : Issue → Except FaultReq Effect)
    (hp : predHolds (s.coreAtIssue c).regs (wPred (s.nextWord c)) = false) : issue r c body s = skipIssue (s.nextIssue c) := by
  have hin : ¬ 16383 < ((runTo c (s.core c).flight.now (runTo c ((s.core c).flight.now - 1) s)).core c).ctl.pc := Nat.not_lt.2 h.inMemory
  have hmark := h.unmarked
  have howned := h.owned
  unfold State.nextWord State.coreAtIssue State.atIssue at hmark howned hp
  unfold issue
  dsimp only
  rw [if_neg (by simp [h.clocked, h.can]), if_neg (by simp [h.canBefore]), if_neg hin, hmark]
  dsimp only
  rw [if_neg (by simp [howned]), if_pos (by simp [hp])]
  rfl

theorem skippedInstruction_claim : Claim.SkippedInstruction := by
  intro r c body s h hp
  have hskip := State.countPerf_spec ((s.nextIssue c).st.modCore c fun k => applyFlow (s.nextIssue c).k.ctl.pc (instrWords (s.nextIssue c).w) (.next 1)
    { k with flight := { k.flight with seq := k.flight.seq + 1, fed := false } }) c 0x02 1
  obtain ⟨el, same⟩ := hskip
  rw [State.core_modCore] at same
  intro t
  have ht : t = State.countPerf ((s.nextIssue c).st.modCore c fun k => applyFlow (s.nextIssue c).k.ctl.pc (instrWords (s.nextIssue c).w) (.next 1)
      { k with flight := { k.flight with seq := k.flight.seq + 1, fed := false } }) c 0x02 1 := by
    rw [show t = _ from issue_of_skipped h body hp, skipIssue, State.nextIssue_core]
  rw [ht]
  refine ⟨((s.nextIssue_st c).trans (.modCore ..)).trans el, ?_, ?_, ?_, ?_, ?_⟩
  · rw [same.flight]; simp [applyFlow, State.nextIssue_st_core]
  · rw [same.flight]; simp [applyFlow, State.nextIssue_st_core]
  · rw [same.count]; simp [applyFlow, State.nextIssue_st_core, State.nextIssue_sys]
  · rw [same.regs]; simp [applyFlow, State.nextIssue_st_core]
  · rw [same.pc]; simp [applyFlow, State.nextIssue_st_core]

/-! ## CYCLE_COUNT (R464) -/

theorem cycleCountWraps_claim : Claim.CycleCountWraps := by
  intro c s
  refine ⟨fun h => congrArg Host.Outcome.next (if_pos h), fun h => ⟨_, congrArg Host.Outcome.next (if_neg (Nat.not_lt.2 h)), ?_⟩⟩
  simp only [State.core_modCore]
  exact ⟨trivial, (Nat.sub_sub ..).symm, trivial, trivial, trivial, fun d hd => s.core_modCore_other _ hd, rfl⟩

/-- Settles O11: the first check that fails names the fault; a skipped instruction is its flow alone. -/
theorem checksBeforeIssue : Obligations.ChecksBeforeIssue := ⟨orderOfChecks_claim, skippedInstruction_claim, cycleCountWraps_claim⟩

end Sys2Proof.Machine
end

section
/-! # SNQ, KNQ, SRESUME and KNRESUME (R161, R162, R169, R177, R198, R199, R207) -/

namespace Sys2Proof.Machine

/-! ## The queues of a core -/

theorem CoreFlight.stream_setIfInBounds (f : CoreFlight) {q : Nat} (hq : q < 4) (y : StreamQ) :
    ({ f with streams := f.streams.setIfInBounds q y } : CoreFlight).stream q = y := by
  simp [CoreFlight.stream, hq]

theorem State.stream_modStream (s : State) (c : CoreId) {q : Nat} (hq : q < 4) (f : StreamQ → StreamQ) :
    ((s.modStream c q f).core c).flight.stream q = f ((s.core c).flight.stream q) := by
  rw [State.modStream, State.core_modCore]
  exact CoreFlight.stream_setIfInBounds _ hq _

theorem State.knife_modKnife (s : State) (c : CoreId) (f : Knife → Knife) : ((s.modKnife c f).core c).flight.knife = f (s.core c).flight.knife := by
  rw [State.modKnife, State.core_modCore]

theorem State.ctl_modStream (s : State) (c : CoreId) (q : Nat) (f : StreamQ → StreamQ) : ((s.modStream c q f).core c).ctl = (s.core c).ctl := by
  rw [State.modStream, State.core_modCore]

theorem State.ctl_modKnife (s : State) (c : CoreId) (f : Knife → Knife) : ((s.modKnife c f).core c).ctl = (s.core c).ctl := by
  rw [State.modKnife, State.core_modCore]

theorem State.core_modStream_other (s : State) {c d : CoreId} (q : Nat) (f : StreamQ → StreamQ) (h : d ≠ c) :
    (s.modStream c q f).core d = s.core d := s.core_modCore_other _ h

theorem State.core_modKnife_other (s : State) {c d : CoreId} (f : Knife → Knife) (h : d ≠ c) : (s.modKnife c f).core d = s.core d :=
  s.core_modCore_other _ h

theorem wQueue_lt (w : Nat) : wQueue w < 4 := Nat.mod_lt _ (by omega)

/-! ## Counting the marked lines of a record (R462) -/

theorem State.countMarkedAt_mem (s : State) (c : CoreId) (a n : Nat) : (s.countMarkedAt c a n).mem = s.mem := by
  unfold State.countMarkedAt
  split
  · rfl
  · exact State.countPerf_mem ..

theorem State.core_countMarkedAt_other (s : State) {c d : CoreId} (a n : Nat) (h : d ≠ c) : (s.countMarkedAt c a n).core d = s.core d := by
  unfold State.countMarkedAt
  split
  · rfl
  · exact s.core_countPerf_other _ _ h

theorem State.countPerf_ctl (s : State) (c : CoreId) (code n : Nat) : ((s.countPerf c code n).core c).ctl = (s.core c).ctl := by
  unfold State.countPerf
  split
  · rw [State.core_modCore]
  · rfl

theorem State.countMarkedAt_ctl (s : State) (c : CoreId) (a n : Nat) : ((s.countMarkedAt c a n).core c).ctl = (s.core c).ctl := by
  unfold State.countMarkedAt
  split
  · rfl
  · exact s.countPerf_ctl ..

theorem State.countMarkedAt_flight (s : State) (c : CoreId) (a n : Nat) : ((s.countMarkedAt c a n).core c).flight = (s.core c).flight := by
  unfold State.countMarkedAt
  split
  · rfl
  · exact (s.countPerf_spec c 0x0C _).2.flight

/-! ## What has changed after the instruction -/

theorem Continues.mem {c : CoreId} {s u t : State} {n : Nat} (h : Continues c s u t n) : t.mem = u.mem := by
  rw [← h.elsewhere.device]

theorem Continues.stream {c : CoreId} {s u t : State} {n : Nat} (h : Continues c s u t n) (q : Nat) :
    (t.core c).flight.stream q = (u.core c).flight.stream q := by
  rw [CoreFlight.stream, h.jobs.1, CoreFlight.stream]

/-! ## The enqueued descriptors -/

theorem ownRecord_ok {x : Issue} {c : CoreId} {n dev : Nat} (hc : x.core = c)
    (h : x.st.ownAccess c (BitVec.ofNat 64 ((x.k.regs.readX (wSrc1 x.w)).toNat / n * n)) n .rd 1 = .ok dev) : ownRecord x n = (none, dev) := by
  simp only [ownRecord, Issue.x, hc, h]

/-- The descriptor that an SNQ enqueues: its record at a device address, its segments as they stand (R177, R199). -/
def streamJobAt (x : Issue) (c : CoreId) (dev : Nat) : StreamJob :=
  let raw := BitVec.ofNat 1024 (x.st.readNat dev 128)
  { raw := raw, record := dev, srcSeg := x.st.segOf (x.st.corePart c) (sdSrc raw), dstSeg := x.st.segOf (x.st.corePart c) (sdDst raw),
    id := x.k.flight.seq, cave := .reset, outcome := none, clips := (0, 0, 0) }

/-- The descriptor that a KNQ enqueues (R162, R177). -/
def knifeJobAt (x : Issue) (c : CoreId) (dev : Nat) : KnifeJob :=
  let raw := BitVec.ofNat 512 (x.st.readNat dev 64)
  { raw := raw, record := dev, indexSeg := x.st.segOf (x.st.corePart c) (kdIndex raw), tableSeg := x.st.segOf (x.st.corePart c) (kdTable raw),
    denseSeg := x.st.segOf (x.st.corePart c) (kdDense raw), id := x.k.flight.seq, cave := .reset, outcome := none }

/-- The state after an SNQ's effect. -/
def streamEnqueued (x : Issue) (c : CoreId) (dev : Nat) : State :=
  ((x.st.countMarkedAt c dev 128).modStream c (wQueue x.w) fun y => { y with jobs := y.jobs ++ [streamJobAt x c dev] }).touched c

/-- The state after a KNQ's effect. -/
def knifeEnqueued (x : Issue) (c : CoreId) (dev : Nat) : State :=
  ((x.st.countMarkedAt c dev 64).modKnife c fun y => { y with jobs := y.jobs ++ [knifeJobAt x c dev] }).touched c

/-- An SNQ whose record is readable and whose queue has room enqueues it. -/
theorem enqueueStream_ok {x : Issue} {c : CoreId} {dev : Nat} (hc : x.core = c) (hm : x.k.regs.markX (wSrc1 x.w) = false)
    (ha : x.st.ownAccess c (BitVec.ofNat 64 ((x.k.regs.readX (wSrc1 x.w)).toNat / 128 * 128)) 128 .rd 1 = .ok dev)
    (hroom : (x.k.flight.stream (wQueue x.w)).jobs.length < 16) :
    enqueueStream x = .ok { x.plain with reads := [auditX (wSrc1 x.w)], st := streamEnqueued x c dev } := by
  have hmark : poisonX x.k.regs [wSrc1 x.w] = none := poisonX_none (List.forall_mem_singleton.2 hm)
  have hfull : ¬ 16 ≤ (x.k.flight.stream (wQueue x.w)).jobs.length := Nat.not_le.2 hroom
  simp only [enqueueStream, ownRecord_ok hc ha, hc]
  exact checked_ok (by simp [hmark, hfull])

/-- A KNQ whose record is readable and whose queue has room enqueues it. -/
theorem enqueueKnife_ok {x : Issue} {c : CoreId} {dev : Nat} (hc : x.core = c) (hm : x.k.regs.markX (wSrc1 x.w) = false)
    (ha : x.st.ownAccess c (BitVec.ofNat 64 ((x.k.regs.readX (wSrc1 x.w)).toNat / 64 * 64)) 64 .rd 1 = .ok dev)
    (hroom : x.k.flight.knife.jobs.length < 8) :
    enqueueKnife x = .ok { x.plain with reads := [auditX (wSrc1 x.w)], st := knifeEnqueued x c dev } := by
  have hmark : poisonX x.k.regs [wSrc1 x.w] = none := poisonX_none (List.forall_mem_singleton.2 hm)
  have hfull : ¬ 8 ≤ x.k.flight.knife.jobs.length := Nat.not_le.2 hroom
  simp only [enqueueKnife, ownRecord_ok hc ha, hc]
  exact checked_ok (by simp [hmark, hfull])

/-! What an enqueue changes: the core's own queue, its performance counters, and whether its partition's boundary is stable. -/

theorem streamEnqueued_mem (x : Issue) (c : CoreId) (dev : Nat) : (streamEnqueued x c dev).mem = x.st.mem := by
  rw [streamEnqueued, State.touched_mem]
  exact State.countMarkedAt_mem ..

theorem knifeEnqueued_mem (x : Issue) (c : CoreId) (dev : Nat) : (knifeEnqueued x c dev).mem = x.st.mem := by
  rw [knifeEnqueued, State.touched_mem]
  exact State.countMarkedAt_mem ..

theorem core_streamEnqueued_other (x : Issue) {c d : CoreId} (dev : Nat) (h : d ≠ c) : (streamEnqueued x c dev).core d = x.st.core d := by
  rw [streamEnqueued, State.core_touched, State.core_modStream_other _ _ _ h, State.core_countMarkedAt_other _ _ _ h]

theorem core_knifeEnqueued_other (x : Issue) {c d : CoreId} (dev : Nat) (h : d ≠ c) : (knifeEnqueued x c dev).core d = x.st.core d := by
  rw [knifeEnqueued, State.core_touched, State.core_modKnife_other _ _ h, State.core_countMarkedAt_other _ _ _ h]

theorem streamEnqueued_ctl (x : Issue) (c : CoreId) (dev : Nat) : ((streamEnqueued x c dev).core c).ctl = (x.st.core c).ctl := by
  rw [streamEnqueued, State.core_touched, State.ctl_modStream, State.countMarkedAt_ctl]

theorem knifeEnqueued_ctl (x : Issue) (c : CoreId) (dev : Nat) : ((knifeEnqueued x c dev).core c).ctl = (x.st.core c).ctl := by
  rw [knifeEnqueued, State.core_touched, State.ctl_modKnife, State.countMarkedAt_ctl]

theorem streamEnqueued_jobs (x : Issue) (c : CoreId) (dev : Nat) :
    (((streamEnqueued x c dev).core c).flight.stream (wQueue x.w)).jobs
      = ((x.st.core c).flight.stream (wQueue x.w)).jobs ++ [streamJobAt x c dev] := by
  rw [streamEnqueued, State.core_touched, State.stream_modStream _ _ (wQueue_lt _), State.countMarkedAt_flight]

theorem knifeEnqueued_jobs (x : Issue) (c : CoreId) (dev : Nat) :
    ((knifeEnqueued x c dev).core c).flight.knife.jobs = (x.st.core c).flight.knife.jobs ++ [knifeJobAt x c dev] := by
  rw [knifeEnqueued, State.core_touched, State.knife_modKnife, State.countMarkedAt_flight]

/-- What SRESUME's meaning answers. -/
theorem sresume_effect {x : Issue} {c : CoreId} (hc : x.core = c) :
    (.ok { x.plain with st := x.st.modStream x.core (wQueue x.w) fun y => { y with resume := true } } : Except FaultReq Effect)
      = .ok { x.plain with st := x.st.modStream c (wQueue x.w) fun y => { y with resume := true } } := by
  rw [hc]

/-- What KNRESUME's meaning answers. -/
theorem knresume_effect {x : Issue} {c : CoreId} (hc : x.core = c) :
    (.ok { x.plain with st := x.st.modKnife x.core fun y => { y with resume := true } } : Except FaultReq Effect)
      = .ok { x.plain with st := x.st.modKnife c fun y => { y with resume := true } } := by
  rw [hc]

theorem enqueue_claim : Claim.Enqueue := by
  intro c s dev
  refine ⟨fun h hm ha hroom => ?snq, fun h hm ha hroom => ?knq, fun h => ?sresume, fun h => ?knresume⟩
  case snq =>
    have hcont := issue_continues_of_ctl h (enqueueStream_ok (s.nextIssue_core c) hm ha hroom) rfl (streamEnqueued_ctl ..) rfl rfl rfl
    refine ⟨_, rfl, _, streamJobAt (s.nextIssue c) c dev, hcont, hcont.mem.trans (streamEnqueued_mem ..),
      fun d hd => (hcont.elsewhere.cores d hd).trans (core_streamEnqueued_other _ _ hd), ?_, rfl, rfl, rfl, rfl, rfl, rfl⟩
    rw [hcont.stream, ← State.nextIssue_st_core]
    exact streamEnqueued_jobs ..
  case knq =>
    have hcont := issue_continues_of_ctl h (enqueueKnife_ok (s.nextIssue_core c) hm ha hroom) rfl (knifeEnqueued_ctl ..) rfl rfl rfl
    refine ⟨_, rfl, _, knifeJobAt (s.nextIssue c) c dev, hcont, hcont.mem.trans (knifeEnqueued_mem ..),
      fun d hd => (hcont.elsewhere.cores d hd).trans (core_knifeEnqueued_other _ _ hd), ?_, rfl, rfl, rfl, rfl, rfl, rfl, rfl⟩
    rw [hcont.jobs.2, ← State.nextIssue_st_core]
    exact knifeEnqueued_jobs ..
  case sresume =>
    exact ⟨_, rfl, issue_continues_of_ctl h (sresume_effect (s.nextIssue_core c)) rfl (State.ctl_modStream ..) rfl rfl rfl⟩
  case knresume =>
    exact ⟨_, rfl, issue_continues_of_ctl h (knresume_effect (s.nextIssue_core c)) rfl (State.ctl_modKnife ..) rfl rfl rfl⟩

/-- Settles O22: an enqueue and a resume are one immediate effect on the core's own queue. -/
theorem descriptorQueues : Obligations.DescriptorQueues := enqueue_claim

end Sys2Proof.Machine
end

section
/-! # What a core's cycles keep of its control block (R78, R87, R96) -/

namespace Sys2Proof.Machine

/-- What scheduled acts may not change of a control block: its half, and why issue is held, unless they end issue. -/
structure CtlKept (a b : CoreCtl) : Prop where
  half : b.half = a.half
  hold : b.hold = a.hold ∨ b.hold = .none

theorem CtlKept.refl (a : CoreCtl) : CtlKept a a := ⟨rfl, .inl rfl⟩

theorem CtlKept.of_eq {a b : CoreCtl} (h : b = a) : CtlKept a b := h ▸ .refl a

theorem CtlKept.trans {a b d : CoreCtl} (h : CtlKept a b) (h' : CtlKept b d) : CtlKept a d := by
  refine ⟨h'.half.trans h.half, ?_⟩
  obtain e | e := h'.hold
  · rw [e]; exact h.hold
  · exact .inr e

theorem CtlKept.of_same {a b : Core} (h : SameIssue a b) : CtlKept a.ctl b.ctl := ⟨h.half, .inl h.hold⟩

theorem State.ctl_schedule (s : State) (c : CoreId) (l : List Sched) : ((s.schedule c l).core c).ctl = (s.core c).ctl := by
  rw [State.schedule, State.core_modCore]

theorem State.ctl_countMarked (s : State) (c : CoreId) (a n : Nat) : ((s.countMarked c a n).core c).ctl = (s.core c).ctl := by
  unfold State.countMarked
  split
  · rfl
  · exact s.countPerf_ctl ..

theorem writeSys_ctl (k : Core) (n : Nat) (v : Word) (now : Nat) : (writeSys k n v now).ctl = k.ctl := by
  unfold writeSys; simp only [apply_ite Core.ctl, ite_self]

theorem CtlKept.auditStop (s : State) (c : CoreId) : CtlKept (s.core c).ctl ((s.auditStop c).core c).ctl := by
  rw [State.auditStop, State.core_modCore]
  split
  · exact ⟨rfl, .inr rfl⟩
  · exact .refl _

theorem CtlKept.auditRows (s : State) (c : CoreId) (e : Sched) (rows : List Nat) : CtlKept (s.core c).ctl ((s.auditRows c e rows).core c).ctl := by
  unfold State.auditRows
  dsimp only
  split
  · exact .refl _
  · split
    · exact .refl _
    · exact (CtlKept.of_same (foldl_audit_spec _ s c _ _ _ _).2).trans (.auditStop ..)

theorem CtlKept.poisonHalt (s : State) (c : CoreId) (e : Sched) (i : Nat) : CtlKept (s.core c).ctl ((s.poisonHalt c e i).core c).ctl := by
  unfold State.poisonHalt
  dsimp only
  rw [State.core_logError]
  refine CtlKept.trans ?_ (.of_same (State.logFault_spec _ c _).2)
  rw [State.core_modCore]
  dsimp only
  split
  · exact .refl _
  · exact ⟨rfl, .inr rfl⟩

theorem CtlKept.incSem (s : State) (c : CoreId) (r n : Nat) (sender : Option CoreId) (p : Place) :
    CtlKept (s.core c).ctl ((s.incSem c r n sender p).core c).ctl := by
  have hregs : ∀ f : Core → Core, (∀ k, (f k).ctl = k.ctl) → CtlKept (s.core c).ctl (((s.modCore c f).touched c).core c).ctl := fun f hf =>
    .of_eq (by rw [State.core_touched, State.core_modCore, hf])
  unfold State.incSem
  dsimp only
  split
  · exact hregs _ fun _ => rfl
  · refine CtlKept.trans ?_ (.of_same (State.logFault_spec _ c _).2)
    exact hregs _ fun _ => rfl

theorem ctl_foldl_countMarked (c : CoreId) (l : List Move) (s : State) :
    ((l.foldl (fun s m => s.countMarked c m.addr m.len) s).core c).ctl = (s.core c).ctl :=
  foldl_keeps (fun s : State => (s.core c).ctl) _ (fun s _ => s.ctl_countMarked ..) l s

theorem core_foldl_store (f : Nat → Nat) (g : Nat → List Byte) (m : Bool) (c : CoreId) (l : List Nat) (s : State) :
    (l.foldl (fun s b => s.store (f b) (g b) m) s).core c = s.core c :=
  foldl_keeps (·.core c) (fun s b => s.store (f b) (g b) m) (fun s b => State.core_store s (f b) (g b) m c) l s

/-- A scheduled act keeps the half, and the hold unless it ends issue. -/
theorem CtlKept.applyAct (c : CoreId) (e : Sched) (s : State) : CtlKept (s.core c).ctl ((applyAct c e s).core c).ctl := by
  cases hact : e.act <;> simp only [Machine.applyAct, hact]
  case wX | wF | wV | wP | wFfr | wVstart | wLatch => exact .of_eq (State.ctl_modRegs ..)
  case wSys => exact .of_eq (by rw [State.core_modCore, writeSys_ctl])
  case ldRead | tldRow => exact .of_eq (by rw [State.ctl_schedule, State.ctl_countMarked])
  case lsWrite => exact .refl _
  case vRead =>
    split
    all_goals exact .of_eq (by rw [State.ctl_schedule, ctl_foldl_countMarked])
  case wTile =>
    split
    · exact .refl _
    · exact .of_eq (State.ctl_modRegs ..)
  case tstRow =>
    split
    all_goals rw [State.ctl_schedule]; exact .auditRows ..
  case wlRows => rw [State.ctl_schedule]; exact .auditRows ..
  case mmtRow => rw [State.ctl_schedule, State.countPerf_ctl]; exact .auditRows ..
  case mmtOut =>
    rw [State.ctl_schedule]
    split
    · exact .auditRows ..
    · exact .refl _
  case mmsRow => exact .of_eq (by rw [State.ctl_schedule, State.countPerf_ctl, State.ctl_countMarked])
  case mmsOut => exact .of_eq (State.ctl_schedule ..)
  case mmsWrite =>
    split
    · exact .of_eq (by rw [core_foldl_store])
    · split
      · exact .poisonHalt ..
      · exact .of_eq (by rw [State.ctl_schedule, core_foldl_store])
  case semSet => exact .of_eq (by rw [State.core_touched, State.ctl_modRegs])
  case semInc => exact .incSem ..
  case clipInc => exact .of_eq (by rw [State.core_modCore]; rfl)
  case poisonRow => exact .poisonHalt ..

theorem CtlKept.runActs (c : CoreId) (upto : Option Nat) (fuel : Nat) (s : State) : CtlKept (s.core c).ctl ((runActs c upto fuel s).core c).ctl := by
  induction fuel generalizing s with
  | zero => exact .refl _
  | succ n ih =>
    unfold Machine.runActs
    split
    · exact .refl _
    · split
      · refine CtlKept.trans (CtlKept.trans (.of_eq ?_) (.applyAct c _ _)) (ih _)
        rw [State.core_modCore]
      · exact .refl _

/-- A core whose issue is not held is not held once it has drained. -/
theorem hold_drain {c : CoreId} {s : State} (h : (s.core c).ctl.hold = .none) : ((drain c s).core c).ctl.hold = .none := by
  obtain e | e := (CtlKept.runActs c none (schedWork (s.core c).flight.sched) s).hold
  · exact e.trans h
  · exact e

theorem half_runTo (c : CoreId) (t : Nat) (s : State) : ((runTo c t s).core c).ctl.half = (s.core c).ctl.half :=
  (CtlKept.runActs c (some t) (schedWork (s.core c).flight.sched) s).half

end Sys2Proof.Machine
end

section
/-! # Host accesses to control windows (R95, R330, R331) -/

namespace Sys2Proof.Machine

/-! ## The state in which a write to a window takes effect -/

/-- A host write has reached a core's window: its row is awake, and its partition's iron sweep is disturbed (R296, R414). -/
def State.windowOpened (s : State) (c : CoreId) : State := (wakeDomain (rowDomain c) s).disturb (s.corePart c)

theorem hostWindow_reached {port : Nat} {c : CoreId} {s : State} (h : s.reachesCore port c = true) (f : State → State) :
    hostWindow port c f s = f (s.windowOpened c) := if_pos h

theorem hostWindow_refused {port : Nat} {c : CoreId} {s : State} (h : s.reachesCore port c = false) (f : State → State) :
    hostWindow port c f s = s.missed port := if_neg (by simp [h])

@[simp] theorem State.disturb_cores (s : State) (p : Option Nat) : (s.disturb p).cores = s.cores := by cases p <;> rfl
@[simp] theorem State.disturb_mem (s : State) (p : Option Nat) : (s.disturb p).mem = s.mem := by cases p <;> rfl
@[simp] theorem State.disturb_rtp (s : State) (p : Option Nat) : (s.disturb p).rtp = s.rtp := by cases p <;> rfl
@[simp] theorem wakeDomain_rtp (d : Nat) (s : State) : (wakeDomain d s).rtp = s.rtp := by unfold wakeDomain; split <;> rfl
@[simp] theorem wakeDomain_parts (d : Nat) (s : State) : (wakeDomain d s).parts = s.parts := by unfold wakeDomain; split <;> rfl

/-- A disturbance changes the iron sweep alone. -/
theorem State.part_disturb (s : State) (p : Option Nat) (n : Nat) :
    { (s.disturb p).part n with iron := (s.part n).iron } = s.part n := by
  cases p with
  | none => rfl
  | some m =>
    by_cases h : n = m
    · subst h
      simp [State.disturb]
    · simp [State.disturb, State.part_modPart_other _ _ h]

theorem State.part_congr {s t : State} (h : t.parts = s.parts) (p : Nat) : t.part p = s.part p := by unfold State.part; rw [h]

theorem State.corePart_congr {s t : State} (h : t.rtp = s.rtp) (c : CoreId) : t.corePart c = s.corePart c := by
  unfold State.corePart State.unitPart; rw [h]

@[simp] theorem State.windowOpened_core (s : State) (c d : CoreId) : (s.windowOpened c).core d = s.core d :=
  State.core_congr (by simp [State.windowOpened]) d

@[simp] theorem State.windowOpened_mem (s : State) (c : CoreId) : (s.windowOpened c).mem = s.mem := by simp [State.windowOpened]

@[simp] theorem State.windowOpened_corePart (s : State) (c d : CoreId) : (s.windowOpened c).corePart d = s.corePart d :=
  State.corePart_congr (by simp [State.windowOpened]) d

/-- Of a partition, a write to a window changes the iron sweep alone. -/
theorem State.windowOpened_part (s : State) (c : CoreId) (p : Nat) :
    { (s.windowOpened c).part p with iron := (s.part p).iron } = s.part p := by
  have h := (wakeDomain (rowDomain c) s).part_disturb (s.corePart c) p
  rwa [State.part_congr (wakeDomain_parts _ s)] at h

theorem State.windowOpened_layout (s : State) (c : CoreId) (p : Nat) : ((s.windowOpened c).part p).layout = (s.part p).layout := by
  rw [← s.windowOpened_part c p]

theorem State.windowOpened_fatal (s : State) (c : CoreId) (p : Nat) : ((s.windowOpened c).part p).fatal = (s.part p).fatal := by
  rw [← s.windowOpened_part c p]

theorem State.windowOpened_segs (s : State) (c : CoreId) (p : Nat) : ((s.windowOpened c).part p).segs = (s.part p).segs := by
  rw [← s.windowOpened_part c p]

@[simp] theorem State.windowOpened_confidential (s : State) (c : CoreId) (p : Option Nat) :
    (s.windowOpened c).confidential p = s.confidential p := by
  cases p with
  | none => rfl
  | some n => exact congrArg PartRec.conf (s.windowOpened_layout c n)

@[simp] theorem State.windowOpened_coreFatal (s : State) (c d : CoreId) : (s.windowOpened c).coreFatal d = s.coreFatal d := by
  simp only [State.coreFatal, State.windowOpened_corePart, State.windowOpened_fatal]

theorem refusedWindows_claim : Claim.RefusedWindows := by
  intro port c half poisoned dumpLs entry index v w s missed h
  have hmiss : ∀ f : State → State, hostWindow port c f s = missed := fun f => (hostWindow_refused h f).trans rfl
  refine ⟨?writes, ?read⟩
  case writes =>
    simp only [List.forall_mem_cons, List.not_mem_nil, false_implies, implies_true, and_true]
    exact ⟨⟨_, rfl, hmiss _⟩, ⟨_, rfl, hmiss _⟩, ⟨_, rfl, hmiss _⟩, ⟨_, rfl, hmiss _⟩, ⟨_, rfl, hmiss _⟩, ⟨_, rfl, hmiss _⟩, ⟨_, rfl, hmiss _⟩⟩
  case read => exact ⟨_, if_neg (by simp [h]), rfl⟩

/-! ## CORE_CTL (R95) -/

/-- The stored fields of CORE_CTL written. -/
def State.ctlStored (s : State) (c : CoreId) (half : Bool) (entry : BitVec 14) (dumpLs : Bool) : State :=
  s.modCore c fun k => { k with ctl := { k.ctl with ctlHalf := half, ctlEntry := entry, ctlDumpLs := dumpLs } }

/-- The stored fields of a word of CORE_CTL. -/
theorem coreCtlWord_fields (k : CoreCtl) {w1 : Nat} (h : w1 = 0 ∨ w1 = 1 ∨ w1 = 17 ∨ w1 = 19) (dumpLs : Bool) :
    bit (coreCtlWord k w1 dumpLs) 2 = k.ctlHalf ∧ BitVec.ofNat 14 (bits (coreCtlWord k w1 dumpLs) 3 14) = k.ctlEntry
      ∧ bit (coreCtlWord k w1 dumpLs) 18 = dumpLs := by
  have hlt := k.ctlEntry.isLt
  have hbits : bits (coreCtlWord k w1 dumpLs) 3 14 = k.ctlEntry.toNat := by
    rw [bits, Nat.shiftRight_eq_div_pow, coreCtlWord]
    obtain rfl | rfl | rfl | rfl := h <;> split <;> split <;> omega
  refine ⟨?_, by rw [hbits, BitVec.ofNat_toNat, BitVec.setWidth_eq], ?_⟩
  all_goals
    rw [bit, Nat.testBit_eq_decide_div_mod_eq, coreCtlWord]
    obtain rfl | rfl | rfl | rfl := h <;> cases k.ctlHalf <;> cases dumpLs <;> simp <;> omega

/-- The one W1 bit of a word of CORE_CTL. -/
theorem coreCtlWord_bit (k : CoreCtl) {w1 i : Nat} (h : w1 = 0 ∨ w1 = 1 ∨ w1 = 17 ∨ w1 = 19) (hi : i = 0 ∨ i = 1 ∨ i = 17 ∨ i = 19) (dumpLs : Bool) :
    bit (coreCtlWord k w1 dumpLs) i = decide (i = w1) := by
  have hlt := k.ctlEntry.isLt
  rw [bit, Nat.testBit_eq_decide_div_mod_eq, coreCtlWord, decide_eq_decide]
  obtain rfl | rfl | rfl | rfl := h <;> obtain rfl | rfl | rfl | rfl := hi <;> split <;> split <;> omega

/-- Writes of CORE_CTL with one W1 bit: the fields are stored, then the bit's action takes place. -/
theorem writeCoreCtl_start (c : CoreId) (k : CoreCtl) (dumpLs : Bool) (s : State) :
    writeCoreCtl c (coreCtlWord k 0 dumpLs) s = startCore c k.ctlHalf k.ctlEntry (s.ctlStored c k.ctlHalf k.ctlEntry dumpLs) := by
  obtain ⟨hhalf, hentry, hdump⟩ := coreCtlWord_fields k (w1 := 0) (by simp) dumpLs
  have hbit := fun i hi => coreCtlWord_bit k (w1 := 0) (i := i) (by simp) hi dumpLs
  simp only [writeCoreCtl, hhalf, hentry, hdump, hbit 0 (by simp), hbit 1 (by simp), hbit 17 (by simp), hbit 19 (by simp)]
  rfl

theorem writeCoreCtl_stop (c : CoreId) (k : CoreCtl) (dumpLs : Bool) (s : State) :
    writeCoreCtl c (coreCtlWord k 1 dumpLs) s = stopCore c (s.ctlStored c k.ctlHalf k.ctlEntry dumpLs) := by
  obtain ⟨hhalf, hentry, hdump⟩ := coreCtlWord_fields k (w1 := 1) (by simp) dumpLs
  have hbit := fun i hi => coreCtlWord_bit k (w1 := 1) (i := i) (by simp) hi dumpLs
  simp only [writeCoreCtl, hhalf, hentry, hdump, hbit 0 (by simp), hbit 1 (by simp), hbit 17 (by simp), hbit 19 (by simp)]
  rfl

theorem writeCoreCtl_dump (c : CoreId) (k : CoreCtl) (dumpLs : Bool) (s : State) :
    writeCoreCtl c (coreCtlWord k 17 dumpLs) s = dumpCore c (s.ctlStored c k.ctlHalf k.ctlEntry dumpLs) := by
  obtain ⟨hhalf, hentry, hdump⟩ := coreCtlWord_fields k (w1 := 17) (by simp) dumpLs
  have hbit := fun i hi => coreCtlWord_bit k (w1 := 17) (i := i) (by simp) hi dumpLs
  simp only [writeCoreCtl, hhalf, hentry, hdump, hbit 0 (by simp), hbit 1 (by simp), hbit 17 (by simp), hbit 19 (by simp)]
  rfl

theorem writeCoreCtl_continue (c : CoreId) (k : CoreCtl) (dumpLs : Bool) (s : State) :
    writeCoreCtl c (coreCtlWord k 19 dumpLs) s = continueCore c (s.ctlStored c k.ctlHalf k.ctlEntry dumpLs) := by
  obtain ⟨hhalf, hentry, hdump⟩ := coreCtlWord_fields k (w1 := 19) (by simp) dumpLs
  have hbit := fun i hi => coreCtlWord_bit k (w1 := 19) (i := i) (by simp) hi dumpLs
  simp only [writeCoreCtl, hhalf, hentry, hdump, hbit 0 (by simp), hbit 1 (by simp), hbit 17 (by simp), hbit 19 (by simp)]
  rfl

/-- A host's write of CORE_CTL has reached its core and stored the fields; its action is still to come (R95). -/
structure CtlWritten (c : CoreId) (s u : State) (half : Bool) (entry : BitVec 14) (dumpLs : Bool) : Prop where
  core : u.core c = { s.core c with ctl := { (s.core c).ctl with ctlHalf := half, ctlEntry := entry, ctlDumpLs := dumpLs } }
  other : ∀ d, d ≠ c → u.core d = s.core d
  mem : u.mem = s.mem
  corePart : u.corePart c = s.corePart c
  segs : ∀ p, (u.part p).segs = (s.part p).segs
  fatal : u.coreFatal c = s.coreFatal c
  confidential : u.confidential (u.corePart c) = s.confidential (s.corePart c)

theorem State.ctlWritten (s : State) (c : CoreId) (half : Bool) (entry : BitVec 14) (dumpLs : Bool) :
    CtlWritten c s ((s.windowOpened c).ctlStored c half entry dumpLs) half entry dumpLs where
  core := by rw [State.ctlStored, State.core_modCore, State.windowOpened_core]
  other d hd := ((s.windowOpened c).core_modCore_other _ hd).trans (s.windowOpened_core c d)
  mem := s.windowOpened_mem c
  corePart := s.windowOpened_corePart c c
  segs := s.windowOpened_segs c
  fatal := s.windowOpened_coreFatal c c
  confidential := (s.windowOpened_confidential c _).trans (congrArg s.confidential (s.windowOpened_corePart c c))

/-! The host's four commands, once they have reached the window. -/

theorem exec_start {port : Nat} {c : CoreId} {s : State} (h : s.reachesCore port c = true) (half : Bool) (entry : BitVec 14) (dumpLs : Bool) :
    ∃ u, CtlWritten c s u half entry dumpLs ∧ exec (.coreCtlStart port c half entry dumpLs) s = .next (startCore c half entry u) :=
  ⟨_, s.ctlWritten .., congrArg Host.Outcome.next ((hostWindow_reached h _).trans
    (writeCoreCtl_start c { (s.core c).ctl with ctlHalf := half, ctlEntry := entry } dumpLs _))⟩

theorem exec_stop {port : Nat} {c : CoreId} {s : State} (h : s.reachesCore port c = true) :
    ∃ u, CtlWritten c s u (s.core c).ctl.ctlHalf (s.core c).ctl.ctlEntry (s.core c).ctl.ctlDumpLs
      ∧ exec (.coreCtlStop port c) s = .next (stopCore c u) :=
  ⟨_, s.ctlWritten .., congrArg Host.Outcome.next ((hostWindow_reached h _).trans (by rw [writeCoreCtl_stop, State.windowOpened_core]))⟩

theorem exec_dump {port : Nat} {c : CoreId} {s : State} (h : s.reachesCore port c = true) (dumpLs : Bool) :
    ∃ u, CtlWritten c s u (s.core c).ctl.ctlHalf (s.core c).ctl.ctlEntry dumpLs ∧ exec (.coreCtlDump port c dumpLs) s = .next (dumpCore c u) :=
  ⟨_, s.ctlWritten .., congrArg Host.Outcome.next ((hostWindow_reached h _).trans (by rw [writeCoreCtl_dump, State.windowOpened_core]))⟩

theorem exec_continue {port : Nat} {c : CoreId} {s : State} (h : s.reachesCore port c = true) :
    ∃ u, CtlWritten c s u (s.core c).ctl.ctlHalf (s.core c).ctl.ctlEntry (s.core c).ctl.ctlDumpLs
      ∧ exec (.coreCtlContinue port c) s = .next (continueCore c u) :=
  ⟨_, s.ctlWritten .., congrArg Host.Outcome.next ((hostWindow_reached h _).trans (by rw [writeCoreCtl_continue, State.windowOpened_core]))⟩

/-! ## START (R95) -/

/-- A START that a core takes: it begins at the entry, or waits for the half to be loaded. -/
def startedCore (k : Core) (half : Bool) (entry : BitVec 14) (audit : Nat) : Core :=
  { k with
    sys := { k.sys with issueCount := 0 }
    flight := { k.flight with answer := none, fed := false }
    ctl := { k.ctl with
      half := half, pc := entry.toNat, heldAt := entry, reissue := false, audit := audit
      state := if k.ctl.loaded half then .running else .waiting
      hold := if k.ctl.loaded half then .none else .start half entry } }

theorem startedCore_state (k : Core) (half : Bool) (entry : BitVec 14) (audit : Nat) :
    let u := startedCore k half entry audit
    if k.ctl.loaded half then u.ctl.state = .running ∧ u.ctl.hold = .none else u.ctl.state = .waiting ∧ u.ctl.hold = .start half entry := by
  dsimp only
  split
  next hl => exact ⟨if_pos hl, if_pos hl⟩
  next hl => exact ⟨if_neg hl, if_neg hl⟩

theorem startCore_stopped {c : CoreId} {s : State} (half : Bool) (entry : BitVec 14) (hs : (s.core c).ctl.state = .stopped)
    (hr : (s.core c).flight.resetting = false) (hf : s.coreFatal c = false) :
    startCore c half entry s = s.setCore c (startedCore (s.core c) half entry (s.auditMode c)) := by
  simp only [startCore, hs, hr, hf]
  rfl

theorem startCore_ignored {c : CoreId} {s : State} (half : Bool) (entry : BitVec 14)
    (h : ¬ ((s.core c).ctl.state = .stopped ∧ (s.core c).flight.resetting = false ∧ s.coreFatal c = false)) : startCore c half entry s = s := by
  refine if_pos ?_
  by_cases hs : (s.core c).ctl.state = .stopped
  · by_cases hr : (s.core c).flight.resetting = true
    · exact .inr (.inl hr)
    · exact .inr (.inr (by simpa using fun hf => h ⟨hs, by simpa using hr, hf⟩))
  · exact .inl hs

theorem coreStart_claim : Claim.CoreStart := by
  intro port c half dumpLs entry s h k
  obtain ⟨u, hu, hexec⟩ := exec_start h half entry dumpLs
  refine ⟨_, hexec, ?_⟩
  have hcore : u.core c = { k with ctl := { k.ctl with ctlHalf := half, ctlEntry := entry, ctlDumpLs := dumpLs } } := hu.core
  by_cases hgo : k.ctl.state = .stopped ∧ k.flight.resetting = false ∧ s.coreFatal c = false
  · obtain ⟨hs, hr, hf⟩ := hgo
    rw [startCore_stopped half entry (by rw [hcore]; exact hs) (by rw [hcore]; exact hr) (hu.fatal.trans hf), hcore]
    refine ⟨hu.mem, fun d hd => (u.core_setCore_other _ hd).trans (hu.other d hd), ?_⟩
    rw [State.core_setCore]
    exact ⟨rfl, rfl, rfl, rfl, rfl, fun _ _ _ => ⟨rfl, rfl, rfl, startedCore_state _ _ _ (u.auditMode c)⟩, fun hn => absurd hs hn⟩
  · rw [startCore_ignored half entry (by rw [hcore, hu.fatal]; exact hgo)]
    refine ⟨hu.mem, hu.other, ?_⟩
    rw [hcore]
    exact ⟨rfl, rfl, rfl, rfl, rfl, fun hs hr hf => absurd ⟨hs, hr, hf⟩ hgo, fun _ => ⟨rfl, rfl, rfl, rfl, rfl⟩⟩

/-! ## STOP and CONTINUE (R95, R104) -/

theorem stopCore_issuing {c : CoreId} {s : State} (h : (s.core c).ctl.state ≠ .dumping) : stopCore c s = stopIssue c .stopped s := if_neg h

/-- Once issue has ended nothing is scheduled and nothing is waited for. -/
theorem stopIssue_spec (c : CoreId) (st : RunState) (s : State) :
    ((stopIssue c st s).core c).ctl.hold = .none ∧ ((stopIssue c st s).core c).flight.sched = [] :=
  ⟨hold_drain (by rw [State.core_modCore]), drain_sched c _⟩

/-- Of a core that has nothing scheduled, ending issue changes its state and its hold alone. -/
theorem stopIssue_idle {c : CoreId} {s : State} (st : RunState) (h : (s.core c).flight.sched = []) :
    stopIssue c st s = s.modCore c fun k => { k with ctl := { k.ctl with state := st, hold := .none } } :=
  drain_idle (by rw [State.core_modCore]; exact h)

theorem completes_stop {port : Nat} {c : CoreId} {s : State} (h : s.reachesCore port c = true) (hd : (s.core c).ctl.state ≠ .dumping) :
    Completes (.coreCtlStop port c) s fun t =>
      (t.core c).ctl.hold = .none ∧ (t.core c).flight.sched = []
        ∧ ((s.core c).flight.sched = [] → (t.core c).ctl.state = .stopped ∧ t.mem = s.mem ∧ (t.core c).regs = (s.core c).regs
            ∧ ∀ d, d ≠ c → t.core d = s.core d) := by
  obtain ⟨u, hu, hexec⟩ := exec_stop h
  refine ⟨_, hexec, ?_⟩
  rw [stopCore_issuing (by rw [hu.core]; exact hd)]
  obtain ⟨hhold, hsched⟩ := stopIssue_spec c .stopped u
  refine ⟨hhold, hsched, fun hidle => ?_⟩
  rw [stopIssue_idle _ (by rw [hu.core]; exact hidle)]
  exact ⟨by rw [State.core_modCore], hu.mem, by rw [State.core_modCore, hu.core], fun d hd => (u.core_modCore_other _ hd).trans (hu.other d hd)⟩

theorem completes_continue {port : Nat} {c : CoreId} {s : State} (h : s.reachesCore port c = true) :
    Completes (.coreCtlContinue port c) s fun t =>
      t.mem = s.mem ∧ (∀ d, d ≠ c → t.core d = s.core d) ∧ (t.core c).regs = (s.core c).regs ∧ (t.core c).flight = (s.core c).flight
        ∧ (t.core c).ctl.pc = (s.core c).ctl.pc
        ∧ (t.core c).ctl.state = if (s.core c).ctl.state = .stoppedAtCount ∧ s.confidential (s.corePart c) = false ∧ s.coreFatal c = false then .running
            else (s.core c).ctl.state := by
  obtain ⟨u, hu, hexec⟩ := exec_continue h
  refine ⟨_, hexec, ?_⟩
  simp only [continueCore, hu.core, hu.confidential, hu.fatal, Bool.not_eq_true']
  split
  next hgo =>
    rw [State.core_modCore, hu.core]
    exact ⟨hu.mem, fun d hd => (u.core_modCore_other _ hd).trans (hu.other d hd), rfl, rfl, rfl, rfl⟩
  next =>
    rw [hu.core]
    exact ⟨hu.mem, hu.other, rfl, rfl, rfl, rfl⟩

/-- Settles O39: a write that reaches the window stores CORE_CTL's fields and does its one action; any other is counted. -/
theorem coreControl : Obligations.CoreControl :=
  ⟨refusedWindows_claim, coreStart_claim, fun _ _ _ h => ⟨completes_stop h, completes_continue h⟩⟩

end Sys2Proof.Machine
end

section
/-! # The state dump and the stop at a count (R95, R101–R104) -/

namespace Sys2Proof.Machine

/-! ## DUMP begins (R95, R103) -/

theorem State.freePlace_core (s : State) (d : CoreId) : s.freePlace.2.core d = s.core d := rfl

theorem State.freePlace_mem (s : State) : s.freePlace.2.mem = s.mem := rfl

theorem State.dumpDone_logFault (s : State) (c : CoreId) (e : FaultEntry) :
    ((s.logFault c e).core c).ctl.dumpDone = (s.core c).ctl.dumpDone := by
  rw [State.logFault, State.core_modCore]
  rfl

/-- Whether a dump's range is held depends on the core's partition, its segments, DUMP_ADDR and DUMP_LS (R103). -/
theorem State.dumpFault_congr {s t : State} {c : CoreId} (hp : t.corePart c = s.corePart c) (hs : ∀ p, (t.part p).segs = (s.part p).segs)
    (ha : (t.core c).ctl.dumpAddr = (s.core c).ctl.dumpAddr) (hl : (t.core c).ctl.ctlDumpLs = (s.core c).ctl.ctlDumpLs) :
    t.dumpFault c = s.dumpFault c := by
  simp only [State.dumpFault, hp, hs, ha, hl]

/-- A dump that may begin, and its range is held. -/
theorem dumpCore_begins {c : CoreId} {s : State} (hc : s.confidential (s.corePart c) = false)
    (hs : (s.core c).ctl.state = .stopped ∨ (s.core c).ctl.state = .stoppedAtCount) (hr : (s.core c).flight.resetting = false)
    (hf : s.dumpFault c = none) :
    dumpCore c s = s.modCore c fun k => { k with ctl := { k.ctl with
      dumpDone := false, dumpAtCount := (s.core c).ctl.state == .stoppedAtCount, dumpTo := (s.core c).ctl.dumpAddr, dumpLs := (s.core c).ctl.ctlDumpLs
      state := .dumping } } := by
  have hok : ((s.core c).ctl.state == .stopped || (s.core c).ctl.state == .stoppedAtCount) = true := by simpa using hs
  simp only [dumpCore, hc, hok, hr, hf]
  rfl

/-- A dump that may begin, but whose range no writable segment holds: nothing but the log changes. -/
theorem dumpCore_faults {c : CoreId} {s : State} {f : AccessFault} (hc : s.confidential (s.corePart c) = false)
    (hs : (s.core c).ctl.state = .stopped ∨ (s.core c).ctl.state = .stoppedAtCount) (hr : (s.core c).flight.resetting = false)
    (hf : s.dumpFault c = some f) :
    dumpCore c s = (s.freePlace.2.modCore c fun k => { k with ctl := { k.ctl with dumpDone := false } }).logFault c
      (faultEntry { code := 0x0B, detail := f.code, addr := (s.core c).ctl.dumpAddr, aux := 0 } s.freePlace.1) := by
  have hok : ((s.core c).ctl.state == .stopped || (s.core c).ctl.state == .stoppedAtCount) = true := by simpa using hs
  simp only [dumpCore, hc, hok, hr, hf]
  rfl

theorem completes_dump {port : Nat} {c : CoreId} {s : State} (dumpLs : Bool) (h : s.reachesCore port c = true)
    (hc : s.confidential (s.corePart c) = false) :
    let k := s.core c
    k.ctl.state = .stopped ∨ k.ctl.state = .stoppedAtCount → k.flight.resetting = false →
    Completes (.coreCtlDump port c dumpLs) s fun t =>
      let v := s.modCore c fun k => { k with ctl := { k.ctl with ctlDumpLs := dumpLs } }
      let u := t.core c
      t.mem = s.mem ∧ (∀ d, d ≠ c → t.core d = s.core d) ∧ u.regs = k.regs ∧ u.ctl.dumpDone = false
        ∧ (v.dumpFault c = none → u.ctl.state = .dumping ∧ u.ctl.dumpAtCount = (k.ctl.state == .stoppedAtCount) ∧ u.ctl.dumpTo = k.ctl.dumpAddr
            ∧ u.ctl.dumpLs = dumpLs)
        ∧ (∀ f, v.dumpFault c = some f → u.ctl.state = k.ctl.state ∧ u.ctl.lastFault = 0x0B) := by
  intro k hs hr
  obtain ⟨u, hu, hexec⟩ := exec_dump h dumpLs
  refine ⟨_, hexec, ?_⟩
  have hfault : u.dumpFault c = (s.modCore c fun k => { k with ctl := { k.ctl with ctlDumpLs := dumpLs } }).dumpFault c :=
    State.dumpFault_congr hu.corePart hu.segs (by rw [hu.core, State.core_modCore]) (by rw [hu.core, State.core_modCore])
  have hstate : (u.core c).ctl.state = k.ctl.state := by rw [hu.core]
  have hreset : (u.core c).flight.resetting = k.flight.resetting := by rw [hu.core]
  dsimp only
  rw [← hfault]
  cases hf : u.dumpFault c with
  | none =>
    rw [dumpCore_begins (hu.confidential.trans hc) (by rwa [hstate]) (hreset.trans hr) hf, State.core_modCore, hu.core]
    exact ⟨hu.mem, fun d hd => (u.core_modCore_other _ hd).trans (hu.other d hd), rfl, rfl, fun _ => ⟨rfl, rfl, rfl, rfl⟩, fun _ hn => (nomatch hn)⟩
  | some f =>
    rw [dumpCore_faults (hu.confidential.trans hc) (by rwa [hstate]) (hreset.trans hr) hf]
    have hlog := (u.freePlace.2.modCore c fun k => { k with ctl := { k.ctl with dumpDone := false } }).logFault_spec c
      (faultEntry { code := 0x0B, detail := f.code, addr := (u.core c).ctl.dumpAddr, aux := 0 } u.freePlace.1)
    obtain ⟨_, same⟩ := hlog
    refine ⟨hu.mem, fun d hd => ?_, ?_, ?_, fun hn => (nomatch hn), fun _ _ => ⟨?_, State.lastFault_logFault ..⟩⟩
    · rw [State.core_logFault_other _ _ hd, State.core_modCore_other _ _ hd, State.freePlace_core, hu.other d hd]
    · rw [same.regs, State.core_modCore, State.freePlace_core, hu.core]
    · rw [State.dumpDone_logFault, State.core_modCore]
    · rw [same.state, State.core_modCore, State.freePlace_core, hstate]

/-! ## DUMP is done (R103, R449) -/

@[simp] theorem State.reseal_cores (s : State) (n : Nat) : (s.reseal n).cores = s.cores := by
  unfold State.reseal
  dsimp only
  split <;> rfl

@[simp] theorem State.put_cores (s : State) (a : Nat) (data : List Byte) (m : Bool) : (s.put a data m).cores = s.cores := by
  unfold State.put
  split
  · exact foldl_keeps (·.cores) State.reseal State.reseal_cores _ s
  · rfl

/-- What a dump stores, before the core's control block says so. -/
def dumpStored (c : CoreId) (s : State) : State :=
  let k := (s.core c).ctl
  if k.dumpLs then
    (s.put k.dumpTo.toNat (padTo 0x100000 (dumpBytes s c)) false).put (k.dumpTo.toNat + 0x100000) (s.peek (lsBase c) 0x800000) false
  else s.put k.dumpTo.toNat (dumpBytes s c) false

@[simp] theorem State.copyMarks_mem (s : State) (src dst n : Nat) : (s.copyMarks src dst n).mem = s.mem := rfl

@[simp] theorem State.copyMarks_cores (s : State) (src dst n : Nat) : (s.copyMarks src dst n).cores = s.cores := rfl

/-- A finished dump is the bytes stored, the local store's marks with them, the domains on their way woken, and the core back in
its state. -/
theorem finishDump_eq (c : CoreId) (s : State) :
    ∃ u l, u.mem = (dumpStored c s).mem ∧ u.cores = s.cores ∧ finishDump c s = (wakeFor l u).modCore c fun k => { k with ctl := { k.ctl with
      dumpDone := true, state := if k.ctl.dumpAtCount then .stoppedAtCount else .stopped } } := by
  unfold dumpStored
  refine ⟨_, _, ?mem, ?cores, rfl⟩
  case mem =>
    dsimp only
    split
    · exact State.copyMarks_mem ..
    · rfl
  case cores =>
    split
    · exact ((State.copyMarks_cores ..).trans (State.put_cores ..)).trans (State.put_cores ..)
    · exact State.put_cores ..

theorem completes_dumpDone {c : CoreId} {s : State} (h : (s.core c).ctl.state = .dumping) :
    Completes (.dumpDone c) s fun t =>
      let k := (s.core c).ctl
      t.mem = (if k.dumpLs then (s.put k.dumpTo.toNat (padTo 0x100000 (dumpBytes s c)) false).put (k.dumpTo.toNat + 0x100000)
                (s.peek (lsBase c) 0x800000) false
               else s.put k.dumpTo.toNat (dumpBytes s c) false).mem
        ∧ (t.core c).ctl.dumpDone = true ∧ (t.core c).ctl.state = (if k.dumpAtCount then .stoppedAtCount else .stopped)
        ∧ (t.core c).regs = (s.core c).regs ∧ ∀ d, d ≠ c → t.core d = s.core d := by
  obtain ⟨u, l, hmem, hcores, heq⟩ := finishDump_eq c s
  have hcore : ∀ d, (wakeFor l u).core d = s.core d := fun d => (wakeFor_core l u d).trans (State.core_congr hcores d)
  refine ⟨_, congrArg Host.Outcome.next (if_pos h), ?_⟩
  rw [heq]
  dsimp only
  rw [State.core_modCore, hcore]
  exact ⟨(wakeFor_mem l u).trans hmem, rfl, rfl, rfl, fun d hd => (State.core_modCore_other _ _ hd).trans (hcore d)⟩

/-! ## Where the parts of a dump lie (R103) -/

@[simp] theorem length_padTo (n : Nat) (l : List Byte) : (padTo n l).length = n := by
  simp [padTo]
  omega

theorem getElem?_padTo {n i : Nat} {l : List Byte} (hi : i < n) (hl : i < l.length) : (padTo n l)[i]? = l[i]? := by
  rw [padTo, List.getElem?_take_of_lt hi, List.getElem?_append_left hl]

@[simp] theorem length_leBytes (n v : Nat) : (leBytes n v).length = n := by
  induction n generalizing v with
  | zero => rfl
  | succ n ih => rw [leBytes, List.length_cons, ih]

theorem getElem?_leBytes {n i : Nat} (v : Nat) (h : i < n) : (leBytes n v)[i]? = some (BitVec.ofNat 8 (v / 256 ^ i)) := by
  induction n generalizing v i with
  | zero => omega
  | succ n ih =>
    cases i with
    | zero => simp [leBytes]
    | succ i =>
      rw [leBytes, List.getElem?_cons_succ, ih _ (by omega), Nat.div_div_eq_div_mul, Nat.pow_succ, Nat.mul_comm 256]

/-- Element i of block r, where each element of a list gives a block of m. -/
theorem getElem?_flatMap_blocks {α β : Type} {f : α → List β} {m : Nat} (hf : ∀ a, (f a).length = m) (l : List α) {r i : Nat} (hr : r < l.length)
    (hi : i < m) : (l.flatMap f)[m * r + i]? = (f l[r])[i]? := by
  induction l generalizing r with
  | nil => simp at hr
  | cons a t ih =>
    cases r with
    | zero => simp [List.getElem?_append_left (show i < (f a).length by rw [hf]; exact hi)]
    | succ r =>
      have hstep : m * (r + 1) + i = (f a).length + (m * r + i) := by rw [hf, Nat.mul_succ]; omega
      rw [List.flatMap_cons, hstep, List.getElem?_append_right (Nat.le_add_right ..), Nat.add_sub_cancel_left]
      exact ih (by simpa using hr)

theorem length_flatMap_blocks {α β : Type} {f : α → List β} {m : Nat} (hf : ∀ a, (f a).length = m) (l : List α) :
    (l.flatMap f).length = m * l.length := by
  induction l with
  | nil => rfl
  | cons a t ih => rw [List.flatMap_cons, List.length_append, hf, ih, List.length_cons, Nat.mul_succ, Nat.add_comm]

/-- A byte of a padded part that holds one block for each element of a list. -/
theorem getElem?_padTo_blocks {α : Type} {f : α → List Byte} {m n : Nat} (hf : ∀ a, (f a).length = m) (l : List α) {r i : Nat} (hr : r < l.length)
    (hi : i < m) (hn : m * l.length ≤ n) : (padTo n (l.flatMap f))[m * r + i]? = (f l[r])[i]? := by
  have hlt : m * r + i < m * l.length := by
    calc m * r + i < m * r + m := by omega
      _ = m * (r + 1) := (Nat.mul_succ ..).symm
      _ ≤ m * l.length := Nat.mul_le_mul_left _ hr
  rw [getElem?_padTo (Nat.lt_of_lt_of_le hlt hn) (by rw [length_flatMap_blocks hf]; exact hlt), getElem?_flatMap_blocks hf l hr hi]

theorem dumpBytes_x (s : State) (c : CoreId) {r i : Nat} (hr : r < 32) (hi : i < 8) :
    (dumpBytes s c)[0x40 + 8 * r + i]? = some (BitVec.ofNat 8 (((s.core c).regs.readX r).toNat / 256 ^ i)) := by
  have hpart := getElem?_padTo_blocks (n := 0x100) (length_leBytes 8) ((List.range 32).map fun r => ((s.core c).regs.readX r).toNat) (r := r)
    (by simpa using hr) hi (by simp)
  simp only [dumpBytes, List.append_assoc]
  rw [List.getElem?_append_right (by rw [length_padTo]; omega), length_padTo, Nat.add_assoc, Nat.add_sub_cancel_left,
    List.getElem?_append_left (by rw [length_padTo]; omega), wordBytes, hpart, getElem?_leBytes _ hi]
  simp

theorem dumpBytes_v (s : State) (c : CoreId) {r i : Nat} (hr : r < 32) (hi : i < 256) :
    (dumpBytes s c)[0x1000 + 256 * r + i]? = some (BitVec.ofNat 8 (((s.core c).regs.readV r).toNat / 256 ^ i)) := by
  have hpart := getElem?_padTo_blocks (n := 0x2000) (f := fun v : BitVec 2048 => leBytes 256 v.toNat) (fun v => length_leBytes 256 v.toNat)
    (s.core c).regs.v.toList (r := r) (by simpa using hr) hi (by simp)
  unfold dumpBytes
  dsimp only
  rw [List.getElem?_append_left (by simp only [List.length_append, length_padTo]; omega),
    List.getElem?_append_left (by simp only [List.length_append, length_padTo]; omega),
    List.getElem?_append_right (by simp only [List.length_append, length_padTo]; omega)]
  simp only [List.length_append, length_padTo]
  rw [Nat.add_assoc, Nat.add_sub_cancel_left, hpart, getElem?_leBytes _ hi]
  simp [CoreRegs.readV, hr]

/-! ## The stop at a count (R101) -/

theorem completes_rtcStop {c : CoreId} {s : State} :
    let k := s.core c
    k.ctl.state = .running → k.ctl.hold = .none → k.ctl.rtcEnable = true → k.sys.issueCount = k.ctl.rtcLimit.setWidth 64 →
      k.flight.queuesEmpty = true → k.flight.held = [] → s.confidential (s.corePart c) = false →
      Completes (.rtcStop c) s fun t => (t.core c).flight.sched = []
        ∧ (k.flight.sched = [] → (t.core c).ctl.state = .stoppedAtCount ∧ (t.core c).regs = k.regs ∧ t.mem = s.mem ∧ ∀ d, d ≠ c → t.core d = s.core d) := by
  intro k hs hh he hn hq hheld hc
  have hcount : k.atCount = true := by simp [Core.atCount, he, hn]
  refine ⟨_, congrArg Host.Outcome.next (if_pos ⟨hs, hh, hcount, hq, hheld, by simp [hc]⟩), (stopIssue_spec c _ s).2, fun hidle => ?_⟩
  rw [stopIssue_idle _ hidle, State.core_modCore]
  exact ⟨rfl, rfl, rfl, fun d hd => s.core_modCore_other _ hd⟩

theorem exec_rtcStop_below {c : CoreId} {s : State} (h : (s.core c).sys.issueCount ≠ (s.core c).ctl.rtcLimit.setWidth 64) :
    exec (.rtcStop c) s = .next s := by
  have hcount : (s.core c).atCount = false := by simp [Core.atCount, h]
  refine congrArg Host.Outcome.next (if_neg ?_)
  rintro ⟨_, _, hat, _⟩
  exact absurd (hcount.symm.trans hat) (by simp)

/-- Settles O40: DUMP takes its range or faults, its end stores the bytes part by part, and a count reached ends issue. -/
theorem coreDumps : Obligations.CoreDumps :=
  ⟨⟨fun _ _ dumpLs _ h hc => completes_dump dumpLs h hc, fun _ _ h => completes_dumpDone h⟩,
    fun s c => ⟨fun _ _ hr hi => dumpBytes_x s c hr hi, fun _ _ hr hi => dumpBytes_v s c hr hi⟩,
    fun _ _ => ⟨completes_rtcStop, exec_rtcStop_below⟩⟩

end Sys2Proof.Machine
end

section
/-! # Waiting for a half, and the words of the control windows and registers (R90–R94, R100, R330, R332, R442) -/

namespace Sys2Proof.Machine

/-! ## A core that waits for its half (R92–R95) -/

theorem exec_startFetchBegin {c : CoreId} (elapsed : Nat) {s : State} {half : Bool} {entry : BitVec 14} (hh : (s.core c).ctl.hold = .start half entry)
    (hs : (s.core c).ctl.state = .waiting) (hl : (s.core c).ctl.loaded half = true) :
    exec (.startFetchBegin c elapsed) s = .next ((s.modCore c fun k => { k with
        ctl := { k.ctl with state := .running, hold := .none, half := half, pc := entry.toNat }
        flight := { k.flight with now := k.flight.now + clockedCycles c elapsed s } }).countPerf c 0x03 (clockedCycles c elapsed s)) := by
  change execStartFetchBegin c elapsed s = _
  simp only [execStartFetchBegin, hh, hs, hl, if_true]

theorem completes_startFetchBegin {c : CoreId} (elapsed : Nat) {s : State} {half : Bool} {entry : BitVec 14}
    (hh : (s.core c).ctl.hold = .start half entry) (hs : (s.core c).ctl.state = .waiting) (hl : (s.core c).ctl.loaded half = true) :
    Completes (.startFetchBegin c elapsed) s fun t =>
      (t.core c).ctl.state = .running ∧ (t.core c).ctl.hold = .none ∧ (t.core c).ctl.half = half ∧ (t.core c).ctl.pc = entry.toNat
        ∧ (t.core c).flight.now = (s.core c).flight.now + clockedCycles c elapsed s ∧ (t.core c).regs = (s.core c).regs ∧ t.mem = s.mem
        ∧ ∀ d, d ≠ c → t.core d = s.core d := by
  refine ⟨_, exec_startFetchBegin elapsed hh hs hl, ?_⟩
  have hperf := State.countPerf_spec (s.modCore c fun k => { k with
        ctl := { k.ctl with state := .running, hold := .none, half := half, pc := entry.toNat }
        flight := { k.flight with now := k.flight.now + clockedCycles c elapsed s } }) c 0x03 (clockedCycles c elapsed s)
  obtain ⟨el, same⟩ := hperf
  rw [State.core_modCore] at same
  exact ⟨same.state, same.hold, same.half, same.pc, congrArg CoreFlight.now same.flight, same.regs, State.countPerf_mem ..,
    fun d hd => (el.cores d hd).trans (s.core_modCore_other _ hd)⟩

theorem exec_swapiResume {c : CoreId} (elapsed : Nat) {s : State} {entry : BitVec 14} (hh : (s.core c).ctl.hold = .swapi entry)
    (hs : (s.core c).ctl.state = .waiting) (hl : (s.core c).ctl.loaded (!(s.core c).ctl.half) = true)
    (hd : ((runTo c (heldCycle c elapsed s) s).core c).ctl.state = .waiting) :
    exec (.swapiResume c elapsed) s = .next (((runTo c (heldCycle c elapsed s) s).modCore c fun k => { k with
        ctl := { k.ctl with state := .running, hold := .none, half := !k.ctl.half, pc := entry.toNat }
        flight := { k.flight with now := heldCycle c elapsed s + 3 } }).countPerf c 0x03 (max 1 (clockedCycles c elapsed s))) := by
  change execSwapiResume c elapsed s = _
  simp only [execSwapiResume, hh, hs, hl, hd, ne_eq, not_true, if_true, if_false]

theorem completes_swapiResume {c : CoreId} (elapsed : Nat) {s : State} {entry : BitVec 14} (hh : (s.core c).ctl.hold = .swapi entry)
    (hs : (s.core c).ctl.state = .waiting) (hl : (s.core c).ctl.loaded (!(s.core c).ctl.half) = true) :
    let T := heldCycle c elapsed s
    let d := runTo c T s
    (d.core c).ctl.state = .waiting →
    Completes (.swapiResume c elapsed) s fun t =>
      (t.core c).ctl.state = .running ∧ (t.core c).ctl.hold = .none ∧ (t.core c).ctl.half = !(s.core c).ctl.half
        ∧ (t.core c).ctl.pc = entry.toNat ∧ (t.core c).flight.now = T + 3 ∧ (t.core c).regs = (d.core c).regs ∧ t.mem = d.mem
        ∧ ∀ e, e ≠ c → t.core e = d.core e := by
  intro T d hd
  refine ⟨_, exec_swapiResume elapsed hh hs hl hd, ?_⟩
  have hperf := State.countPerf_spec (d.modCore c fun k => { k with
        ctl := { k.ctl with state := .running, hold := .none, half := !k.ctl.half, pc := entry.toNat }
        flight := { k.flight with now := T + 3 } }) c 0x03 (max 1 (clockedCycles c elapsed s))
  obtain ⟨el, same⟩ := hperf
  rw [State.core_modCore] at same
  have hhalf : (d.core c).ctl.half = (s.core c).ctl.half := half_runTo c T s
  exact ⟨same.state, same.hold, same.half.trans (congrArg (!·) hhalf), same.pc, congrArg CoreFlight.now same.flight, same.regs,
    State.countPerf_mem .., fun e he => (el.cores e he).trans (d.core_modCore_other _ he)⟩

theorem halfLoaded_claim : Claim.HalfLoaded := fun _ elapsed _ =>
  ⟨fun _ _ hh hs hl => completes_startFetchBegin elapsed hh hs hl,
    fun _ hh hs hl => completes_swapiResume elapsed hh hs ((CoreCtl.loaded_not ..).trans hl)⟩

/-! ## Words of a control window (R90, R91, R94, R100) -/

/-- Of a device, a write to a window leaves memory and the other cores; of its core, the registers, what is in flight, and where
issue stands. -/
def WindowFrame (c : CoreId) (s t : State) : Prop :=
  t.mem = s.mem ∧ (∀ d, d ≠ c → t.core d = s.core d) ∧ (t.core c).regs = (s.core c).regs ∧ (t.core c).flight = (s.core c).flight
    ∧ (t.core c).ctl.state = (s.core c).ctl.state ∧ (t.core c).ctl.pc = (s.core c).ctl.pc

/-- A core's control block changed. -/
def State.modCtl (s : State) (c : CoreId) (f : CoreCtl → CoreCtl) : State := s.modCore c fun k => { k with ctl := f k.ctl }

/-- A change of the control block that leaves its state and its PC. -/
theorem WindowFrame.modCtl {c : CoreId} {s u : State} {f : CoreCtl → CoreCtl} (hm : u.mem = s.mem) (hc : ∀ d, u.core d = s.core d)
    (hs : (f (s.core c).ctl).state = (s.core c).ctl.state) (hp : (f (s.core c).ctl).pc = (s.core c).ctl.pc) :
    WindowFrame c s (u.modCtl c f) := by
  refine ⟨hm, fun d hd => (u.core_modCore_other _ hd).trans (hc d), ?_⟩
  rw [State.modCtl, State.core_modCore, hc]
  exact ⟨rfl, rfl, hs, hp⟩

theorem State.ctl_modCtl (s : State) (c : CoreId) (f : CoreCtl → CoreCtl) : ((s.modCtl c f).core c).ctl = f (s.core c).ctl := by
  rw [State.modCtl, State.core_modCore]

/-- The same for a control block that a write to its window finds. -/
theorem State.ctl_windowOpened_modCtl (s : State) (c : CoreId) (f : CoreCtl → CoreCtl) :
    (((s.windowOpened c).modCtl c f).core c).ctl = f (s.core c).ctl := by
  rw [State.ctl_modCtl, State.windowOpened_core]

/-- A write to a window that changes the control block but for its state and its PC. -/
theorem WindowFrame.windowOpened {c : CoreId} {s : State} {f : CoreCtl → CoreCtl} (hs : (f (s.core c).ctl).state = (s.core c).ctl.state)
    (hp : (f (s.core c).ctl).pc = (s.core c).ctl.pc) : WindowFrame c s ((s.windowOpened c).modCtl c f) :=
  .modCtl (s.windowOpened_mem c) (s.windowOpened_core c) hs hp

/-! ### LOADED flags -/

/-- The control block with a LOADED flag set. -/
def CoreCtl.withLoaded (k : CoreCtl) (half : Bool) : CoreCtl := if half then { k with loadedB := true } else { k with loadedA := true }

theorem CoreCtl.withLoaded_spec (k : CoreCtl) (half : Bool) :
    (k.withLoaded half).state = k.state ∧ (k.withLoaded half).pc = k.pc ∧ (k.withLoaded half).imem = k.imem
      ∧ (k.withLoaded half).loadedA = (k.loadedA || !half) ∧ (k.withLoaded half).loadedB = (k.loadedB || half) := by
  cases half <;> simp [CoreCtl.withLoaded]

/-- A write of one W1 bit of IMEM_CTL. -/
theorem State.writeWindow_loaded (s : State) (c : CoreId) (half : Bool) :
    s.writeWindow c 0x40000 (if half then 4 else 2) false = s.modCtl c fun k => k.withLoaded half := by
  cases half <;> rfl

theorem completes_imemLoadedSet {port : Nat} {c : CoreId} {s : State} (half : Bool) (h : s.reachesCore port c = true) :
    Completes (.imemLoadedSet port c half) s fun t => WindowFrame c s t ∧ (t.core c).ctl.imem = (s.core c).ctl.imem
      ∧ (t.core c).ctl.loadedA = ((s.core c).ctl.loadedA || !half) ∧ (t.core c).ctl.loadedB = ((s.core c).ctl.loadedB || half) := by
  obtain ⟨hs, hp, hi, ha, hb⟩ := (s.core c).ctl.withLoaded_spec half
  refine ⟨_, congrArg Host.Outcome.next ((hostWindow_reached h _).trans (State.writeWindow_loaded ..)),
    .windowOpened hs hp, ?_⟩
  rw [State.ctl_windowOpened_modCtl]
  exact ⟨hi, ha, hb⟩

/-! ### Instruction memory -/

theorem mem_insertNum {l : List Nat} {n m : Nat} : m ∈ insertNum l n ↔ m = n ∨ m ∈ l := by
  induction l with
  | nil => simp [insertNum]
  | cons k t ih =>
    unfold insertNum
    split
    · simp
    · split
      next hk => simp [hk]
      next => rw [List.mem_cons, ih, List.mem_cons]; exact or_left_comm

theorem imemKey_lt (half : Bool) (index : BitVec 14) : imemKey half index.toNat < 32768 := by
  have := index.isLt
  unfold imemKey
  split <;> omega

theorem le_imemKey_iff (half : Bool) (index : BitVec 14) : 16384 ≤ imemKey half index.toNat ↔ half = true := by
  have := index.isLt
  unfold imemKey
  split
  next h => simp [h]
  next h => simp [h]; omega

/-- A word of instruction memory after its write: its mark is the data's, and its half's LOADED flag is clear. -/
theorem CoreCtl.writeImem_spec (k : CoreCtl) (half : Bool) (index : BitVec 14) (v : Word) (mark : Bool) :
    let u := k.writeImem (imemKey half index.toNat) v mark
    u.imemMark.contains (imemKey half index.toNat) = mark ∧ u.loadedA = (k.loadedA && half) ∧ u.loadedB = (k.loadedB && !half) := by
  have hA : decide (16384 ≤ imemKey half index.toNat) = half := by
    rw [Bool.eq_iff_iff, decide_eq_true_iff]
    exact le_imemKey_iff half index
  have hB : decide (imemKey half index.toNat < 16384) = !half := by
    rw [Bool.eq_iff_iff, decide_eq_true_iff, Bool.not_eq_true', ← Bool.not_eq_true, ← le_imemKey_iff half index, Nat.not_le]
  refine ⟨?_, congrArg (k.loadedA && ·) hA, congrArg (k.loadedB && ·) hB⟩
  cases mark
  · simp [CoreCtl.writeImem]
  · simp [CoreCtl.writeImem, mem_insertNum]

/-- A word of instruction memory is refused exactly where its half is being fetched (R94). -/
theorem State.imemRefused_word (s : State) (c : CoreId) (half : Bool) (index : BitVec 14) :
    s.imemRefused c (8 * imemKey half index.toNat) 8 = ((s.core c).ctl.fetching && ((s.core c).ctl.half == half)) := by
  have hlt := index.isLt
  unfold State.imemRefused imemKey
  rw [Bool.and_assoc]
  refine congrArg ((s.core c).ctl.fetching && ·) ?_
  rw [Bool.eq_iff_iff, Bool.and_eq_true, decide_eq_true_iff, decide_eq_true_iff, beq_iff_eq]
  cases half <;> cases (s.core c).ctl.half <;> simp <;> omega

theorem State.writeWindow_imem (s : State) (c : CoreId) (half : Bool) (index : BitVec 14) (v : Word) (mark : Bool) :
    s.writeWindow c (8 * imemKey half index.toNat) v.toNat mark
      = s.modCtl c fun k => k.writeImem (imemKey half index.toNat) v mark := by
  have hlt := imemKey_lt half index
  rw [State.writeWindow, if_pos (by omega), Nat.mul_div_cancel_left _ (by omega), BitVec.ofNat_toNat, BitVec.setWidth_eq]
  rfl

theorem completes_imemWrite {port : Nat} {c : CoreId} {s : State} (half : Bool) (index : BitVec 14) (v : Word) (poisoned : Bool)
    (h : s.reachesCore port c = true) (hf : (s.core c).ctl.fetching = false ∨ (s.core c).ctl.half ≠ half) :
    Completes (.imemWrite port c half index v poisoned) s fun t => WindowFrame c s t
      ∧ (t.core c).ctl.imem = Tbl.put (s.core c).ctl.imem (imemKey half index.toNat) v
      ∧ (t.core c).ctl.imemMark.contains (imemKey half index.toNat) = poisoned
      ∧ (t.core c).ctl.loadedA = ((s.core c).ctl.loadedA && half) ∧ (t.core c).ctl.loadedB = ((s.core c).ctl.loadedB && !half) := by
  have hgo : (s.windowOpened c).imemRefused c (8 * imemKey half index.toNat) 8 = false := by
    rw [State.imemRefused_word, State.windowOpened_core, Bool.and_eq_false_iff, beq_eq_false_iff_ne]
    exact hf
  refine ⟨_, congrArg Host.Outcome.next ((hostWindow_reached h _).trans ((if_neg (by rw [hgo]; decide)).trans (State.writeWindow_imem ..))),
    .windowOpened rfl rfl, ?_⟩
  rw [State.ctl_windowOpened_modCtl]
  exact ⟨rfl, CoreCtl.writeImem_spec ..⟩

theorem completes_imemWrite_refused {port : Nat} {c : CoreId} {s : State} (half : Bool) (index : BitVec 14) (v : Word) (poisoned : Bool)
    (h : s.reachesCore port c = true) (hf : (s.core c).ctl.fetching = true) (hh : (s.core c).ctl.half = half) :
    Completes (.imemWrite port c half index v poisoned) s fun t => WindowFrame c s t
      ∧ (t.core c).ctl.imem = (s.core c).ctl.imem ∧ (t.core c).ctl.lastFault = 0x10 := by
  have hno : (s.windowOpened c).imemRefused c (8 * imemKey half index.toNat) 8 = true := by
    rw [State.imemRefused_word, State.windowOpened_core, hf, hh, beq_self_eq_true]
    rfl
  refine ⟨_, congrArg Host.Outcome.next ((hostWindow_reached h _).trans (if_pos hno)), ?_⟩
  obtain ⟨el, same⟩ := (s.windowOpened c).freePlace.2.logFault_spec c
    (faultEntry { code := 0x10, detail := 0, addr := BitVec.ofNat 64 (windowBase c + 8 * imemKey half index.toNat), aux := 0 }
      (s.windowOpened c).freePlace.1)
  rw [State.freePlace_core, State.windowOpened_core] at same
  exact ⟨⟨s.windowOpened_mem c, fun d hd => (el.cores d hd).trans (s.windowOpened_core c d), same.regs, same.flight, same.state, same.pc⟩,
    same.imem, State.lastFault_logFault ..⟩

/-! ### The fault log -/

theorem State.writeWindow_fltHead (s : State) (c : CoreId) (v : Nat) (mark : Bool) :
    s.writeWindow c 0x40028 v mark = s.modCtl c fun k => { k with fltOverwritten := 0 } := rfl

theorem completes_fltHeadWrite {port : Nat} {c : CoreId} {s : State} (h : s.reachesCore port c = true) :
    Completes (.fltHeadWrite port c) s fun t => WindowFrame c s t ∧ (t.core c).ctl.fltOverwritten = 0 ∧ (t.core c).ctl.log = (s.core c).ctl.log := by
  refine ⟨_, congrArg Host.Outcome.next ((hostWindow_reached h _).trans (State.writeWindow_fltHead ..)), .windowOpened rfl rfl, ?_⟩
  rw [State.ctl_windowOpened_modCtl]
  exact ⟨rfl, rfl⟩

/-- A word of the fault log as its window shows it (R100). -/
theorem State.windowWord_log (s : State) (c : CoreId) {w : Nat} (hw : w < 64) :
    s.windowWord c (0x40100 + 8 * w) = (bits (((s.core c).ctl.log[w / 4]?).getD .reset).word (64 * (w % 4)) 64, false) := by
  have hentry : (0x40100 + 8 * w - 0x40100) / 32 = w / 4 := by omega
  have hword : (0x40100 + 8 * w - 0x40100) / 8 % 4 = w % 4 := by omega
  unfold State.windowWord
  dsimp only
  rw [if_neg (by omega), if_neg (by omega), if_neg (by omega), if_neg (by omega), if_neg (by omega), if_neg (by omega), if_neg (by omega),
    if_pos (by omega), hentry, hword]

theorem State.noteRead_log (s : State) (c : CoreId) {w : Nat} (hw : w < 64) :
    s.noteRead c (0x40100 + 8 * w) = s.modCtl c fun k => { k with logRead := k.logRead ||| (1#16 <<< (w / 4)) } := by
  have hentry : (0x40100 + 8 * w - 0x40100) / 32 = w / 4 := by omega
  rw [State.noteRead, if_pos (by omega), hentry]
  rfl

/-- A bit that is set in a mask of 16. -/
theorem getLsbD_or_shiftLeft_one (x : BitVec 16) {i : Nat} (h : i < 16) : (x ||| (1#16 <<< i)).getLsbD i = true := by
  simp [h]

theorem State.modCtl_host (s : State) (c : CoreId) (f : CoreCtl → CoreCtl) : (s.modCtl c f).host = s.host := rfl

theorem State.core_answerRead (s : State) (v : Word) (d : CoreId) : (s.answerRead v).core d = s.core d := rfl

theorem State.answerRead_mem (s : State) (v : Word) : (s.answerRead v).mem = s.mem := rfl

theorem State.answerRead_lastRead (s : State) (v : Word) : (s.answerRead v).host.lastRead = v := rfl

/-- A read of the fault log that reaches its core. -/
theorem exec_faultLogRead {port : Nat} {c : CoreId} {s : State} (w : BitVec 6) (h : s.reachesCore port c = true) :
    exec (.faultLogRead port c w) s
      = .next (((wakeDomain (rowDomain c) s).answerRead (BitVec.ofNat 64 (bits (((s.core c).ctl.log[w.toNat / 4]?).getD .reset).word
          (64 * (w.toNat % 4)) 64))).modCtl c fun k => { k with logRead := k.logRead ||| (1#16 <<< (w.toNat / 4)) }) := by
  have hw : w.toNat < 64 := w.isLt
  change execFaultLogRead port c w s = _
  unfold execFaultLogRead
  rw [if_pos h]
  dsimp only
  rw [State.noteRead_log _ _ hw, State.windowWord_log _ _ hw, State.core_congr (wakeDomain_cores ..)]

theorem completes_faultLogRead {port : Nat} {c : CoreId} {s : State} (w : BitVec 6) (h : s.reachesCore port c = true) :
    Completes (.faultLogRead port c w) s fun t => WindowFrame c s t ∧ (t.core c).ctl.log = (s.core c).ctl.log
      ∧ t.host.lastRead = BitVec.ofNat 64 (bits (((s.core c).ctl.log[w.toNat / 4]?).getD .reset).word (64 * (w.toNat % 4)) 64)
      ∧ (t.core c).ctl.logRead.getLsbD (w.toNat / 4) = true := by
  have hw : w.toNat < 64 := w.isLt
  have hcore : ∀ v d, ((wakeDomain (rowDomain c) s).answerRead v).core d = s.core d := fun v d =>
    (State.core_answerRead ..).trans (State.core_congr (wakeDomain_cores ..) d)
  have hmem : ∀ v, ((wakeDomain (rowDomain c) s).answerRead v).mem = s.mem := fun v => (State.answerRead_mem ..).trans (wakeDomain_mem ..)
  refine ⟨_, exec_faultLogRead w h, .modCtl (hmem _) (hcore _) rfl rfl, ?_⟩
  rw [State.ctl_modCtl, State.modCtl_host, State.answerRead_lastRead, hcore]
  exact ⟨rfl, rfl, getLsbD_or_shiftLeft_one _ (by omega)⟩

theorem windowWrites_claim : Claim.WindowWrites := fun _ _ half poisoned index v w _ h =>
  ⟨completes_imemLoadedSet half h, completes_imemWrite half index v poisoned h, completes_imemWrite_refused half index v poisoned h,
    completes_fltHeadWrite h, completes_faultLogRead w h⟩

end Sys2Proof.Machine
end

section
/-! # Host writes by BAR and offset (R327, R330, R332, R442) -/

namespace Sys2Proof.Machine

/-! ## One equation per BAR (log 173) -/

theorem exec_controlRegisterWrite_bar0 (port ofs : Nat) (v : Word) (s : State) :
    exec (.controlRegisterWrite port 0 ofs v) s = .next (writeBar0 port ofs v s) := rfl

theorem exec_controlRegisterWrite_bar2 {port ofs : Nat} (v : Word) (s : State) (h8 : ofs % 8 = 0) (h : ofs < 0x40000000) :
    exec (.controlRegisterWrite port 2 ofs v) s
      = .next (hostWindow port (BitVec.ofNat 10 (ofs / 0x100000)) (hostWriteWord (BitVec.ofNat 10 (ofs / 0x100000)) (ofs % 0x100000) v false) s) :=
  congrArg Host.Outcome.next (if_neg (by omega))

theorem exec_controlRegisterWrite_bar4 (port ofs : Nat) (v : Word) (s : State) :
    exec (.controlRegisterWrite port 4 ofs v) s = .next (writePage port ofs v s) := rfl

theorem exec_controlRegisterWrite_bar7 (port ofs : Nat) (v : Word) (s : State) :
    exec (.controlRegisterWrite port 7 ofs v) s = .next (writeConfig port ofs v s) := rfl

/-- No other BAR holds a register. -/
theorem exec_controlRegisterWrite_none {bar : Nat} (port offset : Nat) (v : Word) (s : State) (h0 : bar ≠ 0) (h2 : bar ≠ 2) (h4 : bar ≠ 4)
    (h7 : bar ≠ 7) : exec (.controlRegisterWrite port bar offset v) s = .next s := by
  change execControlRegisterWrite port bar offset v s = _
  unfold execControlRegisterWrite
  split
  · exact absurd rfl h0
  · exact absurd rfl h2
  · exact absurd rfl h4
  · exact absurd rfl h7
  · rfl

/-! ## BAR2: words of a control window -/

theorem exec_controlRegisterWrite_imem (port : Nat) (c : CoreId) (half : Bool) (index : BitVec 14) (v : Word) (s : State) :
    exec (.controlRegisterWrite port 2 (0x100000 * c.toNat + 8 * imemKey half index.toNat) v) s = exec (.imemWrite port c half index v false) s := by
  have hkey := imemKey_lt half index
  have hlt := c.isLt
  have hcore : BitVec.ofNat 10 ((0x100000 * c.toNat + 8 * imemKey half index.toNat) / 0x100000) = c := by
    rw [show (0x100000 * c.toNat + 8 * imemKey half index.toNat) / 0x100000 = c.toNat by omega, BitVec.ofNat_toNat, BitVec.setWidth_eq]
  have hofs : (0x100000 * c.toNat + 8 * imemKey half index.toNat) % 0x100000 = 8 * imemKey half index.toNat := by omega
  rw [exec_controlRegisterWrite_bar2 v s (by omega) (by omega), hcore, hofs]
  rfl

/-! ## BAR0: a ring's configuration (R332) -/

theorem State.ring_modRing (s : State) (r : Nat) (f : Ring → Ring) : (s.modRing r f).ring r = f (s.ring r) := Tbl.getD_put_self ..

theorem State.ring_modRing_other (s : State) {r o : Nat} (f : Ring → Ring) (h : o ≠ r) : (s.modRing r f).ring o = s.ring o :=
  Tbl.getD_put_other _ _ _ h

/-- A write of word w of a ring's block, through the port that owns it. -/
theorem exec_controlRegisterWrite_ring {port r w ofs : Nat} {s : State} (v : Word) (hp : s.reachable port = true) (hr : r < 64) (hw : w < 8)
    (ho : s.ringPort r = port) (hofs : ofs = 0x1000 + 8 * w + 64 * r) :
    exec (.controlRegisterWrite port 0 ofs v) s = .next (writeRingConfig r w v s) := by
  have hring : (ofs - 0x1000) / 64 = r := by omega
  have hword : ofs % 64 / 8 = w := by omega
  have halign : ofs % 8 = 0 := by omega
  rw [exec_controlRegisterWrite_bar0]
  unfold writeBar0
  dsimp only
  rw [hring, hword, if_neg (by simp [hp, halign]), if_pos (by omega), if_pos ho]

section RingFields
variable {r : Nat} {s : State} (v : Word) (he : (s.ring r).enable = false)
include he

theorem writeRingConfig_ringBase : writeRingConfig r 1 v s = s.modRing r fun q => { q with ringBase := v } := by simp [writeRingConfig, he]

theorem writeRingConfig_prodLine : writeRingConfig r 2 v s = s.modRing r fun q => { q with prodLine := v } := by simp [writeRingConfig, he]

theorem writeRingConfig_cplBase : writeRingConfig r 3 v s = s.modRing r fun q => { q with cplBase := v } := by simp [writeRingConfig, he]

theorem writeRingConfig_log2 : writeRingConfig r 4 v s
    = s.modRing r fun q => { q with ringLog2 := BitVec.ofNat 4 (bits v.toNat 0 4), cplLog2 := BitVec.ofNat 4 (bits v.toNat 4 4) } := by
  simp [writeRingConfig, he]

end RingFields

theorem ofNat_bits_low (v : Word) : BitVec.ofNat 4 (bits v.toNat 0 4) = v.truncate 4 := by
  refine BitVec.eq_of_toNat_eq ?_
  simp [bits]

theorem ofNat_bits_high (v : Word) : BitVec.ofNat 4 (bits v.toNat 4 4) = (v >>> 4).truncate 4 := by
  refine BitVec.eq_of_toNat_eq ?_
  simp [bits]

theorem ringRegisters {port r : Nat} (v : Word) {s : State} (hp : s.reachable port = true) (hr : r < 64) (ho : s.ringPort r = port)
    (he : (s.ring r).enable = false) :
    (Completes (.controlRegisterWrite port 0 (0x1008 + 64 * r) v) s fun t => t.ring r = { s.ring r with ringBase := v }
      ∧ (∀ o, o ≠ r → t.ring o = s.ring o) ∧ t.mem = s.mem ∧ t.cores = s.cores ∧ t.parts = s.parts)
    ∧ (Completes (.controlRegisterWrite port 0 (0x1010 + 64 * r) v) s fun t => t.ring r = { s.ring r with prodLine := v })
    ∧ (Completes (.controlRegisterWrite port 0 (0x1018 + 64 * r) v) s fun t => t.ring r = { s.ring r with cplBase := v })
    ∧ (Completes (.controlRegisterWrite port 0 (0x1020 + 64 * r) v) s fun t =>
        t.ring r = { s.ring r with ringLog2 := v.truncate 4, cplLog2 := (v >>> 4).truncate 4 }) := by
  have hexec {w ofs : Nat} (hw : w < 8) (hofs : ofs = 0x1000 + 8 * w + 64 * r) {t : State} (ht : writeRingConfig r w v s = t) :
      exec (.controlRegisterWrite port 0 ofs v) s = .next t := ht ▸ exec_controlRegisterWrite_ring v hp hr hw ho hofs
  refine ⟨⟨_, hexec (w := 1) (by decide) (by omega) (writeRingConfig_ringBase v he),
      s.ring_modRing r _, fun o h => s.ring_modRing_other _ h, rfl, rfl, rfl⟩,
    ⟨_, hexec (w := 2) (by decide) (by omega) (writeRingConfig_prodLine v he), s.ring_modRing r _⟩,
    ⟨_, hexec (w := 3) (by decide) (by omega) (writeRingConfig_cplBase v he), s.ring_modRing r _⟩,
    ⟨_, hexec (w := 4) (by decide) (by omega) (writeRingConfig_log2 v he), (s.ring_modRing r _).trans ?_⟩⟩
  rw [ofNat_bits_low, ofNat_bits_high]

/-! ## BAR4: RESET_CTL of a partition's page (R442) -/

theorem exec_controlRegisterWrite_reset {port p : Nat} {core : CoreId} {v : Word} {s : State} (hr : s.reachable port = true) (hp : p < 16)
    (hu : s.ringsUp = true) (hv : (s.part p).layout.valid = true) (hport : (s.part p).layout.port = port) (hreset : (s.part p).resetting = false)
    (hw : v.toNat = core.toNat + 2 ^ 10 + 2 ^ 12) :
    exec (.controlRegisterWrite port 4 (0x10000 * p + 8) v) s = exec (.coreReset p core) s := by
  have hlt := core.isLt
  have hpage : (0x10000 * p + 8) / 0x10000 = p := by omega
  have hofs : (0x10000 * p + 8) % 0x10000 = 8 := by omega
  have halign : (0x10000 * p + 8) % 8 = 0 := by omega
  have hcore : BitVec.ofNat 10 (bits v.toNat 0 10) = core := by
    rw [show bits v.toNat 0 10 = core.toNat by rw [bits, Nat.shiftRight_zero, hw]; omega, BitVec.ofNat_toNat, BitVec.setWidth_eq]
  have hkind : bits v.toNat 10 2 = 1 := by rw [bits, Nat.shiftRight_eq_div_pow, hw]; omega
  have hgo : v.getLsbD 12 = true := by rw [BitVec.getLsbD, Nat.testBit_eq_decide_div_mod_eq, hw]; simp; omega
  have hpass : (!s.reachable port || !s.ringsUp || (0x10000 * p + 8) % 8 != 0 || decide (16 ≤ p) || !(s.part p).layout.valid
      || (s.part p).layout.port != port) = false := by
    simp [hr, hu, halign, hv, hport, hp]
  change _ = Host.Outcome.next (hostResetCtl p core 1 true s)
  rw [exec_controlRegisterWrite_bar4]
  unfold writePage hostResetCtl
  dsimp only
  rw [hpage, hpass, if_neg (by decide), if_pos hofs, hcore, hkind, hgo, if_pos ⟨hv, by simp [hreset]⟩]

/-! ## The configuration space (R327; log 173) -/

theorem completes_controlRegisterWrite_config {port : Nat} (word : Nat) (v : Word) {s : State} (h : s.reachable port = true) :
    Completes (.controlRegisterWrite port 7 (8 * word) v) s fun t =>
      Tbl.get? t.host.config (0x20000 * port + word) = some v
        ∧ (∀ k, k ≠ 0x20000 * port + word → Tbl.get? t.host.config k = Tbl.get? s.host.config k)
        ∧ t.mem = s.mem ∧ t.cores = s.cores ∧ t.parts = s.parts := by
  have hkey : msixKey port (8 * word / 8) = 0x20000 * port + word := by rw [msixKey, Nat.mul_div_cancel_left _ (by decide)]
  refine ⟨_, (exec_controlRegisterWrite_bar7 ..).trans (congrArg Host.Outcome.next (if_neg (by simp [h]))), ?_⟩
  rw [hkey]
  exact ⟨Tbl.get?_put_self .., fun k hk => Tbl.get?_put_other _ _ hk, rfl, rfl, rfl⟩

theorem controlRegisters_claim : Claim.ControlRegisters :=
  ⟨exec_controlRegisterWrite_imem, fun _ _ v _ hp hr ho he => ringRegisters v hp hr ho he,
    fun _ _ _ _ _ hr hp hu hv hport hreset hw => exec_controlRegisterWrite_reset hr hp hu hv hport hreset hw,
    fun _ word v _ h => completes_controlRegisterWrite_config word v h,
    fun port _ offset v s h0 h2 h4 h7 => exec_controlRegisterWrite_none port offset v s h0 h2 h4 h7⟩

/-- Settles O41: a half that is loaded ends the wait, and each word written changes the one register it names. -/
theorem coreWindows : Obligations.CoreWindows := ⟨halfLoaded_claim, windowWrites_claim, controlRegisters_claim⟩

end Sys2Proof.Machine
end

section
/-! # The tile pipe, the array, and the halt of a poisoned row (R105–R133, R451, R479) -/

namespace Sys2Proof.Machine

/-! ## Checks that pass -/

/-- A bit vector of a field's length holds the field. -/
theorem toNat_ofNat_bits (n lo len : Nat) : (BitVec.ofNat len (bits n lo len)).toNat = bits n lo len := by
  rw [BitVec.toNat_ofNat, bits, Nat.mod_mod]

/-- No TSHAPE means that none of the rules fails (R115, R116). -/
theorem lowestTshape_eq_none {l : List (Option Nat)} : lowestTshape l = none ↔ ∀ o ∈ l, o = none := by
  unfold lowestTshape
  split
  next h => exact ⟨fun _ o ho => List.filterMap_eq_nil_iff.1 h o ho, fun _ => rfl⟩
  next h =>
    exact ⟨fun h' => (nomatch h'), fun h' => nomatch h.symm.trans (List.filterMap_eq_nil_iff.2 h')⟩

theorem breaks_eq_none {cond : Bool} {code : Nat} : breaks cond code = none ↔ cond = false := by
  cases cond <;> simp [breaks]

theorem checked_nil (e : Effect) : checked [] e = .ok e := rfl

/-- A check that passes leaves the checks that come after it. -/
theorem checked_cons {f : Option FaultReq} {l : List (Option FaultReq)} {e : Effect} (hf : f = none) (hl : checked l e = .ok e) :
    checked (f :: l) e = .ok e := by
  subst hf
  exact hl

/-- Accesses that a segment grants, every one, raise nothing (R178). -/
theorem spansFault_none {l : List (Word × Except AccessFault Nat)} (h : ∀ p ∈ l, ∃ d, p.2 = .ok d) : spansFault l = none := by
  simp only [spansFault, List.findSome?_eq_none_iff, Option.map_eq_none_iff, List.find?_eq_none]
  intro f _ p hp
  obtain ⟨d, hd⟩ := h p hp
  simp [hd]

/-- A granted access of the issuing core lies at its offset in the core's own local store. -/
theorem spanOffset_ok {x : Issue} {c : CoreId} {a : Word} {n : Nat} {r : Right} {d : Nat} (hc : x.core = c)
    (h : x.st.ownAccess c a n r 1 = .ok d) : spanOffset x (x.st.ownAccess x.core a n r 1) = d - lsBase c := by
  subst hc
  simp only [spanOffset, h]

/-! ## TLD and TST -/

/-- A tile move whose rows' accesses are granted has no failing access. -/
theorem tileSpans_none {x : Issue} {c : CoreId} {addr : Word} {r : Right} (hc : x.core = c)
    (h : ∀ i, i < tRows x.w → ∃ d, x.st.ownAccess c (addOffset addr (i * tStride x.w : Nat)) (tBytes x.w) r 1 = .ok d) :
    spansFault ((List.range (tRows x.w)).map fun i =>
      (addOffset addr (i * tStride x.w : Nat), x.st.ownAccess x.core (addOffset addr (i * tStride x.w : Nat)) (tBytes x.w) r 1)) = none := by
  subst hc
  exact spansFault_none (List.forall_mem_map.2 fun i hi => h i (List.mem_range.1 hi))

/-- A load reads no tile row, and a store none that is marked. -/
theorem tileMarks_none {load : Bool} {g : CoreRegs} {p : BitVec 13} {first rows : Nat} (f : FaultReq)
    (h : load = false → ∀ i, i < rows → g.tileMarked p (first + i) = false) :
    (if !load && (List.range rows).any (fun i => g.tileMarked p (first + i)) then some f else none) = none := by
  refine if_neg ?_
  cases load
  case true => simp
  case false => simpa using h rfl

theorem tileMoves_claim : Claim.TileMoves := by
  intro c s load x g r p addr uses ports h hop hshape hspan hmark hport
  have hc : x.core = c := s.nextIssue_core c
  have hexec : exec (if load then .tld c else .tst c) s
      = issueOut (matrixRow (if load then 0x01 else 0x02) 2 fun _ => true) c (tileMove load) s := by
    cases load <;> rfl
  have hbody : tileMove load x = .ok _ := checked_cons hop <| checked_cons hshape <| checked_cons (tileSpans_none hc hspan) <|
    checked_cons (tileMarks_none _ hmark) <| checked_cons hport <| checked_nil _
  exact ⟨_, hexec, _, issue_next h hbody rfl rfl rfl rfl rfl rfl, rfl, rfl, rfl, rfl, rfl,
    fun _ => spanOffset_ok hc, rfl⟩

/-! ## WLD, MMT and MMS -/

/-- Every format but FP32 and the reserved codes has a slot class (R37). -/
theorem slotOf?_isSome {fmt : Nat} (h0 : 0 < fmt) (h : fmt ≤ 13) : (slotOf? fmt).isSome = true := by
  interval_cases fmt <;> rfl

/-- An array instruction that breaks no shape rule has a slot class: rules 0x01 and 0x02 admit no other format (R115). -/
theorem arraySlot_of_arrayShape {o : ArrayOp} {x : Issue} {src out : Word} (h : arrayShape o x src out = none) :
    ∃ l, arraySlot x.w = some l := by
  have rules := lowestTshape_eq_none.1 h
  have hcodes := breaks_eq_none.1 (rules _ (.head _))
  have hformats := breaks_eq_none.1 (rules _ (.tail _ (.head _)))
  simp only [Bool.or_eq_false_iff, decide_eq_false_iff_not, Nat.not_lt, beq_eq_false_iff_ne] at hcodes hformats
  obtain ⟨hfmt, hwfmt⟩ := hcodes
  obtain ⟨⟨⟨hfmt0, hwfmt0⟩, _⟩, _⟩ := hformats
  obtain ⟨a, ha⟩ := Option.isSome_iff_exists.1 (slotOf?_isSome (Nat.pos_of_ne_zero hfmt0) hfmt)
  obtain ⟨b, hb⟩ := Option.isSome_iff_exists.1 (slotOf?_isSome (Nat.pos_of_ne_zero hwfmt0) hwfmt)
  exact ⟨widest a b, by rw [arraySlot, ha, hb]⟩

/-- WLD's weight phase begins with the rows that its issue cycle reads (R79, R118). -/
theorem weightPhase_wld {x : Issue} {l : SlotClass} (h : arraySlot x.w = some l) :
    ∃ got, (weightPhase .wld x).1 = [(x.now + 1, phaseRead, .wlRows (weightLoad x l) 1 got)] := by
  simp only [weightPhase, h, loadsWeights, beq_self_eq_true, Bool.true_or, if_true]
  exact ⟨_, rfl⟩

theorem completes_wld {c : CoreId} {s : State} (h : Issues (matrixRow 0x10 3 fun _ => true) c s)
    (hshape : arrayShape .wld (s.nextIssue c) 0 0 = none) :
    Completes (.wld c) s fun t => ∃ l got, arraySlot (s.nextIssue c).w = some l
      ∧ Issued c s t 3 8 1 [((s.nextIssue c).now + 1, phaseRead, .wlRows (weightLoad (s.nextIssue c) l) 1 got)] := by
  obtain ⟨l, hl⟩ := arraySlot_of_arrayShape hshape
  obtain ⟨got, hacts⟩ := weightPhase_wld hl
  exact ⟨_, rfl, l, got, hl, issue_next h (checked_ok (List.forall_mem_singleton.2 hshape)) rfl rfl rfl rfl rfl hacts⟩

/-- The accesses of an MMS, all granted: its input, the output that it accumulates onto, and its output (R126, R127). -/
theorem mmsSpans_none {src out : Word} {acc : Bool} {input held output : Except AccessFault Nat} {d e : Nat} (hi : input = .ok d)
    (ho : output = .ok e) (hh : acc = true → held = .ok e) :
    spansFault ((src, input) :: ((if acc then [(out, held)] else []) ++ [(out, output)])) = none := by
  refine spansFault_none (List.forall_mem_cons.2 ⟨⟨d, hi⟩, List.forall_mem_append.2 ⟨?_, List.forall_mem_singleton.2 ⟨e, ho⟩⟩⟩)
  cases acc
  case false => exact fun _ hp => (nomatch hp)
  case true => exact List.forall_mem_singleton.2 ⟨e, hh rfl⟩

theorem arrayInstructions_claim : Claim.ArrayInstructions := by
  refine fun c s => ⟨completes_wld, fun h hshape => ?mmt, ?mms⟩
  case mmt =>
    exact ⟨_, rfl, _, issue_next h (checked_ok (List.forall_mem_singleton.2 hshape)) rfl rfl rfl rfl rfl rfl,
      rfl, rfl, rfl, rfl, toNat_ofNat_bits _ _ 4, rfl, rfl⟩
  case mms =>
    intro h src out m size d e hdst hsrc hout hshape hin hwr hrd hport
    have hc : (s.nextIssue c).core = c := s.nextIssue_core c
    have hspans := mmsSpans_none (src := src) (out := out) hin hwr hrd
    rw [← congrArg (s.nextIssue c).st.ownAccess hc] at hspans
    have hbody : streamMode (s.nextIssue c) = .ok _ := checked_cons (poisonX_none (List.forall_mem_singleton.2 hdst)) <| checked_cons hsrc <|
      checked_cons hout <| checked_cons hshape <| checked_cons hspans <| checked_cons hport <| checked_nil _
    exact ⟨_, rfl, _, issue_next h hbody rfl rfl rfl rfl rfl rfl,
      spanOffset_ok hc hin, spanOffset_ok hc hwr, rfl, rfl, toNat_ofNat_bits _ _ 4, rfl, rfl, rfl, rfl⟩

/-! ## The halt of a poisoned row -/

/-- A core with nothing in its schedule any more. -/
def Core.emptied (k : Core) : Core := { k with flight := { k.flight with sched := [] } }

/-- A core whose whole schedule is one act of an earlier cycle that gives rise to no other: the act takes place, and nothing is
left (R78). -/
theorem runPending_single {c : CoreId} {s : State} {e : Sched} (hs : (s.core c).flight.sched = [e]) (hw : e.act.work = 1)
    (hp : e.phase ≠ phaseClip) (hnow : e.cycle < (s.core c).flight.now) : runPending c s = applyAct c e (s.modCore c Core.emptied) := by
  have hrun : ∀ upto : Option Nat, upto.all (e.cycle ≤ ·) = true →
      runActs c upto (schedWork (s.core c).flight.sched) s = applyAct c e (s.modCore c Core.emptied) := fun upto hup => by
    rw [hs, schedWork_cons, hw]
    simp only [schedWork_nil, runActs, hs, hup, if_true, State.modCore, Core.emptied, if_neg hp, Nat.max_eq_left (Nat.le_of_lt hnow)]
  unfold runPending
  split
  · exact hrun _ (decide_eq_true (Nat.le_sub_one_of_lt hnow))
  · exact hrun _ rfl

/-- A core with nothing scheduled has no cycles that change anything. -/
theorem runPending_idle {c : CoreId} {s : State} (h : (s.core c).flight.sched = []) : runPending c s = s := by
  unfold runPending
  split
  · exact runTo_idle _ h
  · exact drain_idle h

/-- Where the next entry of a core's log stands, a fault logged has its entry, without ADDR and AUX in a confidential partition
(R100, R104). -/
theorem State.log_logFault (s : State) (c : CoreId) (e : FaultEntry) :
    ((s.logFault c e).core c).ctl.log[(s.core c).ctl.fltNext.toNat]?
      = some (if s.confidential (s.corePart c) then { e with addr := 0, aux := 0 } else e) := by
  rw [State.logFault, State.core_modCore]
  exact Vector.getElem?_setIfInBounds_self_of_lt (BitVec.isLt _)

/-- An error event counts once under its class (R455). -/
theorem State.logError_counts (s : State) (e : ErrorEvent) {n : Nat} (h : sourceClass e.source = n) (hn : n < 4) :
    (s.logError e).errors.counts[n] = s.errors.counts[n] + 1 := by
  subst h
  simp [State.logError, hn]

/-- The log entry of a poisoned row that an entry of the schedule comes upon (R96, R100). -/
def poisonFault (e : Sched) (i : Nat) : FaultEntry :=
  { code := 0x0D, cls := .halt, detail := 0, index := e.index, half := e.half, count := e.count, addr := 0, aux := BitVec.ofNat 32 i }

/-- The error event of a poison on a core (R448). -/
def State.poisonEvent (s : State) (c : CoreId) : ErrorEvent :=
  { source := 0x11, part := s.corePart c, unit := dieUnit c, core := c.toNat, address := 0, detail := 0x0D }

/-- A POISON found after issue ends issue and drops the instruction's later rows from the schedule, then logs the fault and the
event. -/
theorem State.poisonHalt_eq (s : State) (c : CoreId) (e : Sched) (i : Nat) : ∃ f : Core → Core,
    s.poisonHalt c e i = ((s.modCore c f).logFault c (poisonFault e i)).logError (s.poisonEvent c)
      ∧ ∀ k, (f k).regs = k.regs ∧ (k.flight.sched = [] → (f k).flight.sched = [])
        ∧ (k.ctl.state ≠ .dumping → (f k).ctl = { k.ctl with state := .halted, hold := .none }) := by
  refine ⟨_, rfl, fun k => ⟨rfl, fun h => ?_, fun h => if_neg h⟩⟩
  exact congrArg (List.filter _) h

/-- A POISON found after issue, on a core that is not dumping: it halts, names the row in its log, and one contained error counts;
its registers stay (R96, R451). -/
theorem poisonHalt_spec {c : CoreId} {s : State} {k : Core} (e : Sched) (i : Nat) (hk : s.core c = k) (hs : k.flight.sched = [])
    (hd : k.ctl.state ≠ .dumping) :
    ((s.poisonHalt c e i).core c).ctl.state = .halted ∧ ((s.poisonHalt c e i).core c).flight.sched = []
      ∧ ((s.poisonHalt c e i).core c).ctl.lastFault = 0x0D
      ∧ ((s.poisonHalt c e i).core c).ctl.log[k.ctl.fltNext.toNat]?
        = some { poisonFault e i with aux := if s.confidential (s.corePart c) then 0 else BitVec.ofNat 32 i }
      ∧ ((s.poisonHalt c e i).core c).regs = k.regs ∧ (s.poisonHalt c e i).errors.counts[1] = s.errors.counts[1] + 1 := by
  obtain ⟨f, hf, hcore⟩ := s.poisonHalt_eq c e i
  obtain ⟨hregs, hsched, hctl⟩ := hcore k
  have hfk : (s.modCore c f).core c = f k := by rw [State.core_modCore, hk]
  have hsame := ((s.modCore c f).logFault_spec c (poisonFault e i)).2
  have hlog := (s.modCore c f).log_logFault c (poisonFault e i)
  rw [hfk] at hsame hlog
  rw [hf, State.core_logError, State.logError_counts _ _ (n := 1) rfl (by decide), hsame.state, hsame.flight, hsame.regs, State.lastFault_logFault]
  rw [hctl hd] at hlog ⊢
  refine ⟨rfl, hsched hs, rfl, hlog.trans (congrArg some ?_), hregs, rfl⟩
  change (if s.confidential (s.corePart c) then _ else _) = _
  split <;> rfl

/-- The halt of a poisoned row is what the core's cycles up to its next issue do, where they halt it. -/
theorem exec_poisonRowHalt_halts {c : CoreId} {s : State} (h : (s.core c).ctl.state = .running) (ht : ((runPending c s).core c).ctl.state = .halted) :
    exec (.poisonRowHalt c) s = .next (runPending c s) :=
  congrArg Host.Outcome.next (if_pos ⟨.inl h, ht⟩)

theorem poisonRowHalts_claim : Claim.PoisonRowHalts := by
  refine fun c s => ⟨fun hidle => ?idle, fun hrun hwait => ?ended, fun e i hrun hs hact hphase hnow => ?halts⟩
  case idle => exact congrArg Host.Outcome.next (ite_eq_right_iff.2 fun _ => runPending_idle hidle)
  case ended => exact congrArg Host.Outcome.next (if_neg fun h => h.1.elim hrun hwait)
  case halts =>
    have hpending : runPending c s = (s.modCore c Core.emptied).poisonHalt c e i := by
      rw [runPending_single hs (by rw [hact]; rfl) (by rw [hphase]; decide) hnow]
      simp only [applyAct, hact]
    obtain ⟨hstate, hspec⟩ := poisonHalt_spec e i (s.core_modCore c Core.emptied) rfl (hrun ▸ by decide)
    refine ⟨_, exec_poisonRowHalt_halts hrun (by rw [hpending]; exact hstate), ?_⟩
    obtain ⟨hsched, hlast, hlog, hregs, hcount⟩ := hspec
    rw [hpending]
    exact ⟨hstate, hsched, hlast, hlog, hregs, State.poisonHalt_mem .., hcount, fun d hd =>
      (State.core_poisonHalt_other _ e i hd).trans (s.core_modCore_other _ hd)⟩

/-- Settles O17: every check that passes leaves the one effect of the instruction, and a poisoned row that is reached halts its
core in its log's next entry. -/
theorem tilesAndArray : Obligations.TilesAndArray := ⟨tileMoves_claim, arrayInstructions_claim, poisonRowHalts_claim⟩

end Sys2Proof.Machine
end

section
/-! # Vector integer, move, compare and predicate forms (R134–R142, R151, R152) -/

namespace Sys2Proof.Machine

/-! ## The elements of a V register that is written (R136, R140) -/

theorem vSize_mul_vl (w : Nat) : vSize w * vl (vSize w) = 256 := by
  have hesz : vEsz w < 4 := Nat.mod_lt _ (by decide)
  unfold vl vSize
  interval_cases vEsz w <;> rfl

/-- An element's bytes lie within the 256 of the register. -/
theorem vSize_mul_succ_le {w i : Nat} (h : i < vl (vSize w)) : vSize w * (i + 1) ≤ 256 :=
  (Nat.mul_le_mul_left _ h).trans_eq (vSize_mul_vl w)

/-- A byte mask of elements, each written whole or not at all. -/
theorem bits_byteMask {w i : Nat} (f : Nat → Bool) (h : i < vl (vSize w)) :
    bits (BitVec.ofNat 256 (packFields (vSize w) (((List.range (vl (vSize w))).map f).map
        fun b => if b then 2 ^ vSize w - 1 else 0))).toNat (vSize w * i) (vSize w)
      = if f i then 2 ^ vSize w - 1 else 0 := by
  rw [bits_ofNat_packFields _ (vSize_mul_succ_le h), List.map_map, elemAt_map_range _ h]
  refine Nat.mod_eq_of_lt ?_
  have hpos := Nat.two_pow_pos (vSize w)
  dsimp only [Function.comp_apply]
  split
  · exact Nat.sub_lt hpos Nat.one_pos
  · exact hpos

/-- The mask that a result is written under: its active elements, and under zeroing all of them. -/
theorem bits_resultMask (g : CoreRegs) (z : Bool) {w i : Nat} (h : i < vl (vSize w)) :
    bits (BitVec.ofNat 256 (packFields (vSize w) ((activeBits g w (vl (vSize w))).map
        fun a => if a || z then 2 ^ vSize w - 1 else 0))).toNat (vSize w * i) (vSize w)
      = if (g.readP (vPg w)).toNat.testBit i || z then 2 ^ vSize w - 1 else 0 := by
  have hmask := bits_byteMask (fun i => (g.readP (vPg w)).toNat.testBit i || z) h
  rw [List.map_map] at hmask
  rw [activeBits, List.map_map]
  exact hmask

/-- The value of a result at an element: the element's own where it is active, cut to its width, and zero elsewhere. -/
theorem bits_resultValue (g : CoreRegs) (f : Nat → Nat) {w i : Nat} (h : i < vl (vSize w)) :
    bits (BitVec.ofNat 2048 (packFields (8 * vSize w) (((activeBits g w (vl (vSize w))).zip ((List.range (vl (vSize w))).map f)).map
        fun p => if p.1 then p.2 else 0))).toNat (8 * vSize w * i) (8 * vSize w)
      = if (g.readP (vPg w)).toNat.testBit i then f i % 2 ^ (8 * vSize w) else 0 := by
  have hfit : 8 * vSize w * (i + 1) ≤ 2048 := by
    have := vSize_mul_succ_le h
    rw [Nat.mul_assoc]
    omega
  rw [bits_ofNat_packFields _ hfit, activeBits_zip, List.map_map, elemAt_map_range _ h]
  simp only [Function.comp_apply, apply_ite (· % 2 ^ (8 * vSize w)), Nat.zero_mod]

/-! ## Integer, logic and shift forms (R138, R141) -/

theorem bits_lt (n lo len : Nat) : bits n lo len < 2 ^ len := Nat.mod_lt _ (Nat.two_pow_pos len)

theorem wrapInt_lt (w : Nat) (i : Int) : wrapInt w i < 2 ^ w := by
  have hpos : (0 : Int) < (2 ^ w : Nat) := by exact_mod_cast Nat.two_pow_pos w
  have := Int.emod_lt_of_pos i hpos
  unfold wrapInt
  omega

/-- The elements of two registers at a size, pair by pair. -/
theorem elems_zip (a b : BitVec 2048) (s : Nat) :
    (elems a s).zip (elems b s) = (List.range (vl s)).map fun i => (bits a.toNat (8 * s * i) (8 * s), bits b.toNat (8 * s * i) (8 * s)) :=
  List.zip_map' ..

/-- Element i of an integer form's result, before it is cut to its width. -/
def vecIntElem (f : Nat → Bool → Nat → Nat → Nat) (x : Issue) (i : Nat) : Nat :=
  f (8 * vSize x.w) (vSgn x.w) (bits (x.k.regs.readV (wSrc1 x.w)).toNat (8 * vSize x.w * i) (8 * vSize x.w))
    (bits (x.k.regs.readV (wSrc2 x.w)).toNat (8 * vSize x.w * i) (8 * vSize x.w))

theorem vecInt_ok (f : Nat → Bool → Nat → Nat → Nat) (x : Issue) :
    vecInt f x = .ok (x.vplain [auditV (wSrc1 x.w), auditV (wSrc2 x.w)]
      (vResult x 3 (vSize x.w) (vZm x.w) (activeBits x.k.regs x.w (vl (vSize x.w))) ((List.range (vl (vSize x.w))).map (vecIntElem f x))
        (x.k.regs.markV (wSrc1 x.w) || x.k.regs.markV (wSrc2 x.w)))) := by
  simp only [vecInt, elems_zip, List.map_map]
  rfl

/-- What a row of the integer forms answers, for the function of its elements. -/
def VecIntAnswers (F : Nat → Bool → Nat → Nat → Nat) (c : CoreId) (s t : State) : Prop :=
  let x := s.nextIssue c
  let g := x.k.regs
  let z := vSize x.w
  ∃ mask v, Issued c s t 1 2 1 [(x.now + 3, phaseResult, .wV (wDst x.w) mask v (g.markV (wSrc1 x.w) || g.markV (wSrc2 x.w)))]
    ∧ ∀ i, i < vl z →
      let active := (g.readP (vPg x.w)).toNat.testBit i
      bits mask.toNat (z * i) z = (if active || vZm x.w then 2 ^ z - 1 else 0)
      ∧ bits v.toNat (8 * z * i) (8 * z) = if active then
          F (8 * z) (vSgn x.w) (bits (g.readV (wSrc1 x.w)).toNat (8 * z * i) (8 * z)) (bits (g.readV (wSrc2 x.w)).toNat (8 * z * i) (8 * z)) else 0

/-- A row of the integer forms completes with the function that its own, cut to the width of an element, is. -/
theorem completes_vecInt {i : Instr} {opc : Nat} {f F : Nat → Bool → Nat → Nat → Nat} {c : CoreId} {s : State}
    (hi : exec i s = issueOut (vectorRow opc legalVecInt) c (vecInt f) s)
    (hF : ∀ w g a b, a < 2 ^ w → b < 2 ^ w → f w g a b % 2 ^ w = F w g a b) (h : Issues (vectorRow opc legalVecInt) c s) :
    Completes i s fun t => VecIntAnswers F c s t := by
  refine ⟨_, hi, _, _, issued_of_vplain h (vecInt_ok f _), fun i hi => ⟨bits_resultMask _ _ hi, ?_⟩⟩
  rw [bits_resultValue _ _ hi, vecIntElem, hF _ _ _ _ (bits_lt ..) (bits_lt ..)]

/-- A function of elements that stays below the width's bound is not cut. -/
theorem mod_two_pow_ite {p : Prop} [Decidable p] {a b w : Nat} (ha : a < 2 ^ w) (hb : b < 2 ^ w) :
    (if p then a else b) % 2 ^ w = if p then a else b :=
  Nat.mod_eq_of_lt (by split <;> assumption)

/-- Settles O12: each row is its operation on the pairs of elements, and cutting to the element's width is part of the operation
or changes nothing. -/
theorem vectorInteger : Obligations.VectorInteger := by
  unfold Obligations.VectorInteger Claim.VectorInteger
  simp only [List.forall_mem_cons, List.not_mem_nil, false_implies, implies_true, and_true]
  exact ⟨fun _ _ => completes_vecInt (f := fun _ _ a b => a + b) rfl fun _ _ _ _ _ _ => rfl,
    fun _ _ => completes_vecInt (f := fun w _ a b => a + 2 ^ w - b) rfl fun _ _ _ _ _ _ => rfl,
    fun _ _ => completes_vecInt (f := fun _ _ a b => a * b) rfl fun _ _ _ _ _ _ => rfl,
    fun _ _ => completes_vecInt (f := fun w g a b => if elemInt w g a ≤ elemInt w g b then a else b) rfl
      fun _ _ _ _ ha hb => mod_two_pow_ite ha hb,
    fun _ _ => completes_vecInt (f := fun w g a b => if elemInt w g a ≤ elemInt w g b then b else a) rfl
      fun _ _ _ _ ha hb => mod_two_pow_ite hb ha,
    fun _ _ => completes_vecInt (f := fun _ _ a b => a &&& b) rfl fun _ _ _ _ _ hb => Nat.mod_eq_of_lt (Nat.and_lt_two_pow _ hb),
    fun _ _ => completes_vecInt (f := fun _ _ a b => a ||| b) rfl fun _ _ _ _ ha hb => Nat.mod_eq_of_lt (Nat.or_lt_two_pow ha hb),
    fun _ _ => completes_vecInt (f := fun _ _ a b => a ^^^ b) rfl fun _ _ _ _ ha hb => Nat.mod_eq_of_lt (Nat.xor_lt_two_pow ha hb),
    fun _ _ => completes_vecInt (f := fun w _ a b => a <<< (b % w)) rfl fun _ _ _ _ _ _ => rfl,
    fun _ _ => completes_vecInt (f := fun w g a b => wrapInt w (elemInt w g a / 2 ^ (b % w))) rfl
      fun _ _ _ _ _ _ => Nat.mod_eq_of_lt (wrapInt_lt ..)⟩

/-! ## Moves, and the element that VEXT takes (R134, R138, R141) -/

/-- VEXT with an unmarked index: the element, or zero from VL on. -/
theorem vecExtract_ok {x : Issue} (h : x.k.regs.markX (wSrc2 x.w) = false) :
    vecExtract x = .ok (x.vplain [auditV (wSrc1 x.w), auditX (wSrc2 x.w)] [(x.now + 3, phaseResult, .wX (wDst x.w)
      (toWord (elemInt (8 * vSize x.w) (vSgn x.w) (if (x.k.regs.readX (wSrc2 x.w)).toNat < 256 / vSize x.w then
        bits (x.k.regs.readV (wSrc1 x.w)).toNat (8 * vSize x.w * (x.k.regs.readX (wSrc2 x.w)).toNat) (8 * vSize x.w) else 0)))
      (x.k.regs.markV (wSrc1 x.w)))]) := by
  have helem : (if (x.k.regs.readX (wSrc2 x.w)).toNat < vl (vSize x.w) then
        elemAt (elems (x.k.regs.readV (wSrc1 x.w)) (vSize x.w)) (x.k.regs.readX (wSrc2 x.w)).toNat else 0)
      = if (x.k.regs.readX (wSrc2 x.w)).toNat < 256 / vSize x.w then
        bits (x.k.regs.readV (wSrc1 x.w)).toNat (8 * vSize x.w * (x.k.regs.readX (wSrc2 x.w)).toNat) (8 * vSize x.w) else 0 :=
    ite_congr rfl (fun h => elemAt_elems _ h) fun _ => rfl
  rw [← helem]
  exact checked_poisonX (List.forall_mem_singleton.2 h)

theorem vectorMoves_claim : Claim.VectorMoves := by
  intro c s
  refine ⟨fun h => ?vmov, fun h => ?vdup, fun h => ?viota, fun h => ?vsize, fun h hb => ?vext⟩
  case vmov => exact completes_of_vplain rfl h rfl rfl
  case vdup =>
    refine completes_of_vplain rfl h rfl ?_
    rw [List.any_cons, List.any_nil, Bool.or_false]
    rfl
  case viota =>
    refine completes_of_vplain rfl h rfl ?_
    rw [List.any_cons, List.any_cons, List.any_nil, Bool.or_false]
    rfl
  case vsize => exact completes_of_vplain rfl h rfl rfl
  case vext => exact completes_of_vplain rfl h (vecExtract_ok hb) rfl

/-! ## Comparison and predicates (R138–R140, R142, R151, R152) -/

theorem activeBits_zipIdx (g : CoreRegs) (w n : Nat) :
    (activeBits g w n).zipIdx = (List.range n).map fun i => ((g.readP (vPg w)).toNat.testBit i, i) := zipIdx_map_range ..

/-- VCMP on unmarked registers: the test on each active pair of elements. -/
theorem vecCompare_ok {x : Issue} (h1 : x.k.regs.markV (wSrc1 x.w) = false) (h2 : x.k.regs.markV (wSrc2 x.w) = false) :
    vecCompare x = .ok (x.vplain [auditV (wSrc1 x.w), auditV (wSrc2 x.w)] (pResult x 3
      ((activeBits x.k.regs x.w (vl (vSize x.w))).zipIdx.map fun p => p.1 && compareElem x.w
        (bits (x.k.regs.readV (wSrc1 x.w)).toNat (8 * vSize x.w * p.2) (8 * vSize x.w))
        (bits (x.k.regs.readV (wSrc2 x.w)).toNat (8 * vSize x.w * p.2) (8 * vSize x.w))))) := by
  have hmark : poisonV x.k.regs [wSrc1 x.w, wSrc2 x.w] = none := poisonV_none (List.forall_mem_cons.2 ⟨h1, List.forall_mem_singleton.2 h2⟩)
  simp only [vecCompare, elems_zip, activeBits_zip, activeBits_zipIdx, List.map_map]
  exact checked_ok (List.forall_mem_singleton.2 hmark)

/-- PCNT counts the elements that its test holds of. -/
theorem predCount_ok (x : Issue) :
    predCount x = .ok (x.vplain [] [(x.now + 2, phaseResult, .wX (wDst x.w) (BitVec.ofNat 64
      (((activeBits x.k.regs x.w (vl (vSize x.w))).zipIdx.map fun p => p.1 && (x.k.regs.readP (wSrc1 x.w)).toNat.testBit p.2).count true)) false)]) := by
  rw [List.count, List.countP_map, List.countP_eq_length_filter]
  simp only [Function.comp_def, beq_true]
  rfl

theorem predicates_claim : Claim.Predicates := by
  intro c s
  refine ⟨fun h h1 h2 => ?vcmp, fun h h1 h2 => ?pgenLt, fun h h1 h2 => ?pgenLtu, fun h => ?psetall, ?logic, fun h => ?pnot, fun h => ?pcnt,
    fun h => ?ffget, fun h => ?ffput, fun h => ?ffidx⟩
  case vcmp => exact completes_of_vplain rfl h (vecCompare_ok h1 h2) rfl
  case pgenLt =>
    exact completes_of_vplain rfl h (checked_poisonX (List.forall_mem_cons.2 ⟨h1, List.forall_mem_singleton.2 h2⟩)) rfl
  case pgenLtu =>
    exact completes_of_vplain rfl h (checked_poisonX (List.forall_mem_cons.2 ⟨h1, List.forall_mem_singleton.2 h2⟩)) rfl
  case psetall => exact completes_of_vplain rfl h rfl rfl
  case logic =>
    simp only [List.forall_mem_cons, List.not_mem_nil, false_implies, implies_true, and_true]
    exact ⟨fun h => completes_of_vplain rfl h rfl rfl, fun h => completes_of_vplain rfl h rfl rfl, fun h => completes_of_vplain rfl h rfl rfl⟩
  case pnot => exact completes_of_vplain rfl h rfl rfl
  case pcnt => exact completes_of_vplain rfl h (predCount_ok _) rfl
  case ffget => exact completes_of_vplain rfl h rfl rfl
  case ffput => exact completes_of_vplain rfl h rfl rfl
  case ffidx => exact completes_of_vplain rfl h rfl rfl

/-- Settles O13: every row's meaning is one write of a register at its latency, of the test or move on each element. -/
theorem vectorMovesAndPredicates : Obligations.VectorMovesAndPredicates := ⟨vectorMoves_claim, predicates_claim⟩

end Sys2Proof.Machine
end

section
/-! # Vector loads and stores whose active elements all resolve (R152–R160, R180) -/

namespace Sys2Proof.Machine

/-! ## The elements checked (R155) -/

/-- Elements that all resolve leave none that fails. -/
theorem checkElements_ok {x : Issue} {m : MemForm} {r : Right} {offs : Nat → List Nat} {l : List Nat}
    (h : ∀ i ∈ l, elementAccess x m r i = .ok (offs i)) : checkElements x m r l = { good := l.map fun i => (i, offs i), bad := none } := by
  induction l with
  | nil => rfl
  | cons i t ih =>
    obtain ⟨hi, ht⟩ := List.forall_mem_cons.1 h
    simp only [checkElements, hi, ih ht, List.map_cons]

/-- The resolved elements that meet a condition, each turned into the parts of its transfer. -/
theorem flatMap_filter_resolved {α : Type} (l : List Nat) (offs : Nat → List Nat) (f : Nat → Bool) (g : Nat × List Nat → List α) :
    ((l.map fun i => (i, offs i)).filter fun p => f p.1).flatMap g = (l.filter f).flatMap fun i => g (i, offs i) := by
  rw [List.filter_map, List.flatMap_map]
  rfl

theorem firstElementFault_none (l : List (Nat × List Nat)) : firstElementFault { good := l, bad := none } = none := rfl

theorem elementFault_none (l : List (Nat × List Nat)) : elementFault { good := l, bad := none } = none := rfl

theorem elementEnd_none (x : Issue) (l : List (Nat × List Nat)) : elementEnd x { good := l, bad := none } = vl (vSize x.w) := rfl

/-! ## Loads (R152, R154, R156) -/

/-- The moves of some elements of a load: each field's bytes to its register. -/
def loadMoves (x : Issue) (offs : Nat → List Nat) (l : List Nat) : List Move :=
  l.flatMap fun i => (offs i).zipIdx.map fun o => { reg := wDst x.w + o.2, pos := vSize x.w * i, addr := o.1, len := vSize x.w }

/-- Does a load write element i: active, or zeroed, and not below the element it starts at (R140, R156)? -/
def loadWrites (x : Issue) (i : Nat) : Bool := decide (firstElement x ≤ i) && ((x.k.regs.readP (vPg x.w)).toNat.testBit i || vZm x.w)

/-- The bytes that a load writes of each of its registers. -/
def loadMask (x : Issue) : BitVec 256 :=
  BitVec.ofNat 256 (packFields (vSize x.w) (((List.range (vl (vSize x.w))).map (loadWrites x)).map fun b => if b then 2 ^ vSize x.w - 1 else 0))

/-- The registers that a form loads. -/
def loadRegs (x : Issue) (m : MemForm) : List Nat := (List.range m.fields).map (wDst x.w + ·)

/-- The acts of a load of which every element resolves. -/
def loadActs (x : Issue) (m : MemForm) (latency : Nat) (ff : Bool) (offs : Nat → List Nat) : List (Nat × Nat × Act) :=
  (x.now + 1, phaseRead, .vRead (loadMoves x offs ((activeElements x).filter fun i => decide (i < vl (vSize x.w) / 2)))
      (loadMoves x offs ((activeElements x).filter fun i => decide (vl (vSize x.w) / 2 ≤ i)))
      ((loadRegs x m).map fun r => (r, 0)) ((loadRegs x m).map fun r => (r, loadMask x)) [] (x.now + latency))
    :: ((if ff then [(x.now + latency, phaseResult, .wFfr (packPred (activeBits x.k.regs x.w (vl (vSize x.w)))))] else []) ++ vstartDone x)

/-- The elements that a load writes where none of them fails: up to the last. -/
theorem written_eq (x : Issue) :
    ((activeBits x.k.regs x.w (vl (vSize x.w))).zipIdx.map fun p =>
        decide (firstElement x ≤ p.2) && decide (p.2 < vl (vSize x.w)) && (p.1 || vZm x.w))
      = (List.range (vl (vSize x.w))).map (loadWrites x) := by
  rw [activeBits_zipIdx, List.map_map]
  refine List.map_congr_left fun i hi => ?_
  simp [loadWrites, List.mem_range.1 hi]

theorem vectorLoad_ok {x : Issue} {m : MemForm} (latency : Nat) (ff : Bool) {offs : Nat → List Nat} (hfirst : firstElement x < vl (vSize x.w))
    (hres : ∀ i ∈ activeElements x, elementAccess x m .rd i = .ok (offs i)) (hmark : memPoison x m = none)
    (hport : lsPort x.k x.now (memPorts x m false) = none) :
    vectorLoad m latency ff x
      = .ok { x.vplain (memReads x m) (loadActs x m latency ff offs) with ports := memPorts x m false } := by
  simp only [vectorLoad, if_neg (Nat.not_le.2 hfirst), checkElements_ok hres, firstElementFault_none, elementFault_none, elementEnd_none, hmark,
    hport, flatMap_filter_resolved _ offs fun i => decide (i < vl (vSize x.w) / 2),
    flatMap_filter_resolved _ offs fun i => decide (vl (vSize x.w) / 2 ≤ i), written_eq, ite_self]
  rfl

/-- What a load writes of a register at an element. -/
theorem bits_loadMask {x : Issue} {i : Nat} (h : i < vl (vSize x.w)) :
    bits (loadMask x).toNat (vSize x.w * i) (vSize x.w)
      = if firstElement x ≤ i ∧ ((x.k.regs.readP (vPg x.w)).toNat.testBit i = true ∨ vZm x.w = true) then 2 ^ vSize x.w - 1 else 0 := by
  rw [loadMask, bits_byteMask _ h]
  simp only [loadWrites, Bool.and_eq_true, Bool.or_eq_true, decide_eq_true_eq]

/-- What a load of an instruction that issues answers, where every active element resolves. -/
def LoadAnswers (m : MemForm) (latency : Nat) (ff : Bool) (offs : Nat → List Nat) (c : CoreId) (s t : State) : Prop :=
  let x := s.nextIssue c
  let g := x.k.regs
  let z := vSize x.w
  let n := vl z
  let moves (l : List Nat) : List Move :=
    l.flatMap fun i => (offs i).zipIdx.map fun o => { reg := wDst x.w + o.2, pos := z * i, addr := o.1, len := z }
  ∃ regs masks, Issued c s t 1 2 1
    ((x.now + 1, phaseRead, .vRead (moves ((activeElements x).filter fun i => decide (i < n / 2)))
        (moves ((activeElements x).filter fun i => decide (n / 2 ≤ i))) regs masks [] (x.now + latency))
      :: ((if ff then [(x.now + latency, phaseResult, .wFfr (packPred (activeBits g x.w n)))] else [])
        ++ if x.reissue then [(x.now + 1, phaseResult, .wVstart 0)] else []))
    ∧ masks.map (·.1) = (List.range m.fields).map (wDst x.w + ·) ∧ regs = masks.map (fun p => (p.1, 0))
    ∧ ∀ p ∈ masks, ∀ i, i < n → bits p.2.toNat (z * i) z =
        if firstElement x ≤ i ∧ ((g.readP (vPg x.w)).toNat.testBit i = true ∨ vZm x.w = true) then 2 ^ z - 1 else 0

/-- A row of the loads completes with its moves, under the mask of the elements it writes. -/
theorem completes_vectorLoad {i : Instr} {opc : Nat} {m : MemForm} {latency : Nat} {ff : Bool} {offs : Nat → List Nat} {c : CoreId} {s : State}
    (hi : exec i s = issueOut (vmemRow opc m) c (vectorLoad m latency ff) s) (h : Issues (vmemRow opc m) c s)
    (hfirst : firstElement (s.nextIssue c) < vl (vSize (s.nextIssue c).w))
    (hres : ∀ i ∈ activeElements (s.nextIssue c), elementAccess (s.nextIssue c) m .rd i = .ok (offs i))
    (hmark : memPoison (s.nextIssue c) m = none)
    (hport : lsPort (s.nextIssue c).k (s.nextIssue c).now (memPorts (s.nextIssue c) m false) = none) :
    Completes i s fun t => LoadAnswers m latency ff offs c s t := by
  refine ⟨_, hi, _, _, issue_next h (vectorLoad_ok latency ff hfirst hres hmark hport) rfl rfl rfl rfl rfl rfl, ?regs, ?zeros, ?mask⟩
  case regs => simp [loadRegs, Function.comp_def]
  case zeros => simp [Function.comp_def]
  case mask =>
    rw [List.forall_mem_map]
    exact fun _ _ _ hi => bits_loadMask hi

/-! ## Stores (R154, R156, R158) -/

/-- The bytes of some elements of a store, each field's at its place. -/
def storeElems (x : Issue) (offs : Nat → List Nat) (l : List Nat) : List (Nat × List Byte) :=
  l.flatMap fun i => (offs i).zipIdx.map fun o =>
    (o.1, leBytes (vSize x.w) (bits (x.k.regs.readV (wDst x.w + o.2)).toNat (8 * vSize x.w * i) (8 * vSize x.w)))

/-- The acts of a store of which every element resolves. -/
def storeActs (x : Issue) (offs : Nat → List Nat) : List (Nat × Nat × Act) :=
  [(x.now + 1, phaseWrite, .lsWrite (storeElems x offs ((activeElements x).filter fun i => decide (i < vl (vSize x.w) / 2))) false),
    (x.now + 2, phaseWrite, .lsWrite (storeElems x offs ((activeElements x).filter fun i => decide (vl (vSize x.w) / 2 ≤ i))) false)]
    ++ vstartDone x

theorem vectorStore_ok {x : Issue} {m : MemForm} {offs : Nat → List Nat} (hfirst : firstElement x < vl (vSize x.w))
    (hres : ∀ i ∈ activeElements x, elementAccess x m .wr i = .ok (offs i)) (hmark : memPoison x m = none)
    (hport : lsPort x.k x.now (memPorts x m true) = none) (hdata : ∀ f, f < m.fields → x.k.regs.markV (wDst x.w + f) = false) :
    vectorStore m x
      = .ok { x.vplain (memReads x m ++ ((List.range m.fields).map (wDst x.w + ·)).map auditV) (storeActs x offs) with
          ports := memPorts x m true } := by
  have hregs : poisonV x.k.regs ((List.range m.fields).map (wDst x.w + ·)) = none :=
    poisonV_none (List.forall_mem_map.2 fun f hf => hdata f (List.mem_range.1 hf))
  simp only [vectorStore, if_neg (Nat.not_le.2 hfirst), checkElements_ok hres, firstElementFault_none, elementFault_none, hmark, hregs,
    hport, flatMap_filter_resolved _ offs fun i => decide (i < vl (vSize x.w) / 2),
    flatMap_filter_resolved _ offs fun i => decide (vl (vSize x.w) / 2 ≤ i)]
  rfl

/-- What a store of an instruction that issues answers, where every active element resolves. -/
def StoreAnswers (offs : Nat → List Nat) (c : CoreId) (s t : State) : Prop :=
  let x := s.nextIssue c
  let g := x.k.regs
  let z := vSize x.w
  let n := vl z
  let runs (l : List Nat) : List (Nat × List Byte) :=
    l.flatMap fun i => (offs i).zipIdx.map fun o => (o.1, leBytes z (bits (g.readV (wDst x.w + o.2)).toNat (8 * z * i) (8 * z)))
  Issued c s t 1 2 1 ([(x.now + 1, phaseWrite, .lsWrite (runs ((activeElements x).filter fun i => decide (i < n / 2))) false),
      (x.now + 2, phaseWrite, .lsWrite (runs ((activeElements x).filter fun i => decide (n / 2 ≤ i))) false)]
    ++ if x.reissue then [(x.now + 1, phaseResult, .wVstart 0)] else [])

/-- A row of the stores completes with its writes. -/
theorem completes_vectorStore {i : Instr} {opc : Nat} {m : MemForm} {offs : Nat → List Nat} {c : CoreId} {s : State}
    (hi : exec i s = issueOut (vmemRow opc m) c (vectorStore m) s) (h : Issues (vmemRow opc m) c s)
    (hfirst : firstElement (s.nextIssue c) < vl (vSize (s.nextIssue c).w))
    (hres : ∀ i ∈ activeElements (s.nextIssue c), elementAccess (s.nextIssue c) m .wr i = .ok (offs i))
    (hmark : memPoison (s.nextIssue c) m = none)
    (hport : lsPort (s.nextIssue c).k (s.nextIssue c).now (memPorts (s.nextIssue c) m true) = none)
    (hdata : ∀ f, f < m.fields → (s.nextIssue c).k.regs.markV (wDst (s.nextIssue c).w + f) = false) :
    Completes i s fun t => StoreAnswers offs c s t :=
  ⟨_, hi, issue_next h (vectorStore_ok hfirst hres hmark hport hdata) rfl rfl rfl rfl rfl rfl⟩

/-- Settles O16: with every element resolved each row's meaning is its moves or writes, the FFR of a first-fault form, and VSTART
cleared on a reissue. -/
theorem vectorMemory : Obligations.VectorMemory := by
  intro c s
  constructor
  · iterate 7 rw [List.forall_mem_cons]
    rw [List.forall_mem_singleton]
    exact ⟨fun _ => completes_vectorLoad rfl, fun _ => completes_vectorLoad rfl, fun _ => completes_vectorLoad rfl,
      fun _ => completes_vectorLoad rfl, fun _ => completes_vectorLoad rfl, fun _ => completes_vectorLoad rfl,
      fun _ => completes_vectorLoad rfl, fun _ => completes_vectorLoad rfl⟩
  · iterate 5 rw [List.forall_mem_cons]
    rw [List.forall_mem_singleton]
    exact ⟨fun _ => completes_vectorStore rfl, fun _ => completes_vectorStore rfl, fun _ => completes_vectorStore rfl,
      fun _ => completes_vectorStore rfl, fun _ => completes_vectorStore rfl, fun _ => completes_vectorStore rfl⟩

end Sys2Proof.Machine
end

section
/-! # The elements of a knife descriptor (R161–R166, R178) -/

namespace Sys2Proof.Machine

/-! ## The checks of an element (R165) -/

theorem stepElement_unreadable {c : CoreId} {p : Option Nat} {j : KnifeJob} {env : TransferEnv} {i : Nat} {m : KnifeMove}
    (h : readIndex m.st c j i = none ∨ env.noIndex = some i) :
    stepElement c p j env i m = { m with fault := some (0x06, BitVec.allOnes 64) } := by
  have hnone : (if env.noIndex = some i then none else readIndex m.st c j i) = none := by
    obtain h | h := h
    · rw [h, ite_self]
    · rw [if_pos h]
  simp only [stepElement, hnone]

theorem not_beyond_of_within {n x : Nat} (hx : n = 0 ∨ x < n) : ¬ (n ≠ 0 ∧ n ≤ x) := by omega

section
variable {c : CoreId} (p : Option Nat) {j : KnifeJob} {env : TransferEnv} {i x : Nat} {m : KnifeMove} (h : readIndex m.st c j i = some x)
  (hi : env.noIndex ≠ some i)
include h hi

theorem stepElement_beyond (h0 : kdBound j.raw ≠ 0) (hx : kdBound j.raw ≤ x) :
    stepElement c p j env i m = { m with fault := some (0x05, BitVec.ofNat 64 x) } := by
  simp only [stepElement, if_neg hi, h, if_pos (And.intro h0 hx)]

theorem stepElement_refused {f : AccessFault} (hx : kdBound j.raw = 0 ∨ x < kdBound j.raw) (hf : knifeFault m.st p j i x = some f) :
    stepElement c p j env i m = { m with fault := some (f.code, BitVec.ofNat 64 x) } := by
  simp only [stepElement, if_neg hi, h, if_neg (not_beyond_of_within hx), hf]

theorem stepElement_moved (hx : kdBound j.raw = 0 ∨ x < kdBound j.raw) (hf : knifeFault m.st p j i x = none)
    (hp : elementPages m.st j i x = []) :
    stepElement c p j env i m = { m with st := moveElement c p j (env.noValue == some i) i x m.st, done := m.done + 1 } := by
  simp only [stepElement, if_neg hi, h, if_neg (not_beyond_of_within hx), hf, hp, List.isEmpty_nil, if_true]

end

theorem knifeElementFaults_claim : Claim.KnifeElementFaults := by
  intro c p j env i m t
  refine ⟨fun h => ?unreadable, fun x h hi h0 hx => ?bound, fun x f h hi hx hf => ?access, fun x h hi hx hf hp => ?moved⟩
  case unreadable =>
    rw [show t = _ from stepElement_unreadable h]
    exact ⟨rfl, rfl, rfl⟩
  case bound =>
    rw [show t = _ from stepElement_beyond p h hi h0 hx]
    exact ⟨rfl, rfl, rfl⟩
  case access =>
    rw [show t = _ from stepElement_refused p h hi hx hf]
    exact ⟨rfl, rfl, rfl⟩
  case moved =>
    rw [show t = _ from stepElement_moved p h hi hx hf hp]
    exact ⟨rfl, rfl, rfl⟩

/-! ## The elements in ascending order (R164–R166) -/

/-- Has a descriptor ended its elements early, by a fault or for a cave page? -/
def KnifeMove.ended (m : KnifeMove) : Bool := m.fault.isSome || !m.waits.isEmpty

/-- An element ends the descriptor, or is done. -/
theorem stepElement_cases (c : CoreId) (p : Option Nat) (j : KnifeJob) (env : TransferEnv) (i : Nat) (m : KnifeMove) :
    (stepElement c p j env i m).ended = true ∨ (stepElement c p j env i m).done = m.done + 1 := by
  unfold stepElement
  split
  · exact .inl rfl
  · split
    · exact .inl rfl
    · split
      · exact .inl rfl
      · dsimp only
        split
        · exact .inr rfl
        next hneed => exact .inl (by simp only [KnifeMove.ended, hneed]; simp)

theorem stepElements_ended (c : CoreId) (p : Option Nat) (j : KnifeJob) (env : TransferEnv) (fuel i : Nat) {m : KnifeMove}
    (h : m.ended = true) : stepElements c p j env fuel i m = m := by
  cases fuel with
  | zero => rfl
  | succ n => exact if_pos h

/-- Elements that run to their end are all done. -/
theorem stepElements_done {c : CoreId} {p : Option Nat} {j : KnifeJob} {env : TransferEnv} {fuel i : Nat} {m : KnifeMove}
    (h : (stepElements c p j env fuel i m).ended = false) : (stepElements c p j env fuel i m).done = m.done + fuel := by
  induction fuel generalizing i m with
  | zero => rfl
  | succ n ih =>
    have hm : m.ended = false := by
      by_contra hm
      rw [stepElements_ended _ _ _ _ _ _ (by simpa using hm)] at h
      exact hm h
    have hstep : stepElements c p j env (n + 1) i m = stepElements c p j env n (i + 1) (stepElement c p j env i m) :=
      if_neg (by simpa [KnifeMove.ended] using hm)
    rw [hstep] at h ⊢
    obtain hended | hdone := stepElement_cases c p j env i m
    · rw [stepElements_ended _ _ _ _ _ _ hended, hended] at h
      cases h
    · rw [ih h, hdone]
      omega

/-! ## The knife takes its head (R161, R165, R169) -/

theorem CaveUse.waits_of_not_begun {u : CaveUse} (h : u.begun = false) : u.waits = [] := by
  simp only [CaveUse.begun, Bool.or_eq_false_iff, Bool.not_eq_false', List.isEmpty_iff] at h
  exact h.1.2

theorem State.gatherPages_nil (s : State) (p : Option Nat) (u : CaveUse) : s.gatherPages p [] u = (u, 0) := by
  unfold State.gatherPages
  split <;> rfl

/-- An accepted descriptor runs from the state in which it begins. -/
theorem takeKnife_accepted {op : Nat} {c : CoreId} {s : State} {j : KnifeJob} (h : KnifeAccepted op c s j) (env : TransferEnv) :
    takeKnife op c env s = runKnife c j env (s.knifeBegins c) := by
  obtain ⟨rest, hjobs⟩ := List.head?_eq_some_iff.1 h.head
  obtain ⟨hout, hcave⟩ := h.fresh
  have hgo : (j.outcome.isSome || !knifeMatches op j || !((runPending c s).core c).flight.writesBefore j.id
      || ((runPending c s).core c).flight.resetting) = false := by
    simp [hout, knifeMatches, h.isOp, h.settled, h.running]
  simp only [takeKnife, hjobs, hgo, hcave, h.normal, Bool.false_and, Bool.false_eq_true, if_false]
  rfl

/-- What a descriptor's elements end in (R161, R166). -/
def KnifeMove.result (m : KnifeMove) : DescOutcome :=
  match m.fault with
  | none => { nothingMoved 0 0 with done := m.done }
  | some f => { nothingMoved 0x01 f.1 with done := m.done, faultIndex := f.2 }

theorem KnifeMove.result_of_none {m : KnifeMove} (h : m.fault = none) :
    m.result = { status := 0, cause := 0, done := m.done, faultIndex := 0 } := by
  rw [KnifeMove.result, h]
  rfl

theorem KnifeMove.result_of_fault {m : KnifeMove} {f : Nat × Word} (h : m.fault = some f) :
    m.result = { status := 1, cause := BitVec.ofNat 8 f.1, done := m.done, faultIndex := f.2 } := by
  rw [KnifeMove.result, h]
  rfl

/-- The elements of an accepted descriptor move, and their outcome stands in its queue. -/
theorem runKnife_accepted {op : Nat} {c : CoreId} {s : State} {j : KnifeJob} (h : KnifeAccepted op c s j) :
    ∃ l, runKnife c j { noValue := none, ecc := [] } (s.knifeBegins c)
      = knifeOutcome c (knifeElements c j (s.knifeBegins c)).result
          (wakeFor l ((knifeElements c j (s.knifeBegins c)).st.modKnife c fun x => { x with jobs := j :: x.jobs.tail })) := by
  obtain ⟨_, hcave⟩ := h.fresh
  have hpages : (s.knifeBegins c).gatherPages ((s.knifeBegins c).corePart c) j.cave.waits j.cave = (j.cave, 0) := by
    rw [CaveUse.waits_of_not_begun hcave, State.gatherPages_nil]
  have hsound : ¬ badKnife c j = true := by simp [h.sound]
  unfold runKnife
  dsimp only
  rw [if_neg hsound, hpages]
  exact ⟨_, if_pos (List.isEmpty_iff.2 h.resident)⟩

@[simp] theorem wakeFor_marks (l : List Nat) (s : State) : (wakeFor l s).marks = s.marks := by
  simpa using congrArg State.marks (wakeFor_frame l s)

/-- A descriptor put at the head of the queue, and the domains on its way woken, then its outcome. -/
theorem knifeOutcome_head (c : CoreId) (o : DescOutcome) (l : List Nat) (j : KnifeJob) (s : State) :
    ((knifeOutcome c o (wakeFor l (s.modKnife c fun x => { x with jobs := j :: x.jobs.tail }))).core c).flight.knife.jobs.head?
      = some { j with outcome := some o } := by
  rw [knifeOutcome, State.knife_modKnife, wakeFor_core, State.knife_modKnife]
  rfl

/-- A row of the knife completes with the outcome of its elements. -/
theorem completes_knife {i : Instr} {op : Nat} {c : CoreId} {s : State} {j : KnifeJob}
    (hi : exec i s = .next (takeKnife op c { noValue := none, ecc := [] } s)) (h : KnifeAccepted op c s j) :
    let m := knifeElements c j (s.knifeBegins c)
    Completes i s fun t => t.mem = m.st.mem ∧ t.marks = m.st.marks ∧
      ∃ k, (t.core c).flight.knife.jobs.head? = some k ∧ k.raw = j.raw ∧ k.record = j.record ∧
        match m.fault with
        | none => k.outcome = some { status := 0, cause := 0, done := kdCount j.raw - kdStart j.raw, faultIndex := 0 }
        | some f => k.outcome = some { status := 1, cause := BitVec.ofNat 8 f.1, done := m.done, faultIndex := f.2 } := by
  intro m
  obtain ⟨l, hrun⟩ := runKnife_accepted h
  refine ⟨_, hi.trans (congrArg Host.Outcome.next ((takeKnife_accepted h _).trans hrun)), wakeFor_mem .., wakeFor_marks .., _,
    knifeOutcome_head .., rfl, rfl, ?_⟩
  split
  next hf =>
    have hwaits : m.waits = [] := h.resident
    have hended : m.ended = false := by rw [KnifeMove.ended, hf, hwaits]; rfl
    have hdone : m.done = 0 + (kdCount j.raw - kdStart j.raw) := stepElements_done hended
    rw [Nat.zero_add] at hdone
    exact congrArg some (hdone ▸ KnifeMove.result_of_none hf)
  next f hf => exact congrArg some (KnifeMove.result_of_fault hf)

theorem knifeTransfers_claim : Claim.KnifeTransfers := by
  simp only [Claim.KnifeTransfers, List.forall_mem_cons, List.not_mem_nil, false_implies, implies_true, and_true]
  exact ⟨fun _ _ _ => completes_knife rfl, fun _ _ _ => completes_knife rfl, fun _ _ _ => completes_knife rfl⟩

/-- Settles O25: an element is one of its four answers, and elements that all move are as many as the descriptor has. -/
theorem knifeTransfers : Obligations.KnifeTransfers := ⟨knifeTransfers_claim, knifeElementFaults_claim⟩

end Sys2Proof.Machine
end

section
/-! # The completion of descriptors, and the migration of cave pages (R161, R167, R169, R188, R189, R205, R207, R452) -/

namespace Sys2Proof.Machine

/-! ## The record written in the local store (R161, R205) -/

/-- Bytes put below the end of the local stores are stored as they are. -/
theorem State.put_localStore (s : State) {a : Nat} (data : List Byte) (h : a < 0x0200000000) : s.put a data false = s.store a data false := by
  have hbm : isHbm a = false := by simp [isHbm]; omega
  simp [State.put, hbm]

/-- Memory after two writes of bytes, the second past the first. -/
theorem Memory.read_writeBytes_two {m : Memory} {a b : Nat} {l k : List Byte} (h : m.wf = true) (hab : a + l.length ≤ b) :
    (∀ i, i < l.length → Memory.read (Memory.writeBytes (Memory.writeBytes m a l) b k) (a + i) = (l[i]?).getD 0)
      ∧ (∀ i, i < k.length → Memory.read (Memory.writeBytes (Memory.writeBytes m a l) b k) (b + i) = (k[i]?).getD 0)
      ∧ ∀ x, (x < a ∨ a + l.length ≤ x) → (x < b ∨ b + k.length ≤ x) →
        Memory.read (Memory.writeBytes (Memory.writeBytes m a l) b k) x = Memory.read m x := by
  have hwf := Memory.writeBytes_wf a l h
  refine ⟨fun i hi => ?first, fun i hi => ?second, fun x ha hb => ?other⟩
  case first => rw [Memory.read_writeBytes_other b k hwf _ (by omega), Memory.read_writeBytes_at a l h i hi, List.getElem?_eq_getElem hi, Option.getD_some]
  case second => rw [Memory.read_writeBytes_at b k hwf i hi, List.getElem?_eq_getElem hi, Option.getD_some]
  case other => rw [Memory.read_writeBytes_other b k hwf x hb, Memory.read_writeBytes_other a l h x ha]

/-! ## The events of a completion (R205, R278, R462) -/

theorem State.countTimes_mem (s : State) (c : CoreId) : (s.countTimes c).mem = s.mem := by
  rw [State.countTimes, State.countPerf_mem, State.countPerf_mem, State.fresh_mem, State.fresh_mem]

/-- What a transfer adds to the counts of time are performance events alone. -/
theorem State.countTimes_same (s : State) (c : CoreId) : SameIssue (s.core c) ((s.countTimes c).core c) := by
  have hcore : s.fresh.2.fresh.2.core c = s.core c := rfl
  rw [State.countTimes, ← hcore]
  exact (State.countPerf_spec _ c 0x05 _).2.trans (State.countPerf_spec _ c 0x08 _).2

/-- A semaphore after it is set to a number that it can hold. -/
theorem CoreRegs.readS_setIfInBounds (g : CoreRegs) {r n : Nat} (hr : r < 32) (hn : n ≤ 65535) :
    ((({ g with sems := g.sems.setIfInBounds r (BitVec.ofNat 16 n) } : CoreRegs).readS r)).toNat = n := by
  rw [CoreRegs.readS, Vector.getElem?_setIfInBounds_self_of_lt hr, Option.getD_some, BitVec.toNat_ofNat]
  omega

/-- A semaphore after an increase of one: it saturates (R278). -/
theorem State.readS_incSem (s : State) (c : CoreId) {r : Nat} (sender : Option CoreId) (p : Place) (hr : r < 32) :
    (((s.incSem c r 1 sender p).core c).regs.readS r).toNat = min 65535 (((s.core c).regs.readS r).toNat + 1) := by
  have hval := (s.core c).regs.readS_setIfInBounds hr (Nat.min_le_left 65535 (((s.core c).regs.readS r).toNat + 1))
  unfold State.incSem
  dsimp only
  split
  · rw [State.core_touched, State.core_modCore]
    exact hval
  · rw [(State.logFault_spec _ c _).2.regs, State.core_touched, State.core_modCore]
    exact hval

/-- Nothing in flight changes with a semaphore. -/
theorem State.flight_incSem (s : State) (c : CoreId) (r n : Nat) (sender : Option CoreId) (p : Place) :
    ((s.incSem c r n sender p).core c).flight = (s.core c).flight := by
  unfold State.incSem
  dsimp only
  split
  · rw [State.core_touched, State.core_modCore]
  · rw [(State.logFault_spec _ c _).2.flight, State.core_touched, State.core_modCore]

/-- A completion's signal at a core that is not in reset is one increase of its semaphore. -/
theorem State.signalDone_eq {s : State} {c : CoreId} (r : Nat) (h : (s.core c).flight.resetting = false) :
    ∃ (u : State) (p : Place), u.mem = s.mem ∧ u.core c = s.core c ∧ s.signalDone c r = u.incSem c r 1 none p := by
  unfold State.signalDone
  rw [h, if_neg (by decide)]
  split
  · exact ⟨s, _, rfl, rfl, rfl⟩
  · exact ⟨s.freePlace.2, _, s.freePlace_mem, s.freePlace_core c, rfl⟩

/-- What is left to do once a descriptor has left its queue: the counts, the wake-ups, and the semaphore. -/
def completionSignalled (c : CoreId) (l : List Nat) (event n sem : Nat) (s : State) : State :=
  let s := wakeFor l (((s.touched c).countPerf c event n).countTimes c)
  (s.signalDone c sem).disturb (s.corePart c)

/-- Of memory and the core, the signal of a completion changes the one semaphore, the counters and the log alone. -/
theorem completionSignalled_spec {c : CoreId} (l : List Nat) (event n : Nat) {sem : Nat} {s : State} (hsem : sem < 32)
    (h : (s.core c).flight.resetting = false) :
    let t := completionSignalled c l event n sem s
    t.mem = s.mem ∧ (t.core c).flight = (s.core c).flight
      ∧ ((t.core c).regs.readS sem).toNat = min 65535 (((s.core c).regs.readS sem).toNat + 1) := by
  have hsame : SameIssue (s.core c) ((wakeFor l (((s.touched c).countPerf c event n).countTimes c)).core c) := by
    rw [wakeFor_core, ← State.core_touched s c c]
    exact ((s.touched c).countPerf_spec c event n).2.trans (State.countTimes_same _ c)
  have hmem : (wakeFor l (((s.touched c).countPerf c event n).countTimes c)).mem = s.mem := by
    rw [wakeFor_mem, State.countTimes_mem, State.countPerf_mem, State.touched_mem]
  unfold completionSignalled
  dsimp only
  generalize wakeFor l (((s.touched c).countPerf c event n).countTimes c) = v at hsame hmem
  obtain ⟨u, p, humem, hucore, hsignal⟩ := State.signalDone_eq sem (by rw [hsame.flight]; exact h)
  rw [hsignal, State.disturb_mem, State.incSem_mem, State.core_congr (State.disturb_cores ..), State.flight_incSem, State.readS_incSem _ _ _ _ hsem,
    humem, hucore, hsame.flight, hsame.regs]
  exact ⟨hmem, rfl, rfl⟩

/-! ## A stream descriptor completes (R205, R207) -/

theorem State.noteFed_core (s : State) (c : CoreId) :
    (s.noteFed c).core c = { s.core c with flight := { (s.core c).flight with fed := true } } := s.core_modCore ..

/-- The clip counts of a completion, where there are any (R51). -/
def clipsCounted (c : CoreId) (j : StreamJob) (s : State) : State :=
  if j.clips.1 = 0 then s else s.modCore c fun k => k.addClips (convSet (sdConv j.raw)) j.clips.1 j.clips.2.1 j.clips.2.2

theorem clipsCounted_mem (c : CoreId) (j : StreamJob) (s : State) : (clipsCounted c j s).mem = s.mem := by
  unfold clipsCounted
  split <;> rfl

theorem clipsCounted_core (c : CoreId) (j : StreamJob) (s : State) :
    ((clipsCounted c j s).core c).flight = (s.core c).flight ∧ ((clipsCounted c j s).core c).regs = (s.core c).regs := by
  unfold clipsCounted
  split
  · exact ⟨rfl, rfl⟩
  · rw [State.core_modCore]
    exact ⟨rfl, rfl⟩

/-- A stream descriptor that has left its queue, its record written. -/
def streamRecorded (c : CoreId) (q : Nat) (j : StreamJob) (o : DescOutcome) (s : State) : State :=
  ((((clipsCounted c j s).put (j.record + 96) [o.status, o.cause] false).put (j.record + 100) (leBytes 6 o.done) false).noteFed c).modStream c q
    fun x => { x with jobs := x.jobs.tail, skipping := x.skipping || !(o.status == 0 || o.status == 3) }

theorem completeStream_eq (c : CoreId) (q : Nat) (j : StreamJob) (o : DescOutcome) (s : State) :
    completeStream c q j o s = completionSignalled c (accessDomains (dieUnit c) j.record) 0x06 (o.done * sdBytes j.raw) (sdSem j.raw)
      (streamRecorded c q j o s) := rfl

theorem streamRecorded_mem {c : CoreId} {q : Nat} {j : StreamJob} {o : DescOutcome} {s : State} (h : j.record + 128 ≤ 0x0200000000) :
    (streamRecorded c q j o s).mem
      = Memory.writeBytes (Memory.writeBytes s.mem (j.record + 96) [o.status, o.cause]) (j.record + 100) (leBytes 6 o.done) := by
  rw [streamRecorded, State.put_localStore _ _ (by omega), State.put_localStore _ _ (by omega), ← clipsCounted_mem c j s]
  rfl

theorem streamRecorded_core (c : CoreId) (q : Nat) (j : StreamJob) (o : DescOutcome) (s : State) :
    ((streamRecorded c q j o s).core c).regs = (s.core c).regs
      ∧ ((streamRecorded c q j o s).core c).flight.resetting = (s.core c).flight.resetting := by
  obtain ⟨hflight, hregs⟩ := clipsCounted_core c j s
  have hflag := congrArg CoreFlight.resetting hflight
  rw [streamRecorded, State.modStream, State.core_modCore, State.noteFed_core, State.core_congr (State.put_cores ..),
    State.core_congr (State.put_cores ..)]
  exact ⟨hregs, hflag⟩

theorem streamRecorded_queue {c : CoreId} {q : Nat} (hq : q < 4) (j : StreamJob) (o : DescOutcome) (s : State) :
    ((streamRecorded c q j o s).core c).flight.stream q
      = { (s.core c).flight.stream q with
          jobs := ((s.core c).flight.stream q).jobs.tail
          skipping := ((s.core c).flight.stream q).skipping || !(o.status == 0 || o.status == 3) } := by
  rw [streamRecorded, State.stream_modStream _ _ hq, State.noteFed_core, State.core_congr (State.put_cores ..),
    State.core_congr (State.put_cores ..), ← (clipsCounted_core c j s).1]
  rfl

theorem exec_streamCompletion {c : CoreId} {q : Nat} {s : State} {j : StreamJob} {rest : List StreamJob} {o : DescOutcome}
    (h : ((s.core c).flight.stream q).jobs = j :: rest) (ho : j.outcome = some o) :
    exec (.streamCompletion c q) s = .next (completeStream c q j o (runPending c s)) := by
  change execStreamCompletion c q s = _
  simp only [execStreamCompletion, h, ho]

theorem field_lt {w : Nat} (r : BitVec w) (lo len : Nat) : field r lo len < 2 ^ len := bits_lt ..

theorem streamCompletion_claim : Claim.StreamCompletion := by
  intro c q s j rest o hq d hjobs hhead ho hrec hwf hreset
  refine ⟨_, exec_streamCompletion hjobs ho, ?_⟩
  obtain ⟨hregs, hflags⟩ := streamRecorded_core c q j o d
  have hspec := completionSignalled_spec (accessDomains (dieUnit c) j.record) 0x06 (o.done * sdBytes j.raw) (s := streamRecorded c q j o d)
    (sem := sdSem j.raw) (field_lt j.raw 8 5) (hflags.trans hreset)
  rw [← completeStream_eq, streamRecorded_mem hrec, hregs] at hspec
  obtain ⟨hmem, hflight, hsem⟩ := hspec
  obtain ⟨hstatus, hdone, hother⟩ := Memory.read_writeBytes_two (a := j.record + 96) (b := j.record + 100) (l := [o.status, o.cause])
    (k := leBytes 6 o.done) hwf (by simp)
  rw [hmem, hflight, streamRecorded_queue hq, hhead]
  refine ⟨hstatus 0 Nat.zero_lt_two, hstatus 1 Nat.one_lt_two, fun i hi => ?_, fun a ha => ?_, rfl, rfl, hsem⟩
  · rw [hdone i (by simpa using hi), getElem?_leBytes _ hi, Option.getD_some]
  · refine hother a ?_ ?_ <;> simp only [List.length_cons, List.length_nil, length_leBytes] <;> omega

/-! ## A knife descriptor completes (R167, R169) -/

/-- A knife descriptor that has left its queue, its record written. -/
def knifeRecorded (c : CoreId) (j : KnifeJob) (o : DescOutcome) (s : State) : State :=
  (((s.put (j.record + 48) (o.status :: leBytes 3 o.done ++ [o.cause]) false).put (j.record + 56) (leBytes 8 o.faultIndex.toNat) false).noteFed
    c).modKnife c fun x => { x with jobs := x.jobs.tail, skipping := x.skipping || o.status == 1 || o.status == 2 }

theorem completeKnife_eq (c : CoreId) (j : KnifeJob) (o : DescOutcome) (s : State) :
    completeKnife c j o s = completionSignalled c (accessDomains (dieUnit c) j.record) 0x07 o.done (kdSem j.raw) (knifeRecorded c j o s) := rfl

theorem knifeRecorded_mem {c : CoreId} {j : KnifeJob} {o : DescOutcome} {s : State} (h : j.record + 64 ≤ 0x0200000000) :
    (knifeRecorded c j o s).mem = Memory.writeBytes (Memory.writeBytes s.mem (j.record + 48) (o.status :: leBytes 3 o.done ++ [o.cause]))
      (j.record + 56) (leBytes 8 o.faultIndex.toNat) := by
  rw [knifeRecorded, State.put_localStore _ _ (by omega), State.put_localStore _ _ (by omega)]
  rfl

theorem knifeRecorded_core (c : CoreId) (j : KnifeJob) (o : DescOutcome) (s : State) :
    ((knifeRecorded c j o s).core c).regs = (s.core c).regs
      ∧ ((knifeRecorded c j o s).core c).flight.resetting = (s.core c).flight.resetting
      ∧ ((knifeRecorded c j o s).core c).flight.knife.jobs = (s.core c).flight.knife.jobs.tail := by
  rw [knifeRecorded, State.modKnife, State.core_modCore, State.noteFed_core, State.core_congr (State.put_cores ..),
    State.core_congr (State.put_cores ..)]
  exact ⟨rfl, rfl, rfl⟩

theorem exec_knifeCompletion {c : CoreId} {s : State} {j : KnifeJob} {rest : List KnifeJob} {o : DescOutcome}
    (h : (s.core c).flight.knife.jobs = j :: rest) (ho : j.outcome = some o) :
    exec (.knifeCompletion c) s = .next (completeKnife c j o (runPending c s)) := by
  change execKnifeCompletion c s = _
  simp only [execKnifeCompletion, h, ho]

theorem knifeCompletion_claim : Claim.KnifeCompletion := by
  intro c s j rest o d hjobs hhead ho hrec hwf hreset
  refine ⟨_, exec_knifeCompletion hjobs ho, ?_⟩
  obtain ⟨hregs, hflags, hqueue⟩ := knifeRecorded_core c j o d
  have hspec := completionSignalled_spec (accessDomains (dieUnit c) j.record) 0x07 o.done (s := knifeRecorded c j o d)
    (sem := kdSem j.raw) (field_lt j.raw 56 5) (hflags.trans hreset)
  rw [← completeKnife_eq, knifeRecorded_mem hrec, hregs] at hspec
  obtain ⟨hmem, hflight, hsem⟩ := hspec
  obtain ⟨hfields, hindex, hother⟩ := Memory.read_writeBytes_two (a := j.record + 48) (b := j.record + 56)
    (l := o.status :: leBytes 3 o.done ++ [o.cause]) (k := leBytes 8 o.faultIndex.toNat) hwf
    (by simp)
  rw [hmem, hflight, hqueue, hhead]
  refine ⟨hfields 0 (by simp), ?cause, fun i hi => ?done, fun i hi => ?index, fun a ha => ?other, rfl, hsem⟩
  case cause => exact (hfields 4 (by simp)).trans rfl
  case done =>
    rw [show j.record + 49 + i = j.record + 48 + (i + 1) by omega, hfields (i + 1) (by simp; omega), List.cons_append, List.getElem?_cons_succ,
      List.getElem?_append_left (by simpa using hi), getElem?_leBytes _ hi, Option.getD_some]
  case index => rw [hindex i (by simpa using hi), getElem?_leBytes _ hi, Option.getD_some]
  case other => refine hother a ?_ ?_ <;> simp <;> omega

/-! ## Cave pages (R188, R189, R452) -/

theorem exec_caveMigrationStart {part page : Nat} {s : State} {j : Job} (hj : (s.part part).job = some j) (hw : page ∈ j.caveWaits)
    (hp : ∀ c ∈ j.cavePages, c.page ≠ page) :
    exec (.caveMigrationStart part page) s = .next (s.modJob part fun j => j.startMigration page) := by
  have hgo : (j.caveWaits.contains page && !j.cavePages.any (·.page == page)) = true := by simpa [hw] using hp
  change execCaveMigrationStart part page s = _
  simp only [execCaveMigrationStart, hj, hgo, if_true]

theorem State.job_modJob (s : State) (p : Nat) (f : Job → Job) : ((s.modJob p f).part p).job = (s.part p).job.map f := by
  rw [State.modJob, State.part_modPart]

theorem Job.startMigration_free {j : Job} {n : Nat} (page : Nat) (h : j.freeSlot = some n) :
    (j.startMigration page).cavePages = j.cavePages ++ [{ page := page, slot := n, age := 0, ready := false }] := by
  simp only [Job.startMigration, h]

theorem Job.startMigration_oldest {j : Job} {o : CavePage} (page : Nat) (h : j.freeSlot = none) (ho : j.oldestPage = some o) :
    (j.startMigration page).cavePages
      = (j.cavePages.filter fun x => x.page != o.page) ++ [{ page := page, slot := o.slot, age := 0, ready := false }] := by
  simp only [Job.startMigration, h, ho]

theorem exec_caveMigrationComplete {part page : Nat} {s : State} {j : Job} {c : CavePage} (ok : Bool) (hj : (s.part part).job = some j)
    (hc : j.cavePages.find? (fun c => c.page == page && !c.ready) = some c) :
    exec (.caveMigrationComplete part page ok) s = .next (if ok then fillPage part j c s else losePage part page s) := by
  change execCaveMigrationComplete part page ok s = _
  simp only [execCaveMigrationComplete, hj, hc]

@[simp] theorem State.reseal_parts (s : State) (n : Nat) : (s.reseal n).parts = s.parts := by
  unfold State.reseal
  dsimp only
  split <;> rfl

@[simp] theorem State.put_parts (s : State) (a : Nat) (data : List Byte) (m : Bool) : (s.put a data m).parts = s.parts := by
  unfold State.put
  split
  · exact foldl_keeps (·.parts) State.reseal State.reseal_parts _ s
  · rfl

@[simp] theorem wakeFor_parts (l : List Nat) (s : State) : (wakeFor l s).parts = s.parts := by
  simpa using congrArg State.parts (wakeFor_frame l s)

/-- A page that fills its slot: its bytes, and the window's record of it. -/
theorem fillPage_spec (part : Nat) (j : Job) (c : CavePage) (s : State) (hj : (s.part part).job = some j) :
    (fillPage part j c s).mem = (s.put (j.caveWindow + pageSize * c.slot) ((s.seenBy (some part)).peek c.page pageSize) false).mem
      ∧ (fillPage part j c s).cores = s.cores
      ∧ ((fillPage part j c s).part part).job = some { j with
          migrated := j.migrated + 1
          cavePages := j.cavePages.map fun x => if x.page = c.page then { x with ready := true, age := j.migrated } else x } := by
  refine ⟨wakeFor_mem .., (wakeFor_cores ..).trans (State.put_cores ..), ?_⟩
  rw [fillPage, State.job_modJob, State.part_congr (wakeFor_parts ..), State.part_congr (State.put_parts ..), hj]
  rfl

/-- What cores, wheels and the error log do not hold is after a page's loss as the window that forgets the page leaves it. -/
theorem losePage_keeps {β : Type} (g : State → β) (hcore : ∀ s c f, g (State.modCore s c f) = g s)
    (hwheel : ∀ s w f, g (State.modWheel s w f) = g s) (hlog : ∀ s e, g (State.logError s e) = g s) (part page : Nat) (s : State) :
    g (losePage part page s) = g (s.modJob part fun j => { j with cavePages := j.cavePages.filter fun c => c.page != page }) := by
  unfold losePage State.caveLost
  dsimp only
  rw [hlog, foldl_keeps g (fun s w => s.modWheel w fun v => { v with cave := v.cave.lose page }) fun _ _ => hwheel ..,
    foldl_keeps g (fun s c => s.modCore c fun k => { k with flight := k.flight.losePage page }) fun _ _ => hcore ..]

/-- A page that gave no value leaves memory, and the window forgets it (R452). -/
theorem losePage_spec (part page : Nat) (s : State) {j : Job} (hj : (s.part part).job = some j) :
    (losePage part page s).mem = s.mem
      ∧ ((losePage part page s).part part).job = some { j with cavePages := j.cavePages.filter fun c => c.page != page } := by
  refine ⟨losePage_keeps (·.mem) (fun _ _ _ => rfl) (fun _ _ _ => rfl) State.logError_mem part page s, ?_⟩
  rw [State.part_congr (losePage_keeps (·.parts) (fun _ _ _ => rfl) (fun _ _ _ => rfl) State.logError_parts part page s), State.job_modJob, hj]
  rfl

theorem caveMigration_claim : Claim.CaveMigration := by
  refine ⟨fun part page n s j hj hw hp hfree => ?free, fun part page s j o hj hw hp hfree hold => ?oldest, fun part page s j c hj hc => ⟨?filled, ?lost⟩⟩
  case free =>
    refine ⟨_, exec_caveMigrationStart hj hw hp, ?_, rfl, rfl⟩
    rw [State.job_modJob, hj]
    exact congrArg some (Job.startMigration_free page hfree)
  case oldest =>
    refine ⟨_, exec_caveMigrationStart hj hw hp, ?_⟩
    dsimp only
    rw [State.job_modJob, hj]
    exact congrArg some (Job.startMigration_oldest page hfree hold)
  case filled =>
    have hfound := List.find?_some hc
    have hpage : c.page = page := by
      rw [Bool.and_eq_true, beq_iff_eq] at hfound
      exact hfound.1
    obtain ⟨hmem, hcores, hjob⟩ := fillPage_spec part j c s hj
    refine ⟨_, exec_caveMigrationComplete true hj hc, hpage ▸ hmem, hcores, _, hjob, rfl, ?_⟩
    rw [List.forall_mem_map]
    intro x _
    split
    next => exact fun _ => rfl
    next hx => exact fun h => absurd (h.trans hpage.symm) hx
  case lost =>
    obtain ⟨hmem, hjob⟩ := losePage_spec part page s hj
    exact ⟨_, exec_caveMigrationComplete false hj hc, hmem, _, hjob, fun x hx => by simpa using (List.mem_filter.1 hx).2⟩

/-- Settles O24: a completion is the record written, the queue's next descriptor and one signal; a migration is one change of the
window's pages. -/
theorem descriptorCompletions : Obligations.DescriptorCompletions := ⟨streamCompletion_claim, knifeCompletion_claim, caveMigration_claim⟩

end Sys2Proof.Machine
end

section
/-! # Operations that leave memory as it is -/

namespace Sys2Proof.Machine

/-- Memory of a choice between two states, so that `simp` can go on in each. -/
@[simp] theorem State.mem_ite (c : Prop) [Decidable c] (a b : State) : (if c then a else b).mem = if c then a.mem else b.mem :=
  apply_ite State.mem c a b

/-! ## The sync unit (R182–R190) -/

@[simp] theorem State.pressTouched_mem (s : State) (p : Nat) (gen : Nat) : (s.pressTouched p gen).mem = s.mem := by
  unfold State.pressTouched
  split <;> simp

@[simp] theorem pressSignal_mem (c : CoreId) (u : Nat) (s : State) : (pressSignal c u s).mem = s.mem := by
  unfold pressSignal
  dsimp only
  split
  · rfl
  · split
    · rfl
    · split
      · rfl
      · simp

@[simp] theorem State.noteArrival_mem (s : State) (c : CoreId) (bid : BitVec 10) (epoch : BitVec 16) : (s.noteArrival c bid epoch).mem = s.mem := by
  unfold State.noteArrival
  split
  · rfl
  · split
    · rfl
    · simp

@[simp] theorem performEffect_mem (c : CoreId) (h : HeldEffect) (s : State) : (performEffect c h s).mem = s.mem := by
  unfold performEffect
  split <;> simp

@[simp] theorem State.takeSem_mem (s : State) (c : CoreId) (r n : Nat) : (s.takeSem c r n).mem = s.mem := by simp [State.takeSem]

@[simp] theorem resumeIssue_mem (c : CoreId) (T : Nat) (s : State) : (resumeIssue c T s).mem = s.mem := rfl

/-! ## Barriers and drains (R265, R285–R299) -/

@[simp] theorem State.keepImage_mem (s : State) (p : Nat) (a : FlyingArrival) (taken : Bool) : (s.keepImage p a taken).mem = s.mem := by
  unfold State.keepImage
  split <;> simp

@[simp] theorem refuseArrival_mem (a : FlyingArrival) (r : BarRefusal) (s : State) : (refuseArrival a r s).mem = s.mem := by simp [refuseArrival]

@[simp] theorem arriveAtNode_mem (a : FlyingArrival) (s : State) : (arriveAtNode a s).mem = s.mem := by
  unfold arriveAtNode
  split
  · simp
  · dsimp only
    split <;> simp

@[simp] theorem failDrain_mem (p : Nat) (s : State) : (failDrain p s).mem = s.mem := by
  unfold failDrain
  split
  · rfl
  · split
    · rfl
    · simp

@[simp] theorem endDrain_mem (p : Nat) (s : State) : (endDrain p s).mem = s.mem := by simp [endDrain]

@[simp] theorem discardArrivals_mem (c : CoreId) (s : State) : (discardArrivals c s).mem = s.mem := by
  unfold discardArrivals
  dsimp only
  split <;> simp

/-! ## A core's control block (R90–R104) -/

@[simp] theorem startCore_mem (c : CoreId) (half : Bool) (entry : BitVec 14) (s : State) : (startCore c half entry s).mem = s.mem := by
  simp [startCore]

@[simp] theorem continueCore_mem (c : CoreId) (s : State) : (continueCore c s).mem = s.mem := by simp [continueCore]

@[simp] theorem dumpCore_mem (c : CoreId) (s : State) : (dumpCore c s).mem = s.mem := by
  unfold dumpCore
  dsimp only
  split
  · rfl
  · split
    · simp [State.freePlace_mem]
    · simp

@[simp] theorem State.noteRead_mem (s : State) (c : CoreId) (ofs : Nat) : (s.noteRead c ofs).mem = s.mem := by simp [State.noteRead]

@[simp] theorem setLoaded_mem (c : CoreId) (half : Bool) (s : State) : (setLoaded c half s).mem = s.mem := rfl

/-! ## Events of the error codes (R279) -/

@[simp] theorem State.addEye_mem (s : State) (e : BitVec 128) : (s.addEye e).mem = s.mem := by simp [State.addEye]

@[simp] theorem State.watchRow_mem (s : State) (key : Nat) : (s.watchRow key).mem = s.mem := by simp [State.watchRow]

@[simp] theorem State.rowEvent_mem (s : State) (stack : Nat) (e : EccEvent) : (s.rowEvent stack e).mem = s.mem := by simp [State.rowEvent]

@[simp] theorem State.storeEvent_mem (s : State) (e : EccEvent) : (s.storeEvent e).mem = s.mem := by simp [State.storeEvent]

@[simp] theorem State.imemEvent_mem (s : State) (e : EccEvent) : (s.imemEvent e).mem = s.mem := by simp [State.imemEvent]

@[simp] theorem State.resentEvent_mem (s : State) (e : EccEvent) : (s.resentEvent e).mem = s.mem := by simp [State.resentEvent]

@[simp] theorem State.eccEvent_mem (s : State) (e : EccEvent) : (s.eccEvent e).mem = s.mem := by simp [State.eccEvent]

@[simp] theorem State.eccEvents_mem (s : State) (l : List EccEvent) : (s.eccEvents l).mem = s.mem := foldl_keeps (·.mem) _ State.eccEvent_mem l s

/-! ## Descriptors (R177–R181, R189) -/

@[simp] theorem State.caveWait_mem (s : State) (c : CoreId) (waits : List Nat) (new : Nat) : (s.caveWait c waits new).mem = s.mem := by
  unfold State.caveWait
  split <;> simp

@[simp] theorem State.waxErrors_mem (s : State) (p : Option Nat) (d : BitVec 256) (tiles : List Nat) : (s.waxErrors p d tiles).mem = s.mem :=
  foldl_keeps (·.mem) _ (fun s _ => State.logError_mem s _) tiles s

@[simp] theorem State.noteReads_mem (s : State) (d : BitVec 256) (ofs n : Nat) : (s.noteReads d ofs n).mem = s.mem := by
  unfold State.noteReads
  split
  · exact foldl_keeps (·.mem) _ (fun s _ => State.noteRead_mem s _ _) _ s
  · rfl

/-! ## The stream engine (R198–R207) -/

@[simp] theorem State.modStream_mem (s : State) (c : CoreId) (q : Nat) (f : StreamQ → StreamQ) : (s.modStream c q f).mem = s.mem := rfl

@[simp] theorem clearLoaded_mem (j : StreamJob) (s : State) : (clearLoaded j s).mem = s.mem := by simp [clearLoaded]

@[simp] theorem State.caveLost_mem (s : State) (p : Option Nat) (a : Nat) : (s.caveLost p a).mem = s.mem := by simp [State.caveLost]

@[simp] theorem State.signalDone_mem (s : State) (c : CoreId) (r : Nat) : (s.signalDone c r).mem = s.mem := by
  unfold State.signalDone
  dsimp only
  split
  · rfl
  · split <;> simp [State.freePlace_mem]

/-! ## The knife engine (R161–R169) -/

@[simp] theorem State.modKnife_mem (s : State) (c : CoreId) (f : Knife → Knife) : (s.modKnife c f).mem = s.mem := rfl

/-! ## Cave pages (R188, R189) -/

@[simp] theorem losePage_mem (p page : Nat) (s : State) : (losePage p page s).mem = s.mem :=
  losePage_keeps (·.mem) (fun _ _ _ => rfl) (fun _ _ _ => rfl) State.logError_mem p page s

@[simp] theorem discardPages_mem (p : Nat) (d : BitVec 256) (s : State) : (discardPages p d s).mem = s.mem := rfl

/-! ## Links, routes and the group (R306–R314) -/

@[simp] theorem endLostDrains_mem (s : State) : (endLostDrains s).mem = s.mem := by
  refine foldl_keeps (·.mem) _ (fun s p => ?_) _ s
  split
  · split <;> simp
  · rfl

@[simp] theorem State.sendOn_mem (s : State) (p : Nat) (owner : FrameOwner) (l : List OutPacket) : (s.sendOn p owner l).mem = s.mem := rfl

@[simp] theorem floodStates_mem (device : Nat) (links : List FloodLink) (s : State) : (floodStates device links s).mem = s.mem :=
  foldl_keeps (·.mem) _ (fun s _ => State.sendOn_mem s _ _ _) _ s

@[simp] theorem setRoutes_mem (table : Tbl (BitVec 32)) (s : State) : (setRoutes table s).mem = s.mem := by
  unfold setRoutes
  dsimp only
  exact foldl_keeps (·.mem) _ (fun s x => by simp) _ _

@[simp] theorem distributeRoutes_mem (s : State) : (distributeRoutes s).mem = s.mem := by
  unfold distributeRoutes
  refine (foldl_keeps (·.mem) _ (fun s m => ?_) _ _).trans (setRoutes_mem _ _)
  split <;> simp

@[simp] theorem redrawRoutes_mem (s : State) : (redrawRoutes s).mem = s.mem := by simp [redrawRoutes]

@[simp] theorem portsChanged_mem (s : State) : (portsChanged s).mem = s.mem := by simp [portsChanged]

@[simp] theorem askRetrain_mem (p : Nat) (s : State) : (askRetrain p s).mem = s.mem := by simp [askRetrain]

@[simp] theorem portGoesDown_mem (p : Nat) (s : State) : (portGoesDown p s).mem = s.mem := by
  unfold portGoesDown
  dsimp only
  rw [askRetrain_mem, State.modPort_mem, foldl_keeps (·.mem) _ (fun s q => failDrain_mem q s),
    foldl_keeps (·.mem) _ (fun s c => State.modCore_mem s c _), State.logError_mem]

@[simp] theorem trainPort_mem (p : Nat) (t : PortTraining) (again : Bool) (s : State) : (trainPort p t again s).mem = s.mem := by simp [trainPort]

@[simp] theorem nextRetrain_mem (s : State) : (nextRetrain s).mem = s.mem := by
  unfold nextRetrain
  split <;> simp

@[simp] theorem State.formGroup_mem (s : State) : s.formGroup.mem = s.mem := by
  unfold State.formGroup
  dsimp only
  split
  · rfl
  · split
    · rfl
    · split <;> rfl

@[simp] theorem State.newKey_mem (s : State) : s.newKey.2.mem = s.mem := rfl

@[simp] theorem rtpFails_mem (test : Nat) (s : State) : (rtpFails test s).mem = s.mem := rfl

/-! ## The fabric (R300–R324) -/

@[simp] theorem State.countPackets_mem (s : State) (part peer : Nat) (outbound : Bool) (n : Nat) :
    (s.countPackets part peer outbound n).mem = s.mem := rfl

@[simp] theorem beginFabric_mem (c : CoreId) (r : BitVec 512) (dst : BitVec 256) (ports : List Nat) (o : Option DescOutcome) (s : State) :
    (beginFabric c r dst ports o s).mem = s.mem := rfl

@[simp] theorem FabricRun.fail_mem (x : FabricRun) (cause : Nat) (s : State) : (FabricRun.fail x cause s).mem = s.mem := rfl

@[simp] theorem runGet_mem (x : FabricRun) (s : State) : (runGet x s).mem = s.mem := by
  unfold runGet
  dsimp only
  split <;> simp

@[simp] theorem putToMember_mem (x : FabricRun) (tag : Nat) (data : List MByte) (s : State) (peer : Nat × Nat) :
    (putToMember x tag data s peer).mem = s.mem := rfl

@[simp] theorem reduceToMember_mem (x : FabricRun) (tag : Nat) (data : List MByte) (s : State) (peer : Nat × Nat) :
    (reduceToMember x tag data s peer).mem = s.mem := rfl

@[simp] theorem keepResult_mem (c : CoreId) (result : List Byte) (s : State) : (keepResult c result s).mem = s.mem := rfl

@[simp] theorem securityEvent_mem (p address : Nat) (s : State) : (securityEvent p address s).mem = s.mem := by simp [securityEvent]

@[simp] theorem State.replyPackets_mem (s : State) (peer : Nat) (l : List OutPacket) : (s.replyPackets peer l).mem = s.mem := by
  unfold State.replyPackets
  split <;> rfl

@[simp] theorem State.answerPeer_mem (s : State) (sender tag code : Nat) : (s.answerPeer sender tag code).mem = s.mem := by simp [State.answerPeer]

@[simp] theorem beginIncoming_mem (sender tag target total : Nat) (s : State) : (beginIncoming sender tag target total s).2.mem = s.mem := by
  unfold beginIncoming
  dsimp only
  split
  · simp
  · split <;> simp

@[simp] theorem badPacket_mem (x : Incoming) (s : State) : (badPacket x s).mem = s.mem := by simp [badPacket]

@[simp] theorem answerGet_mem (part sender tag a total : Nat) (s : State) : (answerGet part sender tag a total s).mem = s.mem := by simp [answerGet]

@[simp] theorem answerWaiting_mem (part peer : Nat) (s : State) : (answerWaiting part peer s).mem = s.mem := by
  unfold answerWaiting
  dsimp only
  exact foldl_keeps (·.mem) _ (fun s x => by simp) _ _

@[simp] theorem dropSessions_mem (part : Nat) (s : State) : (dropSessions part s).mem = s.mem := by
  unfold dropSessions
  dsimp only
  exact foldl_keeps (·.mem) _ (fun s x => by simp) _ _

@[simp] theorem advanceScrub_mem (p : Nat) (s : State) : (advanceScrub p s).mem = s.mem := by simp [advanceScrub]

/-! ## Press units (R250–R257) -/

@[simp] theorem startPress_mem (unit p : Nat) (j : Job) (d : BitVec 3072) (prog : List (BitVec 32)) (s : State) :
    (startPress unit p j d prog s).mem = s.mem := by simp [startPress]

@[simp] theorem beginPress_mem (unit p : Nat) (j : Job) (d : BitVec 3072) (s : State) : (beginPress unit p j d s).mem = s.mem := by
  unfold beginPress
  dsimp only
  split
  · simp
  · split <;> simp

@[simp] theorem pressLoad_mem (unit : Nat) (env : TransferEnv) (d : BitVec 3072) (w : BitVec 32) (s : State) :
    (pressLoad unit env d w s).mem = s.mem := by
  simp [pressLoad]

@[simp] theorem pressStore_mem (unit : Nat) (d : BitVec 3072) (w : BitVec 32) (s : State) : (pressStore unit d w s).mem = s.mem := rfl

/-! ## Resets (R442–R444) -/

@[simp] theorem finishCoreReset_mem (c : CoreId) (s : State) : (finishCoreReset c s).mem = s.mem := rfl

@[simp] theorem State.countRefused_mem (s : State) : s.countRefused.mem = s.mem := rfl

@[simp] theorem absorbTraffic_mem (p : Nat) (s : State) : (absorbTraffic p s).mem = s.mem := by
  unfold absorbTraffic
  dsimp only
  exact foldl_keeps (·.mem) _ (fun s x => by simp) _ _

@[simp] theorem newPartKey_mem (p : Nat) (s : State) : (newPartKey p s).mem = s.mem := by simp [newPartKey]

/-! ## Checkpoints and takeovers (R260–R273) -/

@[simp] theorem sendDrain_mem (p : Nat) (j : Job) (m : SchedImage) (writes : List (Nat × List MByte)) (s : State) :
    (sendDrain p j m writes s).mem = s.mem := by
  unfold sendDrain
  dsimp only
  split <;> simp

@[simp] theorem nextDrain_mem (p : Nat) (s : State) : (nextDrain p s).mem = s.mem := rfl

@[simp] theorem sendDrains_mem (p : Nat) (s : State) : (sendDrains p s).mem = s.mem := by
  unfold sendDrains
  split
  · rfl
  · split
    · simp
    · rfl

@[simp] theorem queueDrain_mem (p : Nat) (g : BitVec 32) (m : SchedImage) (s : State) : (queueDrain p g m s).mem = s.mem := by simp [queueDrain]

@[simp] theorem commitDrain_mem (p : Nat) (j : Job) (g : BitVec 32) (m : SchedImage) (record : List Byte) (partner : PartnerInfo) (s : State) :
    (commitDrain p j g m record partner s).mem = s.mem := by simp [commitDrain]

@[simp] theorem takeIdentity_mem (failed spare group : Nat) (s : State) : (takeIdentity failed spare group s).mem = s.mem := by simp [takeIdentity]

@[simp] theorem restoreEpochs_mem (p : Nat) (m : SchedImage) (s : State) : (restoreEpochs p m s).mem = s.mem := rfl

@[simp] theorem restoreRings_mem (p : Nat) (m : SchedImage) (s : State) : (restoreRings p m s).mem = s.mem := by
  refine foldl_keeps (·.mem) _ (fun s r => ?_) _ s
  split <;> rfl

@[simp] theorem spareIdentity_mem (failed : FailedDevice) (s : State) : (spareIdentity failed s).mem = s.mem := by simp [spareIdentity]

@[simp] theorem resumeCore_mem (c : CoreId) (s : State) : (resumeCore c s).mem = s.mem := rfl

/-! ## The host's records and windows (R339–R347) -/

@[simp] theorem disableRing_mem (r : Nat) (s : State) : (disableRing r s).mem = s.mem := rfl

@[simp] theorem mapStaging_mem (p : Nat) (j : Job) (s : State) : (mapStaging p j s).mem = s.mem := rfl

@[simp] theorem hdmReadPart_mem (port addr len : Nat) (s : State) : (hdmReadPart port addr len s).2.mem = s.mem := by
  unfold hdmReadPart
  split <;> simp

@[simp] theorem writeCaveMap_mem (port entry : Nat) (value : BitVec 256) (s : State) : (writeCaveMap port entry value s).mem = s.mem := by
  simp [writeCaveMap]

/-! ## The host's registers (R330–R332, R442) -/

@[simp] theorem State.missed_mem (s : State) (port : Nat) : (s.missed port).mem = s.mem := by simp [State.missed]

@[simp] theorem writeMsixTable_mem (port word : Nat) (v : Word) (s : State) : (writeMsixTable port word v s).mem = s.mem := by simp [writeMsixTable]

@[simp] theorem writeConfig_mem (port ofs : Nat) (v : Word) (s : State) : (writeConfig port ofs v s).mem = s.mem := by simp [writeConfig]

/-! ## Power (R408–R425) -/

@[simp] theorem haltDevice_mem (s : State) : (haltDevice s).mem = s.mem := rfl

@[simp] theorem writeLastFatal_mem (s : State) : (writeLastFatal s).mem = s.mem := by simp [writeLastFatal]

@[simp] theorem deviceError_mem (e : ErrorEvent) (s : State) : (deviceError e s).mem = s.mem := by simp [deviceError]

@[simp] theorem wakeAll_mem (s : State) : (wakeAll s).mem = s.mem := by simp [wakeAll]

@[simp] theorem resumeDozed_mem (domain : Nat) (elapsed : List (Nat × Nat)) (c : CoreId) (s : State) :
    (resumeDozed domain elapsed c s).mem = s.mem := by
  simp [resumeDozed]

@[simp] theorem enterDeepRest_mem (s : State) : (enterDeepRest s).mem = s.mem := by simp [enterDeepRest]

@[simp] theorem relinkPort_mem (narrowed : List (Nat × Nat × Nat)) (s : State) (p : Nat) : (relinkPort narrowed s p).mem = s.mem := by
  simp [relinkPort]

@[simp] theorem checkHold_mem (c : CoreId) (s : State) : (checkHold c s).mem = s.mem := by simp [checkHold]

@[simp] theorem State.requestMode_mem (s : State) (mode : Nat) : (s.requestMode mode).mem = s.mem := by simp [State.requestMode]

/-! ## Resets, the flash and the start (R426–R435) -/

@[simp] theorem State.withFlash_mem (s : State) (f : FlashStore) : (s.withFlash f).mem = s.mem := rfl

@[simp] theorem readRegion_mem (damaged : List (Nat × Bool)) (s : State) (region : Nat) : (readRegion damaged s region).mem = s.mem := by
  unfold readRegion
  dsimp only
  split <;> simp

@[simp] theorem readFlash_mem (absent : Bool) (damaged : List (Nat × Bool)) (s : State) : (readFlash absent damaged s).mem = s.mem := by
  unfold readFlash
  dsimp only
  split
  · rfl
  · refine (foldl_keeps (·.mem) _ (fun s r => readRegion_mem damaged s r) _ _).trans ?_
    split <;> rfl

@[simp] theorem storeRecord_mem (r : JournalRecord) (s : State) : (storeRecord r s).mem = s.mem := by
  unfold storeRecord
  split <;> rfl

@[simp] theorem halfStored_mem (r : JournalRecord) (s : State) : (halfStored r s).mem = s.mem := by simp [halfStored]

@[simp] theorem notStored_mem (s : State) : (notStored s).mem = s.mem := rfl

@[simp] theorem abandonWrites_mem (s : State) : (abandonWrites s).mem = s.mem := by
  unfold abandonWrites
  split <;> simp

@[simp] theorem State.bootEntry_mem (s : State) (outcome : Nat) (reason : BitVec 16) : (s.bootEntry outcome reason).2.mem = s.mem := rfl

@[simp] theorem failStart_mem (reason : BitVec 16) (s : State) : (failStart reason s).mem = s.mem := by simp [failStart]

@[simp] theorem noteInterrupted_mem (s : State) : (noteInterrupted s).mem = s.mem := by simp [noteInterrupted]

@[simp] theorem resetDevice_mem (cold : Bool) (s : State) : (resetDevice cold s).mem = s.mem := by simp [resetDevice]

@[simp] theorem writeInterrupted_mem (s : State) : (writeInterrupted s).mem = s.mem := by
  unfold writeInterrupted
  split <;> rfl

@[simp] theorem countAttempt_mem (s : State) : (countAttempt s).mem = s.mem := by simp [countAttempt]

@[simp] theorem enterWhey_mem (s : State) : (enterWhey s).mem = s.mem := rfl

@[simp] theorem startFirmware_mem (s : State) : (startFirmware s).mem = s.mem := by simp [startFirmware]

@[simp] theorem recordStep5_mem (s : State) : (recordStep5 s).mem = s.mem := by simp [recordStep5]

@[simp] theorem beginStep5_mem (s : State) : (beginStep5 s).mem = s.mem := by simp [beginStep5]

@[simp] theorem startClocks_mem (o : StepOutcome) (s : State) : (startClocks o s).mem = s.mem := rfl

@[simp] theorem recordDefect_mem (s : State) (d : Defect) : (recordDefect s d).mem = s.mem := by simp [recordDefect]

@[simp] theorem enterOn_mem (s : State) : (enterOn s).mem = s.mem := by simp [enterOn]

/-! ## The dictionary (R377–R394) -/

@[simp] theorem dictRead_mem (index sub : Nat) (s : State) : (dictRead index sub s).2.mem = s.mem := by
  unfold dictRead
  split
  · rfl
  · split <;> rfl

@[simp] theorem entryEffect_mem (index sub : Nat) (data : List Byte) (s : State) : (entryEffect index sub data s).mem = s.mem := by simp [entryEffect]

@[simp] theorem takeEffect_mem (r : JournalRecord) (s : State) : (takeEffect r s).mem = s.mem := by
  unfold takeEffect
  split <;> simp

@[simp] theorem takeRecord_mem (r : JournalRecord) (s : State) : (takeRecord r s).mem = s.mem := by simp [takeRecord]

@[simp] theorem liveWrite_mem (index sub : Nat) (data : List Byte) (s : State) : (liveWrite index sub data s).mem = s.mem := by simp [liveWrite]

@[simp] theorem dictWrite_mem (via : Via) (origin : Origin) (index sub : Nat) (data : List Byte) (s : State) :
    (dictWrite via origin index sub data s).2.mem = s.mem := by
  unfold dictWrite
  dsimp only
  split
  · rfl
  · split
    · rfl
    · split
      · rfl
      · split
        · rfl
        · split
          · simp
          · split
            · rfl
            · split <;> rfl

@[simp] theorem sendOap_mem (h : OapHeader) (tagged : Bool) (r : DictResult) (s : State) : (sendOap h tagged r s).mem = s.mem := rfl

@[simp] theorem deliver_mem (o : Origin) (r : DictResult) (s : State) : (deliver o r s).mem = s.mem := by
  unfold deliver
  split <;> rfl

@[simp] theorem writeEntry_mem (via : Via) (origin : Origin) (index sub : Nat) (data : List Byte) (s : State) :
    (writeEntry via origin index sub data s).mem = s.mem := by
  have h := dictWrite_mem via origin index sub data s
  unfold writeEntry
  split <;> simp_all

@[simp] theorem startI3c_mem (origin : Origin) (a : I3cAccess) (s : State) : (startI3c origin a s).mem = s.mem := by simp [startI3c]

@[simp] theorem pumpI3c_mem (l : List I3cAccess) (s : State) : (pumpI3c l s).mem = s.mem := by
  induction l generalizing s with
  | nil => rfl
  | cons a rest ih =>
    unfold pumpI3c
    split
    · rfl
    · rw [ih, startI3c_mem]

@[simp] theorem resumeI3c_mem (s : State) : (resumeI3c s).mem = s.mem := pumpI3c_mem _ _

@[simp] theorem stopWrites_mem (copyADone : Bool) (s : State) : (stopWrites copyADone s).mem = s.mem := by
  unfold stopWrites
  split
  · rfl
  · rw [resumeI3c_mem, foldl_keeps (·.mem) _ (fun s (w : JournalWrite) => deliver_mem w.origin _ s)]
    split <;> simp

@[simp] theorem State.tripPin_mem (present : Bool) (s : State) : (State.tripPin present s).mem = s.mem := rfl

/-! ## The intake (R223–R246) -/

@[simp] theorem countDemux_mem (w : Nat) (d : Demux) (lo hi : Nat) (s : State) : (countDemux w d lo hi s).mem = s.mem := rfl

@[simp] theorem countBusy_mem (engine cycles : Nat) (s : State) : (countBusy engine cycles s).mem = s.mem := rfl

@[simp] theorem failClip_mem (w : Nat) (x : ClipRun) (s : State) : (failClip w x s).mem = s.mem := by simp [failClip]

@[simp] theorem wheelCaveWait_mem (p : Nat) (waits : List Nat) (new : Nat) (s : State) : (wheelCaveWait p waits new s).mem = s.mem := rfl

/-! ## The root of trust (R355–R376) -/

@[simp] theorem rtpAnswer_mem (status : Nat) (data : List Byte) (s : State) : (rtpAnswer status data s).mem = s.mem := rfl

@[simp] theorem burnOwner_mem (keyHash : BitVec 384) (s : State) : (burnOwner keyHash s).mem = s.mem := by simp [burnOwner]

@[simp] theorem checkBundle_mem (h : List Byte) (v : BundleVerdict) (s : State) : (checkBundle h v s).2.mem = s.mem := by
  unfold checkBundle
  dsimp only
  split <;> simp

@[simp] theorem bundleStep_mem (owner : LoadOwner) (offset : Nat) (data : List Byte) (v : BundleVerdict) (s : State) :
    (bundleStep owner offset data v s).2.mem = s.mem := by
  unfold bundleStep
  dsimp only
  split
  · rfl
  · split <;> simp

@[simp] theorem applyRecord_mem (image : List Byte) (s : State) (k : Nat) : (applyRecord image s k).mem = s.mem := by
  unfold applyRecord
  dsimp only
  have hcores : ∀ s : State, ((s.coresOf k).foldl (fun s c => s.modCore c Core.noLimit) s).mem = s.mem :=
    fun s => foldl_keeps (·.mem) _ (fun s c => State.modCore_mem s c _) _ s
  split <;> simp [hcores]

@[simp] theorem finishLayout_mem (image : List Byte) (s : State) : (finishLayout image s).mem = s.mem := by
  unfold finishLayout
  dsimp only
  exact foldl_keeps (·.mem) _ (fun s x => by simp) _ _

@[simp] theorem finishZeroize_mem (s : State) : (finishZeroize s).mem = s.mem := rfl

@[simp] theorem spdmAnswer_mem (data : List Byte) (s : State) : (spdmAnswer data s).mem = s.mem := rfl

@[simp] theorem openSpdm_mem (tenant : Option (BitVec 384)) (s : State) : (openSpdm tenant s).mem = s.mem := rfl

/-! ## The dictionary's transports (R387–R398) -/

@[simp] theorem oapAnswer_mem (req : OapRequest) (r : DictResult) (s : State) : (oapAnswer req r s).mem = s.mem := rfl

@[simp] theorem countSecurity_mem (s : State) : (countSecurity s).mem = s.mem := rfl

@[simp] theorem dropOapSession_mem (id : BitVec 32) (s : State) : (dropOapSession id s).mem = s.mem := rfl

@[simp] theorem modOapSession_mem (id : BitVec 32) (f : OapSession → OapSession) (s : State) : (modOapSession id f s).mem = s.mem := rfl

@[simp] theorem openSession_mem (req : OapRequest) (cert : OperatorCert) (s : State) : (openSession req cert s).mem = s.mem := by
  unfold openSession
  dsimp only
  split
  · rfl
  · split
    · rfl
    · split
      · rfl
      · split <;> rfl

@[simp] theorem takeChunk_mem (source : BitVec 128) (offset : Nat) (data : List Byte) (verdict : BundleVerdict) (s : State) :
    (takeChunk source offset data verdict s).2.mem = s.mem := by
  unfold takeChunk
  split
  · rfl
  · split <;> simp

@[simp] theorem loseI3c_mem (s : State) : (loseI3c s).mem = s.mem := rfl

@[simp] theorem assignDynamic_mem (address : BitVec 7) (s : State) : (assignDynamic address s).mem = s.mem := by simp [assignDynamic]

end Sys2Proof.Machine
end

section
/-! # Memory's form through updates, choices and operations that leave memory as it is (R171) -/

namespace Sys2Proof.Machine

section
variable {s : State}

/-- Fields other than memory do not matter to its form. -/
theorem State.MemInv.update (h : s.MemInv)
    {pending free marks sealed cores signals arrivals parts intake press fabric host rtp dict power start errors} :
    State.MemInv { s with
      pending := pending, free := free, marks := marks, sealed := sealed, cores := cores, signals := signals, arrivals := arrivals, parts := parts
      intake := intake, press := press, fabric := fabric, host := host, rtp := rtp, dict := dict, power := power, start := start
      errors := errors } := h

theorem State.MemInv.ite {c : Prop} [Decidable c] {t u : State} (ht : t.MemInv) (hu : u.MemInv) : (if c then t else u).MemInv := by
  split
  · exact ht
  · exact hu

/-- An operation that is done under a condition. -/
theorem State.MemInv.when {c : Prop} [Decidable c] {t : State} (hs : s.MemInv) (ht : s.MemInv → t.MemInv) : (if c then t else s).MemInv :=
  .ite (ht hs) hs

theorem State.MemInv.unless {c : Prop} [Decidable c] {t : State} (hs : s.MemInv) (ht : s.MemInv → t.MemInv) : (if c then s else t).MemInv :=
  .ite hs (ht hs)

variable (h : s.MemInv)
include h

theorem State.MemInv.fresh : s.fresh.2.MemInv := h
theorem State.MemInv.openStatus {status : Nat} : (s.openStatus status).1.MemInv := h
theorem State.MemInv.modRing {r f} : (s.modRing r f).MemInv := h
theorem State.MemInv.sendMsix {p v} : (s.sendMsix p v).MemInv := h.of_mem (State.sendMsix_mem ..)
theorem State.MemInv.modPart {p f} : (s.modPart p f).MemInv := h
theorem State.MemInv.modJob {p f} : (s.modJob p f).MemInv := h
theorem State.MemInv.modResetCtl {p f} : (s.modResetCtl p f).MemInv := h
theorem State.MemInv.modWheel {w f} : (s.modWheel w f).MemInv := h
theorem State.MemInv.setWheel {w v} : (s.setWheel w v).MemInv := h
theorem State.MemInv.modPress {u f} : (s.modPress u f).MemInv := h
theorem State.MemInv.modBarrier {p b f} : (s.modBarrier p b f).MemInv := h
theorem State.MemInv.modStream {c q f} : (s.modStream c q f).MemInv := h
theorem State.MemInv.modKnife {c f} : (s.modKnife c f).MemInv := h
theorem State.MemInv.modFabricRing {c f} : (s.modFabricRing c f).MemInv := h
theorem State.MemInv.setDomain {d v} : (s.setDomain d v).MemInv := h
theorem State.MemInv.healthEvent {k v} : (s.healthEvent k v).MemInv := h
theorem State.MemInv.rtpAnswer {n d} : (rtpAnswer n d s).MemInv := h
theorem State.MemInv.disturb {p} : (s.disturb p).MemInv := h.of_mem (State.disturb_mem ..)
theorem State.MemInv.wakeFor {l} : (wakeFor l s).MemInv := h.of_mem (Machine.wakeFor_mem ..)
theorem State.MemInv.wakeDomain {d} : (wakeDomain d s).MemInv := h.of_mem (Machine.wakeDomain_mem ..)
theorem State.MemInv.countPerf {c k n} : (s.countPerf c k n).MemInv := h.of_mem (State.countPerf_mem ..)
theorem State.MemInv.countMarkedAt {c a n} : (s.countMarkedAt c a n).MemInv := h.of_mem (State.countMarkedAt_mem ..)
theorem State.MemInv.countTimes {c} : (s.countTimes c).MemInv := h.of_mem (State.countTimes_mem ..)
theorem State.MemInv.signalDone {c r} : (s.signalDone c r).MemInv := h.of_mem (State.signalDone_mem ..)
theorem State.MemInv.eccEvents {l} : (s.eccEvents l).MemInv := h.of_mem (State.eccEvents_mem ..)
theorem State.MemInv.storeScrubs : s.storeScrubs.MemInv := h.of_mem (State.storeScrubs_mem ..)
theorem State.MemInv.countRefused : s.countRefused.MemInv := h
theorem State.MemInv.countPackets {p q o n} : (s.countPackets p q o n).MemInv := h
theorem State.MemInv.answerPeer {p t c} : (s.answerPeer p t c).MemInv := h.of_mem (State.answerPeer_mem ..)
theorem State.MemInv.missed {p} : (s.missed p).MemInv := h.of_mem (State.missed_mem ..)
theorem State.MemInv.useResident {w e} : (s.useResident w e).MemInv := h
theorem State.MemInv.caveLost {p a} : (s.caveLost p a).MemInv := h.of_mem (State.caveLost_mem ..)
theorem State.MemInv.caveWait {c w n} : (s.caveWait c w n).MemInv := h.of_mem (State.caveWait_mem ..)
theorem State.MemInv.logImemActive {c a} : (s.logImemActive c a).MemInv := h
theorem State.MemInv.waxErrors {p d t} : (s.waxErrors p d t).MemInv := h.of_mem (State.waxErrors_mem ..)
theorem State.MemInv.noteReads {d o n} : (s.noteReads d o n).MemInv := h.of_mem (State.noteReads_mem ..)
theorem State.MemInv.setOutcome {c q o k} : (setOutcome c q o k s).MemInv := h
theorem State.MemInv.knifeOutcome {c o} : (knifeOutcome c o s).MemInv := h
theorem State.MemInv.beginFabric {c r d p o} : (beginFabric c r d p o s).MemInv := h
theorem State.MemInv.settlePress {u} : (settlePress s u).MemInv := h.of_mem (Machine.settlePress_mem ..)
theorem State.MemInv.discardArrivals {c} : (discardArrivals c s).MemInv := h.of_mem (Machine.discardArrivals_mem ..)
theorem State.MemInv.advanceScrub {p} : (advanceScrub p s).MemInv := h.of_mem (Machine.advanceScrub_mem ..)
theorem State.MemInv.absorbTraffic {p} : (absorbTraffic p s).MemInv := h.of_mem (Machine.absorbTraffic_mem ..)
theorem State.MemInv.endDrain {p} : (endDrain p s).MemInv := h.of_mem (Machine.endDrain_mem ..)
theorem State.MemInv.releaseJob {p} : (releaseJob p s).MemInv := h
theorem State.MemInv.restoreBarriers {p} : (restoreBarriers p s).MemInv := h
theorem State.MemInv.noteFed {c} : (s.noteFed c).MemInv := h
theorem State.MemInv.touched {c} : (s.touched c).MemInv := h.of_mem (State.touched_mem ..)
theorem State.MemInv.newPartKey {p} : (newPartKey p s).MemInv := h.of_mem (Machine.newPartKey_mem ..)
theorem State.MemInv.disableRing {r} : (disableRing r s).MemInv := h
theorem State.MemInv.countWheel {w n k} : (countWheel w n k s).MemInv := h
theorem State.MemInv.writeLastFatal : (writeLastFatal s).MemInv := h.of_mem (Machine.writeLastFatal_mem ..)
end

end Sys2Proof.Machine
end

section
/-! # Memory's form through rings, issue, resets, segments and the engines (R78, R171–R181, R198–R207, R332, R443) -/

namespace Sys2Proof.Machine

/-! ## Rings and completions (R332–R338) -/

section
variable {s : State}

theorem State.MemInv.writeCompletion (h : s.MemInv) {r rcd c} : (writeCompletion r rcd c s).MemInv :=
  .ite (.sendMsix <| .modRing <| h.put _ _ _) (.modRing <| h.put _ _ _)

theorem State.MemInv.takeOne (h : s.MemInv) {r} : (takeOne r s).1.MemInv := by
  unfold Machine.takeOne
  dsimp only
  split
  · exact .modRing h.modRing.writeCompletion
  · split
    · exact h.modRing.modRing.openStatus.writeCompletion
    · split
      · split
        · exact h.modRing.modRing.openStatus.writeCompletion
        · exact h.modRing.modRing.writeCompletion
      · exact h.modRing.modRing.modRing

theorem State.MemInv.takeRecords {r} (n : Nat) (h : s.MemInv) : (takeRecords r n s).MemInv := by
  induction n generalizing s with
  | zero => exact h
  | succ n ih => exact .ite (.ite (ih h.takeOne) h.takeOne) h

theorem State.MemInv.pumpRing (h : s.MemInv) {r} : (pumpRing r s).MemInv := h.takeRecords _

theorem State.MemInv.pumpRings (h : s.MemInv) {p} : (pumpRings p s).MemInv := .foldl (fun _ _ ht => ht.pumpRing) _ h

theorem State.MemInv.completeRecord (h : s.MemInv) {r c} : (completeRecord r c s).MemInv := by
  unfold Machine.completeRecord
  split
  · exact h
  · exact h.writeCompletion.pumpRing

theorem State.MemInv.completeOpen (h : s.MemInv) {r status} : (completeOpen r status s).MemInv := h.openStatus.completeRecord

theorem State.MemInv.refuse (h : s.MemInv) {r status detail} : (refuse r status detail s).MemInv := h.completeRecord

theorem State.MemInv.abortRecords (h : s.MemInv) {p} : (abortRecords p s).MemInv := by
  refine .modPart <| .foldl (fun t r ht => ?_) _ h
  split
  · exact ht.writeCompletion
  · exact ht

/-! ## What a command answers -/

/-- The state a command answers, where it answers one, has the form. -/
def OutMemInv : Out → Prop
  | .next t => t.MemInv
  | _ => True

theorem OutMemInv.next {t : State} (h : t.MemInv) : OutMemInv (.next t) := h

theorem OutMemInv.ite {c : Prop} [Decidable c] {a b : Out} (ha : OutMemInv a) (hb : OutMemInv b) : OutMemInv (if c then a else b) := by
  split
  · exact ha
  · exact hb

/-! ## Issue rows: an instruction's own effect leaves memory as it is, and its stores come with the core's cycles (R78) -/

/-- The effect that an instruction's meaning answers, where it answers one, leaves memory as it is. -/
def EffectKeepsMem (x : Issue) (r : Except FaultReq Effect) : Prop := ∀ e, r = .ok e → e.st.mem = x.st.mem

theorem EffectKeepsMem.ok {x : Issue} {e : Effect} (h : e.st.mem = x.st.mem) : EffectKeepsMem x (.ok e) := fun _ he => by
  cases he; exact h

theorem EffectKeepsMem.error {x : Issue} {f : FaultReq} : EffectKeepsMem x (.error f) := fun _ he => by cases he

theorem EffectKeepsMem.checked {x : Issue} {l : List (Option FaultReq)} {e : Effect} (h : e.st.mem = x.st.mem) :
    EffectKeepsMem x (checked l e) := by
  unfold Machine.checked
  split
  · exact .error
  · exact .ok h

theorem EffectKeepsMem.withElement {x : Issue} {f : Option FaultReq} {e : Effect} (h : e.st.mem = x.st.mem) :
    EffectKeepsMem x (withElement x f e) := by
  unfold Machine.withElement
  split
  · exact .ok h
  · split
    · exact .error
    · exact .ok h

theorem EffectKeepsMem.vectorLoad {m : MemForm} {latency : Nat} {ff : Bool} (x : Issue) : EffectKeepsMem x (vectorLoad m latency ff x) := by
  unfold Machine.vectorLoad
  dsimp only
  split
  · exact .checked rfl
  · split
    · exact .error
    · exact .withElement rfl

theorem EffectKeepsMem.vectorStore {m : MemForm} (x : Issue) : EffectKeepsMem x (vectorStore m x) := by
  unfold Machine.vectorStore
  dsimp only
  split
  · exact .checked rfl
  · split
    · exact .error
    · exact .withElement rfl

theorem sendEffect_mem (x : Issue) (e : SyncEffect) : (sendEffect x e).mem = x.st.mem := by
  simp [sendEffect]

theorem EffectKeepsMem.signalSem (x : Issue) : EffectKeepsMem x (signalSem x) := by
  unfold Machine.signalSem
  dsimp only
  split
  · exact .ok (sendEffect_mem ..)
  · exact .ok rfl

theorem EffectKeepsMem.waitSem (x : Issue) : EffectKeepsMem x (waitSem x) := by
  unfold Machine.waitSem
  dsimp only
  split
  · exact .ok (State.takeSem_mem ..)
  · exact .ok rfl

theorem EffectKeepsMem.remoteSignal (x : Issue) : EffectKeepsMem x (remoteSignal x) :=
  .checked (by simp [sendEffect_mem])

theorem EffectKeepsMem.barArrive {waits : Bool} (x : Issue) : EffectKeepsMem x (barArrive waits x) := .checked (sendEffect_mem ..)

theorem EffectKeepsMem.enqueueStream (x : Issue) : EffectKeepsMem x (enqueueStream x) :=
  .checked (by simp [State.countMarkedAt_mem])

theorem EffectKeepsMem.enqueueKnife (x : Issue) : EffectKeepsMem x (enqueueKnife x) :=
  .checked (by simp [State.countMarkedAt_mem])

theorem OutMemInv.issueOut (h : s.MemInv) {r c body} (hb : ∀ x, EffectKeepsMem x (body x)) : OutMemInv (issueOut r c body s) :=
  h.issue_of_st r c hb

/-! ## Resets of cores, press units and partitions (R443, R444, R373) -/

theorem State.MemInv.beginCoreReset (h : s.MemInv) {c} : (beginCoreReset c s).MemInv := .discardArrivals <| .modCore (h.stopIssue _ _) _ _

theorem State.MemInv.beginScrub (h : s.MemInv) {p units} : (beginScrub p units s).MemInv :=
  .advanceScrub <| .storeScrubs <| .update <| .modPart <| .foldl (fun _ _ ht => ht.beginCoreReset) _ h.wakeFor

theorem State.MemInv.clearCore (h : s.MemInv) {c} : (clearCore c s).MemInv := .update (h.zeroSpan _ _)

theorem State.MemInv.freeWheelEntry (h : s.MemInv) {w} : (s.freeWheelEntry w).MemInv := .put (.update h.setWheel) _ _ _

theorem State.MemInv.freeWheels (h : s.MemInv) {p} : (freeWheels p s).MemInv := .foldl (fun _ _ ht => ht.freeWheelEntry) _ h

theorem OutMemInv.pressStep (h : s.MemInv) {unit op body} (hb : ∀ d w {t : State}, t.MemInv → (body d w t).MemInv) :
    OutMemInv (pressStep unit op body s) := by
  unfold Machine.pressStep
  split
  · exact .next <| .ite (.ite (hb _ _ h).settlePress (hb _ _ h)) h
  · exact h

theorem OutMemInv.pressLanes (h : s.MemInv) {unit op f} : OutMemInv (pressLanes unit op f s) := .pressStep h fun _ _ _ ht => ht.modPress

theorem State.MemInv.pressEnd (h : s.MemInv) {unit d} : (pressEnd unit d s).MemInv := .modPress <| .foldl (fun _ _ ht => ht.put _ _ _) _ h

theorem OutMemInv.execPend (h : s.MemInv) {unit} : OutMemInv (execPend unit s) := .pressStep h fun _ _ _ ht => ht.pressEnd

theorem OutMemInv.execVsetl (h : s.MemInv) {unit} : OutMemInv (execVsetl unit s) := .pressStep h fun _ _ _ ht => ht.modPress

theorem OutMemInv.execPld (h : s.MemInv) {unit env} : OutMemInv (execPld unit env s) := .pressStep h fun _ _ _ ht => ht.of_mem (by simp)

theorem OutMemInv.execPst (h : s.MemInv) {unit} : OutMemInv (execPst unit s) := .pressStep h fun _ _ _ ht => ht.of_mem (by simp)

theorem OutMemInv.pressInstruction (h : s.MemInv) {unit w} : OutMemInv (pressInstruction unit w s) := by
  unfold Machine.pressInstruction
  dsimp only
  split
  · exact .execPend h
  · exact .execVsetl h
  · exact .execPld h
  · exact .execPst h
  case h_16 => exact h
  all_goals exact .pressLanes h

theorem State.MemInv.finishIteration {unit} (fuel : Nat) (h : s.MemInv) : (finishIteration unit fuel s).MemInv := by
  induction fuel generalizing s with
  | zero => exact h
  | succ n ih =>
    unfold Machine.finishIteration
    dsimp only
    split
    · rename_i w _
      split
      · exact h
      · have hw := OutMemInv.pressInstruction h (unit := unit) (w := w)
        split
        · rename_i t ht
          rw [ht] at hw
          exact ih hw
        · exact h
    · exact h

theorem State.MemInv.clearPress (h : s.MemInv) {unit} : (clearPress unit s).MemInv := .update (h.finishIteration _)

theorem State.MemInv.beginPartitionReset (h : s.MemInv) {p} : (beginPartitionReset p s).MemInv := by
  unfold Machine.beginPartitionReset
  extract_lets woken begun settled quiet stopped undrained cleared freed
  have hsettled : settled.MemInv := .when (.modPart h.wakeFor) (·.modResetCtl)
  have hstopped : stopped.MemInv := .foldl (fun _ _ ht => ht.beginCoreReset) _ hsettled.abortRecords.absorbTraffic
  have hcleared : cleared.MemInv := .foldl (fun _ _ ht => ht.clearPress) _ hstopped.endDrain
  exact .when hcleared.freeWheels (·.beginScrub)

theorem State.MemInv.scrubUnit (h : s.MemInv) {p u} : (scrubUnit p u s).MemInv :=
  .update <| .foldl (fun _ _ ht => ht.zeroSpan _ _) _ <| .foldl (fun _ _ ht => ht.clearCore) _ h

theorem State.MemInv.scrubPart (h : s.MemInv) {p} : (scrubPart p s).MemInv := .modPart h.releaseJob.freeWheels

theorem State.MemInv.finishPartitionReset (h : s.MemInv) {p} : (finishPartitionReset p s).MemInv :=
  .pumpRings <| .modPart <| .when (.restoreBarriers <| .releaseJob <| .foldl (fun _ _ ht => ht.clearCore) _ h.absorbTraffic) (·.newPartKey)

theorem State.MemInv.writeResetCtl (h : s.MemInv) {p core kind go} : (writeResetCtl p core kind go s).MemInv :=
  .ite h.countRefused <| .ite h <| .ite h.modResetCtl <| .ite h.modResetCtl.modResetCtl.healthEvent <|
    .foldl (fun _ _ ht => ht.beginCoreReset) _ h.modResetCtl.modResetCtl.wakeDomain

theorem State.MemInv.hostResetCtl (h : s.MemInv) {p core kind go} : (hostResetCtl p core kind go s).MemInv :=
  .writeResetCtl <| .when h (·.disturb)

/-! ## Segments: reads that count, and writes (R171–R181) -/

theorem State.MemInv.writeCoreCtl (h : s.MemInv) {c v} : (writeCoreCtl c v s).MemInv := by
  unfold Machine.writeCoreCtl
  dsimp only
  split
  · exact h.of_mem (by simp)
  · exact .stopCore (h.modCore _ _) _
  · exact h.of_mem (by simp)
  · exact h.of_mem (by simp)
  · exact h.modCore _ _

theorem State.MemInv.writeWindow (h : s.MemInv) {c ofs v m} : (s.writeWindow c ofs v m).MemInv :=
  .ite (h.modCore _ _) <| .ite (h.of_mem (by simp)) <| .ite h.writeCoreCtl <| .ite (.ite h (h.modCore _ _)) <| .ite (h.modCore _ _) <|
    .ite (h.modCore _ _) h

theorem State.MemInv.putWindow (h : s.MemInv) {a data} : (s.putWindow a data).MemInv := .foldl (fun _ _ ht => ht.writeWindow) _ h

theorem State.MemInv.writeSeg (h : s.MemInv) {p d ofs data} : (s.writeSeg p d ofs data).MemInv :=
  .ite h <| .ite (h.putWax _ _ _ _) <| .ite h.putWindow (h.putMarked _ _)

theorem State.MemInv.hostWriteWord (h : s.MemInv) {c ofs v m} : (hostWriteWord c ofs v m s).MemInv := .ite h.logImemActive h.writeWindow

theorem State.MemInv.hostWindow (h : s.MemInv) {port c f} (hf : ∀ {t : State}, t.MemInv → (f t).MemInv) : (hostWindow port c f s).MemInv :=
  .ite (hf h.wakeDomain.disturb) h.missed

/-! ## Stream descriptors (R198–R207) -/

theorem State.MemInv.moveRow {m : StreamMove} (h : m.st.MemInv) {c p j lost n} : (moveRow c p j lost n m).st.MemInv := by
  unfold Machine.moveRow
  dsimp only
  split
  · exact h
  · split
    · exact h.writeSeg
    · split
      · exact h.waxErrors.noteReads.countMarkedAt.writeSeg
      · split
        · exact h.waxErrors.noteReads.countMarkedAt
        · exact h.waxErrors.noteReads.countMarkedAt.writeSeg

theorem State.MemInv.moveRows {c p j lost} (fuel n : Nat) {m : StreamMove} (h : m.st.MemInv) : (moveRows c p j lost fuel n m).st.MemInv := by
  induction fuel generalizing n m with
  | zero => exact h
  | succ fuel ih =>
    unfold Machine.moveRows
    split
    · exact h
    · exact ih _ h.moveRow

theorem State.MemInv.transferRows (h : s.MemInv) {c q j env} : (transferRows c q j env s).MemInv :=
  have hm : (Machine.clearLoaded j (s.eccEvents env.ecc)).MemInv := h.of_mem (by simp)
  .setOutcome <| .wakeFor <| .when (hm.moveRows _ _) (·.caveLost)

theorem State.MemInv.runStream (h : s.MemInv) {c q j env} : (runStream c q j env s).MemInv := by
  unfold Machine.runStream
  dsimp only
  split
  · exact h.setOutcome
  · split
    · exact h.setOutcome
    · exact .ite h.logImemActive.setOutcome <| .ite h.modStream.transferRows h.modStream.caveWait

theorem State.MemInv.takeStream (h : s.MemInv) {op c q env} : (takeStream op c q env s).MemInv := by
  have hp := h.runPending c
  unfold Machine.takeStream
  dsimp only
  split
  · exact h
  · exact .ite h <| .ite hp.runStream <| .ite hp.modStream.setOutcome hp.modStream.runStream

theorem State.MemInv.completeStream (h : s.MemInv) {c q j o} : (completeStream c q j o s).MemInv :=
  .disturb <| .signalDone <| .wakeFor <| .countTimes <| .countPerf <| .touched <| .modStream <| .noteFed <|
    .put (.put (.ite h <| h.modCore _ _) _ _ _) _ _ _

/-! ## The knife (R161–R169) -/

@[simp] theorem readSide_mem (c : CoreId) (p : Option Nat) (j : KnifeJob) (lost : Bool) (q : Side) (s : State) :
    (readSide c p j lost q s).2.mem = s.mem := by
  unfold readSide
  dsimp only
  split
  · split <;> simp
  · split
    · rfl
    · simp [State.countMarkedAt_mem]

theorem State.MemInv.readSide (h : s.MemInv) {c p j lost q} : (readSide c p j lost q s).2.MemInv := h.of_mem (by simp)

theorem State.MemInv.moveElement (h : s.MemInv) {c p j lost i x} : (moveElement c p j lost i x s).MemInv := by
  unfold Machine.moveElement
  dsimp only
  split
  · exact h.readSide.writeSeg
  · exact h.readSide.writeSeg
  · exact h.readSide.readSide.writeSeg

theorem State.MemInv.stepElement {m : KnifeMove} (h : m.st.MemInv) {c p j env i} : (stepElement c p j env i m).st.MemInv := by
  unfold Machine.stepElement
  split
  · exact h
  · split
    · exact h
    · split
      · exact h
      · dsimp only
        split
        · exact h.moveElement
        · exact h

theorem State.MemInv.stepElements {c p j env} (fuel i : Nat) {m : KnifeMove} (h : m.st.MemInv) : (stepElements c p j env fuel i m).st.MemInv := by
  induction fuel generalizing i m with
  | zero => exact h
  | succ fuel ih =>
    unfold Machine.stepElements
    split
    · exact h
    · exact ih _ h.stepElement

theorem State.MemInv.runKnife (h : s.MemInv) {c j env} : (runKnife c j env s).MemInv :=
  .ite h.knifeOutcome <| .ite (.knifeOutcome <| .wakeFor <| .modKnife <| .stepElements _ _ h.eccEvents) h.modKnife.caveWait

theorem State.MemInv.takeKnife (h : s.MemInv) {op c env} : (takeKnife op c env s).MemInv := by
  have hp := h.runPending c
  unfold Machine.takeKnife
  dsimp only
  split
  · exact h
  · exact .ite h <| .ite hp.runKnife <| .ite hp.modKnife.knifeOutcome hp.modKnife.runKnife

theorem State.MemInv.completeKnife (h : s.MemInv) {c j o} : (completeKnife c j o s).MemInv :=
  .disturb <| .signalDone <| .wakeFor <| .countTimes <| .countPerf <| .touched <| .modKnife <| .noteFed <|
    .put (h.put _ _ _) _ _ _

theorem State.MemInv.fillPage (h : s.MemInv) {p j c} : (fillPage p j c s).MemInv := .modJob <| .wakeFor <| h.put _ _ _
end

end Sys2Proof.Machine
end

section
/-! # Memory's form through the host's records, the intake, the fabric, checkpoints, power and the root of trust -/

namespace Sys2Proof.Machine

section
variable {s : State}

/-! ## The host's records (R339–R346) -/

theorem OutMemInv.controlRecord (h : s.MemInv) {r sub named body} (hb : ∀ p rcd {t : State}, t.MemInv → (body p rcd t).MemInv) :
    OutMemInv (controlRecord r sub named body s) := by
  unfold Machine.controlRecord
  split
  · exact h
  · exact .next <| .ite h.disturb.completeOpen (hb _ _ h.disturb)

theorem State.MemInv.hostStores (h : s.MemInv) {l} : (hostStores l s).MemInv := .foldl (fun _ _ ht => .ite (ht.store _ _ _) ht) _ h

theorem State.MemInv.refetch (h : s.MemInv) {r} : (refetch r s).MemInv := .ite h h.modRing.pumpRing

theorem State.MemInv.enableRing (h : s.MemInv) {r msix vector} : (enableRing r msix vector s).MemInv :=
  .ite h <| .ite h.countRefused <| .ite h h.modRing.refetch

theorem State.MemInv.clearJobStore (h : s.MemInv) {j c} : (clearJobStore j s c).MemInv := .modFabricRing <| .put (.wakeFor <| h.put _ _ _) _ _ _

theorem State.MemInv.grantJob (h : s.MemInv) {r p block j} : (grantJob r p block j s).MemInv := by
  unfold Machine.grantJob
  extract_lets owned mapped cleared reset back
  have hcleared : cleared.MemInv := .foldl (fun _ _ ht => ht.clearJobStore) _ (h.modPart.of_mem (mapStaging_mem ..))
  exact .completeRecord <| .put (.foldl (fun _ _ ht => ht.update) _ hcleared) _ _ _

/-- The list of the block's checks is generalized before the case split on it: its page arithmetic is too large for the kernel to unfold. -/
theorem State.MemInv.admitJob (h : s.MemInv) {r p rcd partner} : (admitJob r p rcd partner s).MemInv := by
  rw [Machine.admitJob]
  refine .ite h.completeOpen <| .ite h.completeOpen ?_
  extract_lets -underBinder +onlyGivenNames b
  generalize (blockChecks s p b).find? _ = failed
  cases failed with
  | some f => exact h.refuse
  | none =>
    refine .ite h.completeOpen ?_
    dsimp only
    split
    · exact h.refuse
    · split
      · exact h.completeOpen
      · split
        · exact h.refuse
        · exact h.grantJob

theorem State.MemInv.stepJob (h : s.MemInv) {r p j rcd} : (stepJob r p j rcd s).MemInv :=
  .ite h.refuse <| .foldl (fun _ _ ht => ht.signalDone) _ <| .foldl (fun _ _ ht => .wakeFor <| ht.put _ _ _) _ h.modJob

theorem State.MemInv.loadSegment (h : s.MemInv) {p i d} : (loadSegment p i d s).MemInv :=
  .when (.modPart <| h.of_mem (discardPages_mem ..)) (·.put _ _ _)

theorem State.MemInv.loadSegments (h : s.MemInv) {r p rcd} : (loadSegments r p rcd s).MemInv := by
  unfold Machine.loadSegments
  dsimp only
  split
  · exact h.completeOpen
  · split
    · exact h.refuse
    · exact .completeRecord <| .foldl (fun _ _ ht => ht.loadSegment) _ h

theorem State.MemInv.loadBarriers (h : s.MemInv) {r p rcd} : (loadBarriers r p rcd s).MemInv := by
  unfold Machine.loadBarriers
  dsimp only
  split
  · exact h.completeOpen
  · split
    · exact h.refuse
    · split
      · exact h.refuse
      · exact .completeRecord <| .foldl (fun _ _ ht => ht.modBarrier) _ h

theorem State.MemInv.loadGroups (h : s.MemInv) {r p rcd} : (loadGroups r p rcd s).MemInv := by
  unfold Machine.loadGroups
  dsimp only
  split
  · exact h.completeOpen
  · split
    · exact h.completeOpen
    · split
      · exact h.refuse
      · exact h.update.completeRecord

theorem State.MemInv.allocateMcast (h : s.MemInv) {r p rcd} : (allocateMcast r p rcd s).MemInv := by
  unfold Machine.allocateMcast
  dsimp only
  split
  · exact h.completeOpen
  · split
    · exact h.refuse
    · exact .ite h.update.completeRecord h.refuse

theorem State.MemInv.freeMcast (h : s.MemInv) {r p rcd} : (freeMcast r p rcd s).MemInv := .ite h.update.completeRecord h.completeOpen

theorem State.MemInv.grantPeer (h : s.MemInv) {r p rcd} : (grantPeer r p rcd s).MemInv := by
  unfold Machine.grantPeer
  dsimp only
  split
  · exact h.refuse
  · exact h.modPart.completeRecord

theorem State.MemInv.revokePeer (h : s.MemInv) {r p rcd} : (revokePeer r p rcd s).MemInv := by
  unfold Machine.revokePeer
  dsimp only
  split
  · exact h.completeOpen
  · exact .ite h h.modPart.completeRecord

theorem State.MemInv.endStep (h : s.MemInv) {r p} : (endStep r p s).MemInv := by
  unfold Machine.endStep
  split
  · exact .ite h h.completeRecord
  · exact h

theorem State.MemInv.hdmWritePart (h : s.MemInv) {port addr data poisoned} : (hdmWritePart port addr data poisoned s).MemInv := by
  unfold Machine.hdmWritePart
  split
  · exact h.countRefused
  · exact .ite h <| .when (.wakeFor <| h.put _ _ _) (·.logError _)

/-! ## The host's registers (R330–R332, R442) -/

theorem State.MemInv.writeRingConfig (h : s.MemInv) {r w v} : (writeRingConfig r w v s).MemInv := by
  refine .ite h.enableRing <| .ite (.when h (·.disableRing)) ?_
  split
  case h_6 => exact h
  all_goals exact h.modRing

theorem State.MemInv.writeBar0 (h : s.MemInv) {port ofs v} : (writeBar0 port ofs v s).MemInv :=
  .ite h <| .ite (.when h (·.writeRingConfig)) <| .ite (h.of_mem (writeMsixTable_mem ..)) <| .ite (h.of_mem (writeCaveMap_mem ..)) h

theorem State.MemInv.writePage (h : s.MemInv) {port ofs v} : (writePage port ofs v s).MemInv :=
  .ite h.missed <| .when h.disturb (·.writeResetCtl)

/-! ## Barriers, the iron and held issue (R285–R299) -/

theorem State.MemInv.countHeld (h : s.MemInv) {c n held} : (countHeld c n held s).MemInv := h.countPerf

theorem State.MemInv.answerBar (h : s.MemInv) {c n dst status} : (answerBar c n dst status s).MemInv :=
  .when (.modCore (h.runTo _ _) _ _) fun hu => .countHeld <| .of_mem (hu.modCore _ _) (resumeIssue_mem ..)

theorem State.MemInv.ironDeadlock (h : s.MemInv) {p n} : (ironDeadlock p n s).MemInv :=
  .partError (.put (.modPart <| .foldl (fun _ _ ht => ht.stopCore _) _ h) _ _ _) _

theorem State.MemInv.ironSweepEnd (h : s.MemInv) {p} : (ironSweepEnd p s).MemInv := .when h.modPart (·.ironDeadlock)

theorem State.MemInv.enterTrap (h : s.MemInv) {c} : (enterTrap c s).MemInv := .when (h.drain _) (·.modCore _ _)

theorem State.MemInv.finishDump (h : s.MemInv) {c} : (finishDump c s).MemInv :=
  .modCore (.wakeFor <| .ite (.of_mem ((h.put _ _ _).put _ _ _) (State.copyMarks_mem ..)) (h.put _ _ _)) _ _

/-! ## Press units (R257) -/

theorem State.MemInv.completePress (h : s.MemInv) {unit p j d o} : (completePress unit p j d o s).MemInv :=
  .disturb <| .when (.modPress <| .put (h.put _ _ _) _ _ _) (·.signalDone)

/-! ## The intake (R223–R246) -/

theorem State.MemInv.refuseIntake (h : s.MemInv) {ring code} : (refuseIntake ring code s).MemInv := h.completeRecord

theorem State.MemInv.refuseRecipe (h : s.MemInv) {ring} : (refuseRecipe ring s).MemInv := h.fresh.completeRecord

theorem OutMemInv.intakeCommand (h : s.MemInv) {ring cmd f0 body} (hb : ∀ p j r {t : State}, t.MemInv → (body p j r t).MemInv) :
    OutMemInv (intakeCommand ring cmd f0 body s) := by
  unfold Machine.intakeCommand
  split
  · exact h
  · split
    · exact h.completeOpen
    · exact .ite h.completeOpen <| .ite h.refuseIntake (hb _ _ _ h)

theorem State.MemInv.saveWheel (h : s.MemInv) {w} : (s.saveWheel w).MemInv := h.put _ _ _

theorem State.MemInv.writeClip (h : s.MemInv) {w tag c} : (writeClip w tag c s).MemInv :=
  .disturb <| .when (.modWheel <| h.put _ _ _) (·.signalDone)

theorem State.MemInv.endPending (h : s.MemInv) {w status} : (endPending w status s).MemInv := .foldl (fun _ _ ht => ht.writeClip) _ h.modWheel

theorem State.MemInv.appendClips (h : s.MemInv) {w resume clips} : (appendClips w resume clips s).MemInv :=
  .when h.modWheel fun hs => .ite hs.modWheel hs.endPending

theorem State.MemInv.feedCommand (h : s.MemInv) {ring p j r} : (feedCommand ring p j r s).MemInv := by
  unfold Machine.feedCommand
  dsimp only
  split
  · exact h.refuseIntake
  · refine .ite h.refuseIntake <| .ite h.refuseIntake ?_
    split
    · exact h.refuseIntake
    · exact .ite h.refuseIntake h.appendClips.completeRecord

theorem State.MemInv.openWheel (h : s.MemInv) {ring p j r recipe} : (openWheel ring p j r recipe s).MemInv := by
  unfold Machine.openWheel
  split
  · exact h
  · exact .completeRecord <| .saveWheel <| .when h.setWheel (·.put _ _ _)

theorem State.MemInv.openCommand (h : s.MemInv) {ring p j r} : (openCommand ring p j r s).MemInv := by
  unfold Machine.openCommand
  split
  · exact h.refuseIntake
  · exact .ite (.ite h.refuseIntake <| .ite h.refuseRecipe h.openWheel) <| .ite h.refuseRecipe <| .ite h.refuseIntake h.openWheel

theorem State.MemInv.queryCommand (h : s.MemInv) {clear ring p j r} : (queryCommand clear ring p j r s).MemInv := by
  unfold Machine.queryCommand
  dsimp only
  split
  · exact h.refuseIntake
  · exact .ite h.refuseIntake <| .completeRecord <| .when (h.put _ _ _) (·.modWheel.put _ _ _)

theorem State.MemInv.finishClip (h : s.MemInv) {w r status} : (finishClip w r status s).MemInv := by
  unfold Machine.finishClip
  extract_lets v counted written settled
  have hcounted : counted.2.MemInv := by
    unfold counted
    split
    · exact h
    · exact h.fresh
  exact .when hcounted.writeClip.modWheel (·.endPending)

theorem State.MemInv.settleWheel (h : s.MemInv) {w} : (settleWheel w s).MemInv := by
  unfold Machine.settleWheel
  extract_lets finished v ended u
  have hfinished : finished.MemInv := by
    unfold finished
    split
    · split
      · exact .when h (·.finishClip)
      · exact h
    · exact h
  have hended : ended.MemInv := .when hfinished (·.endPending)
  exact .ite hended.freeWheelEntry hended.modWheel

theorem State.MemInv.flushHbm (h : s.MemInv) {w} : (flushHbm w s).MemInv := by
  unfold Machine.flushHbm
  dsimp only
  split
  · exact h
  · exact .ite h <| .modWheel <| .foldl (fun _ _ ht => .wakeFor <| ht.put _ _ _) _ h

theorem State.MemInv.closeWheel (h : s.MemInv) {w abort} : (closeWheel w abort s).MemInv := h.modWheel.modWheel.flushHbm.settleWheel

theorem State.MemInv.closeCommand (h : s.MemInv) {abort ring p j r} : (closeCommand abort ring p j r s).MemInv := by
  unfold Machine.closeCommand
  split
  · exact h.refuseIntake
  · exact h.closeWheel.completeRecord

theorem State.MemInv.releaseBegin (h : s.MemInv) {r p} : (releaseBegin r p s).MemInv :=
  .modPart <| .foldl (fun _ _ ht => ht.closeWheel) _ <| .foldl (fun _ _ ht => ht.stopCore _) _ h

theorem State.MemInv.startGroup (h : s.MemInv) {w e x} : (startGroup w e x s).MemInv :=
  .ite (h.modWheel.of_mem (wheelCaveWait_mem ..)) (.wakeFor <| .useResident h.modWheel)

theorem State.MemInv.deliverDecoded (h : s.MemInv) {w x g} : (deliverDecoded w x g s).MemInv := by
  unfold Machine.deliverDecoded
  extract_lets v d u t stop coded pics r lo hi ended src x₁ x₂ counted unsupported demuxed moved
  have hcounted : counted.MemInv := .foldl (fun _ _ ht => ht.countWheel) _ h
  have hdemuxed : demuxed.MemInv := .of_mem (.when hcounted (·.countWheel)) (countDemux_mem ..)
  exact hdemuxed.modWheel.flushHbm

theorem State.MemInv.deliverGroups {w} (fuel : Nat) (h : s.MemInv) : (deliverGroups w fuel s).MemInv := by
  induction fuel generalizing s with
  | zero => exact h
  | succ n ih =>
    unfold Machine.deliverGroups
    dsimp only
    split
    · exact h
    · refine .ite h <| ih ?_
      split
      · refine .ite h.modWheel <| .unless ?_ (·.saveWheel)
        exact .settleWheel <| .ite (h.modWheel.of_mem (failClip_mem ..)) h.modWheel.deliverDecoded
      · exact h.modWheel

theorem State.MemInv.writeSlot (h : s.MemInv) {w x l rest} : (writeSlot w x l rest s).MemInv :=
  .signalDone <| .modWheel <| .wakeFor <| .put (.put (h.put _ _ _) _ _ _) _ _ _

theorem State.MemInv.encodeNext (h : s.MemInv) {w e x} : (encodeNext w e x s).MemInv := by
  unfold Machine.encodeNext
  extract_lets v pr size n addr input pics out bad busy counted x₁ stored status moved
  have hbusy : busy.MemInv := h
  exact .useResident <| .modWheel <| .ite hbusy.countWheel <| .wakeFor <| hbusy.countWheel.put _ _ _

/-! ## The fabric (R300–R324) -/

@[simp] theorem FabricRun.source_mem (x : FabricRun) (env : TransferEnv) (n : Nat) (s : State) : (x.source env n s).2.mem = s.mem := by
  simp [FabricRun.source, State.countMarkedAt_mem]

@[simp] theorem runPutGroup_mem (x : FabricRun) (peers : List Nat) (env : TransferEnv) (s : State) : (runPutGroup x peers env s).mem = s.mem := by
  unfold runPutGroup
  split
  · rfl
  · rfl
  · rfl
  · split
    · rfl
    · dsimp only
      rw [beginFabric_mem, State.countPerf_mem, foldl_keeps (·.mem) _ fun s q => putToMember_mem x _ _ s q]
      simp

@[simp] theorem runAllreduce_mem (x : FabricRun) (ids : List Nat) (env : TransferEnv) (posted : List PeerVector) (s : State) :
    (runAllreduce x ids env posted s).mem = s.mem := by
  unfold runAllreduce
  dsimp only
  split
  · rfl
  · rfl
  · rfl
  · have hsent : ∀ (l : List (Nat × Nat)) (tag : Nat) (data : List MByte) (s : State), (l.foldl (reduceToMember x tag data) s).mem = s.mem :=
      fun l tag data s => foldl_keeps (·.mem) _ (fun s q => reduceToMember_mem x tag data s q) l s
    simp [hsent]

@[simp] theorem runPut_mem (x : FabricRun) (env : TransferEnv) (s : State) : (runPut x env s).mem = s.mem := by
  unfold runPut
  dsimp only
  split
  · rfl
  · rfl
  · rfl
  · split <;> simp

theorem State.MemInv.runPutSet (h : s.MemInv) {x env} : (runPutSet x env s).MemInv :=
  .beginFabric <| .countPerf <| .foldl (fun _ _ ht => .wakeFor <| ht.putMarked _ _) _ (h.of_mem (FabricRun.source_mem ..))

theorem State.MemInv.runFabric (h : s.MemInv) {c p j r env posted} : (runFabric c p j r env posted s).MemInv := by
  unfold Machine.runFabric
  dsimp only
  refine .ite h.beginFabric <| .ite h.beginFabric ?_
  split
  · exact h.beginFabric
  · split
    · exact h.of_mem (by simp)
    · exact h.of_mem (by simp)
    · exact h.runPutSet
    · exact h.of_mem (by simp)
    · exact h.of_mem (by simp)

theorem State.MemInv.takeFabric (h : s.MemInv) {op c env posted} : (takeFabric op c env posted s).MemInv := by
  have hp := h.runPending c
  unfold Machine.takeFabric
  dsimp only
  split
  · exact h
  · exact .ite h <| .ite hp.modFabricRing.beginFabric hp.modFabricRing.runFabric

theorem State.MemInv.landGet (h : s.MemInv) {p j a} : (landGet p j a s).MemInv := by
  unfold Machine.landGet
  split
  · exact .unless (.when h.countPackets (·.of_mem (securityEvent_mem ..))) (·.writeSeg)
  · exact h

theorem State.MemInv.landReduced (h : s.MemInv) {p j o} : (landReduced p j o s).MemInv := by
  unfold Machine.landReduced
  split
  · exact .when h (·.writeSeg)
  · exact h

theorem State.MemInv.completeFabric (h : s.MemInv) {c p job j a} : (completeFabric c p job j a s).MemInv :=
  .disturb <| .signalDone <| .modFabricRing <| .put (.put (.wakeFor <| .countTimes <| .landReduced h.landGet) _ _ _) _ _ _

theorem State.MemInv.landPacket (h : s.MemInv) {x data ok} : (landPacket x data ok s).2.MemInv := by
  unfold Machine.landPacket
  split
  · exact h
  · split
    · exact h.answerPeer
    · split
      · exact h.of_mem (badPacket_mem ..)
      · exact .wakeFor <| h.countPackets.putMarked _ _

/-! ## Checkpoints and takeovers (R260–R273) -/

theorem State.MemInv.stepBoundary (h : s.MemInv) {p epoch members} : (stepBoundary p epoch members s).MemInv := by
  unfold Machine.stepBoundary
  split
  · exact h
  · extract_lets g stable drains begun src answered image kept queued
    have hanswered : answered.MemInv := by
      unfold answered
      split
      · exact h.modPart.completeRecord
      · exact h.modPart
    exact .unless (.when hanswered.modPart (·.of_mem (queueDrain_mem ..))) (·.logError _)

theorem State.MemInv.holdPart (h : s.MemInv) {p} : (holdPart p s).MemInv :=
  .endDrain <| .abortRecords <| .foldl (fun _ _ ht => ht.clearPress) _ <| .foldl (fun _ _ ht => ht.beginCoreReset) _ h.modPart

theorem State.MemInv.fenceAndHold (h : s.MemInv) {failed} : (fenceAndHold failed s).MemInv :=
  .update <| .foldl (fun _ _ ht => ht.holdPart) _ h.update

theorem State.MemInv.regenerate (h : s.MemInv) {p g l} : (regenerate p g l s).MemInv := by
  unfold Machine.regenerate
  split
  · exact h
  · refine .foldl (fun t w ht => ?_) _ h
    split
    · exact .when ht (·.put _ _ _)
    · exact ht

theorem State.MemInv.restoreWheels (h : s.MemInv) {p m} : (restoreWheels p m s).MemInv :=
  .foldl (fun _ _ ht => ht.setWheel.saveWheel) _ h.freeWheels

theorem State.MemInv.restorePart (h : s.MemInv) {p g m tensors} : (restorePart p g m tensors s).MemInv := by
  unfold Machine.restorePart
  split
  · exact h
  · extract_lets copied woken restored pressed cores
    have hcopied : copied.MemInv := by
      unfold copied
      split
      · exact .foldl (fun _ _ ht => ht.put _ _ _) _ h
      · exact h
    have hwoken : woken.MemInv := hcopied.wakeFor
    have hrestored : restored.MemInv := .restoreWheels (hwoken.of_mem (by simp))
    have hpressed : pressed.MemInv := by
      refine .foldl (fun t u ht => ?_) _ hrestored
      split
      · exact ht.modPress
      · exact ht
    exact .modJob <| .foldl (fun _ _ ht => ht.modCore _ _) _ hpressed

theorem State.MemInv.stopTakeover (h : s.MemInv) {reason} : (stopTakeover reason s).MemInv := h

theorem State.MemInv.restoreGroup (h : s.MemInv) {group} : (restoreGroup group s).MemInv := by
  unfold Machine.restoreGroup
  dsimp only
  split
  · exact h.stopTakeover
  · split
    · exact h.stopTakeover
    · refine .update <| .foldl (fun t x ht => ?_) _ h
      split
      · exact ht.restorePart.regenerate
      · exact ht

theorem State.MemInv.spareRestore (h : s.MemInv) {group} : (spareRestore group s).MemInv :=
  .ite h <| .restoreGroup <| .foldl (fun _ _ ht => ht.modPart) _ h

theorem State.MemInv.chooseAndRestore (h : s.MemInv) {failed spares group} : (chooseAndRestore failed spares group s).MemInv := by
  unfold Machine.chooseAndRestore
  split
  · exact h.stopTakeover
  · have ht {n : Nat} : (takeIdentity failed.id n failed.group s).MemInv := h.of_mem (by simp)
    exact .ite ht.restoreGroup ht.stopTakeover

/-! ## Power domains (R406–R417) -/

theorem State.MemInv.loseStack (h : s.MemInv) {n} : (loseStack n s).MemInv := .update (h.zeroSpan _ _)

theorem State.MemInv.loseRow (h : s.MemInv) {d} : (loseRow d s).MemInv := .foldl (fun _ _ ht => .update ht.clearCore) _ h

theorem State.MemInv.loseContents (h : s.MemInv) {d} : (loseContents d s).MemInv :=
  .ite (.ite h.loseStack <| .ite h <| .ite h <| .ite h h) <| .ite h.loseRow <| .ite h <| .ite h <| .ite h h

theorem State.MemInv.loseDomain (h : s.MemInv) {v d} : (loseDomain v s d).MemInv := h.loseContents.setDomain

theorem State.MemInv.wakeFails (h : s.MemInv) {d} : (wakeFails s d).MemInv := .healthEvent (h.fresh.loseDomain.logError _)

theorem State.MemInv.thermalTrip (h : s.MemInv) {e} : (thermalTrip e s).MemInv :=
  have hs : State.MemInv { haltDevice s with power := { (haltDevice s).power with tripped := true, thermtripAsserted := true } } := h
  .writeLastFatal <| .logError (.foldl (fun _ _ ht => ht.loseDomain) _ hs) _

/-! ## The start sequence and memory links (R426–R435, R453) -/

theorem State.MemInv.failStart (h : s.MemInv) {reason} : (failStart reason s).MemInv := h.of_mem (by simp)

theorem State.MemInv.finishStep (h : s.MemInv) {o} : (finishStep o s).MemInv := by
  unfold Machine.finishStep
  dsimp only
  split
  · exact h.of_mem (by simp)
  · split
    · exact h.of_mem (by simp)
    · exact h.of_mem (by simp)
  · exact h.of_mem (by simp)
  · exact h.of_mem (by simp)
  · exact .ite h.failStart (State.MemInv.zeroLocalStores (by exact h))
  · exact .ite h.failStart <| .ite h.failStart h
  · have hports : ∀ {t : State} {l : List (Nat × PortTraining)}, t.MemInv → (l.foldl (fun s p => trainPort p.1 p.2 false s) t).MemInv :=
      fun ht => .foldl (fun _ _ ht => ht.of_mem (by simp)) _ ht
    exact .ite h.failStart <| .ite (hports h.update).failStart (hports h.update).update
  · exact .ite h.failStart (State.MemInv.zeroHbm (by exact h))
  · exact h.of_mem (by simp)
  · exact h

theorem State.MemInv.loseMemoryLink (h : s.MemInv) {n} : (loseMemoryLink n s).MemInv := .partError h.update _

/-! ## The root of trust (R355–R376) -/

theorem State.MemInv.mailbox (h : s.MemInv) {body} (hb : ∀ {t : State}, t.MemInv → (body t).MemInv) : (mailbox body s).MemInv :=
  .ite h <| .ite h.update <| .ite h (hb h)

theorem State.MemInv.ownerCommand (h : s.MemInv) {auth body} (hb : ∀ {t : State}, t.MemInv → (body t).MemInv) :
    (ownerCommand auth body s).MemInv :=
  h.mailbox fun ht => .ite (hb ht.update) ht.update.rtpAnswer

theorem State.MemInv.stopPartition (h : s.MemInv) {p} : (stopPartition s p).MemInv := by
  unfold Machine.stopPartition
  extract_lets answered closed stopped undrained cleared
  have hstopped : stopped.MemInv := .foldl (fun _ _ ht => ht.beginCoreReset) _ <| .foldl (fun _ _ ht => ht.disableRing) _ h.abortRecords
  have hcleared : cleared.MemInv := .foldl (fun _ _ ht => ht.clearPress) _ hstopped.endDrain
  exact hcleared.freeWheels.beginScrub

theorem State.MemInv.scrubLeaving (h : s.MemInv) {image} : (scrubLeaving image s).MemInv :=
  .ite h <| .update <| .foldl (fun _ _ ht => .ite ht ht.beginScrub) _ h

theorem State.MemInv.beginLayout (h : s.MemInv) {image} : (beginLayout image s).MemInv :=
  .scrubLeaving <| .update <| .foldl (fun _ _ ht => .foldl (fun _ _ hu => hu.disableRing) _ ht) _ h

theorem State.MemInv.endScrub (h : s.MemInv) {p} : (endScrub p s).MemInv :=
  .ite h <| .ite h.modPart <| .modPart <| .when h (·.scrubPart.newPartKey)
end

end Sys2Proof.Machine
end

section
/-! # What each command answers has memory's form -/

namespace Sys2Proof.Machine

/-! ## Commands of cores, the sync unit and the barriers -/

section
variable {s : State}

theorem OutMemInv.execTrapEntry (h : s.MemInv) {c} : OutMemInv (execTrapEntry c s) := .next <| .when h (·.enterTrap)

theorem OutMemInv.execPoisonRowHalt (h : s.MemInv) {c} : OutMemInv (execPoisonRowHalt c s) := .next <| .ite (h.runPending c) h

theorem OutMemInv.execRtcStop (h : s.MemInv) {c} : OutMemInv (execRtcStop c s) := .next <| .when h (·.stopIssue _ _)

theorem OutMemInv.execDumpDone (h : s.MemInv) {c} : OutMemInv (execDumpDone c s) := .next <| .when h (·.finishDump)

theorem OutMemInv.execWaitRelease (h : s.MemInv) {c elapsed} : OutMemInv (execWaitRelease c elapsed s) := by
  have hrun := h.runTo c (heldCycle c elapsed s)
  unfold Machine.execWaitRelease
  dsimp only
  split
  · exact .ite (.next <| hrun.drain c) <| .ite (.next <| .countHeld <| hrun.of_mem (by simp)) h
  · exact h

theorem OutMemInv.execSwapiResume (h : s.MemInv) {c elapsed} : OutMemInv (execSwapiResume c elapsed s) := by
  have hrun := h.runTo c (heldCycle c elapsed s)
  unfold Machine.execSwapiResume
  dsimp only
  split
  · exact .ite (.next <| hrun.drain c) <| .ite (.next <| .countPerf <| hrun.modCore _ _) h
  · exact h

theorem OutMemInv.execFenceHeldRelease (h : s.MemInv) {c} : OutMemInv (execFenceHeldRelease c s) := by
  have hrun := h.runPending c
  unfold Machine.execFenceHeldRelease
  dsimp only
  split
  · exact h
  · exact .ite (.next <| hrun.of_mem (by simp)) h

theorem OutMemInv.execStartFetchBegin (h : s.MemInv) {c elapsed} : OutMemInv (execStartFetchBegin c elapsed s) := by
  unfold Machine.execStartFetchBegin
  dsimp only
  split
  · exact .ite (.next <| h.of_mem (by simp)) h
  · exact h

theorem OutMemInv.execSemaphoreIncrement (h : s.MemInv) {sender target sem} : OutMemInv (execSemaphoreIncrement sender target sem s) := by
  unfold Machine.execSemaphoreIncrement
  split
  · exact h
  · exact .ite h <| .ite (.next <| h.of_mem (by simp)) <| .ite (.next <| h.of_mem (by simp)) (.next <| h.of_mem (by simp [State.freePlace_mem]))

theorem OutMemInv.execBarrierArrival (h : s.MemInv) {c} : OutMemInv (execBarrierArrival c s) := by
  unfold Machine.execBarrierArrival
  split
  · exact h
  · exact .next <| h.of_mem (by simp)

theorem OutMemInv.execBarrierNodeReport (h : s.MemInv) {p b die} : OutMemInv (execBarrierNodeReport p b die s) := .ite (.next h.modBarrier) h

theorem OutMemInv.execDeviceReport (h : s.MemInv) {p b device epoch time} : OutMemInv (execDeviceReport p b device epoch time s) := by
  unfold Machine.execDeviceReport
  extract_lets _ reported
  have hreported : reported.MemInv := .when h (·.modBarrier)
  refine .ite h <| .ite h <| .ite hreported ?_
  split
  · exact .ite (.next hreported.modBarrier) (.next hreported.healthEvent)
  · exact .ite (.next hreported.modBarrier) (.next hreported.healthEvent)
  · exact .next hreported.healthEvent

theorem OutMemInv.execBarrierCompletion (h : s.MemInv) {p b time} : OutMemInv (execBarrierCompletion p b time s) := by
  unfold Machine.execBarrierCompletion
  dsimp only
  refine .ite h <| .next <| .when (.ite ?_ h.modBarrier.modPart) (·.stepBoundary)
  exact .foldl (fun _ _ ht => ht.healthEvent) _ h.modBarrier.modPart.update

theorem OutMemInv.execBarrierReleaseDelivery (h : s.MemInv) {c b elapsed} : OutMemInv (execBarrierReleaseDelivery c b elapsed s) := by
  unfold Machine.execBarrierReleaseDelivery
  dsimp only
  split
  · exact .ite (.next h.answerBar) h
  · split
    · exact h
    · split
      · exact h
      · refine .ite h <| .ite (.next h.modBarrier.wakeFor) <| .ite ?_ ?_
        · split
          · exact .ite (.next h.answerBar.modBarrier) (.next h.modBarrier.wakeFor)
          · exact .next h.modBarrier.wakeFor
        · exact .ite (.next <| h.of_mem (by simp)) (.next <| h.of_mem (by simp [State.freePlace_mem]))

theorem OutMemInv.execIronVisit (h : s.MemInv) {p} : OutMemInv (execIronVisit p s) := by
  unfold Machine.execIronVisit
  dsimp only
  refine .ite h ?_
  split
  · exact .next h.modPart
  · exact .next <| .when h.modPart (·.ironSweepEnd)

/-! ## Commands of the stream, knife, press and cave engines -/

theorem OutMemInv.execStreamCompletion (h : s.MemInv) {c q} : OutMemInv (execStreamCompletion c q s) := by
  unfold Machine.execStreamCompletion
  split
  · exact h
  · split
    · exact h
    · exact .next (h.runPending c).completeStream

theorem OutMemInv.execKnifeCompletion (h : s.MemInv) {c} : OutMemInv (execKnifeCompletion c s) := by
  unfold Machine.execKnifeCompletion
  split
  · exact h
  · split
    · exact h
    · exact .next (h.runPending c).completeKnife

theorem OutMemInv.execCaveMigrationStart (h : s.MemInv) {p page} : OutMemInv (execCaveMigrationStart p page s) := by
  unfold Machine.execCaveMigrationStart
  split
  · exact h
  · exact .ite (.next h.modJob) h

theorem OutMemInv.execCaveMigrationComplete (h : s.MemInv) {p page ok} : OutMemInv (execCaveMigrationComplete p page ok s) := by
  unfold Machine.execCaveMigrationComplete
  split
  · exact h
  · split
    · exact h
    · exact .next <| .ite h.fillPage (h.of_mem (by simp))

theorem OutMemInv.execPressDescriptorTake (h : s.MemInv) {unit} : OutMemInv (execPressDescriptorTake unit s) := by
  unfold Machine.execPressDescriptorTake
  split
  · exact h
  · split
    · exact h
    · dsimp only
      refine .ite h ?_
      split
      · exact .ite (.next <| h.of_mem (by simp)) h
      · exact .ite h (.next <| h.of_mem (by simp))

theorem OutMemInv.execPressCompletion (h : s.MemInv) {unit} : OutMemInv (execPressCompletion unit s) := by
  unfold Machine.execPressCompletion
  split
  · exact h
  · split
    · exact .next <| .unless h (·.completePress)
    · exact h

/-! ## Commands of the fabric and of the checkpoints -/

theorem OutMemInv.execFabricCompletion (h : s.MemInv) {c answer} : OutMemInv (execFabricCompletion c answer s) := by
  unfold Machine.execFabricCompletion
  split
  · exact h
  · split
    · exact .next (h.runPending c).completeFabric.advanceScrub
    · exact h

theorem State.MemInv.opened (h : s.MemInv) {first : Bool} {sender tag target total : Nat} {o : Incoming × State}
    (ho : (if first then some (beginIncoming sender tag target total s) else (s.incomingOf sender tag).map fun x => (x, s)) = some o) :
    o.2.MemInv := by
  split at ho
  · cases ho
    exact h.of_mem (by simp)
  · obtain ⟨x, -, rfl⟩ := Option.map_eq_some_iff.1 ho
    exact h

theorem OutMemInv.execPeerPutReceive (h : s.MemInv) {sender tag target total first last data flits tagOk} :
    OutMemInv (execPeerPutReceive sender tag target total first last data flits tagOk s) := by
  unfold Machine.execPeerPutReceive
  dsimp only
  split
  · exact h
  · rename_i o ho
    have hlanded := (h.opened ho).landPacket (x := o.1) (data := flitBytes data flits) (ok := tagOk)
    exact .ite h <| .ite (.next <| .update <| .when hlanded (·.answerPeer)) (.next hlanded.update)

theorem OutMemInv.execGetRequestReceive (h : s.MemInv) {sender tag target total tagOk} :
    OutMemInv (execGetRequestReceive sender tag target total tagOk s) := by
  unfold Machine.execGetRequestReceive
  dsimp only
  refine .ite h ?_
  split
  · exact .next h.answerPeer
  · exact .ite (.next h.answerPeer) <| .ite (.next <| h.of_mem (by simp)) <| .next <| .ite (h.of_mem (by simp)) h.countPackets.update

@[simp] theorem replayFrom_mem (p : Nat) (n : BitVec 16) (s : State) : (replayFrom p n s).mem = s.mem := by
  unfold replayFrom
  dsimp only
  split
  · rfl
  · split
    · simp [foldl_keeps]
    · simp [foldl_keeps]

theorem OutMemInv.execLinkFrameReceive (h : s.MemInv) {port flits trailer retry} : OutMemInv (execLinkFrameReceive port flits trailer retry s) := by
  unfold Machine.execLinkFrameReceive
  dsimp only
  refine .ite h <| .ite ?_ (.next h)
  split
  · exact .next <| h.of_mem (by simp)
  · exact h

theorem OutMemInv.execPortRetrainComplete (h : s.MemInv) {port training} : OutMemInv (execPortRetrainComplete port training s) :=
  .ite h (.next <| h.of_mem (by simp))

theorem OutMemInv.execPortStateFlood (h : s.MemInv) {device links} : OutMemInv (execPortStateFlood device links s) :=
  .ite h (.next <| h.of_mem (by simp))

theorem OutMemInv.execRouteEpochAdopt (h : s.MemInv) {epoch table} : OutMemInv (execRouteEpochAdopt epoch table s) :=
  .ite (.next <| h.of_mem (by simp)) h

theorem OutMemInv.execLinkSessionEstablish (h : s.MemInv) {p peer ok failed} : OutMemInv (execLinkSessionEstablish p peer ok failed s) :=
  .ite h <| .ite (.next <| h.of_mem (by simp)) (.next <| h.of_mem (by simp))

theorem OutMemInv.execLinkRekey (h : s.MemInv) {p peer outbound failed} : OutMemInv (execLinkRekey p peer outbound failed s) := by
  unfold Machine.execLinkRekey
  split
  · exact h
  · exact .ite h <| .ite (.next <| h.of_mem (by simp)) <| .ite (.next <| h.of_mem (by simp)) (.next <| h.of_mem (by simp))

theorem OutMemInv.execCheckpointCommit (h : s.MemInv) {p ok partner} : OutMemInv (execCheckpointCommit p ok partner s) := by
  unfold Machine.execCheckpointCommit
  split
  · exact h
  · split
    · refine .ite (.next <| h.of_mem (by simp)) ?_
      split
      · exact .next <| h.of_mem (by simp)
      · exact .next <| .when h (·.of_mem (by simp))
    · exact h

theorem OutMemInv.execTakeover (h : s.MemInv) {failed spares group} : OutMemInv (execTakeover failed spares group s) := by
  unfold Machine.execTakeover
  extract_lets _ fenced
  have hfenced : fenced.MemInv := .unless h (·.fenceAndHold)
  exact .ite h <| .ite (.next h.spareRestore) <| .ite (.next <| .when h (·.of_mem (by simp))) <| .ite h <| .ite (.next h.healthEvent) <|
    .ite (.next hfenced.chooseAndRestore) hfenced

theorem State.MemInv.resumePart (h : s.MemInv) {p : Nat} {f : Part → Part} {cores : List CoreId} :
    (Machine.pumpRings p (cores.foldl (fun s c => resumeCore c s) (s.modPart p f))).MemInv :=
  .pumpRings <| .foldl (fun _ _ ht => ht.of_mem (by simp)) _ h.modPart

theorem OutMemInv.execTakeoverResume (h : s.MemInv) : OutMemInv (execTakeoverResume s) :=
  .ite h <| .next <| .foldl (fun _ _ ht => ht.resumePart) _ h.update

/-! ## Commands of the host -/

theorem OutMemInv.execWatchLineInvalidate (h : s.MemInv) {r stores} : OutMemInv (execWatchLineInvalidate r stores s) :=
  .next <| .when h.hostStores (·.refetch)

theorem OutMemInv.execJobAdmit (h : s.MemInv) {r partner} : OutMemInv (execJobAdmit r partner s) := by
  unfold Machine.execJobAdmit
  split
  · exact h
  · exact .next h.admitJob

theorem OutMemInv.execJobStep (h : s.MemInv) {r} : OutMemInv (execJobStep r s) := by
  unfold Machine.execJobStep
  split
  · exact h
  · split
    · exact .next h.completeOpen
    · exact .ite (.next h.completeOpen) <| .ite h (.next h.stepJob)

theorem OutMemInv.execJobRelease (h : s.MemInv) {r} : OutMemInv (execJobRelease r s) := by
  unfold Machine.execJobRelease
  split
  · exact h
  · exact .ite (.next h.completeOpen) <| .ite h (.next h.releaseBegin)

theorem OutMemInv.execReleaseComplete (h : s.MemInv) {r} : OutMemInv (execReleaseComplete r s) := by
  unfold Machine.execReleaseComplete
  split
  · exact h
  · exact .ite h <| .ite (.next <| .unless h (·.endStep.beginScrub)) (.next h.endStep.releaseJob.modPart.completeRecord)

theorem OutMemInv.execRingEnable (h : s.MemInv) {r msix vector} : OutMemInv (execRingEnable r msix vector s) := .next <| .when h (·.enableRing)

theorem OutMemInv.execHdmWrite (h : s.MemInv) {port addr data poisoned} : OutMemInv (execHdmWrite port addr data poisoned s) :=
  .next <| .ite h <| .foldl (fun _ _ ht => ht.hdmWritePart) _ h

theorem OutMemInv.execHdmRead (h : s.MemInv) {port addr len} : OutMemInv (execHdmRead port addr len s) :=
  .next <| .ite h <| .foldl (fun _ _ ht => ht.of_mem (by simp)) _ h.update

theorem OutMemInv.execResetDrainComplete (h : s.MemInv) {p} : OutMemInv (execResetDrainComplete p s) :=
  .ite h <| .next <| .modResetCtl <| .foldl (fun _ _ ht => .ite ht.clearCore (ht.of_mem (by simp))) _ h

theorem OutMemInv.execFaultLogRead (h : s.MemInv) {port c word} : OutMemInv (execFaultLogRead port c word s) :=
  .ite (.next <| h.of_mem (by simp [State.answerRead_mem])) (.next <| h.of_mem (by simp [State.answerRead_mem]))

theorem OutMemInv.execControlRegisterWrite (h : s.MemInv) {port bar offset value} : OutMemInv (execControlRegisterWrite port bar offset value s) := by
  refine .next ?_
  split
  · exact h.writeBar0
  · exact .ite h.missed <| .hostWindow h (·.hostWriteWord)
  · exact h.writePage
  · exact h.of_mem (by simp)
  · exact h

/-! ## Commands of the intake -/

theorem OutMemInv.execGroupStart (h : s.MemInv) {w engine} : OutMemInv (execGroupStart w engine s) := by
  unfold Machine.execGroupStart
  dsimp only
  refine .ite h ?_
  split
  · exact h
  · exact .ite h (.next h.setWheel.startGroup.modWheel)

theorem OutMemInv.execWatchdogExpiry (h : s.MemInv) {w engine} : OutMemInv (execWatchdogExpiry w engine s) := .ite (.next h.modWheel) h

theorem OutMemInv.execGroupComplete (h : s.MemInv) {w engine fails} : OutMemInv (execGroupComplete w engine fails s) := by
  unfold Machine.execGroupComplete
  dsimp only
  split
  · have hbusy {n} : (countBusy engine n s).MemInv := h.of_mem (by simp)
    exact .next <| .unless (hbusy.modWheel.deliverGroups _) (·.settleWheel)
  · exact h

theorem OutMemInv.execSlotWrite (h : s.MemInv) {w} : OutMemInv (execSlotWrite w s) := by
  unfold Machine.execSlotWrite
  dsimp only
  split
  · exact h
  · exact .ite h (.next h.writeSlot.settleWheel)

theorem OutMemInv.execEncodeGop (h : s.MemInv) {w engine fails} : OutMemInv (execEncodeGop w engine fails s) := by
  unfold Machine.execEncodeGop
  dsimp only
  refine .ite h ?_
  split
  · exact h
  · exact .next <| .unless (.settleWheel <| .ite (h.of_mem (by simp)) h.setWheel.encodeNext) (·.saveWheel)

/-! ## Commands of the root of trust -/

theorem OutMemInv.execLoadBundle (h : s.MemInv) {offset data verdict} : OutMemInv (execLoadBundle offset data verdict s) :=
  .next <| h.mailbox fun ht => .ite ht.rtpAnswer <| .ite ht.rtpAnswer <| .ite ht.rtpAnswer <| ht.of_mem (by simp)

theorem OutMemInv.execGetNonce (h : s.MemInv) {failed} : OutMemInv (execGetNonce failed s) :=
  .next <| h.mailbox fun ht => .ite (ht.of_mem (by simp)) <| ht.of_mem (by simp)

theorem OutMemInv.execTakeOwnership (h : s.MemInv) {hash auth} : OutMemInv (execTakeOwnership hash auth s) :=
  .next <| .ite (h.mailbox (·.of_mem (by simp))) (h.ownerCommand (·.of_mem (by simp)))

theorem OutMemInv.execSelfTest (h : s.MemInv) {failed} : OutMemInv (execSelfTest failed s) := by
  refine .next <| h.mailbox fun ht => ?_
  split
  · exact ht.rtpAnswer
  · exact ht.of_mem (by simp)

theorem OutMemInv.execSetLayout (h : s.MemInv) {image auth} : OutMemInv (execSetLayout image auth s) := by
  refine .next <| h.ownerCommand fun ht => .ite ht.rtpAnswer <| .ite ht.rtpAnswer ?_
  split
  · exact ht.rtpAnswer
  · exact ht.beginLayout

theorem OutMemInv.execLayoutApplyComplete (h : s.MemInv) {failed} : OutMemInv (execLayoutApplyComplete failed s) := by
  unfold Machine.execLayoutApplyComplete
  split
  · extract_lets scrubbed units scrubOf answered
    have hscrubbed : scrubbed.MemInv := .unless h (·.scrubLeaving)
    refine .ite hscrubbed <| .ite (.next <| hscrubbed.of_mem (by simp)) ?_
    split
    · exact .next (State.MemInv.rtpAnswer (by exact hscrubbed))
    · exact .next <| hscrubbed.of_mem (by simp)
  · exact h

theorem OutMemInv.execPartitionReset (h : s.MemInv) {p auth} : OutMemInv (execPartitionReset p auth s) :=
  .next <| h.ownerCommand fun ht => .ite ht.rtpAnswer <| .ite ht.rtpAnswer <| .ite ht.rtpAnswer ht.beginPartitionReset.update

theorem OutMemInv.execPartitionResetComplete (h : s.MemInv) {p} : OutMemInv (execPartitionResetComplete p s) :=
  .next <| .when h fun hs => .rtpAnswer <| .finishPartitionReset hs.update

theorem OutMemInv.execAdvanceSvn (h : s.MemInv) {auth} : OutMemInv (execAdvanceSvn auth s) :=
  .next <| h.ownerCommand fun ht => .ite ht.rtpAnswer <| .ite ht.rtpAnswer <| .ite ht.rtpAnswer ht.update.rtpAnswer

theorem OutMemInv.execZeroize (h : s.MemInv) {auth} : OutMemInv (execZeroize auth s) :=
  .next <| h.ownerCommand fun ht => .ite ht.rtpAnswer <|
    have hstopped : State.MemInv (List.foldl Machine.stopPartition _ _) := .foldl (fun _ _ hu => hu.stopPartition) _ ht
    .unless hstopped.update.storeScrubs (·.of_mem (by simp))

theorem OutMemInv.execGetScrub (h : s.MemInv) : OutMemInv (execGetScrub s) := .next <| h.mailbox (·.rtpAnswer)

theorem OutMemInv.execScrubComplete (h : s.MemInv) {unit ok} : OutMemInv (execScrubComplete unit ok s) := by
  unfold Machine.execScrubComplete
  extract_lets owner scrubbed src logged src' counted ended
  have hcounted : counted.MemInv := .ite h.scrubUnit.update.storeScrubs (h.logError _).update
  have hended : ended.MemInv := by
    unfold ended owner
    split
    · exact hcounted.endScrub
    · exact hcounted
  exact .ite h <| .next <| .when hended (·.of_mem (by simp))

theorem OutMemInv.execDictAccessRead (h : s.MemInv) {index sub reserved length} : OutMemInv (execDictAccessRead index sub reserved length s) :=
  .next <| h.mailbox fun ht => .ite ht.rtpAnswer <| ht.of_mem (by simp)

theorem OutMemInv.execDictAccessWrite (h : s.MemInv) {index sub reserved length data auth} :
    OutMemInv (execDictAccessWrite index sub reserved length data auth s) :=
  .next <| h.ownerCommand fun ht => .ite ht.rtpAnswer <| ht.of_mem (by simp)

theorem OutMemInv.execGetMeasurements (h : s.MemInv) {block nonce session} : OutMemInv (execGetMeasurements block nonce session s) := by
  refine .next <| .ite h ?_
  split
  · exact h.of_mem (by simp)
  · split
    · exact h.of_mem (by simp)
    · exact h.of_mem (by simp)

/-! ## Commands of the dictionary's transports -/

theorem State.MemInv.inSession (h : s.MemInv) {req opcode bytes x body} (hb : ∀ {t : State}, t.MemInv → (body t).MemInv) :
    (inSession req opcode bytes x body s).MemInv := by
  unfold Machine.inSession
  extract_lets opened answered
  have hopened : opened.MemInv := h.of_mem (by simp [opened])
  have hanswered : answered.MemInv := by
    unfold answered
    split
    · exact hopened.of_mem (by simp)
    · exact hb hopened
  refine .ite (h.of_mem (by simp)) <| .ite ?_ <| .ite h <| .when hanswered (·.of_mem (by simp))
  split
  · exact h.of_mem (by simp)
  · exact h

theorem State.MemInv.oapRequest (h : s.MemInv) {req opcode bytes within outside} (hw : ∀ x {t : State}, t.MemInv → (within x t).MemInv)
    (ho : ∀ {t : State}, t.MemInv → (outside t).MemInv) : (oapRequest req opcode bytes within outside s).MemInv := by
  refine .ite h ?_
  split
  · exact .ite (h.inSession (hw _)) (h.of_mem (by simp))
  · split
    · exact h.of_mem (by simp)
    · exact .ite (ho h) (h.of_mem (by simp))

theorem OutMemInv.execRead (h : s.MemInv) {req} : OutMemInv (execRead req s) :=
  .next <| h.oapRequest (fun _ _ ht => ht.of_mem (by simp)) fun ht => .ite (ht.of_mem (by simp)) (ht.of_mem (by simp))

theorem OutMemInv.execWrite (h : s.MemInv) {req} : OutMemInv (execWrite req s) :=
  .next <| h.oapRequest (fun _ _ ht => ht.of_mem (by simp)) (·.of_mem (by simp))

theorem OutMemInv.execSessionOpen (h : s.MemInv) {req cert} : OutMemInv (execSessionOpen req cert s) :=
  .next <| h.oapRequest (fun _ _ ht => ht.of_mem (by simp)) (·.of_mem (by simp))

theorem OutMemInv.execSessionClose (h : s.MemInv) {req} : OutMemInv (execSessionClose req s) :=
  .next <| h.oapRequest (fun _ _ ht => ht.of_mem (by simp)) (·.of_mem (by simp))

theorem OutMemInv.execBundleChunk (h : s.MemInv) {req offset data verdict} : OutMemInv (execBundleChunk req offset data verdict s) :=
  .next <| h.oapRequest (fun _ _ ht => ht.of_mem (by simp)) (·.of_mem (by simp))

theorem OutMemInv.execSessionProve (h : s.MemInv) {req ok} : OutMemInv (execSessionProve req ok s) := by
  unfold Machine.execSessionProve
  refine .ite h ?_
  split
  · exact .next <| h.of_mem (by simp)
  · split
    · exact .next <| h.of_mem (by simp)
    · exact .ite (.next <| h.of_mem (by simp)) <| .ite (.next <| h.of_mem (by simp)) (.next <| h.of_mem (by simp))

theorem OutMemInv.commandWrite (h : s.MemInv) {via index sub data} : OutMemInv (commandWrite via index sub data s) := by
  unfold Machine.commandWrite
  refine .next ?_
  split
  · exact h
  · exact h.of_mem (by simp)
  · exact h.of_mem (by simp)

theorem OutMemInv.execI3cPrivateRead (h : s.MemInv) : OutMemInv (execI3cPrivateRead s) := .ite h <| .ite (.next h) (.next h)

theorem OutMemInv.execJournalStored (h : s.MemInv) : OutMemInv (execJournalStored s) := by
  unfold Machine.execJournalStored
  split
  · exact h
  · exact .next <| h.of_mem (by simp)

/-! ## Commands of power, start and errors -/

theorem State.MemInv.deviceError (h : s.MemInv) {e} : (deviceError e s).MemInv := h.of_mem (by simp)

theorem OutMemInv.execModeChangeComplete (h : s.MemInv) : OutMemInv (execModeChangeComplete s) := by
  unfold Machine.execModeChangeComplete
  split
  · exact h
  · exact .ite h <| .next <| .foldl (fun _ _ ht => ht.of_mem (by simp)) _ h

theorem OutMemInv.execSupplyGuardActivate (h : s.MemInv) {cause done} : OutMemInv (execSupplyGuardActivate cause done s) := by
  unfold Machine.execSupplyGuardActivate
  extract_lets was src guarded
  have hguarded : guarded.MemInv := by
    unfold guarded
    split
    · exact .when h (·.of_mem (by simp))
    · exact .when h (·.of_mem (by simp))
    · exact h
  exact .ite hguarded (.next <| hguarded.of_mem (by simp))

theorem OutMemInv.execSupplyGuardClear (h : s.MemInv) : OutMemInv (execSupplyGuardClear s) := by
  unfold Machine.execSupplyGuardClear
  extract_lets src recorded failed
  have hrecorded : recorded.MemInv := h.of_mem (by simp [recorded])
  have hfailed : failed.MemInv := by
    unfold failed
    split
    · exact hrecorded.of_mem (by simp)
    · exact hrecorded
  exact .next <| .foldl (fun _ _ ht => ht.of_mem (by simp)) _ hfailed.storeScrubs

theorem OutMemInv.execDomainPowerGood (h : s.MemInv) {d l} : OutMemInv (execDomainPowerGood d l s) := .next <| .when h (·.loseDomain)

theorem OutMemInv.execDomainPowerLoss (h : s.MemInv) {d rail mv} : OutMemInv (execDomainPowerLoss d rail mv s) :=
  .ite h <| .ite (.next <| .unless h (·.of_mem (by simp))) <| .ite h <|
    .ite (.next h.loseDomain) <| .ite (.next <| h.loseDomain.logError _) (.next <| .deviceError h.loseDomain)

theorem OutMemInv.execThermalSample (h : s.MemInv) {sensor temp} : OutMemInv (execThermalSample sensor temp s) := by
  unfold Machine.execThermalSample
  refine .ite h ?_
  split
  · exact .ite h <| .ite (.next h.thermalTrip) (.next h)
  · exact .ite h <| .ite (.next h.thermalTrip) (.next h)
  · exact .ite h <| .ite (.next h.thermalTrip) <| .ite h <| .next <| .foldl (fun _ _ ht => .when ht (·.of_mem (by simp))) _ h

theorem OutMemInv.execDozeWake (h : s.MemInv) {d elapsed} : OutMemInv (execDozeWake d elapsed s) :=
  .next <| .unless h.wakeDomain fun hw => .foldl (fun _ _ ht => ht.of_mem (by simp)) _ hw

theorem State.MemInv.wakePorts (h : s.MemInv) : (wakePorts s).MemInv := .foldl (fun _ _ ht => .when ht (·.of_mem (by simp))) _ h

theorem OutMemInv.execDeepRestWakeComplete (h : s.MemInv) {bad narrowed} : OutMemInv (execDeepRestWakeComplete bad narrowed s) := by
  unfold Machine.execDeepRestWakeComplete
  dsimp only
  refine .ite h <| .next <| .wakePorts <| .foldl (fun _ _ ht => ht.wakeFails) _ ?_
  exact .foldl (fun _ _ ht => ht.of_mem (by simp)) _ h.update

theorem OutMemInv.execStartStepComplete (h : s.MemInv) {outcome} : OutMemInv (execStartStepComplete outcome s) :=
  .ite h <| .next <| .finishStep <| .when h fun hs => .foldl (fun _ _ ht => ht.of_mem (by simp)) _ hs

theorem OutMemInv.execMemoryLinkRetrain (h : s.MemInv) {n ok} : OutMemInv (execMemoryLinkRetrain n ok s) := .next <| .when h (·.loseMemoryLink)

theorem OutMemInv.execMemoryLinkLost (h : s.MemInv) {n} : OutMemInv (execMemoryLinkLost n s) := .next <| .when h (·.loseMemoryLink)

theorem OutMemInv.execTrainingSave (h : s.MemInv) {moved} : OutMemInv (execTrainingSave moved s) :=
  .ite h <| .ite (.next h) (.next <| h.of_mem (by simp))
end

end Sys2Proof.Machine
end

section
/-! # Every step keeps memory's form (R9, R171) -/

namespace Sys2Proof.Machine

/-- One line for each group of commands that have one reason. -/
theorem exec_memInv (i : Instr) {s : State} (h : s.MemInv) : OutMemInv (exec i s) := by
  cases i with
  | nop | add | sub | and | or | xor | shl | shr | sar | addi | movi | shli | ori | mul | mulh | div | rem | divu | remu | movs | b | swapi | rett |
    stop | vadd | vsub | vmul | vmin | vmax | vand | vor | vxor | vshl | vshr | vmov | vdup | viota | vsize | vfadd | vfsub | vfmul | vfma | vfmin |
    vfmax | vfabs | vfneg | vmulw | vdot4 | vdot2 | vrecip | vrsqrt | vexp | vredsum | vredmax | vredadd | psetall | pand | por | pxor | pnot | pcnt |
    ffget | ffput | ffidx | semrd | fenceL | fenceM | fenceF | sresume | knresume => exact .issueOut h fun _ => .ok rfl
  | cmp | ld | st | sets | beq | bne | blt | bge | loop | vext | vcmp | vcvt | vcvtq | vcult | vcultdrop | pgenLt | pgenLtu | tld | tst | wld | mmt |
    mms | semset => exact .issueOut h fun _ => .checked rfl
  | nopn => exact .issueOut h fun _ => .ok (by simp)
  | vld | vlds | vld2 | vld3 | vld4 | vldff | vgather | vgatherff => exact .issueOut h .vectorLoad
  | vst | vsts | vst2 | vst3 | vst4 | vscatter => exact .issueOut h .vectorStore
  | signal => exact .issueOut h .signalSem
  | wait => exact .issueOut h .waitSem
  | rsignalCore | rsignalPress => exact .issueOut h .remoteSignal
  | barWaitMode | barSignalMode => exact .issueOut h .barArrive
  | snq => exact .issueOut h .enqueueStream
  | knq => exact .issueOut h .enqueueKnife
  | trapEntry => exact .execTrapEntry h
  | poisonRowHalt => exact .execPoisonRowHalt h
  | waitRelease => exact .execWaitRelease h
  | fenceHeldRelease => exact .execFenceHeldRelease h
  | semaphoreIncrement => exact .execSemaphoreIncrement h
  | barrierArrival => exact .execBarrierArrival h
  | barrierNodeReport => exact .execBarrierNodeReport h
  | deviceReport => exact .execDeviceReport h
  | barrierCompletion => exact .execBarrierCompletion h
  | barrierReleaseDelivery => exact .execBarrierReleaseDelivery h
  | ironVisit => exact .execIronVisit h
  | copy | fill | convert => exact .next h.takeStream
  | streamCompletion => exact .execStreamCompletion h
  | gather | scatter | scatterAdd => exact .next h.takeKnife
  | knifeCompletion => exact .execKnifeCompletion h
  | caveMigrationStart => exact .execCaveMigrationStart h
  | caveMigrationComplete => exact .execCaveMigrationComplete h
  | pressDescriptorTake => exact .execPressDescriptorTake h
  | vsetl => exact .execVsetl h
  | pld => exact .execPld h
  | pst => exact .execPst h
  | padd | psub | pmul | pfma | pmin | pmax | psqrt | precip | psign | pabs | pneg => exact .pressLanes h
  | pend => exact .execPend h
  | pressCompletion => exact .execPressCompletion h
  | put | get | putSet | putGroup | allreduce => exact .next h.takeFabric
  | fabricCompletion => exact .execFabricCompletion h
  | peerPutReceive => exact .execPeerPutReceive h
  | getRequestReceive => exact .execGetRequestReceive h
  | linkFrameReceive => exact .execLinkFrameReceive h
  | portDown | fabricJoin | headFailover | ringDisable | caveMapWrite | cxlLinkTrain | consumedReread | getStatus | getVersion | keyExchange |
    i3cPrivateWrite | setdasa | entdaa | i3cWake | deviceWarmReset | avsbusAck | powerLimitAdjust | dozeEntry | coldReset | startSequence |
    startSupplyTimeout | stewardTimeout | clockLockTimeout | meshFailure | stewardSilent | sectorErase | cycleCountWrap =>
    exact .next <| h.of_mem (by simp)
  | portRetrainComplete => exact .execPortRetrainComplete h
  | portStateFlood => exact .execPortStateFlood h
  | routeEpochAdopt => exact .execRouteEpochAdopt h
  | linkSessionEstablish => exact .execLinkSessionEstablish h
  | linkRekey => exact .execLinkRekey h
  | checkpointCommit => exact .execCheckpointCommit h
  | takeover => exact .execTakeover h
  | takeoverResume => exact .execTakeoverResume h
  | watchLineInvalidate => exact .execWatchLineInvalidate h
  | jobAdmit => exact .execJobAdmit h
  | jobStep => exact .execJobStep h
  | jobRelease => exact .execJobRelease h
  | releaseComplete => exact .execReleaseComplete h
  | segmentLoad => exact .controlRecord h fun _ _ _ ht => ht.loadSegments
  | barrierLoad => exact .controlRecord h fun _ _ _ ht => ht.loadBarriers
  | groupLoad => exact .controlRecord h fun _ _ _ ht => ht.loadGroups
  | multicastAllocate => exact .controlRecord h fun _ _ _ ht => ht.allocateMcast
  | multicastFree => exact .controlRecord h fun _ _ _ ht => ht.freeMcast
  | peerGrant => exact .controlRecord h fun _ _ _ ht => ht.grantPeer
  | peerRevoke => exact .controlRecord h fun _ _ _ ht => ht.revokePeer
  | ringEnable => exact .execRingEnable h
  | hdmWrite => exact .execHdmWrite h
  | hdmRead => exact .execHdmRead h
  | coreReset | rowReset => exact .next h.hostResetCtl
  | resetDrainComplete => exact .execResetDrainComplete h
  | coreCtlStart | coreCtlStop | coreCtlDump | coreCtlContinue => exact .next <| .hostWindow h (·.writeCoreCtl)
  | startFetchBegin => exact .execStartFetchBegin h
  | swapiResume => exact .execSwapiResume h
  | dumpDone => exact .execDumpDone h
  | rtcStop => exact .execRtcStop h
  | imemLoadedSet | fltHeadWrite => exact .next <| .hostWindow h (·.writeWindow)
  | imemWrite => exact .next <| .hostWindow h (·.hostWriteWord)
  | faultLogRead => exact .execFaultLogRead h
  | controlRegisterWrite => exact .execControlRegisterWrite h
  | wheelOpen => exact .intakeCommand h fun _ _ _ _ ht => ht.openCommand
  | feed | feedResume => exact .intakeCommand h fun _ _ _ _ ht => ht.feedCommand
  | close | closeAbort => exact .intakeCommand h fun _ _ _ _ ht => ht.closeCommand
  | query | queryClear => exact .intakeCommand h fun _ _ _ _ ht => ht.queryCommand
  | groupStart => exact .execGroupStart h
  | watchdogExpiry => exact .execWatchdogExpiry h
  | groupComplete => exact .execGroupComplete h
  | slotWrite => exact .execSlotWrite h
  | encodeGop => exact .execEncodeGop h
  | loadBundle => exact .execLoadBundle h
  | getNonce => exact .execGetNonce h
  | takeOwnership => exact .execTakeOwnership h
  | selfTest => exact .execSelfTest h
  | setLayout => exact .execSetLayout h
  | layoutApplyComplete => exact .execLayoutApplyComplete h
  | partitionReset => exact .execPartitionReset h
  | partitionResetComplete => exact .execPartitionResetComplete h
  | advanceSvn => exact .execAdvanceSvn h
  | zeroize => exact .execZeroize h
  | getScrub => exact .execGetScrub h
  | scrubComplete => exact .execScrubComplete h
  | dictAccessRead => exact .execDictAccessRead h
  | dictAccessWrite => exact .execDictAccessWrite h
  | getMeasurements => exact .execGetMeasurements h
  | read => exact .execRead h
  | write => exact .execWrite h
  | sessionOpen => exact .execSessionOpen h
  | sessionProve => exact .execSessionProve h
  | sessionClose => exact .execSessionClose h
  | sessionTimeout | plcaBeacon | endSession => exact h
  | bundleChunk => exact .execBundleChunk h
  | i3cPrivateRead => exact .execI3cPrivateRead h
  | dictWrite | restoreFactory | warmReset | wheyExit | stateRequestOn | stateRequestDeepRest | powerMode | hbmProtection | linkFec | waxEnable |
    auditMode | dozeEnable | errorLogClear | portRetrain | provisionLock | overlay => exact .commandWrite h
  | journalStored => exact .execJournalStored h
  | modeChangeComplete => exact .execModeChangeComplete h
  | supplyGuardActivate => exact .execSupplyGuardActivate h
  | supplyGuardClear => exact .execSupplyGuardClear h
  | domainPowerGood => exact .execDomainPowerGood h
  | domainPowerLoss => exact .execDomainPowerLoss h
  | thermalSample => exact .execThermalSample h
  | dozeWake => exact .execDozeWake h
  | deepRestWakeComplete => exact .execDeepRestWakeComplete h
  | startStepComplete => exact .execStartStepComplete h
  | memoryLinkRetrain => exact .execMemoryLinkRetrain h
  | trainingSave => exact .execTrainingSave h
  | memoryLinkLost => exact .execMemoryLinkLost h

/-- Settles O2: the queue's rest leaves memory as it is, and each command's meaning keeps the form. -/
theorem stepKeepsMemoryForm : Obligations.StepKeepsMemoryForm := by
  intro s t h ht
  unfold step at ht
  split at ht
  · cases ht
    exact h
  · rename_i i rest _
    have hexec := exec_memInv i (s := { s with pending := rest }) h
    rw [ht] at hexec
    exact hexec

end Sys2Proof.Machine
end

section
/-! # What a row of a descriptor leaves of the stream queues (R78, R95, R201) -/

namespace Sys2Proof.Machine

/-- The stream queues of a core. -/
def State.streams (s : State) (d : CoreId) : Vector StreamQ 4 := (s.core d).flight.streams

theorem State.streams_of_cores {s t : State} (h : t.cores = s.cores) (d : CoreId) : t.streams d = s.streams d := by
  rw [State.streams, State.core_congr h, State.streams]

@[simp] theorem State.streams_ite (c : Prop) [Decidable c] (s t : State) (d : CoreId) :
    (if c then s else t).streams d = if c then s.streams d else t.streams d :=
  apply_ite (State.streams · d) c s t

/-- A change of a core that leaves its own queues leaves all. -/
@[simp] theorem State.streams_modCore {s : State} {c : CoreId} {f : Core → Core} (hf : ∀ k, (f k).flight.streams = k.flight.streams)
    (d : CoreId) : (s.modCore c f).streams d = s.streams d := by
  unfold State.streams
  by_cases hd : d = c
  · rw [hd, State.core_modCore, hf]
  · rw [s.core_modCore_other f hd]

/-! ## What a core's cycles leave (R78) -/

@[simp] theorem State.streams_put (s : State) (a : Nat) (data : List Byte) (m : Bool) (d : CoreId) : (s.put a data m).streams d = s.streams d :=
  State.streams_of_cores (by simp) d

@[simp] theorem State.streams_store (s : State) (a : Nat) (data : List Byte) (m : Bool) (d : CoreId) :
    (s.store a data m).streams d = s.streams d := rfl

@[simp] theorem State.streams_storeRuns (s : State) (c : CoreId) (runs : List (Nat × List Byte)) (m : Bool) (d : CoreId) :
    (s.storeRuns c runs m).streams d = s.streams d := rfl

@[simp] theorem State.streams_logError (s : State) (e : ErrorEvent) (d : CoreId) : (s.logError e).streams d = s.streams d :=
  State.streams_of_cores (by simp) d

@[simp] theorem State.streams_logFault (s : State) (c : CoreId) (e : FaultEntry) (d : CoreId) : (s.logFault c e).streams d = s.streams d := by
  simp [State.logFault]

@[simp] theorem State.streams_countPerf (s : State) (c : CoreId) (code n : Nat) (d : CoreId) : (s.countPerf c code n).streams d = s.streams d := by
  simp [State.countPerf]

@[simp] theorem State.streams_countMarked (s : State) (c : CoreId) (a n : Nat) (d : CoreId) : (s.countMarked c a n).streams d = s.streams d := by
  simp [State.countMarked]

@[simp] theorem State.streams_schedule (s : State) (c : CoreId) (l : List Sched) (d : CoreId) : (s.schedule c l).streams d = s.streams d := by
  simp [State.schedule]

@[simp] theorem State.streams_modRegs (s : State) (c : CoreId) (f : CoreRegs → CoreRegs) (d : CoreId) :
    (s.modRegs c f).streams d = s.streams d := by
  simp [State.modRegs]

@[simp] theorem State.streams_touched (s : State) (c d : CoreId) : (s.touched c).streams d = s.streams d := by
  rw [State.streams, State.core_touched, State.streams]

@[simp] theorem State.streams_auditEvent (s : State) (c : CoreId) (code : Nat) (i : BitVec 14) (b : Bool) (n : Word) (d : CoreId) :
    (s.auditEvent c code i b n).streams d = s.streams d := by
  simp [State.auditEvent]

@[simp] theorem State.streams_auditStop (s : State) (c d : CoreId) : (s.auditStop c).streams d = s.streams d :=
  State.streams_modCore (fun k => by split <;> rfl) d

@[simp] theorem State.streams_auditRows (s : State) (c : CoreId) (e : Sched) (rows : List Nat) (d : CoreId) :
    (s.auditRows c e rows).streams d = s.streams d := by
  have hevents (l : List Nat) : (l.foldl (fun s _ => s.auditEvent c 0x20 e.index e.half e.count) s).streams d = s.streams d :=
    foldl_keeps (State.streams · d) _ (fun s _ => s.streams_auditEvent ..) l s
  simp [State.auditRows, hevents]

@[simp] theorem State.streams_poisonHalt (s : State) (c : CoreId) (e : Sched) (i : Nat) (d : CoreId) :
    (s.poisonHalt c e i).streams d = s.streams d := by
  simp [State.poisonHalt]

@[simp] theorem State.streams_incSem (s : State) (c : CoreId) (r n : Nat) (sender : Option CoreId) (p : Place) (d : CoreId) :
    (s.incSem c r n sender p).streams d = s.streams d := by
  simp [State.incSem]

theorem State.streams_foldl_countMarked (c : CoreId) (l : List Move) (s : State) (d : CoreId) :
    (l.foldl (fun s m => s.countMarked c m.addr m.len) s).streams d = s.streams d :=
  foldl_keeps (State.streams · d) _ (fun s _ => s.streams_countMarked ..) l s

theorem State.streams_foldl_store (f : Nat → Nat) (g : Nat → List Byte) (m : Bool) (l : List Nat) (s : State) (d : CoreId) :
    (l.foldl (fun s b => s.store (f b) (g b) m) s).streams d = s.streams d :=
  foldl_keeps (State.streams · d) _ (fun s _ => s.streams_store ..) l s

@[simp] theorem streams_applyAct (c : CoreId) (e : Sched) (s : State) (d : CoreId) : (applyAct c e s).streams d = s.streams d := by
  cases hact : e.act <;> simp only [applyAct, hact]
  case wSys => exact State.streams_modCore (fun k => by rw [writeSys_flight]) d
  case clipInc => simp [Core.addClips]
  case mmsWrite => simp [State.streams_foldl_store]
  case vRead => simp [State.streams_foldl_countMarked]
  all_goals simp

@[simp] theorem streams_runActs (c : CoreId) (upto : Option Nat) (fuel : Nat) (s : State) (d : CoreId) :
    (runActs c upto fuel s).streams d = s.streams d := by
  induction fuel generalizing s with
  | zero => rfl
  | succ n ih =>
    unfold runActs
    split
    · rfl
    · split
      · rw [ih, streams_applyAct]
        simp
      · rfl

@[simp] theorem streams_drain (c : CoreId) (s : State) (d : CoreId) : (drain c s).streams d = s.streams d := streams_runActs ..

/-! ## What a write to a control window leaves (R90–R95) -/

@[simp] theorem streams_stopIssue (c : CoreId) (r : RunState) (s : State) (d : CoreId) : (stopIssue c r s).streams d = s.streams d := by
  simp [stopIssue]

@[simp] theorem streams_stopCore (c : CoreId) (s : State) (d : CoreId) : (stopCore c s).streams d = s.streams d := by
  simp [stopCore]

@[simp] theorem streams_startCore (c : CoreId) (half : Bool) (entry : BitVec 14) (s : State) (d : CoreId) :
    (startCore c half entry s).streams d = s.streams d := by
  simp [startCore]

@[simp] theorem streams_continueCore (c : CoreId) (s : State) (d : CoreId) : (continueCore c s).streams d = s.streams d := by
  simp [continueCore]

@[simp] theorem State.streams_freePlace (s : State) (d : CoreId) : s.freePlace.2.streams d = s.streams d := rfl

@[simp] theorem streams_dumpCore (c : CoreId) (s : State) (d : CoreId) : (dumpCore c s).streams d = s.streams d := by
  unfold dumpCore
  dsimp only
  split
  · rfl
  · split <;> simp

@[simp] theorem streams_setLoaded (c : CoreId) (half : Bool) (s : State) (d : CoreId) : (setLoaded c half s).streams d = s.streams d := by
  simp [setLoaded]

@[simp] theorem streams_writeCoreCtl (c : CoreId) (v : Nat) (s : State) (d : CoreId) : (writeCoreCtl c v s).streams d = s.streams d := by
  unfold writeCoreCtl
  dsimp only
  split <;> simp

@[simp] theorem State.streams_writeWindow (s : State) (c : CoreId) (ofs v : Nat) (m : Bool) (d : CoreId) :
    (s.writeWindow c ofs v m).streams d = s.streams d := by
  simp [State.writeWindow]

/-! ## What a row of a descriptor leaves (R201) -/

@[simp] theorem State.streams_putWindow (s : State) (a : Nat) (data : List MByte) (d : CoreId) : (s.putWindow a data).streams d = s.streams d :=
  foldl_keeps (State.streams · d) _ (fun s _ => s.streams_writeWindow ..) _ s

@[simp] theorem State.streams_putMarked (s : State) (a : Nat) (data : List MByte) (d : CoreId) : (s.putMarked a data).streams d = s.streams d := by
  unfold State.putMarked
  dsimp only
  split
  · exact s.streams_put a (plainBytes data) false d
  · simp

@[simp] theorem State.streams_waxWriteTile (s : State) (x : BitVec 256) (t : Nat) (tile : List Byte) (marks : List Bool) (d : CoreId) :
    (s.waxWriteTile x t tile marks).streams d = s.streams d := by
  unfold State.waxWriteTile
  dsimp only
  rw [State.streams_put]
  split
  · exact foldl_keeps (State.streams · d) _ (fun s _ => s.streams_put ..) _ s
  · exact s.streams_put ..

@[simp] theorem State.streams_putWax (s : State) (p : Option Nat) (x : BitVec 256) (ofs : Nat) (data : List MByte) (d : CoreId) :
    (s.putWax p x ofs data).streams d = s.streams d :=
  foldl_keeps (State.streams · d) _ (fun s _ => s.streams_waxWriteTile ..) _ s

@[simp] theorem State.streams_writeSeg (s : State) (p : Option Nat) (x : BitVec 256) (ofs : Nat) (data : List MByte) (d : CoreId) :
    (s.writeSeg p x ofs data).streams d = s.streams d := by
  simp [State.writeSeg]

@[simp] theorem State.streams_waxErrors (s : State) (p : Option Nat) (x : BitVec 256) (tiles : List Nat) (d : CoreId) :
    (s.waxErrors p x tiles).streams d = s.streams d :=
  foldl_keeps (State.streams · d) _ (fun s _ => s.streams_logError ..) _ s

@[simp] theorem State.streams_noteReads (s : State) (x : BitVec 256) (ofs n : Nat) (d : CoreId) : (s.noteReads x ofs n).streams d = s.streams d := by
  unfold State.noteReads
  split
  · exact foldl_keeps (State.streams · d) _ (fun s _ => by simp [State.noteRead]) _ s
  · rfl

@[simp] theorem State.streams_countMarkedAt (s : State) (c : CoreId) (a n : Nat) (d : CoreId) : (s.countMarkedAt c a n).streams d = s.streams d := by
  simp [State.countMarkedAt]

@[simp] theorem streams_moveRow (c : CoreId) (p : Option Nat) (j : StreamJob) (lost : Nat → Bool) (n : Nat) (m : StreamMove) (d : CoreId) :
    (moveRow c p j lost n m).st.streams d = m.st.streams d := by
  unfold moveRow
  dsimp only
  split
  · rfl
  · split
    · simp
    · split
      · simp
      · split <;> simp

theorem streams_moveRows (c : CoreId) (p : Option Nat) (j : StreamJob) (lost : Nat → Bool) (fuel n : Nat) (m : StreamMove) (d : CoreId) :
    (moveRows c p j lost fuel n m).st.streams d = m.st.streams d := by
  induction fuel generalizing n m with
  | zero => rfl
  | succ fuel ih =>
    unfold moveRows
    split
    · rfl
    · rw [ih, streams_moveRow]

end Sys2Proof.Machine
end

section
/-! # COPY, FILL and CONVERT (R198–R207) -/

namespace Sys2Proof.Machine

/-! ## A core changed twice -/

theorem Tbl.put_put {α : Type} (t : Tbl α) (n : Nat) (x y : α) : (t.put n x).put n y = t.put n y := by
  induction t with
  | nil => simp [Tbl.put]
  | cons e t ih =>
    obtain ⟨k, v⟩ := e
    obtain hlt | rfl | hgt := lt_trichotomy n k
    · simp [Tbl.put, hlt]
    · simp [Tbl.put]
    · simp [Tbl.put, hgt.not_gt, hgt.ne, ih]

theorem State.setCore_setCore (s : State) (c : CoreId) (k l : Core) : (s.setCore c k).setCore c l = s.setCore c l := by
  rw [State.setCore, State.setCore, Tbl.put_put]
  rfl

/-- A change of a stream queue that finds the queue as it would leave it changes nothing. -/
theorem State.modStream_fixed (s : State) (c : CoreId) {q : Nat} (hq : q < 4) {f g : StreamQ → StreamQ}
    (h : g (f ((s.core c).flight.stream q)) = f ((s.core c).flight.stream q)) : (s.modStream c q f).modStream c q g = s.modStream c q f := by
  have hfound := s.stream_modStream c hq f
  unfold State.modStream at hfound ⊢
  rw [State.modCore, hfound, h, State.core_modCore, State.modCore, State.setCore_setCore]
  simp

/-! ## Rows in ascending order (R201) -/

/-- A row that no page is lost to leaves the descriptor without a cause to end, or ends it; where it does not, it counts. -/
theorem moveRow_done (c : CoreId) (p : Option Nat) (j : StreamJob) (n : Nat) (m : StreamMove) :
    (moveRow c p j (fun _ => false) n m).fail.isSome ∨ (moveRow c p j (fun _ => false) n m).done = n + 1 := by
  unfold moveRow
  dsimp only
  split
  · exact .inl rfl
  · split
    · exact .inr rfl
    · split
      · exact .inr rfl
      · split
        · exact .inl rfl
        · exact .inr rfl

theorem moveRows_ended (c : CoreId) (p : Option Nat) (j : StreamJob) (lost : Nat → Bool) (fuel n : Nat) {m : StreamMove} (h : m.fail.isSome) :
    moveRows c p j lost fuel n m = m := by
  cases fuel with
  | zero => rfl
  | succ fuel => exact if_pos h

/-- Rows that run to their end are all done. -/
theorem moveRows_done {c : CoreId} {p : Option Nat} {j : StreamJob} {fuel n : Nat} {m : StreamMove} (hm : m.done = n)
    (h : (moveRows c p j (fun _ => false) fuel n m).fail = none) : (moveRows c p j (fun _ => false) fuel n m).done = n + fuel := by
  induction fuel generalizing n m with
  | zero => exact hm
  | succ fuel ih =>
    unfold moveRows at h ⊢
    split at h
    next hfail => rw [h] at hfail; cases hfail
    next hgoes =>
      rw [if_neg hgoes]
      obtain hended | hdone := moveRow_done c p j n m
      · rw [moveRows_ended _ _ _ _ _ _ hended] at h
        rw [h] at hended
        cases hended
      · rw [ih hdone h]
        omega

/-! ## The queue takes its head (R198, R202–R207) -/

theorem CaveUse.bad_of_not_begun {u : CaveUse} (h : u.begun = false) : u.bad = [] := by
  simp only [CaveUse.begun, Bool.or_eq_false_iff, Bool.not_eq_false', List.isEmpty_iff] at h
  exact h.2

theorem rowLost_of_not_begun {j : StreamJob} (h : j.cave.begun = false) (s : State) (n : Nat) : rowLost s j n = false := by
  simp [rowLost, CaveUse.bad_of_not_begun h]

theorem setOutcome_head {c : CoreId} {q : Nat} {s : State} {j : StreamJob} {rest : List StreamJob} (hq : q < 4)
    (h : ((s.core c).flight.stream q).jobs = j :: rest) (o : DescOutcome) (clips : Nat × Nat × Nat) :
    (((setOutcome c q o clips s).core c).flight.stream q).jobs.head? = some { j with outcome := some o, clips := clips } := by
  rw [setOutcome, State.stream_modStream _ _ hq, h]
  rfl

section
variable {op : Nat} {c : CoreId} {q : Nat} {s : State} {j : StreamJob} (h : StreamAccepted op c q s j)
include h

/-- An accepted descriptor runs from the state in which it begins. -/
theorem takeStream_accepted (env : TransferEnv) : takeStream op c q env s = runStream c q j env (s.streamBegins c q) := by
  obtain ⟨rest, hjobs⟩ := List.head?_eq_some_iff.1 h.head
  obtain ⟨hout, hcave⟩ := h.fresh
  have hgo : (j.outcome.isSome || !opMatches op j || !((runPending c s).core c).flight.writesBefore j.id
      || ((runPending c s).core c).flight.resetting) = false := by
    simp [hout, opMatches, h.isOp, h.settled, h.running]
  simp only [takeStream, hjobs, hgo, hcave, h.normal, Bool.false_and, Bool.false_eq_true, if_false]
  rfl

/-- The head stands in its place already. -/
theorem StreamAccepted.placed : ((s.streamBegins c q).modStream c q fun x => { x with jobs := j :: x.jobs.tail }) = s.streamBegins c q := by
  obtain ⟨rest, hjobs⟩ := List.head?_eq_some_iff.1 h.head
  refine State.modStream_fixed _ _ h.queue ?_
  dsimp only
  rw [hjobs, List.tail_cons]

/-- An accepted descriptor waits for nothing, and its rows move. -/
theorem runStream_accepted (env : TransferEnv) : runStream c q j env (s.streamBegins c q) = transferRows c q j env (s.streamBegins c q) := by
  obtain ⟨_, hcave⟩ := h.fresh
  have hsound : ¬ badStream j = true := by simp [h.sound]
  have hgoes : ¬ streamRefused j (s.streamBegins c q) = true := by simp [streamRefused, h.plain]
  unfold runStream
  dsimp only
  rw [if_neg hsound, h.access]
  dsimp only
  rw [if_neg hgoes, h.resident, State.gatherPages_nil]
  dsimp only
  rw [h.placed, CaveUse.waits_of_not_begun hcave]
  rfl

/-- The rows' outcome, where no marked row is met, stands in the queue. -/
theorem transferRows_accepted (hfail : (streamRows c j (s.streamBegins c q)).fail = none) :
    ∃ l, transferRows c q j { noValue := none, ecc := [] } (s.streamBegins c q)
      = setOutcome c q { status := 0, cause := 0, done := rowCount j.raw, faultIndex := 0 } (streamRows c j (s.streamBegins c q)).clips
          (wakeFor l (streamRows c j (s.streamBegins c q)).st) := by
  have hdone : (streamRows c j (s.streamBegins c q)).done = 0 + rowCount j.raw := moveRows_done rfl hfail
  have hlost (t : State) : (fun n => (none : Option Nat) == some n || rowLost t j n) = fun _ => false :=
    funext fun n => rowLost_of_not_begun h.fresh.2 t n
  have hplain : ∀ t, clearLoaded j t = t := fun t => by simp [clearLoaded, h.plain]
  rw [Nat.zero_add] at hdone
  unfold streamRows at hfail hdone ⊢
  unfold transferRows
  dsimp only
  rw [hplain, hlost]
  have hecc : (s.streamBegins c q).eccEvents [] = s.streamBegins c q := rfl
  rw [hecc, hfail, hdone]
  exact ⟨_, rfl⟩

/-- A row of the stream engine completes with every row done. -/
theorem completes_stream {i : Instr} (hi : exec i s = .next (takeStream op c q { noValue := none, ecc := [] } s)) :
    let m := streamRows c j (s.streamBegins c q)
    m.fail = none → Completes i s fun t =>
      t.mem = m.st.mem ∧ t.marks = m.st.marks ∧
      ∃ k, ((t.core c).flight.stream q).jobs.head? = some k ∧ k.raw = j.raw ∧ k.record = j.record ∧ k.clips = m.clips
        ∧ k.outcome = some { status := 0, cause := 0, done := rowCount j.raw, faultIndex := 0 } := by
  intro m hfail
  obtain ⟨l, hrun⟩ := transferRows_accepted h hfail
  obtain ⟨rest, hjobs⟩ := List.head?_eq_some_iff.1 h.head
  have hstreams : m.st.streams c = (s.streamBegins c q).streams c := streams_moveRows ..
  have hhead : (((wakeFor l m.st).core c).flight.stream q).jobs = j :: rest := by
    rw [wakeFor_core, CoreFlight.stream, ← State.streams, hstreams, State.streams, ← CoreFlight.stream, State.streamBegins,
      State.stream_modStream _ _ h.queue, hjobs]
  refine ⟨_, hi.trans (congrArg Host.Outcome.next ((takeStream_accepted h _).trans ((runStream_accepted h _).trans hrun))), wakeFor_mem ..,
    wakeFor_marks .., _, setOutcome_head h.queue hhead _ _, rfl, rfl, rfl, rfl⟩
end

theorem streamTransfers_claim : Claim.StreamTransfers := by
  simp only [Claim.StreamTransfers, List.forall_mem_cons, List.not_mem_nil, false_implies, implies_true, and_true]
  exact ⟨fun _ _ _ _ h => completes_stream h rfl, fun _ _ _ _ h => completes_stream h rfl, fun _ _ _ _ h => completes_stream h rfl⟩

/-! ## One row between local stores, read byte by byte (R201) -/

/-- The bytes that one side of a row reaches lie in the local stores, through a segment without wax. -/
structure LocalSpan (d : BitVec 256) (ofs n : Nat) : Prop where
  plain : segWax d = false
  tier : segTier d = 0
  within : segAddr d ofs + n ≤ 0x0200000000
  some : 0 < n

theorem State.putMarked_mem (s : State) (a : Nat) (data : List MByte) : (s.putMarked a data).mem = (s.put a (plainBytes data) false).mem := by
  unfold State.putMarked
  dsimp only
  split <;> rfl

/-- Bytes written through a segment of the local stores stand there, and no other byte changes. -/
theorem State.read_writeSeg {s : State} {p : Option Nat} {d : BitVec 256} {ofs n : Nat} (hwf : s.mem.wf = true) (hd : LocalSpan d ofs n)
    {data : List MByte} (hlen : data.length = n) (x : Nat) :
    Memory.read (s.writeSeg p d ofs data).mem x =
      if segAddr d ofs ≤ x ∧ x < segAddr d ofs + n then ((plainBytes data)[x - segAddr d ofs]?).getD 0 else Memory.read s.mem x := by
  obtain ⟨hwax, htier, hin, hn⟩ := hd
  have hsome : ¬ data.isEmpty = true := by
    rw [List.isEmpty_iff, ← List.length_eq_zero_iff]
    omega
  have hmem : (s.writeSeg p d ofs data).mem = Memory.writeBytes s.mem (segAddr d ofs) (plainBytes data) := by
    rw [State.writeSeg, if_neg hsome, hwax, htier, if_neg Bool.false_ne_true, if_neg Nat.zero_ne_one, State.putMarked_mem,
      State.put_localStore _ _ (by omega)]
    rfl
  have hplain : (plainBytes data).length = n := by rw [plainBytes, List.length_map, hlen]
  rw [hmem]
  split
  next hx =>
    obtain ⟨i, rfl⟩ := Nat.exists_eq_add_of_le hx.1
    rw [Nat.add_sub_cancel_left, Memory.read_writeBytes_at _ _ hwf i (by omega), List.getElem?_eq_getElem (by omega), Option.getD_some]
  next hx => exact Memory.read_writeBytes_other _ _ hwf x (by omega)

theorem length_fillRow {r : BitVec 1024} (h : sdBytes r % 8 = 0) : (fillRow r).length = sdBytes r := by
  simp [fillRow, List.length_flatMap]
  omega

/-- Byte i of a FILL's row is byte i mod 8 of its pattern. -/
theorem getElem?_fillRow {r : BitVec 1024} {i : Nat} (h : sdBytes r % 8 = 0) (hi : i < sdBytes r) :
    (plainBytes (fillRow r))[i]? = some (BitVec.ofNat 8 ((sdSrc r).toNat / 256 ^ (i % 8))) := by
  have hrow : plainBytes (fillRow r) = (List.range (sdBytes r / 8)).flatMap fun _ => leBytes 8 (sdSrc r).toNat := by
    simp [plainBytes, fillRow, List.map_flatMap, Function.comp_def]
  have hblock := getElem?_flatMap_blocks (f := fun _ : Nat => leBytes 8 (sdSrc r).toNat) (m := 8) (fun _ => length_leBytes 8 _)
    (List.range (sdBytes r / 8)) (r := i / 8) (i := i % 8) (by rw [List.length_range]; omega) (Nat.mod_lt _ (by omega))
  rw [Nat.div_add_mod] at hblock
  rw [hrow, hblock, getElem?_leBytes _ (Nat.mod_lt _ (by omega))]

theorem Memory.getElem?_readBytes (m : Memory) (a : Nat) {n i : Nat} (hi : i < n) : (m.readBytes a n)[i]? = some (m.read (a + i)) := by
  induction n generalizing a i with
  | zero => omega
  | succ n ih =>
    cases i with
    | zero => rfl
    | succ i => rw [Memory.readBytes, List.getElem?_cons_succ, ih _ (by omega), Nat.add_assoc, Nat.add_comm 1]

theorem Memory.length_readBytes (m : Memory) (a n : Nat) : (m.readBytes a n).length = n := by
  induction n generalizing a with
  | zero => rfl
  | succ n ih => rw [Memory.readBytes, List.length_cons, ih]

theorem State.peek_localStore (s : State) {a : Nat} (n : Nat) (h : a < 0x0200000000) : s.peek a n = s.mem.readBytes a n := by
  have hbm : isHbm a = false := by simp [isHbm]; omega
  have hcave : isCave a = false := by
    rw [isCave, caveBase, Bool.and_eq_false_iff, decide_eq_false_iff_not]
    omega
  simp [State.peek, hbm, hcave]

theorem State.plainBytes_memBytes (s : State) (a n : Nat) : plainBytes (s.memBytes a n) = s.peek a n := by
  simp [plainBytes, State.memBytes, List.map_map, Function.comp_def, List.zipIdx_map_fst]

theorem State.caveView_of_no_pages {s : State} {p : Option Nat} {u : CaveUse} (h : u.pages = []) : (s.caveView p u).mem = s.mem := by
  rw [State.caveView, h]
  exact State.seenBy_mem s p

/-- What is read through a segment of the local stores is what stands there. -/
theorem State.plainBytes_readSeg {s : State} {p : Option Nat} {d : BitVec 256} {u : CaveUse} {ofs n : Nat} (hd : LocalSpan d ofs n)
    (hu : u.pages = []) : plainBytes (s.readSeg p d u ofs n).1 = s.mem.readBytes (segAddr d ofs) n ∧ (s.readSeg p d u ofs n).2 = [] := by
  obtain ⟨hwax, htier, hin, hn⟩ := hd
  rw [State.readSeg, if_neg (by omega : ¬ n = 0)]
  dsimp only
  rw [hwax, htier, if_neg Bool.false_ne_true, if_neg Nat.zero_ne_one, State.plainBytes_memBytes, State.peek_localStore _ _ (by omega),
    State.caveView_of_no_pages hu]
  exact ⟨rfl, rfl⟩

theorem State.length_readSeg {s : State} {p : Option Nat} {d : BitVec 256} {u : CaveUse} {ofs n : Nat} (hd : LocalSpan d ofs n)
    (hu : u.pages = []) : (s.readSeg p d u ofs n).1.length = n := by
  rw [← List.length_map (f := Prod.fst), ← plainBytes, (State.plainBytes_readSeg hd hu).1, Memory.length_readBytes]

/-- Reading unmarked bytes of a local store leaves the state. -/
theorem State.readEvents_unmarked {s : State} (p : Option Nat) (c : CoreId) {d : BitVec 256} (ofs n a k : Nat) (htier : segTier d = 0)
    (hmarks : s.marks = []) : ((s.waxErrors p d []).noteReads d ofs n).countMarkedAt c a k = s := by
  have hnotes : (s.waxErrors p d []).noteReads d ofs n = s := by
    rw [State.noteReads, htier, if_neg Nat.zero_ne_one]
    rfl
  rw [hnotes, State.countMarkedAt, hmarks]
  rfl

/-- The offset at which row n of a descriptor goes. -/
def StreamJob.dstOfs (j : StreamJob) (n : Nat) : Nat := rowOffset (sdDst j.raw) (rowShift j.raw (sdDstStride j.raw) n)

/-- The offset from which row n of a descriptor comes. -/
def StreamJob.srcOfs (j : StreamJob) (n : Nat) : Nat := rowOffset (sdSrc j.raw) (rowShift j.raw (sdSrcStride j.raw) n)

theorem moveRow_fill {j : StreamJob} (hop : sdOp j.raw = 2) (c : CoreId) (p : Option Nat) (n : Nat) (m : StreamMove) :
    (moveRow c p j (fun _ => false) n m).st = m.st.writeSeg p j.dstSeg (j.dstOfs n) (fillRow j.raw) := by
  simp [moveRow, hop, StreamJob.dstOfs]

theorem moveRow_copy_unmarked {j : StreamJob} {n : Nat} {m : StreamMove} (hop : sdOp j.raw = 1)
    (hsrc : LocalSpan j.srcSeg (j.srcOfs n) (sdBytes j.raw)) (hmarks : m.st.marks = []) (hpages : j.cave.pages = []) (c : CoreId) (p : Option Nat) :
    (moveRow c p j (fun _ => false) n m).st
      = m.st.writeSeg p j.dstSeg (j.dstOfs n) (m.st.readSeg p j.srcSeg j.cave (j.srcOfs n) (sdBytes j.raw)).1 := by
  have htiles := (State.plainBytes_readSeg (s := m.st) (p := p) hsrc hpages).2
  unfold StreamJob.srcOfs at htiles
  simp [moveRow, hop, htiles, State.readEvents_unmarked _ _ _ _ _ _ hsrc.tier hmarks, StreamJob.dstOfs, StreamJob.srcOfs]

theorem streamRow_claim : Claim.StreamRow := by
  intro c p j n m x a b hwf hwax htier hin hn
  have hdst : LocalSpan j.dstSeg (j.dstOfs n) (sdBytes j.raw) := ⟨hwax, htier, hin, hn⟩
  refine ⟨fun hop hbytes => ?fill, fun hop hswax hstier hsin hmarks hpages => ?copy⟩
  case fill =>
    rw [moveRow_fill hop, State.read_writeSeg hwf hdst (length_fillRow hbytes)]
    unfold StreamJob.dstOfs
    split
    next hx => rw [getElem?_fillRow hbytes (by omega), Option.getD_some]
    next => rfl
  case copy =>
    have hsrc : LocalSpan j.srcSeg (j.srcOfs n) (sdBytes j.raw) := ⟨hswax, hstier, hsin, hn⟩
    rw [moveRow_copy_unmarked hop hsrc hmarks hpages, State.read_writeSeg hwf hdst (State.length_readSeg hsrc hpages),
      (State.plainBytes_readSeg hsrc hpages).1]
    unfold StreamJob.dstOfs
    split
    next hx =>
      rw [Memory.getElem?_readBytes _ _ (by omega), Option.getD_some]
      rfl
    next => rfl

/-- Settles O23: an accepted descriptor's rows move from the state in which it begins, and leave its place in the queue; between local
stores a row's bytes stand at its place. -/
theorem streamTransfers : Obligations.StreamTransfers := ⟨streamTransfers_claim, streamRow_claim⟩

end Sys2Proof.Machine
end

section
/-! # Segment, barrier and group-table loads (R176, R286, R287, R302, R344) -/

namespace Sys2Proof.Machine

/-! ## A CONTROL record that sets no reserved bit (R296, R344) -/

theorem currentRecord_ring {s : State} {r kind : Nat} {sub : Option Nat} {p : Nat} {rcd : BitVec 2048}
    (h : currentRecord s r kind sub = some (p, rcd)) : (s.ring r).current = some rcd := by
  unfold currentRecord at h
  split at h
  next hcurrent =>
    split at h
    · cases h
      exact hcurrent
    · cases h
  next => cases h

/-- Its body runs, in the state in which the partition's sweep is disturbed. -/
theorem controlRecord_sound {s : State} {r sub p : Nat} {rcd : BitVec 2048} {named : List (Nat × Nat)}
    (h : currentRecord s r 4 (some sub) = some (p, rcd)) (hnamed : controlReserved rcd named = false)
    (body : Nat → BitVec 2048 → State → State) : controlRecord r sub named body s = .next (body p rcd (s.disturb (some p))) := by
  unfold controlRecord
  rw [h]
  dsimp only
  rw [hnamed, if_neg Bool.false_ne_true]

/-- The record of a ring completes from a state in which it is still in progress. -/
theorem answers_completeRecord {u : State} {r : Nat} {rcd : BitVec 2048} (h : (u.ring r).current = some rcd) (c : Completion) :
    Answers r c u (completeRecord r c u) := by
  refine ⟨rcd, h, ?_⟩
  unfold completeRecord
  rw [h]

theorem State.ring_congr {s t : State} (h : t.host = s.host) (r : Nat) : t.ring r = s.ring r := by unfold State.ring; rw [h]

/-! ## What a disturbed sweep leaves to the checks of a load -/

section
variable (s : State) (q : Option Nat) (p : Nat)

@[simp] theorem State.disturb_host : (s.disturb q).host = s.host := by cases q <;> rfl
@[simp] theorem State.disturb_fabric : (s.disturb q).fabric = s.fabric := by cases q <;> rfl
@[simp] theorem State.disturb_start : (s.disturb q).start = s.start := by cases q <;> rfl

@[simp] theorem State.disturb_layout : ((s.disturb q).part p).layout = (s.part p).layout := by rw [← s.part_disturb q p]
@[simp] theorem State.disturb_job : ((s.disturb q).part p).job = (s.part p).job := by rw [← s.part_disturb q p]
@[simp] theorem State.disturb_segs : ((s.disturb q).part p).segs = (s.part p).segs := by rw [← s.part_disturb q p]
@[simp] theorem State.disturb_barriers : ((s.disturb q).part p).barriers = (s.part p).barriers := by rw [← s.part_disturb q p]

@[simp] theorem State.disturb_corePart (c : CoreId) : (s.disturb q).corePart c = s.corePart c := State.corePart_congr (by simp) c

@[simp] theorem State.disturb_confidential : (s.disturb q).confidential (some p) = s.confidential (some p) := by
  simp [State.confidential]

@[simp] theorem State.disturb_hostGranted (a n : Nat) : (s.disturb q).hostGranted p a n = s.hostGranted p a n := by
  simp [State.hostGranted]

@[simp] theorem State.disturb_barrier (b : Nat) : (s.disturb q).barrier p b = s.barrier p b := by simp [State.barrier]

/-- The host's memory is read as it stands. -/
theorem State.peek_hostAddr (x n : Nat) : s.peek (hostAddr x) n = s.mem.readBytes (hostAddr x) n := by
  have hbm : isHbm (hostAddr x) = false := by
    rw [isHbm, hostAddr, Bool.and_eq_false_iff, decide_eq_false_iff_not, decide_eq_false_iff_not]
    omega
  have hcave : isCave (hostAddr x) = false := by
    rw [isCave, caveBase, hostAddr, Bool.and_eq_false_iff, decide_eq_false_iff_not, decide_eq_false_iff_not]
    omega
  simp [State.peek, hbm, hcave]

@[simp] theorem imageEntry_disturb (a i : Nat) : imageEntry (s.disturb q) a i = imageEntry s a i := by
  simp [imageEntry, State.peekNat, State.peek_hostAddr]
end

theorem State.caveCovers_congr {s t : State} (h : t.host = s.host) (fuel a n : Nat) : t.caveCovers fuel a n = s.caveCovers fuel a n := by
  have hentry (a : Nat) : t.caveEntry a = s.caveEntry a := by
    unfold State.caveEntry State.caveEntries
    rw [h]
  induction fuel generalizing a n with
  | zero => rfl
  | succ fuel ih =>
    unfold State.caveCovers
    simp only [hentry, ih]

@[simp] theorem State.disturb_inPart (s : State) (q : Option Nat) (p a n : Nat) : (s.disturb q).inPart (some p) a n = s.inPart (some p) a n := by
  have hseen : ((s.disturb q).seenBy (some p)).host = (s.seenBy (some p)).host := by
    simp only [State.seenBy, State.disturb_layout, State.seenFrom]
    split <;> simp
  have hspan : (s.disturb q).spanOfPart (some p) a n = s.spanOfPart (some p) a n := by simp [State.spanOfPart]
  unfold State.inPart
  dsimp only
  rw [hspan, State.disturb_job, State.disturb_layout, State.caveCovers_congr hseen]

@[simp] theorem segmentChecks_disturb (s : State) (q : Option Nat) (p : Nat) (d : BitVec 256) :
    segmentChecks (s.disturb q) p d = segmentChecks s p d := by
  simp [segmentChecks, State.inReservation]

/-- The record completes from the state in which its body ends, with the partition's sweep disturbed. -/
theorem completes_controlRecord {i : Instr} {s u : State} {r sub p : Nat} {rcd : BitVec 2048} {named : List (Nat × Nat)}
    {body : Nat → BitVec 2048 → State → State} {c : Completion} {P : State → Prop} (hexec : exec i s = controlRecord r sub named body s)
    (hrec : currentRecord s r 4 (some sub) = some (p, rcd)) (hres : controlReserved rcd named = false)
    (hbody : body p rcd (s.disturb (some p)) = completeRecord r c u) (hhost : u.host = (s.disturb (some p)).host) (hP : P u) :
    Completes i s fun t => ∃ u, Answers r c u t ∧ P u := by
  refine ⟨_, hexec.trans (controlRecord_sound hrec hres body), u, ?_, hP⟩
  rw [hbody]
  refine answers_completeRecord (rcd := rcd) ?_ c
  rw [State.ring_congr (hhost.trans (State.disturb_host ..))]
  exact currentRecord_ring hrec

/-! ## The selected entries of a table image (R176, R286, R302) -/

theorem mem_maskBits {rcd : BitVec 2048} {lo n i : Nat} : i ∈ maskBits rcd lo n ↔ i < n ∧ rcd.toNat.testBit (lo + i) = true := by
  simp [maskBits]

theorem maskBits_sorted (rcd : BitVec 2048) (lo n : Nat) : (maskBits rcd lo n).Pairwise (· < ·) := List.pairwise_lt_range.filter _

/-- The lowest selected entry that a search finds. -/
theorem findSome?_maskBits {β : Type} {rcd : BitVec 2048} {lo n i : Nat} {f : Nat → Option β} {b : β} (hi : i ∈ maskBits rcd lo n)
    (hfound : f i = some b) (hlow : ∀ k ∈ maskBits rcd lo n, k < i → f k = none) : (maskBits rcd lo n).findSome? f = some b := by
  obtain ⟨low, high, hsplit⟩ := List.append_of_mem hi
  have hsorted := maskBits_sorted rcd lo n
  rw [hsplit] at hsorted
  refine List.findSome?_eq_some_iff.2 ⟨low, i, high, hsplit, hfound, fun k hk => hlow k ?_ ?_⟩
  · rw [hsplit]
    exact List.mem_append_left _ hk
  · exact (List.pairwise_append.1 hsorted).2.2 k hk i List.mem_cons_self

/-- A table after entries are put at the places of a list. -/
theorem Tbl.getD_foldl_put {α : Type} {key : Nat → Nat} (hkey : ∀ i k, key i = key k → i = k) (f : Nat → α) (l : List Nat)
    (t : Tbl α) (i : Nat) (d : α) :
    (l.foldl (fun t k => t.put (key k) (f k)) t).getD (key i) d = if i ∈ l then f i else t.getD (key i) d := by
  induction l generalizing t with
  | nil => rfl
  | cons k l ih =>
    rw [List.foldl_cons, ih]
    by_cases hk : i = k
    · subst hk
      simp
    · simp [hk, Tbl.getD_put_other _ _ _ fun h => hk (hkey i k h)]

@[simp] theorem State.disturb_groupEntry (s : State) (q : Option Nat) (die w : Nat) : (s.disturb q).groupEntry die w = s.groupEntry die w := by
  simp [State.groupEntry]

@[simp] theorem State.disturb_unitPart (s : State) (q : Option Nat) (u : Nat) : (s.disturb q).unitPart u = s.unitPart u := by simp [State.unitPart]

@[simp] theorem State.disturb_memberCores (s : State) (q : Option Nat) (die w : Nat) : (s.disturb q).memberCores die w = s.memberCores die w := by
  simp [State.memberCores]

@[simp] theorem barMembers_disturb (s : State) (q : Option Nat) (e : BitVec 256) : barMembers (s.disturb q) e = barMembers s e := by
  simp [barMembers]

@[simp] theorem barrierChecks_disturb (s : State) (q : Option Nat) (p i : Nat) (e : BitVec 256) :
    barrierChecks (s.disturb q) p i e = barrierChecks s p i e := by
  simp [barrierChecks, groupWordOk, State.unitPresent]

@[simp] theorem groupRefused_disturb (s : State) (q : Option Nat) (p die i : Nat) (e : BitVec 256) :
    groupRefused (s.disturb q) p die i e = groupRefused s p die i e := by
  simp [groupRefused]

/-! ## The segment table after a load (R176, R177) -/

@[simp] theorem State.reseal_host (s : State) (n : Nat) : (s.reseal n).host = s.host := by
  unfold State.reseal
  dsimp only
  split <;> rfl

@[simp] theorem State.put_host (s : State) (a : Nat) (data : List Byte) (m : Bool) : (s.put a data m).host = s.host := by
  unfold State.put
  split
  · exact foldl_keeps (·.host) State.reseal State.reseal_host _ s
  · rfl

@[simp] theorem loadSegment_cores (p i : Nat) (d : BitVec 256) (s : State) : (loadSegment p i d s).cores = s.cores := by
  unfold loadSegment
  dsimp only
  split
  · exact State.put_cores ..
  · rfl

@[simp] theorem loadSegment_host (p i : Nat) (d : BitVec 256) (s : State) : (loadSegment p i d s).host = s.host := by
  unfold loadSegment
  dsimp only
  split
  · exact State.put_host ..
  · rfl

theorem loadSegment_mem {p i : Nat} {d : BitVec 256} (hwax : segWax d = false) (s : State) : (loadSegment p i d s).mem = s.mem := by
  simp only [loadSegment, hwax]
  simp [State.modPart, State.setPart]

@[simp] theorem loadSegment_segs (p i : Nat) (d : BitVec 256) (s : State) :
    ((loadSegment p i d s).part p).segs = (s.part p).segs.put i d := by
  have hput : ((loadSegment p i d s).part p).segs = (((discardPages p (Tbl.getD (s.part p).segs i 0) s).modPart p
      fun q => { q with segs := Tbl.put q.segs i d }).part p).segs := by
    unfold loadSegment
    dsimp only
    split
    · rw [State.part_congr (State.put_parts ..)]
    · rfl
  rw [hput, State.part_modPart, discardPages, State.modJob, State.part_modPart]

/-- The state after the descriptors at the places of a list are loaded. -/
def segmentsLoaded (p : Nat) (new : Nat → BitVec 256) (l : List Nat) (s : State) : State :=
  l.foldl (fun s i => loadSegment p i (new i) s) s

section
variable (p : Nat) (new : Nat → BitVec 256) (l : List Nat) (s : State)

@[simp] theorem segmentsLoaded_cores : (segmentsLoaded p new l s).cores = s.cores :=
  foldl_keeps (·.cores) _ (fun s i => loadSegment_cores p i (new i) s) l s

@[simp] theorem segmentsLoaded_host : (segmentsLoaded p new l s).host = s.host :=
  foldl_keeps (·.host) _ (fun s i => loadSegment_host p i (new i) s) l s

theorem segmentsLoaded_segs : ((segmentsLoaded p new l s).part p).segs = l.foldl (fun t i => Tbl.put t i (new i)) (s.part p).segs :=
  (List.foldl_hom (fun s => (s.part p).segs) fun s i => (loadSegment_segs p i (new i) s).symm).symm

theorem segmentsLoaded_mem (hwax : ∀ i ∈ l, segWax (new i) = false) : (segmentsLoaded p new l s).mem = s.mem := by
  induction l generalizing s with
  | nil => rfl
  | cons i l ih => exact (ih _ fun k hk => hwax k (List.mem_cons_of_mem _ hk)).trans (loadSegment_mem (hwax i List.mem_cons_self) s)
end

/-! ## Segment load (R176) -/

/-- The condition of R176 that a new descriptor fails first, with its number. -/
def segmentFault (s : State) (p i : Nat) (d : BitVec 256) : Option (Nat × Nat) :=
  if segValid d then ((segmentChecks s p d).find? (·.2)).map fun c => (i, c.1) else none

theorem segmentFault_eq_none {s : State} {p i : Nat} {d : BitVec 256} (h : segValid d = true → ∀ c ∈ segmentChecks s p d, c.2 = false) :
    segmentFault s p i d = none := by
  unfold segmentFault
  split
  next hv => simpa using h hv
  next => rfl

theorem segmentFault_eq_some {s : State} {p i : Nat} {d : BitVec 256} {c : Nat × Bool} (hv : segValid d = true)
    (h : (segmentChecks s p d).find? (·.2) = some c) : segmentFault s p i d = some (i, c.1) := by
  rw [segmentFault, if_pos hv, h, Option.map_some]

section
variable {s : State} {p r : Nat} {rcd : BitVec 2048} (hgrant : s.hostGranted p (recImage rcd) 8192 = true)
include hgrant

theorem loadSegments_refuses {i c : Nat}
    (h : (maskBits rcd 256 256).findSome? (fun i => segmentFault s p i (imageEntry s (recImage rcd) i)) = some (i, c)) :
    loadSegments r p rcd s = refuse r 0x0A (i + c * 256) s := by
  unfold segmentFault at h
  simp [loadSegments, hgrant, List.findSome?_map, Function.comp_def, h]

theorem loadSegments_loads
    (h : (maskBits rcd 256 256).findSome? (fun i => segmentFault s p i (imageEntry s (recImage rcd) i)) = none) :
    loadSegments r p rcd s = completeRecord r cplOk (segmentsLoaded p (imageEntry s (recImage rcd)) (maskBits rcd 256 256) s) := by
  unfold segmentFault at h
  simp [loadSegments, hgrant, List.findSome?_map, Function.comp_def, h, segmentsLoaded, List.foldl_map]
end

theorem segmentLoad_claim : Claim.SegmentLoad := by
  intro r s p rcd hrec hres hgrant new sel
  let s' := s.disturb (some p)
  have hnew : imageEntry s' (recImage rcd) = new := funext fun i => imageEntry_disturb s (some p) (recImage rcd) i
  have hgrant' : s'.hostGranted p (recImage rcd) 8192 = true := (State.disturb_hostGranted ..).trans hgrant
  have hsel {i : Nat} : i ∈ maskBits rcd 256 256 ↔ i < 256 ∧ sel i = true := mem_maskBits
  have hfine {k : Nat} (h : segValid (new k) = true → ∀ c ∈ segmentChecks s p (new k), c.2 = false) :
      segmentFault s' p k (imageEntry s' (recImage rcd) k) = none := by
    rw [hnew]
    exact segmentFault_eq_none (by rwa [segmentChecks_disturb])
  refine ⟨fun hall => ?loads, fun i c hi hs hv hfail hlow => ?refuses⟩
  case loads =>
    have hbody := loadSegments_loads (r := r) hgrant' <| List.findSome?_eq_none_iff.2 fun i hi =>
      hfine (hall i (hsel.1 hi).1 (hsel.1 hi).2)
    rw [hnew] at hbody
    refine completes_controlRecord rfl hrec hres hbody (segmentsLoaded_host ..) ⟨fun i hi => ?_, ?_, fun hwax => ?_⟩
    · rw [segmentsLoaded_segs]
      refine (Tbl.getD_foldl_put (key := id) (fun _ _ h => h) new _ _ i 0).trans ?_
      simp [hsel, hi, s']
    · rw [segmentsLoaded_cores, State.disturb_cores]
    · rw [segmentsLoaded_mem _ _ _ _ fun i hi => hwax i (hsel.1 hi).1 (hsel.1 hi).2, State.disturb_mem]
  case refuses =>
    have hfault : segmentFault s' p i (imageEntry s' (recImage rcd) i) = some (i, c.1) := by
      rw [hnew]
      exact segmentFault_eq_some hv (by rwa [segmentChecks_disturb])
    have hbody := loadSegments_refuses (r := r) hgrant' <|
      findSome?_maskBits (hsel.2 ⟨hi, hs⟩) hfault fun k hk hki => hfine (hlow k hki (hsel.1 hk).2)
    exact completes_controlRecord rfl hrec hres hbody rfl ⟨State.disturb_segs .., State.disturb_mem .., State.disturb_cores ..⟩

/-! ## Barrier load (R286, R287) -/

/-- A barrier as a load of an entry leaves it (R287, R294). -/
def loadedBarrier (s : State) (e : BitVec 256) : Barrier := Barrier.fresh e (if barValid e then barMembers s e else []) (barEpoch e)

theorem Barrier.node_fresh (e : BitVec 256) (members : List CoreId) (epoch : BitVec 16) {die : Nat} (h : die < 4) :
    (Barrier.fresh e members epoch).node die = { BarNode.reset with openEpoch := epoch } := by
  simp [Barrier.node, Barrier.fresh, h]

/-- An entry put into a partition's barrier table. -/
def loadBarrier (p i : Nat) (e : BitVec 256) (s : State) : State := s.modBarrier p i fun _ => loadedBarrier s e

/-- The state after the entries at the places of a list are loaded. -/
def barriersLoaded (p : Nat) (new : Nat → BitVec 256) (l : List Nat) (s : State) : State :=
  l.foldl (fun s i => loadBarrier p i (new i) s) s

section
variable (p : Nat) (new : Nat → BitVec 256) (l : List Nat) (s : State)

@[simp] theorem barriersLoaded_cores : (barriersLoaded p new l s).cores = s.cores :=
  foldl_keeps (·.cores) (fun s i => loadBarrier p i (new i) s) (fun _ _ => rfl) l s

@[simp] theorem barriersLoaded_mem : (barriersLoaded p new l s).mem = s.mem :=
  foldl_keeps (·.mem) (fun s i => loadBarrier p i (new i) s) (fun _ _ => rfl) l s

@[simp] theorem barriersLoaded_host : (barriersLoaded p new l s).host = s.host :=
  foldl_keeps (·.host) (fun s i => loadBarrier p i (new i) s) (fun _ _ => rfl) l s

/-- A load changes no group table, so each entry's members are those of the state in which the load begins. -/
theorem barriersLoaded_barriers : ((barriersLoaded p new l s).part p).barriers =
    l.foldl (fun t i => Tbl.put t i (loadedBarrier s (new i))) (s.part p).barriers := by
  induction l generalizing s with
  | nil => rfl
  | cons i l ih =>
    refine (ih (loadBarrier p i (new i) s)).trans ?_
    rw [loadBarrier, State.modBarrier, State.part_modPart]
    rfl

theorem barriersLoaded_barrier (i : Nat) :
    (barriersLoaded p new l s).barrier p i = if i ∈ l then loadedBarrier s (new i) else s.barrier p i := by
  rw [State.barrier, barriersLoaded_barriers]
  exact Tbl.getD_foldl_put (key := id) (fun _ _ h => h) (fun i => loadedBarrier s (new i)) _ _ i .reset
end

/-- The condition of R287 that a new entry fails first among those that a test names, with its number. -/
def barrierFault (s : State) (p : Nat) (test : Nat → Bool) (i : Nat) (e : BitVec 256) : Option (Nat × Nat) :=
  if barValid e then ((barrierChecks s p i e).find? fun c => c.2 && test c.1).map fun c => (i, c.1) else none

theorem barrierFault_eq_none {s : State} {p i : Nat} {e : BitVec 256} {test : Nat → Bool}
    (h : barValid e = true → ∀ c ∈ barrierChecks s p i e, c.2 = true → test c.1 = false) : barrierFault s p test i e = none := by
  unfold barrierFault
  split
  next hv => simpa using h hv
  next => rfl

/-- The first condition that fails, where the test names it, is the first that a search with the test finds. -/
theorem barrierFault_eq_some {s : State} {p i : Nat} {e : BitVec 256} {test : Nat → Bool} {c : Nat × Bool} (hv : barValid e = true)
    (h : (barrierChecks s p i e).find? (·.2) = some c) (hc : test c.1 = true) : barrierFault s p test i e = some (i, c.1) := by
  have hfind : (barrierChecks s p i e).find? (fun c => c.2 && test c.1) = some c := by
    rw [List.find?_eq_some_iff_append] at h ⊢
    obtain ⟨hfails, low, high, hsplit, hlow⟩ := h
    exact ⟨by simp [hfails, hc], low, high, hsplit, fun x hx => by simp [Bool.eq_false_iff.2 (by simpa using hlow x hx)]⟩
  rw [barrierFault, if_pos hv, hfind, Option.map_some]

theorem badBarrier_selected (s : State) (p : Nat) (new : Nat → BitVec 256) (l : List Nat) (test : Nat → Bool) :
    badBarrier s p (l.map fun i => (i, new i)) test = l.findSome? fun i => barrierFault s p test i (new i) := by
  rw [badBarrier, List.findSome?_map]
  rfl

section
variable {s : State} {p r : Nat} {rcd : BitVec 2048} (hgrant : s.hostGranted p (recImage rcd) 32768 = true)
include hgrant

theorem loadBarriers_refuses {i c : Nat}
    (h : (maskBits rcd 256 1024).findSome? (fun i => barrierFault s p (· < 4) i (imageEntry s (recImage rcd) i)) = some (i, c)) :
    loadBarriers r p rcd s = refuse r 0x0B (i + c * 1024) s := by
  simp [loadBarriers, hgrant, badBarrier_selected, h]

theorem loadBarriers_loads
    (h : ∀ test, (maskBits rcd 256 1024).findSome? (fun i => barrierFault s p test i (imageEntry s (recImage rcd) i)) = none) :
    loadBarriers r p rcd s = completeRecord r cplOk (barriersLoaded p (imageEntry s (recImage rcd)) (maskBits rcd 256 1024) s) := by
  simp [loadBarriers, hgrant, badBarrier_selected, h, barriersLoaded, loadBarrier, loadedBarrier, List.foldl_map]
end

theorem barrierLoad_claim : Claim.BarrierLoad := by
  intro r s p rcd hrec hres hgrant new sel
  let s' := s.disturb (some p)
  have hnew : imageEntry s' (recImage rcd) = new := funext fun i => imageEntry_disturb s (some p) (recImage rcd) i
  have hgrant' : s'.hostGranted p (recImage rcd) 32768 = true := (State.disturb_hostGranted ..).trans hgrant
  have hsel {i : Nat} : i ∈ maskBits rcd 256 1024 ↔ i < 1024 ∧ sel i = true := mem_maskBits
  have hfine {k : Nat} {test : Nat → Bool}
      (h : barValid (new k) = true → ∀ c ∈ barrierChecks s p k (new k), c.2 = true → test c.1 = false) :
      barrierFault s' p test k (imageEntry s' (recImage rcd) k) = none := by
    rw [hnew]
    exact barrierFault_eq_none (by rwa [barrierChecks_disturb])
  refine ⟨fun hall => ?loads, fun i c hi hs hv hfail hc hlow => ?refuses⟩
  case loads =>
    have hbody := loadBarriers_loads (r := r) hgrant' fun test => List.findSome?_eq_none_iff.2 fun i hi =>
      hfine fun hv c hmem hfails => absurd ((hall i (hsel.1 hi).1 (hsel.1 hi).2 hv c hmem).symm.trans hfails) Bool.false_ne_true
    rw [hnew] at hbody
    refine completes_controlRecord rfl hrec hres hbody (barriersLoaded_host ..) ⟨fun i hi hs => ?_, fun i hi hs => ?_, ?_, ?_⟩
    · rw [barriersLoaded_barrier, if_neg (by simp [hsel, hs]), State.disturb_barrier]
    · dsimp only
      rw [barriersLoaded_barrier, if_pos (hsel.2 ⟨hi, hs⟩), loadedBarrier, barMembers_disturb]
      refine ⟨rfl, rfl, rfl, fun die hdie => ?_⟩
      rw [Barrier.node_fresh _ _ _ hdie]
      exact ⟨rfl, rfl, rfl⟩
    · rw [barriersLoaded_mem, State.disturb_mem]
    · rw [barriersLoaded_cores, State.disturb_cores]
  case refuses =>
    have hfault : barrierFault s' p (· < 4) i (imageEntry s' (recImage rcd) i) = some (i, c.1) := by
      rw [hnew]
      exact barrierFault_eq_some hv (by rwa [barrierChecks_disturb]) (decide_eq_true hc)
    have hbody := loadBarriers_refuses (r := r) hgrant' <| findSome?_maskBits (hsel.2 ⟨hi, hs⟩) hfault fun k hk hki =>
      hfine fun hv c hmem hfails => by simp [hlow k hki (hsel.1 hk).2 hv c hmem hfails]
    exact completes_controlRecord rfl hrec hres hbody rfl ⟨State.disturb_barriers .., State.disturb_mem ..⟩

/-! ## Group load (R302) -/

/-- The state after the entries at the places of a list are put into a die's group table. -/
def groupsLoaded (die : Nat) (new : Nat → BitVec 256) (l : List Nat) (s : State) : State :=
  { s with fabric := { s.fabric with groups := l.foldl (fun t i => Tbl.put t (256 * die + i) (new i)) s.fabric.groups } }

theorem loadGroups_loads {s : State} {p r : Nat} {rcd : BitVec 2048} (hgrant : s.hostGranted p (recImage rcd) 8192 = true)
    (hdie : field rcd 256 8 < 4)
    (h : ∀ i ∈ maskBits rcd 320 256, groupRefused s p (field rcd 256 8) i (imageEntry s (recImage rcd) i) = false) :
    loadGroups r p rcd s =
      completeRecord r cplOk (groupsLoaded (field rcd 256 8) (imageEntry s (recImage rcd)) (maskBits rcd 320 256) s) := by
  have hfind : ((maskBits rcd 320 256).map fun i => (i, imageEntry s (recImage rcd) i)).find?
      (fun e => groupRefused s p (field rcd 256 8) e.1 e.2) = none := by
    simpa using h
  simp only [loadGroups, hgrant, hfind, groupsLoaded, List.foldl_map]
  rw [if_neg (by omega)]
  rfl

theorem groupLoad_claim : Claim.GroupLoad := by
  intro r s p rcd hrec hres hgrant die new sel hdie hall
  have hnew : imageEntry (s.disturb (some p)) (recImage rcd) = new := funext fun i => imageEntry_disturb s (some p) (recImage rcd) i
  have hsel {i : Nat} : i ∈ maskBits rcd 320 256 ↔ i < 256 ∧ sel i = true := mem_maskBits
  have hbody := loadGroups_loads (r := r) ((State.disturb_hostGranted ..).trans hgrant) hdie fun i hi => by
    rw [hnew, groupRefused_disturb]
    exact hall i (hsel.1 hi).1 (hsel.1 hi).2
  rw [hnew] at hbody
  refine completes_controlRecord rfl hrec hres hbody rfl ⟨fun i hi => ?_, State.disturb_mem .., State.disturb_cores ..⟩
  refine (Tbl.getD_foldl_put (key := (256 * die + ·)) (fun _ _ => Nat.add_left_cancel) new _ _ i 0).trans ?_
  simp [hsel, hi]

/-- Settles O37: a load's checks find the same before and after the sweep is disturbed, and each selected entry is put at its own place. -/
theorem tableLoads : Obligations.TableLoads := ⟨segmentLoad_claim, barrierLoad_claim, groupLoad_claim⟩

end Sys2Proof.Machine
end

section
/-! # What the intake's operations leave as it is (R220, R227, R238–R246) -/

namespace Sys2Proof.Machine

/-! ## The wheel table (R220) -/

@[simp] theorem Tbl.getD_del_self {α : Type} (t : Tbl α) (n : Nat) (d : α) : (t.del n).getD n d = d := by
  simp [Tbl.getD, Tbl.get?_del_self]

theorem Tbl.getD_del_other {α : Type} (t : Tbl α) {n m : Nat} (d : α) (h : m ≠ n) : (t.del n).getD m d = t.getD m d := by
  simp [Tbl.getD, Tbl.get?_del_other t h]

theorem State.wheel_congr {s t : State} (h : t.intake.wheels = s.intake.wheels) (w : Nat) : t.wheel w = s.wheel w := by
  rw [State.wheel, h, State.wheel]

@[simp] theorem State.wheel_setWheel_reset (s : State) (w : Nat) : (s.setWheel w .reset).wheel w = .reset :=
  Tbl.getD_del_self ..

theorem State.wheel_setWheel (s : State) (w : Nat) {v : Wheel} (h : v.state ≠ 0) : (s.setWheel w v).wheel w = v := by
  simp [State.wheel, State.setWheel, h]

theorem State.wheel_setWheel_other (s : State) {w o : Nat} (v : Wheel) (h : o ≠ w) : (s.setWheel w v).wheel o = s.wheel o := by
  unfold State.wheel State.setWheel
  dsimp only
  split
  · exact Tbl.getD_del_other _ _ h
  · exact Tbl.getD_put_other _ _ _ h

theorem State.wheel_modWheel (s : State) (w : Nat) {f : Wheel → Wheel} (h : (f (s.wheel w)).state ≠ 0) :
    (s.modWheel w f).wheel w = f (s.wheel w) := s.wheel_setWheel w h

theorem State.wheel_modWheel_other (s : State) {w o : Nat} (f : Wheel → Wheel) (h : o ≠ w) : (s.modWheel w f).wheel o = s.wheel o :=
  s.wheel_setWheel_other _ h

/-- The bookkeeping of STATE and ENGINE never frees a wheel. -/
theorem Wheel.settleState_state_ne_zero {v : Wheel} (h : v.state ≠ 0) : v.settleState.state ≠ 0 := by
  unfold Wheel.settleState
  dsimp only
  split
  · exact h
  · split <;> decide

/-! ## Memory, power domains and semaphores hold no wheel and no ring -/

@[simp] theorem State.reseal_intake (s : State) (n : Nat) : (s.reseal n).intake = s.intake := by
  unfold State.reseal
  dsimp only
  split <;> rfl

@[simp] theorem State.put_intake (s : State) (a : Nat) (data : List Byte) (m : Bool) : (s.put a data m).intake = s.intake := by
  unfold State.put
  split
  · exact foldl_keeps (·.intake) State.reseal State.reseal_intake _ s
  · rfl

@[simp] theorem wakeFor_intake (l : List Nat) (s : State) : (wakeFor l s).intake = s.intake := (congrArg State.intake (wakeFor_frame l s) :)

@[simp] theorem wakeFor_host (l : List Nat) (s : State) : (wakeFor l s).host = s.host := (congrArg State.host (wakeFor_frame l s) :)

@[simp] theorem State.disturb_intake (s : State) (p : Option Nat) : (s.disturb p).intake = s.intake := by cases p <;> rfl

/-- Boundaries that become unstable are the partition's. -/
theorem State.touched_frame (s : State) (c : CoreId) : { s.touched c with parts := s.parts } = s := by
  unfold State.touched
  split
  · rfl
  · split
    · rfl
    · dsimp only
      split <;> rfl

/-- A semaphore increased changes its core and what the partition holds of its boundaries. -/
theorem State.incSem_frame (s : State) (c : CoreId) (r n : Nat) (sender : Option CoreId) (p : Place) :
    { s.incSem c r n sender p with cores := s.cores, parts := s.parts } = s := by
  have htouched (u : State) (hu : { u with cores := s.cores } = s) :
      { u.touched c with cores := s.cores, parts := s.parts } = s := by
    have h := congrArg (fun x : State => { x with cores := s.cores, parts := s.parts }) (u.touched_frame c)
    exact h.trans (congrArg (fun x : State => { x with parts := s.parts }) hu)
  unfold State.incSem
  dsimp only
  split
  · exact htouched _ rfl
  · exact htouched _ rfl

/-- A completion's signal takes a free place besides. -/
theorem State.signalDone_frame (s : State) (c : CoreId) (r : Nat) :
    { s.signalDone c r with cores := s.cores, parts := s.parts, free := s.free } = s := by
  have hinc (u : State) (p : Place) (hu : { u with free := s.free } = s) :
      { u.incSem c r 1 none p with cores := u.cores, parts := u.parts, free := s.free } = s :=
    (congrArg (fun x : State => { x with free := s.free }) (u.incSem_frame c r 1 none p)).trans hu
  unfold State.signalDone
  split
  · rfl
  · split
    · exact hinc s _ rfl
    · exact hinc s.freePlace.2 _ rfl

@[simp] theorem State.signalDone_intake (s : State) (c : CoreId) (r : Nat) : (s.signalDone c r).intake = s.intake :=
  (congrArg State.intake (s.signalDone_frame c r) :)

@[simp] theorem State.signalDone_host (s : State) (c : CoreId) (r : Nat) : (s.signalDone c r).host = s.host :=
  (congrArg State.host (s.signalDone_frame c r) :)

@[simp] theorem State.host_ite (c : Prop) [Decidable c] (a b : State) : (if c then a else b).host = if c then a.host else b.host :=
  apply_ite State.host c a b

@[simp] theorem State.cores_ite (c : Prop) [Decidable c] (a b : State) : (if c then a else b).cores = if c then a.cores else b.cores :=
  apply_ite State.cores c a b

@[simp] theorem State.wheel_put (s : State) (a : Nat) (data : List Byte) (m : Bool) (w : Nat) : (s.put a data m).wheel w = s.wheel w :=
  State.wheel_congr (by simp) w

@[simp] theorem State.wheel_saveWheel (s : State) (w o : Nat) : (s.saveWheel w).wheel o = s.wheel o := State.wheel_put ..

@[simp] theorem State.wheel_wakeFor (l : List Nat) (s : State) (w : Nat) : (wakeFor l s).wheel w = s.wheel w := State.wheel_congr (by simp) w

@[simp] theorem State.wheel_signalDone (s : State) (c : CoreId) (r w : Nat) : (s.signalDone c r).wheel w = s.wheel w := State.wheel_congr (by simp) w

@[simp] theorem State.wheel_disturb (s : State) (p : Option Nat) (w : Nat) : (s.disturb p).wheel w = s.wheel w := State.wheel_congr (by simp) w

@[simp] theorem State.wheel_useResident (s : State) (w e o : Nat) : (s.useResident w e).wheel o = s.wheel o := rfl

end Sys2Proof.Machine
end

section
/-! # Clip completions, and a wheel that settles after its work (R226, R240–R242) -/

namespace Sys2Proof.Machine

theorem State.wheel_ite (c : Prop) [Decidable c] (a b : State) (w : Nat) : (if c then a else b).wheel w = if c then a.wheel w else b.wheel w :=
  apply_ite (State.wheel · w) c a b

/-! ## A completion record (R240, R241) -/

/-- A wheel once one more of its clips has its completion record. -/
def Wheel.reported (v : Wheel) : Wheel := { v with cplIndex := v.cplIndex + 1, pendingCount := v.pendingCount - 1 }

/-- The address of a wheel's next completion record. -/
def Wheel.cplSlot (v : Wheel) : Nat := v.cplBase.toNat + 32 * (v.cplIndex.toNat % v.cplCount.toNat)

section
variable (w : Nat) (tag : BitVec 32) (c : ClipReport) (s : State)

theorem writeClip_mem : (writeClip w tag c s).mem = (s.put (s.wheel w).cplSlot (clipRecord tag c) false).mem := by
  simp [writeClip, Wheel.cplSlot]

@[simp] theorem writeClip_host : (writeClip w tag c s).host = s.host := by simp [writeClip]

theorem writeClip_wheel (h : (s.wheel w).state ≠ 0) : (writeClip w tag c s).wheel w = (s.wheel w).reported := by
  simp only [writeClip, State.wheel_disturb, State.wheel_ite, State.wheel_signalDone, ite_self]
  rw [State.wheel_modWheel _ _ (by simpa using h), State.wheel_put, Wheel.reported]

theorem writeClip_wheel_other {o : Nat} (h : o ≠ w) : (writeClip w tag c s).wheel o = s.wheel o := by
  simp only [writeClip, State.wheel_disturb, State.wheel_ite, State.wheel_signalDone, ite_self]
  rw [State.wheel_modWheel_other _ _ h, State.wheel_put]

/-- Only a recipe with a signal and without a ring reaches a core. -/
theorem writeClip_cores (h : rcRing (s.wheel w).recipe = true ∨ rcSig (s.wheel w).recipe = false) :
    (writeClip w tag c s).cores = s.cores := by
  have hsilent : (isDecode (s.wheel w).codec.toNat && !rcRing (s.wheel w).recipe && rcSig (s.wheel w).recipe) = false := by
    obtain h | h := h <;> simp [h]
  simp [writeClip, hsilent]
end

theorem endPending_host (w status : Nat) (s : State) : (endPending w status s).host = s.host :=
  (foldl_keeps (·.host) _ (fun _ _ => writeClip_host ..) _ _ :)

/-- Without pending clips only the emptied list is put in place. -/
theorem endPending_nil {w : Nat} {s : State} (status : Nat) (h : (s.wheel w).clips = []) :
    endPending w status s = s.modWheel w fun v => { v with clips := [] } := by
  unfold endPending
  dsimp only
  rw [h, List.foldl_nil]

/-! ## The clip in progress completes (R241, R242) -/

theorem finishClip_host (w : Nat) (r : ClipRun) (status : Nat) (s : State) : (finishClip w r status s).host = s.host := by
  simp only [finishClip, State.host_ite, endPending_host, State.modWheel_host, writeClip_host, ite_self]
  split <;> rfl

/-- A decoded clip that has not FAILED leaves its record, and the wheel without a clip in progress. -/
theorem finishClip_decoded {w : Nat} {r : ClipRun} {status : Nat} {s : State} (hcodec : (s.wheel w).codec.toNat < 4) (hst : status ≠ 0x08) :
    finishClip w r status s
      = (writeClip w r.clip.tag (reportOf (s.wheel w) r status 0) s).modWheel w fun v => { v with run := none } := by
  simp [finishClip, isDecode, hcodec, hst]

/-! ## The parts of `settleWheel` -/

/-- The clip in progress completes where it has ended and nothing of it waits. -/
def settleClip (w : Nat) (s : State) : State :=
  match (s.wheel w).run with
  | some r => match r.status with
    | some st => if r.ready.isEmpty then finishClip w r st s else s
    | none => s
  | none => s

/-- Between clips, a CLOSE with ABORT ends those that wait. -/
def settlePending (w : Nat) (s : State) : State :=
  if (s.wheel w).run.isNone ∧ (s.wheel w).closing = some true then endPending w 0x07 s else s

/-- A closing wheel with nothing left is freed; another shows what it does. -/
def settleEntry (w : Nat) (s : State) : State :=
  if (s.wheel w).closing.isSome ∧ (s.wheel w).run.isNone ∧ (s.wheel w).clips.isEmpty ∧ (s.wheel w).running.isEmpty then s.freeWheelEntry w
  else s.modWheel w Wheel.settleState

theorem settleWheel_eq (w : Nat) (s : State) : settleWheel w s = settleEntry w (settlePending w (settleClip w s)) := rfl

section
variable {w : Nat} {s : State}

theorem settleClip_goes (h : ∀ x, (s.wheel w).run = some x → x.status = none) : settleClip w s = s := by
  unfold settleClip
  split
  next x hx => rw [h x hx]
  next => rfl

theorem settleClip_ended {x : ClipRun} {st : Nat} (hrun : (s.wheel w).run = some x) (hst : x.status = some st) (hready : x.ready = []) :
    settleClip w s = finishClip w x st s := by
  unfold settleClip
  rw [hrun]
  dsimp only
  rw [hst, hready]
  rfl

theorem settlePending_open (h : (s.wheel w).closing = none) : settlePending w s = s := by
  rw [settlePending, h, if_neg (by simp)]

theorem settleEntry_open (h : (s.wheel w).closing = none) : settleEntry w s = s.modWheel w Wheel.settleState := by
  rw [settleEntry, h, if_neg (by simp)]

/-- A wheel that nobody closes, in the middle of a clip or between clips, only shows what it does. -/
theorem settleWheel_goes (hclosing : (s.wheel w).closing = none) (hrun : ∀ x, (s.wheel w).run = some x → x.status = none) :
    settleWheel w s = s.modWheel w Wheel.settleState := by
  rw [settleWheel_eq, settleClip_goes hrun, settlePending_open hclosing, settleEntry_open hclosing]
end

theorem settleClip_host (w : Nat) (s : State) : (settleClip w s).host = s.host := by
  unfold settleClip
  split
  · split
    · rw [State.host_ite, finishClip_host, ite_self]
    · rfl
  · rfl

@[simp] theorem freeWheelEntry_host (w : Nat) (s : State) : (s.freeWheelEntry w).host = s.host := by simp [State.freeWheelEntry]

@[simp] theorem settleWheel_host (w : Nat) (s : State) : (settleWheel w s).host = s.host := by
  rw [settleWheel_eq, settleEntry, State.host_ite, freeWheelEntry_host, State.modWheel_host, ite_self, settlePending, State.host_ite, endPending_host,
    ite_self, settleClip_host]

/-! ## A wheel freed (R220, R226) -/

@[simp] theorem freeWheelEntry_cores (w : Nat) (s : State) : (s.freeWheelEntry w).cores = s.cores := by simp [State.freeWheelEntry]

@[simp] theorem freeWheelEntry_wheel (w : Nat) (s : State) : (s.freeWheelEntry w).wheel w = .reset := by
  rw [State.freeWheelEntry, State.wheel_put]
  exact s.wheel_setWheel_reset w

theorem freeWheelEntry_wheel_other (s : State) {w o : Nat} (h : o ≠ w) : (s.freeWheelEntry w).wheel o = s.wheel o := by
  rw [State.freeWheelEntry, State.wheel_put]
  exact s.wheel_setWheel_other .reset h

/-! ## A command of the intake that is carried out (R223, R224, R343) -/

section
variable {s : State} {ring cmd p : Nat} {f0 : Option Bool} {r : BitVec 2048} (h : intakeRecord s ring cmd f0 = some (p, r))
include h

theorem intakeRecord_current : (s.ring ring).current = some r ∧ f0.all (icF0 r == ·) = true := by
  unfold intakeRecord at h
  split at h
  next hrec =>
    split at h
    next hrow =>
      cases h
      exact ⟨currentRecord_ring hrec, hrow.2⟩
    · cases h
  · cases h

/-- Its record completes from the state in which its body ends. -/
theorem completes_intakeCommand {i : Instr} {u : State} {j : Job} {body : Nat → Job → BitVec 2048 → State → State} {c : Completion}
    {P : State → Prop} (hexec : exec i s = intakeCommand ring cmd f0 body s) (hjob : (s.part p).job = some j) (hbad : badJob s ring r = false)
    (hres : (cmd != 1 && icReserved r) = false) (hbody : body p j r s = completeRecord ring c u) (hhost : u.host = s.host) (hP : P u) :
    Completes i s fun t => ∃ u, Answers ring c u t ∧ P u := by
  have hrun : intakeCommand ring cmd f0 body s = .next (body p j r s) := by
    unfold intakeCommand
    rw [h]
    dsimp only
    rw [hjob]
    dsimp only
    rw [hbad, hres, if_neg Bool.false_ne_true, if_neg Bool.false_ne_true]
  refine ⟨_, hexec.trans hrun, u, ?_, hP⟩
  rw [hbody]
  refine answers_completeRecord (rcd := r) ?_ c
  rw [State.ring_congr hhost]
  exact (intakeRecord_current h).1
end

end Sys2Proof.Machine
end

section
/-! # OPEN, FEED, CLOSE and QUERY (R220, R223–R226, R242) -/

namespace Sys2Proof.Machine

/-! ## OPEN (R220, R224, R238, R245) -/

/-- The state in which an OPEN completes: the wheel in its entry, the header of a decode wheel's ring zero, the entry written. -/
def wheelOpened (w p : Nat) (j : Job) (r : BitVec 2048) (recipe : BitVec 1024) (s : State) : State :=
  let made := s.setWheel w (openedWheel p (s.unitsOf p) j r recipe)
  (if isDecode (icCodec r) && rcRing recipe then made.put (ringAddr recipe) (zeroBytes 64) false else made).saveWheel w

theorem openWheel_eq {s : State} {p w : Nat} (h : s.freeWheel p = some w) (ring : Nat) (j : Job) (r : BitVec 2048) (recipe : BitVec 1024) :
    openWheel ring p j r recipe s = completeRecord ring { cplOk with result := w } (wheelOpened w p j r recipe s) := by
  unfold openWheel
  rw [h]
  rfl

section
variable (w p : Nat) (j : Job) (r : BitVec 2048) (recipe : BitVec 1024) (s : State)

theorem wheelOpened_host : (wheelOpened w p j r recipe s).host = s.host := by simp [wheelOpened, State.saveWheel]

theorem wheelOpened_cores : (wheelOpened w p j r recipe s).cores = s.cores := by simp [wheelOpened, State.saveWheel]

theorem wheelOpened_wheel : (wheelOpened w p j r recipe s).wheel w = openedWheel p (s.unitsOf p) j r recipe := by
  simp only [wheelOpened, State.wheel_saveWheel, State.wheel_ite, State.wheel_put, ite_self]
  exact s.wheel_setWheel w Nat.one_ne_zero

theorem wheelOpened_wheel_other {o : Nat} (h : o ≠ w) : (wheelOpened w p j r recipe s).wheel o = s.wheel o := by
  simp only [wheelOpened, State.wheel_saveWheel, State.wheel_ite, State.wheel_put, ite_self]
  exact s.wheel_setWheel_other _ h
end

section
variable {s : State} {p : Nat} {j : Job} {r : BitVec 2048} (hrefusal : openRefusal s p j r = none)
include hrefusal

/-- A decode OPEN whose recipe passes its checks opens the wheel with that recipe. -/
theorem openCommand_decode {recipe : BitVec 1024} (ring : Nat) (hcodec : icCodec r < 4)
    (hread : recipe = BitVec.ofNat 1024 ((s.seenBy (some p)).peekNat (icAddrB r) 128))
    (hcore : rcRing recipe = true ∨ rcSig recipe = true → s.corePart (rcCore recipe) = some p) (hbad : recipeBad recipe = false)
    (hclear : ∀ x ∈ s.intake.wheels, x.2.state ≠ 0 → x.2.codec.toNat < 4 → ringsOverlap x.2.recipe recipe = false) :
    openCommand ring p j r s = openWheel ring p j r recipe s := by
  have hscope : ((rcRing recipe || rcSig recipe) && s.corePart (rcCore recipe) != some p) = false := by
    rw [Bool.and_eq_false_imp, Bool.or_eq_true]
    intro h
    simp [hcore h]
  have hfree : (recipeBad recipe
      || (s.intake.wheels.map fun w => w.2).any fun w => w.state != 0 && isDecode w.codec.toNat && ringsOverlap w.recipe recipe) = false := by
    rw [hbad, Bool.false_or, List.any_map, List.any_eq_false]
    intro x hx
    simpa [isDecode] using hclear x hx
  have hdecode : isDecode (icCodec r) = true := decide_eq_true hcodec
  unfold openCommand
  rw [hrefusal]
  dsimp only
  rw [hdecode, if_pos rfl, ← hread, hscope, hfree, if_neg Bool.false_ne_true, if_neg Bool.false_ne_true]

/-- An encode OPEN whose parameters pass, with room for its working region, opens the wheel with them. -/
theorem openCommand_encode {params : BitVec 512} (ring : Nat) (hcodec : 4 ≤ icCodec r)
    (hread : params = BitVec.ofNat 512 ((s.seenBy (some p)).peekNat (icAddrB r) 64)) (hbad : encodeBad (icCodec r) params = false)
    (hroom : encodeRegion (icPar r) params ≤ 4096 * icDpbSize r) :
    openCommand ring p j r s = openWheel ring p j r (params.setWidth 1024) s := by
  have hencode : isDecode (icCodec r) = false := decide_eq_false (by omega)
  unfold openCommand
  rw [hrefusal]
  dsimp only
  rw [hencode, if_neg Bool.false_ne_true, ← hread, hbad, if_neg Bool.false_ne_true, if_neg (by omega)]
end

theorem wheelOpens_claim : Claim.WheelOpens := by
  intro ring s p r j w hrec hjob hbad hrefusal hfree recipe params made opened
  have hopened (z : BitVec 1024) : opened (wheelOpened w p j r z s) z := by
    dsimp only [opened]
    rw [wheelOpened_wheel]
    exact ⟨rfl, rfl, rfl, rfl, rfl, rfl, rfl, rfl, rfl, rfl, fun o ho => wheelOpened_wheel_other _ _ _ _ _ _ ho, wheelOpened_cores ..⟩
  have hcompletes {z : BitVec 1024} {u : State} (hu : wheelOpened w p j r z s = u) (hcmd : openCommand ring p j r s = openWheel ring p j r z s) :
      Completes (.wheelOpen ring) s fun t => ∃ u', Answers ring { cplOk with result := w } u' t ∧ opened u' z ∧ u' = u := by
    subst hu
    exact completes_intakeCommand hrec rfl hjob hbad rfl (hcmd.trans (openWheel_eq hfree ..)) (wheelOpened_host ..) ⟨hopened z, rfl⟩
  refine ⟨fun hcodec hcore hgood hclear => ?decode, fun hcodec hgood hroom => ?encode⟩
  case decode =>
    refine hcompletes ?_ (openCommand_decode hrefusal ring hcodec rfl hcore hgood hclear)
    have hdecode : isDecode (icCodec r) = true := decide_eq_true hcodec
    dsimp only [wheelOpened]
    rw [hdecode, Bool.true_and]
    by_cases hring : rcRing recipe = true
    · rw [if_pos hring, if_pos hring]; rfl
    · rw [if_neg hring, if_neg hring]
  case encode =>
    refine hcompletes ?_ (openCommand_encode hrefusal ring hcodec rfl hgood hroom)
    have hencode : isDecode (icCodec r) = false := decide_eq_false (by omega)
    dsimp only [wheelOpened]
    rw [hencode, Bool.false_and, if_neg Bool.false_ne_true]

/-! ## A wheel that a command names (R224, R226) -/

theorem usableWheel_eq_some {s : State} {p w : Nat} {v : Wheel} (h : s.usableWheel p w = some v) : s.wheel w = v ∧ v.state ≠ 0 ∧ v.state ≠ 3 := by
  unfold State.usableWheel at h
  dsimp only at h
  split at h
  · cases h
  next hok =>
    obtain ⟨hfree, hclosing, _⟩ := by simpa only [not_or] using hok
    cases h
    exact ⟨rfl, hfree, hclosing⟩

/-! ## FEED (R225, R242) -/

/-- A wheel with clips appended to its list; one stopped after an error goes on. -/
def Wheel.fed (v : Wheel) (clips : List Nat) : Wheel :=
  { v with clips := v.clips ++ clips, pendingCount := v.pendingCount + BitVec.ofNat 32 clips.length, state := if v.state = 4 then 1 else v.state }

/-- The clips of a FEED that a wheel takes are appended; nothing but the wheel changes. -/
theorem appendClips_taken {w : Nat} {resume : Bool} {s : State} {v : Wheel} (clips : List Nat) (hv : s.wheel w = v) (hused : v.state ≠ 0)
    (hgoes : v.state ≠ 4 ∨ resume = true) :
    ((appendClips w resume clips s).wheel w = v.fed clips ∧ ∀ o, o ≠ w → (appendClips w resume clips s).wheel o = s.wheel o)
      ∧ (appendClips w resume clips s).mem = s.mem ∧ (appendClips w resume clips s).cores = s.cores
      ∧ (appendClips w resume clips s).host = s.host := by
  have hput : (s.modWheel w fun v => { v with clips := v.clips ++ clips, pendingCount := v.pendingCount + BitVec.ofNat 32 clips.length }).wheel w
      = { v with clips := v.clips ++ clips, pendingCount := v.pendingCount + BitVec.ofNat 32 clips.length } := by
    rw [State.wheel_modWheel _ _ (by rwa [hv]), hv]
  unfold appendClips
  dsimp only
  rw [hput]
  by_cases hstopped : v.state = 4
  · rw [if_pos hstopped, if_pos (hgoes.resolve_left (not_not.2 hstopped))]
    refine ⟨⟨?_, fun o ho => ?_⟩, rfl, rfl, rfl⟩
    · rw [State.wheel_modWheel _ _ (by exact Nat.one_ne_zero), hput, Wheel.fed, if_pos hstopped]
    · rw [State.wheel_modWheel_other _ _ ho, State.wheel_modWheel_other _ _ ho]
  · rw [if_neg hstopped]
    refine ⟨⟨?_, fun o ho => State.wheel_modWheel_other _ _ ho⟩, rfl, rfl, rfl⟩
    rw [hput, Wheel.fed, if_neg hstopped]

/-- A FEED whose checks all pass appends its entries by their addresses. -/
theorem feedCommand_taken {s : State} {ring p : Nat} {j : Job} {r : BitVec 2048} {v : Wheel} {clips : List Nat}
    (hclips : clips = (List.range (icCount r)).map fun i => icAddrA r + 32 * i) (hwheel : s.usableWheel p (icWheel r) = some v)
    (hsome : 1 ≤ icCount r) (hmost : icCount r ≤ 4096) (hrange : s.sourceRange p (icAddrA r) (32 * icCount r) = true)
    (hentries : ∀ a ∈ clips, (if v.codec.toNat < 4 then decodeEntry v j (s.clipEntry p a) else encodeEntry s v j (s.clipEntry p a)) = none)
    (hroom : v.pendingCount.toNat + icCount r ≤ 65535) :
    feedCommand ring p j r s = completeRecord ring cplOk (appendClips (icWheel r) (icF0 r) clips s) := by
  have hfind : (clips.findSome? fun a =>
      if isDecode v.codec.toNat then decodeEntry v j (s.clipEntry p a) else encodeEntry s v j (s.clipEntry p a)) = none :=
    List.findSome?_eq_none_iff.2 fun a ha => by simpa [isDecode] using hentries a ha
  unfold feedCommand
  dsimp only
  rw [hwheel]
  dsimp only
  rw [if_neg (by omega), hrange, if_neg (by decide), ← hclips, hfind]
  dsimp only
  rw [if_neg (by omega)]

theorem feeds_claim : Claim.Feeds := by
  intro ring resume s p r j v hrec hjob hbad hres w n clips hwheel hsome hmost hrange hentries hroom hgoes
  obtain ⟨hv, hused, _⟩ := usableWheel_eq_some hwheel
  have hflag : icF0 r = resume := by simpa using (intakeRecord_current hrec).2
  have hlength : clips.length = n := by simp [clips]
  obtain ⟨⟨hfed, hothers⟩, hmem, hcores, hhost⟩ := appendClips_taken clips hv hused hgoes
  have hexec : exec (if resume then .feedResume ring else .feed ring) s = intakeCommand ring 2 (some resume) (feedCommand ring) s := by
    cases resume <;> rfl
  refine completes_intakeCommand hrec hexec hjob hbad (by simp [hres])
    (hflag ▸ feedCommand_taken rfl hwheel hsome hmost hrange hentries hroom) hhost ?_
  rw [hfed, ← hlength]
  exact ⟨rfl, rfl, rfl, rfl, hothers, hmem, hcores⟩

/-! ## CLOSE (R226) -/

/-- A wheel that closes while groups of it are on engines or wait for delivery. -/
structure Wheel.ClosingAtWork (abort : Bool) (v : Wheel) : Prop where
  state : v.state = 3
  closing : v.closing = some abort
  atWork : v.running ≠ []

/-- A change of a wheel that leaves STATE, the CLOSE it was given and its groups leaves it closing. -/
theorem Wheel.ClosingAtWork.of_fields {abort : Bool} {v v' : Wheel} (h : v.ClosingAtWork abort) (hstate : v'.state = v.state)
    (hclosing : v'.closing = v.closing) (hrunning : v'.running = v.running) : v'.ClosingAtWork abort :=
  ⟨hstate.trans h.state, hclosing.trans h.closing, hrunning ▸ h.atWork⟩

section
variable {w : Nat} {abort : Bool} {s : State} (h : (s.wheel w).ClosingAtWork abort)
include h

theorem Wheel.ClosingAtWork.modWheel {f : Wheel → Wheel} (hstate : (f (s.wheel w)).state = (s.wheel w).state)
    (hclosing : (f (s.wheel w)).closing = (s.wheel w).closing) (hrunning : (f (s.wheel w)).running = (s.wheel w).running) :
    ((s.modWheel w f).wheel w).ClosingAtWork abort := by
  rw [State.wheel_modWheel _ _ (by rw [hstate, h.state]; decide)]
  exact h.of_fields hstate hclosing hrunning

theorem Wheel.ClosingAtWork.writeClip (tag : BitVec 32) (c : ClipReport) : ((writeClip w tag c s).wheel w).ClosingAtWork abort := by
  rw [writeClip_wheel _ _ _ _ (by rw [h.state]; decide)]
  exact h.of_fields rfl rfl rfl

theorem Wheel.ClosingAtWork.endPending (status : Nat) : ((endPending w status s).wheel w).ClosingAtWork abort :=
  foldl_keeps_inv (fun s : State => (s.wheel w).ClosingAtWork abort) _ (fun _ _ hs => hs.writeClip _ _) _ (h.modWheel rfl rfl rfl)

theorem Wheel.ClosingAtWork.finishClip (r : ClipRun) (status : Nat) : ((finishClip w r status s).wheel w).ClosingAtWork abort := by
  unfold Machine.finishClip
  extract_lets v counted written settled
  have hcounted : (counted.2.wheel w).ClosingAtWork abort := by
    unfold counted
    split
    · exact h
    · exact h
  have hwritten : (written.wheel w).ClosingAtWork abort := hcounted.writeClip ..
  have hsettled : (settled.wheel w).ClosingAtWork abort := hwritten.modWheel (by simp [hwritten.state]) rfl rfl
  split
  · exact hsettled.endPending _
  · exact hsettled

theorem Wheel.ClosingAtWork.settleWheel : ((settleWheel w s).wheel w).ClosingAtWork abort := by
  have hclip : ((settleClip w s).wheel w).ClosingAtWork abort := by
    unfold settleClip
    split
    · split
      · rw [State.wheel_ite]
        split
        · exact h.finishClip ..
        · exact h
      · exact h
    · exact h
  have hpending : ((settlePending w (settleClip w s)).wheel w).ClosingAtWork abort := by
    unfold settlePending
    split
    · exact hclip.endPending _
    · exact hclip
  rw [settleWheel_eq, settleEntry, if_neg (by simp [hpending.atWork])]
  exact hpending.modWheel (by simp [Wheel.settleState, hpending.state]) rfl rfl

theorem Wheel.ClosingAtWork.flushHbm : ((flushHbm w s).wheel w).ClosingAtWork abort := by
  unfold Machine.flushHbm
  dsimp only
  split
  · exact h
  · split
    · exact h
    · exact Wheel.ClosingAtWork.modWheel
        (foldl_keeps_inv (fun s : State => (s.wheel w).ClosingAtWork abort) _ (fun _ _ hs => by simpa using hs) _ h) rfl rfl rfl
end

/-- A wheel whose clip ABORT ends, where no group of it is on an engine or waits. -/
def Wheel.abortClip (abort : Bool) (v : Wheel) : Wheel := match v.run with
  | some x => if abort ∧ x.status.isNone ∧ !v.running.any (fun g => g.seq == x.seq) then { v with run := some { x with status := some 0x07 } } else v
  | none => v

/-- It changes the clip in progress alone. -/
theorem Wheel.abortClip_eq (abort : Bool) (v : Wheel) : ∃ run, v.abortClip abort = { v with run := run } := by
  unfold Wheel.abortClip
  split
  · split
    · exact ⟨_, rfl⟩
    · exact ⟨v.run, rfl⟩
  · exact ⟨v.run, rfl⟩

theorem Wheel.abortClip_idle {abort : Bool} {v : Wheel} (h : v.run = none) : v.abortClip abort = v := by
  unfold Wheel.abortClip
  rw [h]

/-- A wheel that is to close, before its work settles. -/
def closeBegun (w : Nat) (abort : Bool) (s : State) : State :=
  (s.modWheel w fun v => { v with state := 3, closing := some abort }).modWheel w (Wheel.abortClip abort)

theorem closeBegun_wheel (w : Nat) (abort : Bool) (s : State) :
    (closeBegun w abort s).wheel w = ({ s.wheel w with state := 3, closing := some abort } : Wheel).abortClip abort := by
  obtain ⟨run, hrun⟩ := ({ s.wheel w with state := 3, closing := some abort } : Wheel).abortClip_eq abort
  have hmarked : (s.modWheel w fun v => { v with state := 3, closing := some abort }).wheel w = { s.wheel w with state := 3, closing := some abort } :=
    s.wheel_modWheel w (Nat.succ_ne_zero 2)
  rw [closeBegun, State.wheel_modWheel _ _ (by rw [hmarked, hrun]; exact Nat.succ_ne_zero 2), hmarked]

theorem closeBegun_wheel_other (abort : Bool) (s : State) {w o : Nat} (h : o ≠ w) : (closeBegun w abort s).wheel o = s.wheel o :=
  (State.wheel_modWheel_other _ _ h).trans (s.wheel_modWheel_other _ h)

theorem closeWheel_eq (w : Nat) (abort : Bool) (s : State) : closeWheel w abort s = settleWheel w (flushHbm w (closeBegun w abort s)) := rfl

theorem flushHbm_host (w : Nat) (s : State) : (flushHbm w s).host = s.host := by
  unfold flushHbm
  dsimp only
  split
  · rfl
  · rw [State.host_ite, State.modWheel_host, foldl_keeps (·.host) _ (fun s c => (wakeFor_host ..).trans (State.put_host ..)), ite_self]

theorem closeWheel_host (w : Nat) (abort : Bool) (s : State) : (closeWheel w abort s).host = s.host := by
  rw [closeWheel_eq, settleWheel_host, flushHbm_host]
  rfl

theorem flushHbm_idle {w : Nat} {s : State} (h : (s.wheel w).run = none) : flushHbm w s = s := by
  unfold flushHbm
  dsimp only
  rw [h]

/-- A wheel with groups at work stays, closing. -/
theorem closeWheel_atWork {w : Nat} {s : State} (abort : Bool) (h : (s.wheel w).running ≠ []) :
    ((closeWheel w abort s).wheel w).ClosingAtWork abort := by
  have hbegun : ((closeBegun w abort s).wheel w).ClosingAtWork abort := by
    obtain ⟨run, hrun⟩ := ({ s.wheel w with state := 3, closing := some abort } : Wheel).abortClip_eq abort
    rw [closeBegun_wheel, hrun]
    exact ⟨rfl, rfl, h⟩
  rw [closeWheel_eq]
  exact hbegun.flushHbm.settleWheel

/-- What CLOSE with ABORT does to pending clips leaves a wheel with no clip and no work as it is. -/
theorem settlePending_idle {w : Nat} {s : State} (hused : (s.wheel w).state ≠ 0) (hclips : (s.wheel w).clips = []) :
    (settlePending w s).wheel w = s.wheel w ∧ (settlePending w s).mem = s.mem ∧ (settlePending w s).cores = s.cores
      ∧ ∀ o, o ≠ w → (settlePending w s).wheel o = s.wheel o := by
  have hsame : ({ s.wheel w with clips := [] } : Wheel) = s.wheel w := by rw [← hclips]
  unfold settlePending
  split
  · rw [endPending_nil _ hclips]
    exact ⟨(s.wheel_modWheel w hused).trans hsame, rfl, rfl, fun o ho => s.wheel_modWheel_other _ ho⟩
  · exact ⟨rfl, rfl, rfl, fun _ _ => rfl⟩

/-- A wheel with nothing to do is freed; before that only the wheel itself has changed. -/
theorem closeWheel_idle {w : Nat} {s : State} (abort : Bool) (hrun : (s.wheel w).run = none) (hclips : (s.wheel w).clips = [])
    (hrunning : (s.wheel w).running = []) :
    ∃ z : State, closeWheel w abort s = z.freeWheelEntry w ∧ z.mem = s.mem ∧ z.cores = s.cores ∧ ∀ o, o ≠ w → z.wheel o = s.wheel o := by
  have hbegun : (closeBegun w abort s).wheel w = { s.wheel w with state := 3, closing := some abort } :=
    (closeBegun_wheel ..).trans (Wheel.abortClip_idle hrun)
  have hidle : ((closeBegun w abort s).wheel w).run = none := by rw [hbegun, ← hrun]
  obtain ⟨hwheel, hmem, hcores, hothers⟩ := settlePending_idle (s := closeBegun w abort s) (w := w) (by rw [hbegun]; exact Nat.succ_ne_zero 2)
    (by rw [hbegun, ← hclips])
  refine ⟨settlePending w (closeBegun w abort s), ?_, hmem, hcores, fun o ho => (hothers o ho).trans (closeBegun_wheel_other abort s ho)⟩
  rw [closeWheel_eq, flushHbm_idle hidle, settleWheel_eq, settleClip_goes (by simp [hidle]), settleEntry, hwheel, hbegun, if_pos (by simp [hrun, hclips, hrunning])]

theorem closes_claim : Claim.Closes := by
  intro ring abort s p r j v hrec hjob hbad hres w hwheel
  obtain ⟨rfl, hused, _⟩ := usableWheel_eq_some hwheel
  have hexec : exec (if abort then .closeAbort ring else .close ring) s = intakeCommand ring 3 (some abort) (closeCommand abort ring) s := by
    cases abort <;> rfl
  have hbody : closeCommand abort ring p j r s = completeRecord ring cplOk (closeWheel w abort s) := by
    unfold closeCommand
    rw [hwheel]
  refine completes_intakeCommand hrec hexec hjob hbad (by simp [hres]) hbody (closeWheel_host ..) ⟨fun hrun hclips hrunning => ?idle, fun hrunning => ?atWork⟩
  case idle =>
    obtain ⟨z, hz, hmem, hcores, hothers⟩ := closeWheel_idle abort hrun hclips hrunning
    rw [hz]
    exact ⟨freeWheelEntry_wheel .., ⟨z, rfl, hmem⟩, (freeWheelEntry_cores ..).trans hcores,
      fun o ho => (freeWheelEntry_wheel_other _ ho).trans (hothers o ho)⟩
  case atWork =>
    have hclosing := closeWheel_atWork abort hrunning
    exact ⟨hclosing.state, hclosing.closing⟩

/-! ## QUERY (R221, R226) -/

/-- A wheel with its event counters zero. -/
def Wheel.cleared (v : Wheel) : Wheel := { v with counters := Vector.replicate 10 0 }

/-- The state in which a QUERY completes. -/
def wheelQueried (clear : Bool) (w a : Nat) (s : State) : State :=
  let t := s.put a (s.boundaryContext w) false
  if clear then (t.modWheel w Wheel.cleared).put (wheelAddr w + 84) (zeroBytes 20) false else t

theorem queryCommand_answers {s : State} {ring p : Nat} {j : Job} {r : BitVec 2048} {v : Wheel} (clear : Bool)
    (hwheel : s.usableWheel p (icWheel r) = some v)
    (hrange : inJobHbm j (icAddrA r) 256 = true ∨ (spanRegion (icAddrA r) 256 = .host ∧ s.inPart (some p) (icAddrA r) 256 = true)) :
    queryCommand clear ring p j r s = completeRecord ring cplOk (wheelQueried clear (icWheel r) (icAddrA r) s) := by
  have hgranted : (inJobHbm j (icAddrA r) 256 || (spanRegion (icAddrA r) 256 == .host && s.inPart (some p) (icAddrA r) 256)) = true := by
    simpa using hrange
  unfold queryCommand
  dsimp only
  rw [hwheel]
  dsimp only
  rw [hgranted, if_neg (by decide)]
  rfl

section
variable (clear : Bool) (w a : Nat) (s : State)

theorem wheelQueried_host : (wheelQueried clear w a s).host = s.host := by simp [wheelQueried]

theorem wheelQueried_cores : (wheelQueried clear w a s).cores = s.cores := by simp [wheelQueried]

theorem wheelQueried_wheel (h : (s.wheel w).state ≠ 0) :
    (wheelQueried clear w a s).wheel w = if clear then (s.wheel w).cleared else s.wheel w := by
  rw [wheelQueried, State.wheel_ite, State.wheel_put, State.wheel_put, State.wheel_modWheel _ _ (by simpa [Wheel.cleared] using h), State.wheel_put]

theorem wheelQueried_wheel_other {o : Nat} (h : o ≠ w) : (wheelQueried clear w a s).wheel o = s.wheel o := by
  rw [wheelQueried, State.wheel_ite, State.wheel_put, State.wheel_put, State.wheel_modWheel_other _ _ h, State.wheel_put, ite_self]
end

theorem queries_claim : Claim.Queries := by
  intro ring clear s p r j v hrec hjob hbad hres w a hwheel hrange
  obtain ⟨rfl, hused, _⟩ := usableWheel_eq_some hwheel
  have hexec : exec (if clear then .queryClear ring else .query ring) s = intakeCommand ring 4 (some clear) (queryCommand clear ring) s := by
    cases clear <;> rfl
  refine completes_intakeCommand hrec hexec hjob hbad (by simp [hres]) (queryCommand_answers clear hwheel hrange) (wheelQueried_host ..)
    ⟨fun hidle => ?_, fun hbusy => ?_, ?_, wheelQueried_wheel _ _ _ _ hused, fun o ho => wheelQueried_wheel_other _ _ _ _ ho, wheelQueried_cores ..⟩
  · simp only [State.boundaryContext, hidle, List.isEmpty_nil, if_true, Wheel.entryBytes]
  · simp only [State.boundaryContext, List.isEmpty_iff, hbusy, if_false]
  · rfl

/-- Settles O44: what each command leaves of the ring lets its record complete, and of the wheels only the named one changes. -/
theorem wheelCommands : Obligations.WheelCommands := ⟨wheelOpens_claim, feeds_claim, closes_claim, queries_claim⟩

end Sys2Proof.Machine
end

section
/-! # Groups of pictures on the engines, and the damage policy (R212, R226–R229, R243, R244) -/

namespace Sys2Proof.Machine

/-! ## A wheel that begins its next clip (R221, R225) -/

/-- A clip begun takes the next entry of the list, and counts. -/
theorem State.beginClip_eq (s : State) (v : Wheel) : ∃ run clips seq, s.beginClip v = { v with run := run, clips := clips, clipSeq := seq } := by
  unfold State.beginClip
  split
  · exact ⟨_, _, _, rfl⟩
  · exact ⟨v.run, v.clips, v.clipSeq, rfl⟩

theorem State.wheelRuns_state {s : State} {v : Wheel} (h : s.wheelRuns v = true) : v.state ≠ 0 := by
  rintro hfree
  simp [State.wheelRuns, hfree] at h

/-! ## A group starts (R227, R228) -/

/-- The group of a clip that is next. -/
def ClipRun.nextGroup (x : ClipRun) (e size : Nat) : GroupRun :=
  { engine := e, seq := x.seq, start := x.clip.start.toNat, pos := x.nextAt, size := size, finished := false, fails := false, expiries := [] }

/-- A source that does not reserve the cave's pages needs none of them (R188, R218). -/
theorem sourcePages_of_no_reservation {v : Wheel} (h : v.srcRes = false) (lo hi : Nat) : sourcePages v lo hi = [] := by
  simp [sourcePages, h]

/-- Without pages to wait for, the next group is put behind the wheel's others, and its bytes are passed. -/
theorem startGroup_starts {w e : Nat} {x : ClipRun} {s : State} (hres : (s.wheel w).srcRes = false) (hwaits : (s.wheel w).cave.waits = []) :
    ∃ size lo l, 1 ≤ size ∧ startGroup w e x s = wakeFor l ((s.modWheel w fun v => { v with
      cave := (s.wheel w).cave, rapPos := lo, running := v.running ++ [x.nextGroup e size],
      run := some { x with started := x.started + 1, nextAt := x.nextAt + size } }).useResident w e) := by
  unfold startGroup
  simp only [sourcePages_of_no_reservation hres, State.gatherPages_nil, hwaits, List.isEmpty_nil, Bool.not_true, Bool.false_eq_true, if_false]
  exact ⟨_, _, _, Nat.le_max_left 1 _, rfl⟩

theorem execGroupStart_starts {w e : Nat} {s : State} {x : ClipRun} (hruns : s.wheelRuns (s.wheel w) = true) (hcodec : (s.wheel w).codec.toNat < 4)
    (hfree : s.engineFree (s.wheel w) e = true) (hring : (s.wheel w).ringFull = false) (hlimit : (s.wheel w).atWork < (s.wheel w).groupLimit)
    (hrun : (s.beginClip (s.wheel w)).run = some x) (hstatus : x.status = none) (hmore : x.started < x.clip.groups.toNat)
    (hbytes : x.started = 0 ∨ x.nextAt < (s.clipSource (s.beginClip (s.wheel w)) x.clip.start.toNat).stream.length) :
    exec (.groupStart w e) s
      = .next ((startGroup w e x (s.setWheel w (s.beginClip (s.wheel w)))).modWheel w Wheel.settleState) := by
  have hgo : (!s.wheelRuns (s.wheel w) || !isDecode (s.wheel w).codec.toNat || !s.engineFree (s.wheel w) e || (s.wheel w).ringFull
      || decide ((s.wheel w).groupLimit ≤ (s.wheel w).atWork)) = false := by
    simp [hruns, isDecode, hcodec, hfree, hring, hlimit]
  change execGroupStart w e s = _
  unfold execGroupStart
  dsimp only
  rw [hgo, if_neg Bool.false_ne_true, hrun]
  dsimp only
  have hstarts : ¬ (x.status.isSome = true ∨ x.clip.groups.toNat ≤ x.started
      ∨ 0 < x.started ∧ (s.clipSource (s.beginClip (s.wheel w)) x.clip.start.toNat).stream.length ≤ x.nextAt) := by
    rintro (h | h | ⟨h, h'⟩)
    · simp [hstatus] at h
    · omega
    · omega
  rw [if_neg hstarts]

theorem groupStarts_claim : Claim.GroupStarts := by
  intro w e s x v v' hruns hcodec hfree hring hlimit hres hwaits hrun hstatus hmore hbytes
  have hused := State.wheelRuns_state hruns
  obtain ⟨run, clips, seq, hbegin⟩ : ∃ run clips seq, v' = { v with run := run, clips := clips, clipSeq := seq } := s.beginClip_eq v
  have hbegun : (s.setWheel w v').wheel w = v' := s.wheel_setWheel w (by rw [hbegin]; exact hused)
  obtain ⟨size, lo, l, hsize, hstart⟩ := startGroup_starts (w := w) (e := e) (x := x) (s := s.setWheel w v')
    (by rw [hbegun, hbegin]; exact hres) (by rw [hbegun, hbegin]; exact hwaits)
  have hwheel : (startGroup w e x (s.setWheel w v')).wheel w = { v' with
      rapPos := lo, running := v'.running ++ [x.nextGroup e size], run := some { x with started := x.started + 1, nextAt := x.nextAt + size } } := by
    rw [hstart, State.wheel_wakeFor, State.wheel_useResident, State.wheel_modWheel _ _ (by rw [hbegun, hbegin]; exact hused), hbegun]
  have hstate : ((startGroup w e x (s.setWheel w v')).wheel w).state ≠ 0 := by rw [hwheel, hbegin]; exact hused
  refine ⟨_, execGroupStart_starts hruns hcodec hfree hring hlimit hrun hstatus hmore hbytes, ⟨x.nextGroup e size, ?_⟩, fun o ho => ?_, ?_, ?_⟩
  · rw [State.wheel_modWheel _ _ (Wheel.settleState_state_ne_zero hstate), hwheel, hbegin]
    exact ⟨rfl, rfl, rfl, rfl, rfl, hsize, rfl, rfl⟩
  · rw [State.wheel_modWheel_other _ _ ho, hstart, State.wheel_wakeFor, State.wheel_useResident, State.wheel_modWheel_other _ _ ho]
    exact s.wheel_setWheel_other _ ho
  · rw [State.modWheel_mem, hstart, wakeFor_mem]
    rfl
  · rw [State.modWheel_cores, hstart, wakeFor_cores]
    rfl

/-! ## The watchdog (R244) -/

/-- An expiry on an engine at work is noted in the group that the engine works on. -/
theorem exec_watchdogExpiry {w e : Nat} {s : State} {g : GroupRun} {rest : List GroupRun} (hused : (s.wheel w).state ≠ 0)
    (hrunning : (s.wheel w).running = g :: rest) (hworks : g.finished = false) (hengine : g.engine = e)
    (hothers : ∀ k ∈ rest, k.engine = e → k.finished = true) :
    ∃ f : Wheel → Wheel, exec (.watchdogExpiry w e) s = .next (s.modWheel w f) ∧ (f (s.wheel w)).state ≠ 0
      ∧ (f (s.wheel w)).running = { g with expiries := g.expiries ++ (s.expiryDue (s.wheel w) g).toList } :: rest := by
  have hany : (s.wheel w).running.any (fun g => g.engine == e && !g.finished) = true := by simp [hrunning, hengine, hworks]
  refine ⟨_, if_pos hany, hused, ?_⟩
  dsimp only
  rw [hrunning, List.map_cons, if_pos ⟨hengine, by simp [hworks]⟩]
  refine congrArg (_ :: ·) ((List.map_congr_left fun k hk => if_neg ?_).trans (List.map_id rest))
  rintro ⟨he, hk'⟩
  simp [hothers k hk he] at hk'

/-! ## Groups that engines finish (R217, R226, R228) -/

/-- A group as an engine leaves it: its own group is finished. -/
def GroupRun.finishedBy (e : Nat) (fails : Bool) (g : GroupRun) : GroupRun :=
  if g.engine = e ∧ !g.finished then { g with finished := true, fails := fails } else g

/-- The state in which the group of an engine is finished and its cycles are counted, and nothing is delivered yet. -/
def groupFinished (w e cycles : Nat) (fails : Bool) (s : State) : State :=
  (countBusy e cycles s).modWheel w fun v => { v with running := v.running.map (GroupRun.finishedBy e fails) }

theorem groupFinished_wheel {w : Nat} {s : State} (h : (s.wheel w).state ≠ 0) (e cycles : Nat) (fails : Bool) :
    (groupFinished w e cycles fails s).wheel w = { s.wheel w with running := (s.wheel w).running.map (GroupRun.finishedBy e fails) } :=
  State.wheel_modWheel _ _ h

theorem groupFinished_wheel_other {w o : Nat} (h : o ≠ w) (e cycles : Nat) (fails : Bool) (s : State) :
    (groupFinished w e cycles fails s).wheel o = s.wheel o := State.wheel_modWheel_other _ _ h

theorem exec_groupComplete {w e : Nat} {s : State} {g : GroupRun} (fails : Bool)
    (h : (s.wheel w).running.find? (fun g => g.engine == e && !g.finished) = some g) :
    exec (.groupComplete w e fails) s = .next (
      let t := deliverGroups w (s.wheel w).running.length
        (groupFinished w e (groupCycles (s.wheel w).codec.toNat (s.groupPictures (s.wheel w) g)) fails s)
      if (t.wheel w).state = 0 then t else settleWheel w t) := by
  change execGroupComplete w e fails s = _
  unfold execGroupComplete
  dsimp only
  have hfinished : GroupRun.finishedBy e fails = fun g => if g.engine = e ∧ !g.finished then { g with finished := true, fails := fails } else g := rfl
  rw [h]
  simp only [groupFinished, hfinished]

/-- Behind a group that is not finished nothing is delivered. -/
theorem deliverGroups_waits {w : Nat} {s : State} {g : GroupRun} {rest : List GroupRun} (hrunning : (s.wheel w).running = g :: rest)
    (hworks : g.finished = false) (fuel : Nat) : deliverGroups w fuel s = s := by
  cases fuel with
  | zero => rfl
  | succ n =>
    unfold deliverGroups
    dsimp only
    rw [hrunning]
    dsimp only
    rw [hworks]
    rfl

/-- The one group of a wheel, finished, is taken off it and delivered, and its boundary written. -/
theorem deliverGroups_delivers {w : Nat} {s : State} {g : GroupRun} {x : ClipRun} (hrunning : (s.wheel w).running = [g]) (hdone : g.finished = true)
    (hrun : (s.wheel w).run = some x) (hseq : x.seq = g.seq) (hstatus : x.status = none) (hgoes : (s.part (s.wheel w).part).held = false) :
    deliverGroups w 1 s =
      let d := s.modWheel w fun v => { v with running := [] }
      let u := settleWheel w (if g.fails then failClip w x d else deliverDecoded w x g d)
      if (u.wheel w).state = 0 then u else u.saveWheel w := by
  have htaken (f : Wheel → Wheel) : ¬ (x.seq ≠ g.seq ∨ x.status.isSome = true ∨ ((s.modWheel w f).part (s.wheel w).part).held = true) := by
    rw [State.part_congr (s.modWheel_parts w f)]
    simp [hseq, hstatus, hgoes]
  unfold deliverGroups
  dsimp only
  rw [hrunning]
  dsimp only
  rw [hdone, hrun]
  dsimp only
  rw [if_neg (by decide), if_neg (htaken _), deliverGroups]

/-- A group that is finished behind one at work is marked, and nothing else comes of it. -/
theorem exec_groupComplete_waits {w e : Nat} {s : State} {g : GroupRun} {rest : List GroupRun} (fails : Bool) (hused : (s.wheel w).state ≠ 0)
    (hrunning : (s.wheel w).running = g :: rest) (hworks : g.finished = false) (hengine : g.engine ≠ e)
    (hfinishes : ∃ k ∈ rest, k.engine = e ∧ k.finished = false) (hclosing : (s.wheel w).closing = none)
    (hgoes : ∀ x, (s.wheel w).run = some x → x.status = none) :
    ∃ cycles, exec (.groupComplete w e fails) s = .next ((groupFinished w e cycles fails s).modWheel w Wheel.settleState) := by
  obtain ⟨k, hk, hke, hkf⟩ := hfinishes
  have hsome : ((s.wheel w).running.find? fun g => g.engine == e && !g.finished).isSome :=
    List.find?_isSome.2 ⟨k, hrunning ▸ List.mem_cons_of_mem g hk, by simp [hke, hkf]⟩
  obtain ⟨h, hfind⟩ := Option.isSome_iff_exists.1 hsome
  have hexec := exec_groupComplete fails hfind
  generalize hcycles : groupCycles (s.wheel w).codec.toNat (s.groupPictures (s.wheel w) h) = cycles at hexec
  have hwheel := groupFinished_wheel hused e cycles fails
  have hhead : ((groupFinished w e cycles fails s).wheel w).running = g :: rest.map (GroupRun.finishedBy e fails) := by
    rw [hwheel]
    dsimp only
    rw [hrunning, List.map_cons, GroupRun.finishedBy, if_neg fun h => hengine h.1]
  rw [deliverGroups_waits hhead hworks] at hexec
  dsimp only at hexec
  rw [if_neg (by rwa [hwheel]), settleWheel_goes (by rw [hwheel]; exact hclosing) (by rw [hwheel]; exact hgoes)] at hexec
  exact ⟨cycles, hexec⟩

/-- The one group of a wheel is finished and delivered: the state after its boundary, settled again unless the wheel was freed. -/
theorem exec_groupComplete_delivers {w e : Nat} {s : State} {g : GroupRun} {x : ClipRun} (fails : Bool) (hused : (s.wheel w).state ≠ 0)
    (hrunning : (s.wheel w).running = [g]) (hworks : g.finished = false) (hengine : g.engine = e) (hrun : (s.wheel w).run = some x)
    (hseq : x.seq = g.seq) (hstatus : x.status = none) (hheld : (s.part (s.wheel w).part).held = false) :
    let g' : GroupRun := { g with finished := true, fails := fails }
    let z := countBusy e (groupCycles (s.wheel w).codec.toNat (s.groupPictures (s.wheel w) g)) s
    let d := (z.modWheel w fun v => { v with running := [g'] }).modWheel w fun v => { v with running := [] }
    let u := settleWheel w (if fails then failClip w x d else deliverDecoded w x g' d)
    exec (.groupComplete w e fails) s = .next (if (u.wheel w).state = 0 then u else settleWheel w (u.saveWheel w)) := by
  intro g' z d u
  have hfind : (s.wheel w).running.find? (fun g => g.engine == e && !g.finished) = some g := by simp [hrunning, hengine, hworks]
  have hdone : groupFinished w e (groupCycles (s.wheel w).codec.toNat (s.groupPictures (s.wheel w) g)) fails s
      = z.modWheel w fun v => { v with running := [g'] } := by
    have hmap : (s.wheel w).running.map (GroupRun.finishedBy e fails) = [g'] := by
      rw [hrunning, List.map_singleton, GroupRun.finishedBy, if_pos ⟨hengine, by simp [hworks]⟩]
    rw [← hmap]
    rfl
  have hwheel : (z.modWheel w fun v => { v with running := [g'] }).wheel w = { s.wheel w with running := [g'] } := State.wheel_modWheel _ _ hused
  rw [exec_groupComplete fails hfind, hdone, hrunning, List.length_singleton, deliverGroups_delivers (x := x) (g := g') (by rw [hwheel]) rfl
    (by rw [hwheel]; exact hrun) hseq hstatus (by rw [hwheel]; exact hheld)]
  change Host.Outcome.next (let t := if (u.wheel w).state = 0 then u else u.saveWheel w; if (t.wheel w).state = 0 then t else settleWheel w t) = _
  dsimp only
  by_cases hfree : (u.wheel w).state = 0
  · rw [if_pos hfree, if_pos hfree, if_pos hfree]
  · rw [if_neg hfree, if_neg hfree, State.wheel_saveWheel, if_neg hfree]

theorem groupProgress_claim : Claim.GroupProgress := by
  intro w e fails s g rest hused hrunning hworks
  refine ⟨fun hengine hothers => ?expires, fun hengine hfinishes hclosing hgoes => ?waits, fun hengine hone x hrun hseq hstatus hheld => ?delivers⟩
  case expires =>
    obtain ⟨f, hexec, hstate, hf⟩ := exec_watchdogExpiry hused hrunning hworks hengine hothers
    exact ⟨_, hexec, (congrArg Wheel.running (s.wheel_modWheel w hstate)).trans hf, fun o ho => s.wheel_modWheel_other f ho, rfl, rfl⟩
  case waits =>
    obtain ⟨cycles, hexec⟩ := exec_groupComplete_waits fails hused hrunning hworks hengine hfinishes hclosing hgoes
    have hwheel := groupFinished_wheel hused e cycles fails
    have hsettled := State.wheel_modWheel (groupFinished w e cycles fails s) w (Wheel.settleState_state_ne_zero (by rwa [hwheel]))
    refine ⟨_, hexec, ?_, ?_, fun o ho => ?_, rfl, rfl⟩
    · rw [hsettled, hwheel]
      simp [Wheel.settleState, hrunning, GroupRun.finishedBy, hengine]
    · rw [hsettled, hwheel]
      rfl
    · rw [State.wheel_modWheel_other _ _ ho, groupFinished_wheel_other ho]
  case delivers =>
    subst hone
    exact ⟨_, exec_groupComplete_delivers fails hused hrunning hworks hengine hrun hseq hstatus hheld, rfl⟩

/-! ## Damage (R229, R243) -/

/-- The tubelets of a step leave what a clip's pictures have counted. -/
theorem closeStep_counts (r : BitVec 1024) (x : ClipRun) :
    (closeStep r x).outputs = x.outputs ∧ (closeStep r x).pictures = x.pictures ∧ (closeStep r x).events = x.events
      ∧ (closeStep r x).degraded = x.degraded ∧ (closeStep r x).status = x.status := by
  unfold closeStep
  split <;> exact ⟨rfl, rfl, rfl, rfl, rfl⟩

/-- An output picture counts as one output, whether it is kept or not. -/
theorem outputPicture_counts (r : BitVec 1024) (affected : Bool) (i : Config.StreamInfo) (planes : List (List (List Nat))) (x : ClipRun) :
    (outputPicture r affected i planes x).outputs = x.outputs + 1 ∧ (outputPicture r affected i planes x).pictures = x.pictures
      ∧ (outputPicture r affected i planes x).events = x.events ∧ (outputPicture r affected i planes x).degraded = x.degraded
      ∧ (outputPicture r affected i planes x).status = x.status := by
  unfold outputPicture
  dsimp only
  split
  · exact closeStep_counts ..
  · exact ⟨rfl, rfl, rfl, rfl, rfl⟩

/-- A damaged picture of a group that goes on: it counts, and the wheel's POLICY makes the rest of it. -/
def GroupWork.damaged (v : Wheel) (g : GroupWork) (o : OutPicture) : GroupWork :=
  let l := o.causes.filter (· != 0)
  let x := { g.run with pictures := g.run.pictures + o.causes.length, events := g.run.events + l.length, grain := g.run.grain || o.info.grain, degraded := true }
  let bumps := g.bumps ++ l.filterMap causeCounter
  let copy := x.last.getD (o.info, greyPicture o)
  match v.policy.toNat with
  | 0 => { g with run := outputPicture v.recipe true copy.1 copy.2 x, bumps := bumps ++ [6] }
  | 1 => { g with run := x, bumps := bumps ++ [7], skipping := true }
  | _ => { g with run := { x with status := some 0x02 }, bumps := bumps ++ [8], stopped := true }

theorem takePicture_damaged (v : Wheel) {g : GroupWork} {o : OutPicture} (hstopped : g.stopped = false) (hskipping : g.skipping = false)
    (hdamaged : o.damaged = true) : takePicture v g o = g.damaged v o := by
  unfold takePicture
  rw [if_neg (by simp [hstopped])]
  dsimp only
  rw [if_neg (by simp [hskipping]), if_neg (by simp [hdamaged])]
  rfl

theorem damagePolicy_claim : Claim.DamagePolicy := by
  intro v g o hstopped hskipping hdamaged
  dsimp only
  rw [takePicture_damaged v hstopped hskipping hdamaged]
  unfold GroupWork.damaged
  dsimp only
  split
  next hconceals =>
    obtain ⟨houtputs, hpictures, hevents, hdegraded, hstatus⟩ := outputPicture_counts v.recipe true _ _ _
    exact ⟨hevents, hpictures, hdegraded, fun _ => ⟨rfl, houtputs, hskipping, hstopped, hstatus⟩, fun h => by simp [h] at hconceals,
      fun h => by simp [h] at hconceals⟩
  next hskips =>
    exact ⟨rfl, rfl, rfl, fun h => by simp [h] at hskips, fun _ => ⟨rfl, rfl, hstopped, rfl⟩, fun h => by simp [h] at hskips⟩
  next hnot hnot' =>
    exact ⟨rfl, rfl, rfl, fun h => absurd (by simp [h]) hnot, fun h => absurd (by simp [h]) hnot', fun _ => ⟨rfl, rfl, rfl, rfl⟩⟩

/-- Settles O45: a wheel's groups change in its own entry alone until the first of them, finished, is delivered. -/
theorem wheelGroups : Obligations.WheelGroups := ⟨groupStarts_claim, groupProgress_claim, damagePolicy_claim⟩

end Sys2Proof.Machine
end

section
/-! # Ring slots, CONSUMED, clip completions and encoded groups (R238–R242, R245, R246) -/

namespace Sys2Proof.Machine

/-! ## The header of a slot (R238) -/

theorem leNat_leBytes (n v : Nat) : leNat (leBytes n v) = v % 256 ^ n := by
  induction n generalizing v with
  | zero => rw [Nat.pow_zero, Nat.mod_one]; rfl
  | succ n ih => rw [leBytes, leNat, ih, BitVec.toNat_ofNat, Nat.pow_succ' (m := 256), Nat.mod_mul (a := 256)]

theorem slotHeader_fields (tag seq : BitVec 32) (first count : Nat) (isLast degraded : Bool) :
    let n := leNat (slotHeader tag seq first count isLast degraded)
    n % 2 ^ 32 = tag.toNat ∧ n / 2 ^ 32 % 2 ^ 32 = seq.toNat ∧ n / 2 ^ 96 % 2 ^ 16 = count % 2 ^ 16 ∧ n / 2 ^ 64 % 2 ^ 32 = first % 2 ^ 32 := by
  have hflags : ∃ f < 4, (if isLast then 2 ^ 112 else 0) + (if degraded then 2 ^ 113 else 0) = f * 2 ^ 112 := by
    cases isLast <;> cases degraded
    exacts [⟨0, by decide⟩, ⟨2, by decide⟩, ⟨1, by decide⟩, ⟨3, by decide⟩]
  obtain ⟨f, hf, hflags⟩ := hflags
  have htag := tag.isLt
  have hseq := seq.isLt
  dsimp only
  rw [slotHeader, leNat_leBytes, Nat.add_assoc _ (if isLast then _ else _), hflags, Nat.mod_eq_of_lt (b := 256 ^ 64) (by omega)]
  omega

/-! ## A slot written (R238, R239, R278) -/

theorem State.readS_signalDone {s : State} {c : CoreId} {r : Nat} (hr : r < 32) (h : (s.core c).flight.resetting = false) :
    (((s.signalDone c r).core c).regs.readS r).toNat = min 65535 (((s.core c).regs.readS r).toNat + 1) := by
  obtain ⟨u, p, _, hcore, hsignal⟩ := State.signalDone_eq r h
  rw [hsignal, State.readS_incSem _ _ _ _ hr, hcore]

/-- The address of a wheel's next slot. -/
def Wheel.slotAddr (v : Wheel) : Nat := ringAddr v.recipe + 0x40 + v.produced.toNat % rcSlots v.recipe * rcSlotBytes v.recipe

/-- The index of the first of a list of tubelets. -/
def firstIndex : List Tubelet → Nat
  | t :: _ => t.index
  | [] => 0

/-- A slot's bytes and PRODUCED, as they are stored before the wheel counts the slot. -/
def slotStored (w : Nat) (x : ClipRun) (l rest : List Tubelet) (s : State) : State :=
  let v := s.wheel w
  let isLast := x.status.isSome && rest.isEmpty
  let header := slotHeader x.clip.tag x.seq (firstIndex l) l.length isLast (l.any (·.affected) || (isLast && x.status == some 0x02))
  ((s.put (v.slotAddr + 64) (layoutGroup v.recipe (l.map (·.bytes))) false).put v.slotAddr header false).put (ringAddr v.recipe + 4)
    (leBytes 4 (v.produced + 1).toNat) false

theorem writeSlot_eq (w : Nat) (x : ClipRun) (l rest : List Tubelet) (s : State) :
    writeSlot w x l rest s = ((wakeFor (inboundDomains (ringAddr (s.wheel w).recipe)) (slotStored w x l rest s)).modWheel w fun v =>
      { v with produced := v.produced + 1, run := some { x with ready := rest, written := x.written + l.length } }).signalDone
        (rcCore (s.wheel w).recipe) (rcSem (s.wheel w).recipe) := by
  cases l <;> rfl

section
variable {w : Nat} {x : ClipRun} {l rest : List Tubelet} {s : State}

theorem slotStored_cores : (slotStored w x l rest s).cores = s.cores := by simp [slotStored]

theorem slotStored_wheel (o : Nat) : (slotStored w x l rest s).wheel o = s.wheel o := by simp [slotStored]

theorem writeSlot_mem : (writeSlot w x l rest s).mem = (slotStored w x l rest s).mem := by
  rw [writeSlot_eq, State.signalDone_mem, State.modWheel_mem, wakeFor_mem]

theorem writeSlot_produced (h : (s.wheel w).state ≠ 0) : ((writeSlot w x l rest s).wheel w).produced = (s.wheel w).produced + 1 := by
  rw [writeSlot_eq, State.wheel_signalDone, State.wheel_modWheel _ _ (by rwa [State.wheel_wakeFor, slotStored_wheel]), State.wheel_wakeFor,
    slotStored_wheel]

/-- The core's semaphore after a slot. -/
theorem writeSlot_sem (h : (s.core (rcCore (s.wheel w).recipe)).flight.resetting = false) :
    let c := rcCore (s.wheel w).recipe
    let r := rcSem (s.wheel w).recipe
    (((writeSlot w x l rest s).core c).regs.readS r).toNat = min 65535 (((s.core c).regs.readS r).toNat + 1) := by
  have hcore (c : CoreId) (f : Wheel → Wheel) (d : List Nat) : ((wakeFor d (slotStored w x l rest s)).modWheel w f).core c = s.core c :=
    State.core_congr ((wakeFor_cores ..).trans slotStored_cores) c
  have hsem : rcSem (s.wheel w).recipe < 32 := field_lt ..
  dsimp only
  rw [writeSlot_eq, State.readS_signalDone hsem (by rwa [hcore]), hcore]
end

theorem exec_slotWrite {w : Nat} {s : State} {x : ClipRun} (hrun : (s.wheel w).run = some x) (hring : rcRing (s.wheel w).recipe = true)
    (hroom : (s.wheel w).ringFull = false) (hready : x.ready ≠ []) (hgoes : (s.part (s.wheel w).part).held = false)
    (hknown : x.status.isSome = true ∨ rcRows (s.wheel w).recipe < x.ready.length) :
    exec (.slotWrite w) s = .next (settleWheel w
      (writeSlot w x (x.ready.take (rcRows (s.wheel w).recipe)) (x.ready.drop (rcRows (s.wheel w).recipe)) s)) := by
  have hgo : (!rcRing (s.wheel w).recipe || (s.wheel w).ringFull || x.ready.isEmpty || (s.part (s.wheel w).part).held
      || (x.status.isNone && decide (x.ready.length ≤ rcRows (s.wheel w).recipe))) = false := by
    have hnone : (x.status.isNone && decide (x.ready.length ≤ rcRows (s.wheel w).recipe)) = false := by
      obtain h | h := hknown
      · rw [Option.isNone_eq_false_iff.2 h, Bool.false_and]
      · rw [decide_eq_false (by omega), Bool.and_false]
    simp [hring, hroom, hready, hgoes, hnone]
  change execSlotWrite w s = _
  unfold execSlotWrite
  dsimp only
  rw [hrun]
  dsimp only
  rw [hgo, if_neg Bool.false_ne_true]

theorem slotWrites_claim : Claim.SlotWrites := by
  intro w s x v r hused hrun hring hroom hready hgoes hknown l a
  obtain ⟨htag, hseq, hcount, hindex⟩ := slotHeader_fields x.clip.tag x.seq (firstIndex l) l.length
    (x.status.isSome && (x.ready.drop (rcRows r)).isEmpty)
    (l.any (·.affected) || ((x.status.isSome && (x.ready.drop (rcRows r)).isEmpty) && x.status == some 0x02))
  refine ⟨_, exec_slotWrite hrun hring hroom hready hgoes hknown, _, _, rfl, writeSlot_mem, length_leBytes .., htag, hseq, hcount,
    fun y hy => ?_, writeSlot_produced hused, writeSlot_sem⟩
  obtain ⟨k, hl⟩ := List.head?_eq_some_iff.1 hy
  rw [hindex, hl, firstIndex]

/-! ## CONSUMED read again (R239) -/

theorem consumedReread_claim : Claim.ConsumedReread := by
  intro w s v hused hcodec hring
  have hexec : exec (.consumedReread w) s
      = .next (s.modWheel w fun v => { v with consumed := BitVec.ofNat 32 (s.peekNat (ringAddr v.recipe) 4) }) :=
    congrArg Host.Outcome.next (if_pos ⟨hused, by simpa [isDecode] using hcodec, hring⟩)
  exact ⟨_, hexec, s.wheel_modWheel w hused, fun o ho => s.wheel_modWheel_other _ ho, rfl, rfl⟩

/-! ## A clip completes (R240, R241) -/

theorem clipCompletion_claim : Claim.ClipCompletion := by
  intro w s x st v hused hrun hstatus hst hready hclosing hcodec t a c
  have hreport : reportOf v x st 0 = c := by
    simp [reportOf, isDecode, hcodec, c]
  let z := writeClip w x.clip.tag c s
  have hz : z.wheel w = v.reported := writeClip_wheel _ _ _ _ hused
  have hdone : (z.modWheel w fun v => { v with run := none }).wheel w = { v.reported with run := none } := by
    rw [State.wheel_modWheel _ _ (by rw [hz]; exact hused), hz]
  have ht : t = (z.modWheel w fun v => { v with run := none }).modWheel w Wheel.settleState := by
    have hopen : ((z.modWheel w fun v => { v with run := none }).wheel w).closing = none := by rw [hdone]; exact hclosing
    change settleWheel w s = _
    rw [settleWheel_eq, settleClip_ended hrun hstatus hready, finishClip_decoded hcodec hst, hreport, settlePending_open hopen, settleEntry_open hopen]
  have hwheel : t.wheel w = ({ v.reported with run := none } : Wheel).settleState := by
    rw [ht, State.wheel_modWheel _ _ (Wheel.settleState_state_ne_zero (by rw [hdone]; exact hused)), hdone]
  refine ⟨?_, ?_, ?_, ?_, ?_, fun o ho => ?_, fun hsilent => ?_⟩
  · rw [ht]
    exact writeClip_mem ..
  · rw [hwheel]; rfl
  · rw [hwheel]; rfl
  · rw [hwheel]; rfl
  · rw [hwheel]; rfl
  · rw [ht, State.wheel_modWheel_other _ _ ho, State.wheel_modWheel_other _ _ ho]
    exact writeClip_wheel_other _ _ _ _ ho
  · rw [ht]
    exact writeClip_cores _ _ _ _ hsilent

/-! ## An encode wheel's next GOP (R241, R242, R245, R246) -/

/-- The encode parameters of a wheel. -/
def Wheel.encodeParams (v : Wheel) : BitVec 512 := v.recipe.setWidth 512

/-- The number of pictures of a clip's next GOP. -/
def Wheel.gopLength (v : Wheel) (x : ClipRun) : Nat := min (field v.encodeParams 80 16) (x.clip.groups.toNat - x.pictures)

/-- The input pictures of a clip's next GOP, each with whether it is poisoned. -/
def State.gopInput (s : State) (v : Wheel) (x : ClipRun) : List (List Byte × Bool) :=
  (List.range (v.gopLength x)).map fun i =>
    (s.seenBy (some v.part)).fetch (x.clip.start.toNat + (x.pictures + i) * x.clip.frames.toNat) (inputBytes v.encodeParams)

/-- How many of them are poisoned. -/
def State.gopPoisoned (s : State) (v : Wheel) (x : ClipRun) : Nat := ((s.gopInput v x).filter (·.2)).length

/-- The coded pictures of a clip's next GOP. -/
def State.gopPictures (s : State) (v : Wheel) (x : ClipRun) : List (List Byte) :=
  Config.encodeGop v.codec.toNat v.encodeParams ((s.gopInput v x).map fun i => inputPicture v.encodeParams i.1)

/-- The cycles and the poisoned pictures of a GOP counted. -/
def State.gopCounted (s : State) (w e : Nat) (v : Wheel) (x : ClipRun) : State :=
  countWheel w 4 (s.gopPoisoned v x) (countBusy e (((s.gopPictures v x).map fun b =>
    max (2 * (field v.encodeParams 0 16 * field v.encodeParams 16 16)) (4 * b.length)).foldl (· + ·) 0) s)

/-- A clip after a GOP of n pictures: its bytes go behind those before, or would pass the end of the buffer. -/
def ClipRun.coded (x : ClipRun) (n bad : Nat) (out : List Byte) : ClipRun :=
  if x.clip.skip.toNat < x.written + out.length then { x with events := x.events + bad, status := some 0x06 }
  else { x with events := x.events + bad, pictures := x.pictures + n, written := x.written + out.length, groupsDone := x.groupsDone + 1 }

/-- The bytes of a GOP stored, where they fit. -/
def gopStored (y : ClipRun) (out : List Byte) (s : State) : State :=
  if y.status.isSome then s else wakeFor (inboundDomains y.clip.dest.toNat) (s.put (y.clip.dest.toNat + (y.written - out.length)) out false)

/-- The status with which a clip ends after a GOP, if it does. -/
def ClipRun.codedStatus (y : ClipRun) : Option Nat :=
  if y.status.isSome then y.status else if y.pictures = y.clip.groups.toNat then some (if 0 < y.events then 0x01 else 0x00) else none

/-- The clip in progress of an encode wheel after its next GOP. -/
def State.gopRun (s : State) (v : Wheel) (x : ClipRun) : ClipRun := x.coded (v.gopLength x) (s.gopPoisoned v x) (s.gopPictures v x).flatten

theorem encodeNext_eq (w e : Nat) (x : ClipRun) (s : State) : ∃ pos : Word,
    encodeNext w e x s = ((gopStored (s.gopRun (s.wheel w) x) (s.gopPictures (s.wheel w) x).flatten (s.gopCounted w e (s.wheel w) x)).modWheel w
      fun v => { v with
        run := some { s.gopRun (s.wheel w) x with status := (s.gopRun (s.wheel w) x).codedStatus }, pos := pos, stateNo := v.stateNo + 1 }).useResident w e :=
  ⟨_, rfl⟩

section
variable {x : ClipRun} {n bad : Nat} {out : List Byte}

theorem ClipRun.coded_events : (x.coded n bad out).events = x.events + bad := by
  unfold ClipRun.coded
  split <;> rfl

theorem ClipRun.coded_full (h : x.clip.skip.toNat < x.written + out.length) :
    x.coded n bad out = { x with events := x.events + bad, status := some 0x06 } := if_pos h

theorem ClipRun.coded_fits (h : ¬ x.clip.skip.toNat < x.written + out.length) :
    x.coded n bad out = { x with
      events := x.events + bad, pictures := x.pictures + n, written := x.written + out.length, groupsDone := x.groupsDone + 1 } := if_neg h

theorem gopStored_full {s : State} (h : x.clip.skip.toNat < x.written + out.length) : gopStored (x.coded n bad out) out s = s := by
  rw [ClipRun.coded_full h]
  rfl

theorem gopStored_fits {s : State} (hstatus : x.status = none) (h : ¬ x.clip.skip.toNat < x.written + out.length) :
    (gopStored (x.coded n bad out) out s).mem = (s.put (x.clip.dest.toNat + x.written) out false).mem := by
  rw [ClipRun.coded_fits h, gopStored, if_neg (by simp [hstatus]), wakeFor_mem]
  dsimp only
  rw [Nat.add_sub_cancel]
end

@[simp] theorem gopStored_cores (y : ClipRun) (out : List Byte) (s : State) : (gopStored y out s).cores = s.cores := by simp [gopStored]

@[simp] theorem gopStored_wheel (y : ClipRun) (out : List Byte) (s : State) (w : Nat) : (gopStored y out s).wheel w = s.wheel w := by
  simp [gopStored, State.wheel_ite]

/-- An event that is counted changes the wheel's counters alone. -/
theorem countWheel_wheel {s : State} {w : Nat} (n k : Nat) (h : (s.wheel w).state ≠ 0) :
    ∃ counters, (countWheel w n k s).wheel w = { s.wheel w with counters := counters } := by
  have hmod (f : Wheel → Vector (BitVec 16) 10) :
      (s.modWheel w fun v => { v with counters := f v }).wheel w = { s.wheel w with counters := f (s.wheel w) } := s.wheel_modWheel w h
  exact ⟨_, hmod fun v => v.counters.setIfInBounds n (BitVec.ofNat 16 (min 0xFFFF (((v.counters[n]?).getD 0).toNat + k)))⟩

theorem gopCounted_state {s : State} {w : Nat} (e : Nat) (v : Wheel) (x : ClipRun) (h : (s.wheel w).state ≠ 0) :
    ((s.gopCounted w e v x).wheel w).state ≠ 0 := by
  obtain ⟨counters, hcounted⟩ := countWheel_wheel (s := countBusy e _ s) 4 (s.gopPoisoned v x) h
  rw [State.gopCounted, hcounted]
  exact h

section
variable {w e : Nat} {x : ClipRun} {s : State}

theorem encodeNext_cores : (encodeNext w e x s).cores = s.cores := by
  obtain ⟨pos, heq⟩ := encodeNext_eq w e x s
  rw [heq]
  exact gopStored_cores ..

theorem encodeNext_mem : (encodeNext w e x s).mem
    = (gopStored (s.gopRun (s.wheel w) x) (s.gopPictures (s.wheel w) x).flatten (s.gopCounted w e (s.wheel w) x)).mem := by
  obtain ⟨pos, heq⟩ := encodeNext_eq w e x s
  rw [heq]
  rfl

theorem encodeNext_run (h : (s.wheel w).state ≠ 0) : ((encodeNext w e x s).wheel w).run
    = some { s.gopRun (s.wheel w) x with status := (s.gopRun (s.wheel w) x).codedStatus } := by
  obtain ⟨pos, heq⟩ := encodeNext_eq w e x s
  rw [heq, State.wheel_useResident, State.wheel_modWheel _ _ (by rw [gopStored_wheel]; exact gopCounted_state e _ x h)]
end

/-- A failed destination ends the clip, and writes nothing. -/
theorem failClip_run {w : Nat} {s : State} (x : ClipRun) (h : (s.wheel w).state ≠ 0) :
    ((failClip w x s).wheel w).run = some { x with groupsDone := x.groupsDone + 1, ready := [], status := some 0x08 } := by
  have hlogged (l : ErrorEvent) : (s.logError l).wheel w = s.wheel w := State.wheel_congr (by simp) w
  unfold failClip
  dsimp only
  rw [State.wheel_modWheel _ _ (by rwa [hlogged])]

theorem failClip_cores (w : Nat) (x : ClipRun) (s : State) : (failClip w x s).cores = s.cores := by simp [failClip]

theorem exec_encodeGop {w e : Nat} {s : State} {x : ClipRun} (fails : Bool) (hruns : s.wheelRuns (s.wheel w) = true)
    (hcodec : ¬ (s.wheel w).codec.toNat < 4) (hfree : s.engineFree (s.wheel w) e = true) (hrun : (s.beginClip (s.wheel w)).run = some x) :
    exec (.encodeGop w e fails) s = .next (
      let z := s.setWheel w (s.beginClip (s.wheel w))
      let q := settleWheel w (if fails then failClip w x z else encodeNext w e x z)
      if (q.wheel w).state = 0 then q else q.saveWheel w) := by
  have hgo : (!s.wheelRuns (s.wheel w) || isDecode (s.wheel w).codec.toNat || !s.engineFree (s.wheel w) e) = false := by
    simp [hruns, isDecode, hfree, Nat.le_of_not_lt hcodec]
  change execEncodeGop w e fails s = _
  unfold execEncodeGop
  dsimp only
  rw [hgo, if_neg Bool.false_ne_true, hrun]

theorem encodesGop_claim : Claim.EncodesGop := by
  intro w e fails s x v hruns hcodec hfree hrun hstatus params n z input bad pics out cycles counted
  have hused := State.wheelRuns_state hruns
  obtain ⟨run, clips, seq, hbegin⟩ := s.beginClip_eq v
  have hz : z.wheel w = { v with run := run, clips := clips, clipSeq := seq } := by
    have hset : z.wheel w = s.beginClip v := s.wheel_setWheel w (by rw [hbegin]; exact hused)
    rw [hset, hbegin]
  have hstate : (z.wheel w).state ≠ 0 := by rw [hz]; exact hused
  have hexec := exec_encodeGop fails hruns hcodec hfree hrun
  cases fails with
  | true => exact ⟨_, hexec, _, _, rfl, failClip_run x hstate, failClip_cores w x z, rfl, failClip_mem w x z, rfl⟩
  | false =>
    have hpics : (z.gopPictures (z.wheel w) x).flatten = out := by rw [hz]; rfl
    have hbad : z.gopPoisoned (z.wheel w) x = bad := by rw [hz]; rfl
    have hlength : (z.wheel w).gopLength x = n := by rw [hz]; rfl
    have hcounted : z.gopCounted w e (z.wheel w) x = counted := by rw [hz]; rfl
    have hmem := encodeNext_mem (w := w) (e := e) (x := x) (s := z)
    have hy := encodeNext_run (e := e) (x := x) hstate
    rw [State.gopRun, hpics, hbad, hlength] at hmem hy
    rw [hcounted] at hmem
    refine ⟨_, hexec, encodeNext w e x z, _, rfl, hy, encodeNext_cores, ClipRun.coded_events, ?_⟩
    by_cases hfull : x.clip.skip.toNat < x.written + out.length
    · rw [if_pos hfull, hmem, gopStored_full hfull, ClipRun.coded_full hfull]
      exact ⟨rfl, rfl, rfl⟩
    · rw [if_neg hfull, hmem, gopStored_fits hstatus hfull, ClipRun.coded_fits hfull]
      exact ⟨rfl, rfl, rfl, rfl⟩

/-- Settles O46: a slot, a read of CONSUMED, a completion record and a GOP each write the bytes the model names, and end or go on with their own clip. -/
theorem wheelOutputs : Obligations.WheelOutputs := ⟨slotWrites_claim, consumedReread_claim, clipCompletion_claim, encodesGop_claim⟩

end Sys2Proof.Machine
end

section
/-! # Press units: an entry taken and a descriptor completed (R248, R253–R257) -/

namespace Sys2Proof.Machine

/-! ## What writes of bytes, wakes and signals leave of the press units and the layout -/

/-- A sector put under another key changes memory and its seal. -/
theorem State.reseal_frame (s : State) (n : Nat) : { s.reseal n with mem := s.mem, sealed := s.sealed } = s := by
  unfold State.reseal
  dsimp only
  split <;> rfl

@[simp] theorem State.reseal_press (s : State) (n : Nat) : (s.reseal n).press = s.press := (congrArg State.press (s.reseal_frame n) :)
@[simp] theorem State.reseal_fabric (s : State) (n : Nat) : (s.reseal n).fabric = s.fabric := (congrArg State.fabric (s.reseal_frame n) :)
@[simp] theorem State.reseal_rtp (s : State) (n : Nat) : (s.reseal n).rtp = s.rtp := (congrArg State.rtp (s.reseal_frame n) :)

/-- What sectors and stores leave, bytes put leave. -/
theorem State.put_keeps {β : Type} (g : State → β) (hseal : ∀ s n, g (State.reseal s n) = g s) (hstore : ∀ s a l m, g (State.store s a l m) = g s)
    (s : State) (a : Nat) (data : List Byte) (m : Bool) : g (s.put a data m) = g s := by
  unfold State.put
  rw [hstore]
  split
  · exact foldl_keeps g State.reseal hseal _ s
  · rfl

section
variable (s : State) (a : Nat) (data : List Byte) (m : Bool)

@[simp] theorem State.put_press : (s.put a data m).press = s.press := State.put_keeps (·.press) reseal_press (fun _ _ _ _ => rfl) s a data m
@[simp] theorem State.put_fabric : (s.put a data m).fabric = s.fabric := State.put_keeps (·.fabric) reseal_fabric (fun _ _ _ _ => rfl) s a data m
@[simp] theorem State.put_rtp : (s.put a data m).rtp = s.rtp := State.put_keeps (·.rtp) reseal_rtp (fun _ _ _ _ => rfl) s a data m
end

@[simp] theorem wakeFor_press (l : List Nat) (s : State) : (wakeFor l s).press = s.press := (congrArg State.press (wakeFor_frame l s) :)

@[simp] theorem State.signalDone_press (s : State) (c : CoreId) (r : Nat) : (s.signalDone c r).press = s.press :=
  (congrArg State.press (s.signalDone_frame c r) :)

@[simp] theorem State.disturb_press (s : State) (p : Option Nat) : (s.disturb p).press = s.press := by cases p <;> rfl

/-! ## One unit changed -/

theorem State.pressUnit_congr {s t : State} (h : t.press = s.press) (u : Nat) : t.pressUnit u = s.pressUnit u := by
  rw [State.pressUnit, h, State.pressUnit]

@[simp] theorem State.pressUnit_modPress (s : State) (u : Nat) (f : Press → Press) : (s.modPress u f).pressUnit u = f (s.pressUnit u) :=
  Tbl.getD_put_self ..

theorem State.pressUnit_modPress_other (s : State) {u v : Nat} (f : Press → Press) (h : v ≠ u) : (s.modPress u f).pressUnit v = s.pressUnit v :=
  Tbl.getD_put_other _ _ _ h

theorem SameButPress.modPress (s : State) (u : Nat) (f : Press → Press) : SameButPress u s (s.modPress u f) :=
  ⟨rfl, fun _ h => s.pressUnit_modPress_other f h⟩

/-! ## A press takes its next ring entry (R248, R253, R256) -/

section
variable {unit p : Nat} {s : State} {j : Job}

theorem exec_pressDescriptorTake (hp : s.unitPart (unit / 2) = some p) (hj : (s.part p).job = some j) (hgo : s.pressHalted unit = false)
    (hfree : (s.pressUnit unit).desc = none) (hav : (s.pressUnit unit).available ≠ 0) :
    exec (.pressDescriptorTake unit) s = .next (wakeFor [64 + unit / 2]
      (beginPress unit p j (BitVec.ofNat 3072 (s.peekNat (pressEntryAddr j unit (s.pressUnit unit).readIndex.toNat) 384)) s)) := by
  change execPressDescriptorTake unit s = _
  simp only [execPressDescriptorTake, hp, hj, hgo, hfree, hav, Bool.false_eq_true, if_false]

/-- The program of a descriptor, as the press reads it (R254). -/
def State.pressProgram (s : State) (d : BitVec 3072) : List (BitVec 32) :=
  (List.range (pdLen d)).map fun i => BitVec.ofNat 32 (s.peekNat (pdProg d + 4 * i) 4)

/-- A descriptor whose target buffer is not being drained starts at once (R248, R260). -/
theorem startPress_starts (d : BitVec 3072) (prog : List (BitVec 32)) (s : State) (hold : mustHold j d = false) :
    (startPress unit p j d prog s).pressUnit unit = { s.pressUnit unit with heldOnce := false }.start d prog
      ∧ (startPress unit p j d prog s).cores = s.cores := by
  unfold startPress
  rw [hold, if_neg Bool.false_ne_true]
  dsimp only
  split
  · exact ⟨(State.pressUnit_congr (State.modPart_press ..) unit).trans (State.pressUnit_modPress ..), rfl⟩
  · exact ⟨State.pressUnit_modPress .., rfl⟩

section
variable (d : BitVec 3072) (hskip : (s.pressUnit unit).skipping = false)
include hskip

/-- A press that does not skip checks the descriptor; the checks read no press unit. -/
theorem beginPress_checks :
    beginPress unit p j d s = match pressFault s p j unit d (s.pressProgram d) with
      | some o => (s.modPress unit fun q => { q with skipping := false }).modPress unit fun q => q.refuse d o
      | none => startPress unit p j d (s.pressProgram d) (s.modPress unit fun q => { q with skipping := false }) := by
  unfold beginPress
  dsimp only
  rw [hskip, if_neg (by simp)]
  rfl

theorem beginPress_refuses {o : DescOutcome} (h : pressFault s p j unit d (s.pressProgram d) = some o) :
    (beginPress unit p j d s).pressUnit unit = ({ s.pressUnit unit with skipping := false } : Press).refuse d o
      ∧ (beginPress unit p j d s).cores = s.cores := by
  rw [beginPress_checks d hskip, h]
  dsimp only
  rw [State.pressUnit_modPress, State.pressUnit_modPress]
  exact ⟨rfl, rfl⟩

theorem beginPress_starts (h : pressFault s p j unit d (s.pressProgram d) = none) (hold : mustHold j d = false) :
    (beginPress unit p j d s).pressUnit unit = { s.pressUnit unit with skipping := false, heldOnce := false }.start d (s.pressProgram d)
      ∧ (beginPress unit p j d s).cores = s.cores := by
  rw [beginPress_checks d hskip, h]
  dsimp only
  obtain ⟨hunit, hcores⟩ := startPress_starts (unit := unit) (p := p) d (s.pressProgram d) (s.modPress unit fun q => { q with skipping := false }) hold
  rw [hunit, hcores, State.pressUnit_modPress]
  exact ⟨rfl, rfl⟩
end

end

theorem field_zero (w lo len : Nat) : field (0 : BitVec w) lo len = 0 := by simp [field, bits]

theorem Press.lane_start (q : Press) (d : BitVec 3072) (prog : List (BitVec 32)) {r i : Nat} (hr : r < 16) : (q.start d prog).lane r i = 0 := by
  rw [Press.lane, Press.start, Vector.getElem?_replicate, if_pos hr, Option.getD_some, field_zero]

theorem Press.const_start (q : Press) (d : BitVec 3072) (prog : List (BitVec 32)) {r : Nat} (hr : r < 16) :
    ((q.start d prog).pk[r]?).getD 0 = BitVec.ofNat 32 (pdConst d r) := by
  simp [Press.start, hr]

theorem pressTakes_claim : Claim.PressTakes := by
  intro unit p s j hp hj hgo q d prog hfree hav hskip
  have hexec := exec_pressDescriptorTake hp hj hgo hfree hav
  refine ⟨fun hok hold => ⟨_, hexec, ?starts⟩, fun o hbad => ⟨_, hexec, ?refuses⟩⟩
  case starts =>
    obtain ⟨hunit, hcores⟩ := beginPress_starts d hskip hok hold
    dsimp only
    rw [State.pressUnit_congr (wakeFor_press ..), hunit, wakeFor_mem, beginPress_mem, wakeFor_cores, hcores]
    exact ⟨rfl, rfl, rfl, rfl, rfl, fun r i hr _ => Press.lane_start _ _ _ hr, fun r hr => Press.const_start _ _ _ hr, rfl, rfl⟩
  case refuses =>
    obtain ⟨hunit, hcores⟩ := beginPress_refuses d hskip hbad
    rw [State.pressUnit_congr (wakeFor_press ..), hunit, wakeFor_mem, beginPress_mem, wakeFor_cores, hcores]
    exact ⟨rfl, rfl, rfl, rfl⟩

/-! ## A press completes its descriptor (R257) -/

/-- The unit once its descriptor has completed with an outcome. -/
def Press.completed (q : Press) (d : BitVec 3072) (o : DescOutcome) : Press :=
  { q with
    desc := none, prog := [], pc := 0, outcome := none, readIndex := q.readIndex + 1, available := q.available - 1
    skipping := q.skipping || !(o.status == 0 || o.status == 3), lastGen := pdGen d, heldOnce := false }

section
variable (unit p : Nat) (j : Job) (d : BitVec 3072) (o : DescOutcome) (s : State)

theorem completePress_unit : (completePress unit p j d o s).pressUnit unit = (s.pressUnit unit).completed d o := by
  have hpress : (completePress unit p j d o s).press
      = (State.modPress ((s.put (pressEntryAddr j unit (s.pressUnit unit).readIndex.toNat + 120) (o.status :: o.cause :: leBytes 5 o.done) false).put
          (pressEntryAddr j unit (s.pressUnit unit).readIndex.toNat + 320)
          (leBytes 8 (s.pressUnit unit).clips.1 ++ leBytes 8 (s.pressUnit unit).clips.2.1 ++ leBytes 8 (s.pressUnit unit).clips.2.2) false)
        unit fun q => q.completed d o).press := by
    unfold completePress
    dsimp only
    rw [State.disturb_press]
    split
    · rw [State.signalDone_press]; rfl
    · rfl
  rw [State.pressUnit_congr hpress, State.pressUnit_modPress, State.pressUnit_congr (State.put_press ..), State.pressUnit_congr (State.put_press ..)]

theorem completePress_mem : (completePress unit p j d o s).mem
    = ((s.put (pressEntryAddr j unit (s.pressUnit unit).readIndex.toNat + 120) (o.status :: o.cause :: leBytes 5 o.done) false).put
        (pressEntryAddr j unit (s.pressUnit unit).readIndex.toNat + 320)
        (leBytes 8 (s.pressUnit unit).clips.1 ++ leBytes 8 (s.pressUnit unit).clips.2.1 ++ leBytes 8 (s.pressUnit unit).clips.2.2) false).mem := by
  simp [completePress]
end

theorem pressCompletion_claim : Claim.PressCompletion := by
  intro unit p s j d o hp hj hd ho hgo
  have hexec : exec (.pressCompletion unit) s = .next (completePress unit p j d o s) := by
    change execPressCompletion unit s = _
    simp only [execPressCompletion, hp, hj, hd, ho, hgo, Bool.false_eq_true, if_false]
  refine ⟨_, hexec, ?_⟩
  dsimp only
  rw [completePress_unit, completePress_mem]
  exact ⟨rfl, rfl, rfl, rfl, rfl, rfl, rfl⟩

/-- Settles O26: taking an entry and completing it each change the one unit, as its checks or its outcome say. -/
theorem pressDescriptors : Obligations.PressDescriptors := ⟨pressTakes_claim, pressCompletion_claim⟩

end Sys2Proof.Machine
end

section
/-! # Press instructions (R249–R252, R255, R457) -/

namespace Sys2Proof.Machine

/-! ## One instruction of an iteration (R250, R251, R457) -/

theorem Press.current_outcome {q : Press} {d : BitVec 3072} {w : BitVec 32} (h : q.current = some (d, w)) : q.outcome = none := by
  unfold Press.current at h
  split at h
  next hout _ => exact hout
  next => cases h

/-- Inside an iteration a unit goes on to the iteration's end, also in a stopped partition (R444, R457). -/
theorem settlePress_inside {s : State} {u : Nat} (hpc : (s.pressUnit u).pc ≠ 0) (hout : (s.pressUnit u).outcome = none) : settlePress s u = s := by
  unfold settlePress
  split
  next q hq =>
    have hunit : s.pressUnit u = q := by rw [State.pressUnit, Tbl.getD, hq, Option.getD_some]
    rw [hunit] at hpc hout
    simp [hpc, hout]
  next => rfl

/-- Where its iteration ends, the unit of a stopped partition is as a reset leaves it (R457). -/
theorem settlePress_between {s : State} {u : Nat} (hpc : (s.pressUnit u).pc = 0) : (settlePress s u).pressUnit u = .reset := by
  unfold settlePress
  split
  next q hq =>
    have hunit : s.pressUnit u = q := by rw [State.pressUnit, Tbl.getD, hq, Option.getD_some]
    rw [hunit] at hpc
    rw [if_pos (.inl hpc)]
    exact Tbl.getD_del_self ..
  next hnone => rw [State.pressUnit, Tbl.getD, hnone, Option.getD_none]

@[simp] theorem settlePress_cores (s : State) (u : Nat) : (settlePress s u).cores = s.cores := by
  unfold settlePress
  split
  · split <;> rfl
  · rfl

section
variable {i : Instr} {unit op : Nat} {s : State} {d : BitVec 3072} {w : BitVec 32} {body : BitVec 3072 → BitVec 32 → State → State}
  (hexec : exec i s = pressStep unit op body s) (h : PressRuns unit op s d w)
include hexec h

theorem exec_of_pressRuns : exec i s = .next (if (body d w s).pressFatal unit then settlePress (body d w s) unit else body d w s) := by
  have hgo : piOp w = op ∧ (!(s.pressHalted unit && (s.pressUnit unit).pc == 0)) = true := by
    refine ⟨h.isOp, ?_⟩
    obtain hfree | hpc := h.going
    · simp [hfree]
    · simp [hpc]
  rw [hexec, pressStep, h.current]
  dsimp only
  rw [if_pos hgo]

/-- An instruction that leaves its unit inside the iteration does what its meaning says. -/
theorem completes_pressStep {P : State → Prop} (hpc : ((body d w s).pressUnit unit).pc ≠ 0) (hout : ((body d w s).pressUnit unit).outcome = none)
    (hP : P (body d w s)) : Completes i s P := by
  refine ⟨_, exec_of_pressRuns hexec h, ?_⟩
  rwa [settlePress_inside hpc hout, ite_self]

/-- The same where the meaning is a change of the unit that goes on to its next instruction. -/
theorem completes_pressUnit {f : Press → Press} {P : State → Prop} (hbody : body d w s = s.modPress unit f)
    (hpc : (f (s.pressUnit unit)).pc = (s.pressUnit unit).pc + 1) (hout : (f (s.pressUnit unit)).outcome = (s.pressUnit unit).outcome)
    (hP : SameButPress unit s (s.modPress unit f) → P (s.modPress unit f)) : Completes i s P := by
  have hunit := s.pressUnit_modPress unit f
  refine completes_pressStep hexec h ?_ ?_ ?_ <;> rw [hbody]
  · rw [hunit, hpc]; exact Nat.succ_ne_zero _
  · rw [hunit, hout, Press.current_outcome h.current]
  · exact hP (.modPress ..)
end

/-! ## Arithmetic on all lanes (R249, R250) -/

theorem Press.lane_setLanes (q : Press) (w : BitVec 32) (f : Nat → Nat) {i : Nat} (hi : i < 512) :
    (q.setLanes w f).lane (piD w) i = f i % 2 ^ 32 := by
  have hd : piD w < 16 := field_lt w 6 4
  rw [Press.lane, Press.setLanes, Vector.getElem?_setIfInBounds_self_of_lt hd, Option.getD_some, field,
    bits_ofNat_packFields _ (by omega), elemAt_map_range f hi]

theorem Press.pv_setLanes_other (q : Press) (w : BitVec 32) (f : Nat → Nat) {r : Nat} (hr : r ≠ piD w) : (q.setLanes w f).pv[r]? = q.pv[r]? :=
  Vector.getElem?_setIfInBounds_ne hr.symm

theorem completes_pressLanes {i : Instr} {unit op : Nat} {s : State} {d : BitVec 3072} {w : BitVec 32} {f : Press → BitVec 32 → Nat → Nat}
    (hexec : exec i s = pressLanes unit op f s) (h : PressRuns unit op s d w) :
    Completes i s fun t =>
      let q := s.pressUnit unit
      let u := t.pressUnit unit
      SameButPress unit s t ∧ u.pc = q.pc + 1 ∧ u.pk = q.pk ∧ u.vl = q.vl ∧ u.pos = q.pos ∧ u.stores = q.stores
        ∧ (∀ r, r ≠ piD w → u.pv[r]? = q.pv[r]?) ∧ ∀ i, i < 512 → u.lane (piD w) i = f q w i % 2 ^ 32 := by
  refine completes_pressUnit hexec h rfl rfl rfl fun hsame => ?_
  dsimp only
  rw [State.pressUnit_modPress]
  exact ⟨hsame, rfl, rfl, rfl, rfl, rfl, fun r hr => Press.pv_setLanes_other _ w _ hr, fun i hi => Press.lane_setLanes _ w _ hi⟩

theorem pressArithmetic_claim : Claim.PressArithmetic := by
  intro row hrow unit s d w h
  simp only [List.mem_cons, List.not_mem_nil, or_false] at hrow
  obtain rfl | rfl | rfl | rfl | rfl | rfl | rfl | rfl | rfl | rfl | rfl := hrow
  exacts [completes_pressLanes (f := onAB addF32) rfl h, completes_pressLanes (f := onAB subF32) rfl h,
    completes_pressLanes (f := onAB mulF32) rfl h, completes_pressLanes (f := onABC fmaF32) rfl h, completes_pressLanes (f := onAB minF32) rfl h,
    completes_pressLanes (f := onAB maxF32) rfl h, completes_pressLanes (f := onA sqrtF32) rfl h, completes_pressLanes (f := onA recipF32) rfl h,
    completes_pressLanes (f := onA signF32) rfl h, completes_pressLanes (f := onA fun a => fp32.encode (fp32.decode a).abs) rfl h,
    completes_pressLanes (f := onA fun a => fp32.encode (fp32.decode a).negate) rfl h]

/-! ## VSETL, PLD, PST and PEND (R250, R251, R255, R457) -/

/-- The stores of an iteration carried out, in their order (R251). -/
def State.putAll (s : State) (l : List (Nat × List Byte)) : State := l.foldl (fun s w => s.put w.1 w.2 false) s

section
variable (s : State) (l : List (Nat × List Byte))

theorem State.putAll_cores : (s.putAll l).cores = s.cores := foldl_keeps (·.cores) _ (fun s _ => s.put_cores ..) l s
theorem State.putAll_press : (s.putAll l).press = s.press := foldl_keeps (·.press) _ (fun s _ => s.put_press ..) l s
theorem State.putAll_parts : (s.putAll l).parts = s.parts := foldl_keeps (·.parts) _ (fun s _ => s.put_parts ..) l s
theorem State.putAll_rtp : (s.putAll l).rtp = s.rtp := foldl_keeps (·.rtp) _ (fun s _ => s.put_rtp ..) l s
end

/-- A unit at the end of an iteration (R250). -/
def Press.ended (q : Press) (count : Nat) : Press :=
  { q with
    stores := [], clips := addClipCounts q.clips q.pendClips, pendClips := (0, 0, 0), pos := q.pos + q.vl, pc := 0
    outcome := if q.pos + q.vl < count then none else some { nothingMoved 0 0 with done := count } }

section
variable (unit : Nat) (d : BitVec 3072) (s : State)

theorem pressEnd_eq : pressEnd unit d s = (s.putAll (s.pressUnit unit).stores).modPress unit fun q => q.ended (pdCount d) := rfl

theorem pressEnd_unit : (pressEnd unit d s).pressUnit unit = (s.pressUnit unit).ended (pdCount d) := by
  rw [pressEnd_eq, State.pressUnit_modPress, State.pressUnit_congr (State.putAll_press ..)]

theorem pressEnd_cores : (pressEnd unit d s).cores = s.cores := State.putAll_cores ..

theorem pressEnd_fatal : (pressEnd unit d s).pressFatal unit = s.pressFatal unit := by
  simp only [State.pressFatal, State.unitPart, State.part, pressEnd_eq, State.modPress_rtp, State.modPress_parts, State.putAll_rtp, State.putAll_parts]
end

theorem exec_pend {unit : Nat} {s : State} {d : BitVec 3072} {w : BitVec 32} (h : PressRuns unit 0 s d w) :
    exec (.pend unit) s = .next (if s.pressFatal unit then settlePress (pressEnd unit d s) unit else pressEnd unit d s) := by
  rw [exec_of_pressRuns (body := fun d _ s => pressEnd unit d s) rfl h, pressEnd_fatal]

/-- A load without marks and with every value puts the converted elements into the lanes (R250, R255). -/
theorem pressLoad_eq {unit : Nat} {s : State} {d : BitVec 3072} {w : BitVec 32} :
    let q := s.pressUnit unit
    let t := pdStream d (piSt w)
    let data := s.fetch (psBuffer t (pdGen d - 1) + q.pos * psWidth t) (q.vl * psWidth t)
    data.2 = false → pressLoad unit { noValue := none, ecc := [] } d w s = s.modPress unit fun q => q.setLanes w fun i =>
      if i < q.vl then fp32.encode ((floatFmt (psFmt t)).decode (leNat ((data.1.drop (psWidth t * i)).take (psWidth t)))) else 0 := by
  intro q t data hclean
  change (if data.2 then _ else _) = _
  rw [hclean, if_neg Bool.false_ne_true]
  rfl

/-- A unit with one more store waiting for its iteration's end (R250, R251). -/
def Press.stored (q : Press) (d : BitVec 3072) (w : BitVec 32) : Press :=
  let t := pdStream d (piSt w)
  let conv := (List.range q.vl).map fun i =>
    convertFloat (floatFmt (psFmt t)) (convOvf (psConv t)) (pressRounding d t (q.pos + i)) (fp32.decode (q.lane (piA w) i))
  { q with
    stores := q.stores ++ [(psBuffer t (pdGen d) + q.pos * psWidth t, elementBytes (psWidth t) (conv.map (·.code)))]
    pendClips := addClipCounts q.pendClips (clipCount conv), pc := q.pc + 1 }

theorem pressStore_eq (unit : Nat) (d : BitVec 3072) (w : BitVec 32) (s : State) :
    pressStore unit d w s = s.modPress unit fun q => q.stored d w := rfl

theorem pressLoadStoreEnd_claim : Claim.PressLoadStoreEnd := by
  intro unit s d w q t n
  refine ⟨fun h => ?vsetl, fun h hclean => ?pld, fun h => ?pst, fun h hfatal => ⟨_, exec_pend h, ?stopped⟩, fun h hfatal => ⟨_, exec_pend h, ?going⟩⟩
  case vsetl =>
    refine completes_pressUnit (body := fun d _ s => s.modPress unit fun q => { q with vl := min (pdCount d - q.pos) 512, pc := q.pc + 1 })
      rfl h rfl rfl rfl fun hsame => ⟨hsame, ?_⟩
    rw [State.pressUnit_modPress]
    exact ⟨rfl, rfl, rfl⟩
  case pld =>
    refine completes_pressUnit (body := pressLoad unit { noValue := none, ecc := [] }) rfl h (pressLoad_eq hclean) rfl rfl fun hsame => ⟨hsame, ?_⟩
    rw [State.pressUnit_modPress]
    exact ⟨rfl, fun i hi => Press.lane_setLanes _ w _ hi⟩
  case pst =>
    refine completes_pressUnit (body := pressStore unit) rfl h (pressStore_eq unit d w s) rfl rfl fun hsame => ⟨hsame, ?_⟩
    rw [State.pressUnit_modPress]
    exact ⟨rfl, rfl, by rw [Press.stored, List.map_map]; rfl⟩
  case stopped =>
    rw [hfatal, if_pos rfl]
    dsimp only
    rw [settlePress_mem, settlePress_cores, pressEnd_cores]
    exact ⟨rfl, rfl, settlePress_between (by rw [pressEnd_unit]; rfl)⟩
  case going =>
    rw [hfatal, if_neg Bool.false_ne_true]
    dsimp only
    rw [pressEnd_unit, pressEnd_cores]
    exact ⟨rfl, rfl, rfl, rfl, rfl, rfl, fun hmore => if_pos hmore, fun hdone => if_neg (Nat.not_lt_of_le hdone)⟩

/-- Settles O27: each instruction is one change of its unit; at PEND the iteration's stores are put, and the unit goes on, is done or is cleared. -/
theorem pressInstructions : Obligations.PressInstructions := ⟨pressArithmetic_claim, pressLoadStoreEnd_claim⟩

end Sys2Proof.Machine
end

section
/-! # What work inside one partition leaves as it is (R19, R272) -/

namespace Sys2Proof.Machine

/-! ## Nothing that a core, a partition, a link or the unit map holds -/

/-- The cores, the partitions, the fabric and the root of trust are as they were. -/
structure Unmoved (s t : State) : Prop where
  fabric : t.fabric = s.fabric
  rtp : t.rtp = s.rtp
  parts : t.parts = s.parts
  cores : t.cores = s.cores

namespace Unmoved

theorem refl (s : State) : Unmoved s s := ⟨rfl, rfl, rfl, rfl⟩

theorem trans {s t u : State} (h : Unmoved s t) (h' : Unmoved t u) : Unmoved s u :=
  ⟨h'.fabric.trans h.fabric, h'.rtp.trans h.rtp, h'.parts.trans h.parts, h'.cores.trans h.cores⟩

section
variable {s t : State} (h : Unmoved s t)

theorem foldl {α : Type} {f : State → α → State} (hf : ∀ s x, Unmoved s (f s x)) (l : List α) (s : State) : Unmoved s (l.foldl f s) :=
  foldl_keeps_inv (Unmoved s) f (fun t x ht => ht.trans (hf t x)) l (refl s)

theorem ite (c : Prop) [Decidable c] {u : State} (ht : Unmoved s t) (hu : Unmoved s u) : Unmoved s (if c then t else u) := by
  split
  · exact ht
  · exact hu

include h

theorem put (a : Nat) (data : List Byte) (m : Bool) : Unmoved s (t.put a data m) :=
  h.trans ⟨State.put_fabric .., State.put_rtp .., State.put_parts .., State.put_cores ..⟩

theorem wakeFor (l : List Nat) : Unmoved s (wakeFor l t) :=
  h.trans ⟨(congrArg State.fabric (wakeFor_frame l t) :), (congrArg State.rtp (wakeFor_frame l t) :), wakeFor_parts l t, wakeFor_cores l t⟩

theorem modPress (u : Nat) (f : Press → Press) : Unmoved s (t.modPress u f) := h.trans ⟨rfl, rfl, rfl, rfl⟩

theorem modRing (r : Nat) (f : Ring → Ring) : Unmoved s (t.modRing r f) := h.trans ⟨rfl, rfl, rfl, rfl⟩

theorem setWheel (w : Nat) (v : Wheel) : Unmoved s (t.setWheel w v) := h.trans ⟨rfl, rfl, rfl, rfl⟩

theorem logError (e : ErrorEvent) : Unmoved s (t.logError e) :=
  h.trans ⟨State.logError_fabric .., State.logError_rtp .., State.logError_parts .., State.logError_cores ..⟩

theorem sendMsix (port vector : Nat) : Unmoved s (t.sendMsix port vector) :=
  h.trans ⟨State.sendMsix_fabric .., State.sendMsix_rtp .., State.sendMsix_parts .., State.sendMsix_cores ..⟩

theorem freeWheelEntry (w : Nat) : Unmoved s (t.freeWheelEntry w) := by
  unfold State.freeWheelEntry
  refine .put (h.trans ?_) _ _ _
  exact ⟨rfl, rfl, rfl, rfl⟩

/-! ## Rings (R332–R338) -/

theorem writeCompletion (r : Nat) (rcd : BitVec 2048) (c : Completion) : Unmoved s (writeCompletion r rcd c t) := by
  unfold Machine.writeCompletion
  dsimp only
  exact .ite _ (.sendMsix (.modRing (.put h _ _ _) _ _) _ _) (.modRing (.put h _ _ _) _ _)

theorem openStatus (status : Nat) : Unmoved s (t.openStatus status).1 := h.trans ⟨rfl, rfl, rfl, rfl⟩

theorem takeOne (r : Nat) : Unmoved s (takeOne r t).1 := by
  unfold Machine.takeOne
  dsimp only
  split
  · dsimp only
    exact .modRing (.writeCompletion (h.modRing ..) _ _ _) _ _
  · have htaken := (h.modRing r fun q => { q with consumed := q.consumed + 1 }).modRing r
    split
    · exact .writeCompletion (.openStatus (htaken _) _) _ _ _
    · split
      · split
        · exact .writeCompletion (.openStatus (htaken _) _) _ _ _
        · exact .writeCompletion (htaken _) _ _ _
      · dsimp only
        exact .modRing (htaken _) _ _
end

theorem takeRecords (r n : Nat) (s : State) : Unmoved s (takeRecords r n s) := by
  induction n generalizing s with
  | zero => exact refl s
  | succ n ih =>
    unfold Machine.takeRecords
    dsimp only
    split
    · split
      · exact ((refl s).takeOne r).trans (ih _)
      · exact (refl s).takeOne r
    · exact refl s

theorem pumpRings (p : Nat) (s : State) : Unmoved s (pumpRings p s) := foldl (fun s _ => takeRecords _ _ s) _ s

/-! ## Press units (R444, R457) -/

theorem settlePress {s t : State} (h : Unmoved s t) (u : Nat) : Unmoved s (settlePress t u) := by
  unfold Machine.settlePress
  split
  · exact .ite _ (h.trans ⟨rfl, rfl, rfl, rfl⟩) h
  · exact h

theorem of_pressStep {unit op : Nat} {body : BitVec 3072 → BitVec 32 → State → State} {s t : State} (hbody : ∀ d w, Unmoved s (body d w s))
    (h : pressStep unit op body s = .next t) : Unmoved s t := by
  unfold pressStep at h
  split at h <;> cases h
  · exact .ite _ (.ite _ (.settlePress (hbody ..) _) (hbody ..)) (refl s)
  · exact refl s

theorem of_pressLanes {unit op : Nat} {f : Press → BitVec 32 → Nat → Nat} {s t : State} (h : pressLanes unit op f s = .next t) : Unmoved s t :=
  of_pressStep (fun _ _ => (refl s).modPress ..) h

theorem pressEnd (unit : Nat) (d : BitVec 3072) (s : State) : Unmoved s (pressEnd unit d s) := by
  rw [pressEnd_eq]
  exact .modPress (foldl (fun s _ => .put (refl s) _ _ _) _ s) _ _

theorem pressLoad (unit : Nat) (d : BitVec 3072) (w : BitVec 32) (s : State) : Unmoved s (pressLoad unit { noValue := none, ecc := [] } d w s) := by
  have hecc : s.eccEvents [] = s := rfl
  simp only [Machine.pressLoad, Option.isSome_none, Bool.false_eq_true, if_false, hecc]
  exact .ite _ ((refl s).modPress ..) ((refl s).modPress ..)

theorem pressStore (unit : Nat) (d : BitVec 3072) (w : BitVec 32) (s : State) : Unmoved s (pressStore unit d w s) := by
  rw [pressStore_eq]
  exact (refl s).modPress ..

theorem of_pressInstruction {unit : Nat} {w : BitVec 32} {s t : State} (h : pressInstruction unit w s = .next t) : Unmoved s t := by
  unfold pressInstruction at h
  dsimp only at h
  split at h
  case h_1 => exact of_pressStep (fun d _ => pressEnd unit d s) h
  case h_2 => exact of_pressStep (fun _ _ => (refl s).modPress unit _) h
  case h_3 => exact of_pressStep (fun d w => pressLoad unit d w s) h
  case h_4 => exact of_pressStep (fun d w => pressStore unit d w s) h
  case h_16 => cases h; exact refl s
  all_goals exact of_pressLanes h

theorem finishIteration (unit fuel : Nat) (s : State) : Unmoved s (finishIteration unit fuel s) := by
  induction fuel generalizing s with
  | zero => exact refl s
  | succ n ih =>
    unfold Machine.finishIteration
    dsimp only
    split
    · split
      · exact refl s
      · split
        next t ht => exact (of_pressInstruction ht).trans (ih t)
        next => exact refl s
    · exact refl s

theorem clearPress (unit : Nat) (s : State) : Unmoved s (clearPress unit s) :=
  (finishIteration unit (s.pressUnit unit).prog.length s).trans ⟨rfl, rfl, rfl, rfl⟩

end Unmoved

/-! ## Work inside one partition -/

/-- A core none of whose instructions issues or waits to (R95). -/
def Core.Idle (k : Core) : Prop := k.ctl.state ≠ .running ∧ k.ctl.state ≠ .waiting

theorem Core.idle_of_stopped {k : Core} (h : k.ctl.state = .stopped) : k.Idle := ⟨by rw [h]; decide, by rw [h]; decide⟩

theorem Core.idle_of_halted {k : Core} (h : k.ctl.state = .halted) : k.Idle := ⟨by rw [h]; decide, by rw [h]; decide⟩

/-- A property that work inside partition p keeps: it rests on the unit map of a state, on no more of the device than the fabric, the
partitions and the cores, and no change of p that leaves its hold, nor one of a core of p that starts no issue, ends it. -/
structure KeptIn (p : Nat) (s₀ : State) (P : State → Prop) : Prop where
  rtp : ∀ s, P s → s.rtp = s₀.rtp
  unmoved : ∀ s t, Unmoved s t → P s → P t
  core : ∀ s c f, s₀.corePart c = some p → (∀ k : Core, k.Idle → (f k).Idle) → P s → P (s.modCore c f)
  part : ∀ s f, (∀ q : Part, (f q).held = q.held) → P s → P (s.modPart p f)

namespace KeptIn

/-! ## A core's cycles (R78, R87, R96) -/

section
variable {p : Nat} {s₀ : State} {P : State → Prop} (h : KeptIn p s₀ P) {c : CoreId} (hc : s₀.corePart c = some p)
include h

theorem logError {s : State} (e : ErrorEvent) (hs : P s) : P (s.logError e) := h.unmoved _ _ (.logError (.refl s) e) hs

theorem store {s : State} (a : Nat) (data : List Byte) (m : Bool) (hs : P s) : P (s.store a data m) := h.unmoved s _ ⟨rfl, rfl, rfl, rfl⟩ hs

include hc

theorem corePart {s : State} (hs : P s) : s.corePart c = some p := (State.corePart_congr (h.rtp s hs) c).trans hc

theorem modRegs {s : State} (f : CoreRegs → CoreRegs) (hs : P s) : P (s.modRegs c f) := h.core _ _ _ hc (fun _ hk => hk) hs

theorem schedule {s : State} (l : List Sched) (hs : P s) : P (s.schedule c l) := h.core _ _ _ hc (fun _ hk => hk) hs

theorem logFault {s : State} (e : FaultEntry) (hs : P s) : P (s.logFault c e) :=
  h.core s c (fun k => { k with ctl := k.ctl.logFault (if s.confidential (s.corePart c) then { e with addr := 0, aux := 0 } else e) }) hc
    (fun _ hk => hk) hs

theorem countPerf {s : State} (code n : Nat) (hs : P s) : P (s.countPerf c code n) := by
  unfold State.countPerf
  split
  · exact h.core _ _ _ hc (fun _ hk => hk) hs
  · exact hs

theorem countMarked {s : State} (a n : Nat) (hs : P s) : P (s.countMarked c a n) := by
  unfold State.countMarked
  split
  · exact hs
  · exact h.countPerf hc _ _ hs

theorem auditEvent {s : State} (code : Nat) (i : BitVec 14) (b : Bool) (n : Word) (hs : P s) : P (s.auditEvent c code i b n) :=
  h.logFault hc _ (h.core _ _ _ hc (fun _ hk => hk) hs)

theorem auditStop {s : State} (hs : P s) : P (s.auditStop c) := by
  refine h.core _ _ _ hc (fun k hk => ?_) hs
  split
  · exact Core.idle_of_stopped rfl
  · exact hk

theorem auditRows {s : State} (e : Sched) (rows : List Nat) (hs : P s) : P (s.auditRows c e rows) := by
  unfold State.auditRows
  dsimp only
  split
  · exact hs
  · split
    · exact hs
    · exact h.auditStop hc (foldl_keeps_inv P _ (fun _ _ ht => h.auditEvent hc _ _ _ _ ht) _ hs)

theorem poisonHalt {s : State} (e : Sched) (i : Nat) (hs : P s) : P (s.poisonHalt c e i) := by
  refine h.logError _ (h.logFault hc _ (h.core _ _ _ hc (fun k _ => ?_) hs))
  by_cases hdump : k.ctl.state = .dumping
  · simp [Core.Idle, hdump]
  · exact Core.idle_of_halted (by simp [hdump])

theorem touched {s : State} (hs : P s) : P (s.touched c) := by
  unfold State.touched
  rw [h.corePart hc hs]
  dsimp only
  split
  · exact hs
  · split
    · exact hs
    · exact h.part _ _ (fun _ => rfl) hs

theorem incSem {s : State} (r n : Nat) (sender : Option CoreId) (at_ : Place) (hs : P s) : P (s.incSem c r n sender at_) := by
  have hbody := h.touched hc (h.modRegs hc
    (fun g => { g with sems := g.sems.setIfInBounds r (BitVec.ofNat 16 (min 65535 (((s.core c).regs.readS r).toNat + n))) }) hs)
  unfold State.incSem
  dsimp only
  split
  · exact hbody
  · exact h.logFault hc _ hbody

theorem applyAct {s : State} (e : Sched) (hs : P s) : P (applyAct c e s) := by
  have hstores (f : Nat → Nat) (g : Nat → List Byte) (m : Bool) : P ((List.range 4).foldl (fun s b => s.store (f b) (g b) m) s) :=
    foldl_keeps_inv P _ (fun _ _ ht => h.store _ _ _ ht) _ hs
  cases hact : e.act <;> simp only [Machine.applyAct, hact]
  case wX | wF | wV | wP | wFfr | wVstart | wLatch => exact h.modRegs hc _ hs
  case wSys => exact h.core _ _ _ hc (fun k hk => by rw [Core.Idle, writeSys_ctl]; exact hk) hs
  case ldRead | tldRow => exact h.schedule hc _ (h.countMarked hc _ _ hs)
  case lsWrite => exact h.unmoved s _ ⟨rfl, rfl, rfl, rfl⟩ hs
  case vRead =>
    have hcount (l : List Move) : P (l.foldl (fun s m => s.countMarked c m.addr m.len) s) := foldl_keeps_inv P _ (fun _ _ ht => h.countMarked hc _ _ ht) l hs
    split
    all_goals exact h.schedule hc _ (hcount _)
  case wTile =>
    split
    · exact hs
    · exact h.modRegs hc _ hs
  case tstRow =>
    split
    all_goals exact h.schedule hc _ (h.auditRows hc _ _ hs)
  case wlRows => exact h.schedule hc _ (h.auditRows hc _ _ hs)
  case mmtRow => exact h.schedule hc _ (h.countPerf hc _ _ (h.auditRows hc _ _ hs))
  case mmtOut =>
    refine h.schedule hc _ ?_
    split
    · exact h.auditRows hc _ _ hs
    · exact hs
  case mmsRow => exact h.schedule hc _ (h.countPerf hc _ _ (h.countMarked hc _ _ hs))
  case mmsOut => exact h.schedule hc _ hs
  case mmsWrite =>
    split
    · exact hstores _ _ _
    · split
      · exact h.poisonHalt hc _ _ hs
      · exact h.schedule hc _ (hstores _ _ _)
  case semSet => exact h.touched hc (h.modRegs hc _ hs)
  case semInc => exact h.incSem hc _ _ _ _ hs
  case clipInc => exact h.core _ _ _ hc (fun _ hk => hk) hs
  case poisonRow => exact h.poisonHalt hc _ _ hs

theorem runActs (upto : Option Nat) (fuel : Nat) {s : State} (hs : P s) : P (runActs c upto fuel s) := by
  induction fuel generalizing s with
  | zero => exact hs
  | succ n ih =>
    unfold Machine.runActs
    split
    · exact hs
    · split
      · exact ih (h.applyAct hc _ (h.core _ _ _ hc (fun _ hk => hk) hs))
      · exact hs

theorem drain {s : State} (hs : P s) : P (drain c s) := h.runActs hc none _ hs

/-! ## A core reset begins (R443) -/

theorem discardArrivals {s : State} (hs : P s) : P (discardArrivals c s) := by
  have hquiet : P { s with arrivals := s.arrivals.filter fun a => a.core != c } := h.unmoved s _ ⟨rfl, rfl, rfl, rfl⟩ hs
  unfold Machine.discardArrivals
  dsimp only
  rw [h.corePart hc hquiet]
  exact h.part _ _ (fun _ => rfl) hquiet

/-- Whatever holds once issue has stopped holds when the reset has begun. -/
theorem resetBegun {s : State} (hs : P (s.modCore c fun k => { k with ctl := { k.ctl with state := .stopped, hold := .none } })) :
    P (beginCoreReset c s) :=
  h.discardArrivals hc (h.core _ _ _ hc (fun _ hk => hk) (h.drain hc hs))

theorem beginCoreReset {s : State} (hs : P s) : P (beginCoreReset c s) :=
  h.resetBegun hc (h.core s c _ hc (fun _ _ => Core.idle_of_stopped rfl) hs)
end

/-! ## A hold (R272 step 2) -/

section
variable {p : Nat} {s₀ : State} {P : State → Prop} (h : KeptIn p s₀ P)
include h

theorem abortRecords {s : State} (hs : P s) : P (abortRecords p s) := by
  unfold Machine.abortRecords
  refine h.part _ _ (fun _ => rfl) (h.unmoved _ _ (.foldl (fun t r => ?_) _ s) hs)
  split
  · exact (Unmoved.refl t).writeCompletion ..
  · exact .refl t

theorem failDrain {s : State} (hs : P s) : P (failDrain p s) := by
  unfold Machine.failDrain
  split
  · exact hs
  · split
    · exact hs
    · exact h.logError _ (h.part _ _ (fun _ => rfl) hs)

theorem endDrain {s : State} (hs : P s) : P (endDrain p s) := by
  unfold Machine.endDrain
  exact h.part _ _ (fun _ => rfl) (h.failDrain hs)
end

end KeptIn

end Sys2Proof.Machine
end

section
/-! # The fence and the hold of a takeover (R272) -/

namespace Sys2Proof.Machine

/-! ## A partition and its cores (R19) -/

theorem State.corePart_of_mem_coresOf {s : State} {p : Nat} {c : CoreId} (h : c ∈ s.coresOf p) : s.corePart c = some p := by
  simpa using (List.mem_filter.1 h).2

theorem State.coresOf_congr {s t : State} (h : t.rtp = s.rtp) (p : Nat) : t.coresOf p = s.coresOf p := by
  simp only [State.coresOf, State.corePart_congr h]

/-- What the whole device shares, one partition, and its cores are as they were. -/
structure PartSame (p : Nat) (s t : State) : Prop where
  fabric : t.fabric = s.fabric
  rtp : t.rtp = s.rtp
  part : t.part p = s.part p
  cores : ∀ c, s.corePart c = some p → t.core c = s.core c

theorem PartSame.refl (p : Nat) (s : State) : PartSame p s s := ⟨rfl, rfl, rfl, fun _ _ => rfl⟩

theorem PartSame.trans {p : Nat} {s t u : State} (h : PartSame p s t) (h' : PartSame p t u) : PartSame p s u :=
  ⟨h'.fabric.trans h.fabric, h'.rtp.trans h.rtp, h'.part.trans h.part,
    fun c hc => (h'.cores c ((State.corePart_congr h.rtp c).trans hc)).trans (h.cores c hc)⟩

theorem Unmoved.partSame {s t : State} (h : Unmoved s t) (p : Nat) : PartSame p s t :=
  ⟨h.fabric, h.rtp, State.part_congr h.parts p, fun c _ => State.core_congr h.cores c⟩

theorem PartSame.modPart (s : State) {p q : Nat} (f : Part → Part) (h : q ≠ p) : PartSame p s (s.modPart q f) :=
  ⟨rfl, rfl, s.part_modPart_other f h.symm, fun _ _ => rfl⟩

theorem PartSame.modCore (s : State) {p q : Nat} {c : CoreId} (f : Core → Core) (h : q ≠ p) (hc : s.corePart c = some q) :
    PartSame p s (s.modCore c f) := by
  refine ⟨rfl, rfl, rfl, fun d hd => s.core_modCore_other f ?_⟩
  rintro rfl
  exact h (Option.some.inj (hc.symm.trans hd))

/-- Work inside one partition leaves another, its cores, and what both share. -/
theorem PartSame.kept {p q : Nat} (s₀ : State) (h : q ≠ p) : KeptIn q s₀ (PartSame p s₀) where
  rtp _ hs := hs.rtp
  unmoved _ _ ht hs := hs.trans (ht.partSame p)
  core s c f hc _ hs := hs.trans (.modCore s f h ((State.corePart_congr hs.rtp c).trans hc))
  part s f _ hs := hs.trans (.modPart s f h)

/-! ## Steps that each concern one partition, one after the other -/

section
variable {f : State → Nat → State} (hf : ∀ s q p, q ≠ p → PartSame p s (f s q))
include hf

theorem foldl_partSame {p : Nat} (l : List Nat) (hp : p ∉ l) (s : State) : PartSame p s (l.foldl f s) := by
  induction l generalizing s with
  | nil => exact .refl p s
  | cons q l ih =>
    rw [List.mem_cons, not_or] at hp
    exact (hf s q p (Ne.symm hp.1)).trans (ih hp.2 _)

/-- A partition that is among them has its own step, from and into states in which all else of it is as the steps before and after leave it. -/
theorem foldl_own_step {p : Nat} {l : List Nat} (hl : l.Nodup) (hp : p ∈ l) (s : State) :
    ∃ v, PartSame p s v ∧ PartSame p (f v p) (l.foldl f s) := by
  induction l generalizing s with
  | nil => cases hp
  | cons q l ih =>
    rw [List.nodup_cons] at hl
    by_cases hq : q = p
    · subst hq
      exact ⟨s, .refl q s, foldl_partSame hf l hl.1 _⟩
    · obtain ⟨v, hbefore, hafter⟩ := ih hl.2 ((List.mem_cons.1 hp).resolve_left (Ne.symm hq)) (f s q)
      exact ⟨v, (hf s q p hq).trans hbefore, hafter⟩
end

/-! ## The hold of one partition (R272 step 2) -/

/-- The cores of a list begin their resets: what holds once issue of any has stopped, and at the start, holds at the end. -/
theorem KeptIn.resetsBegun {p : Nat} {s₀ : State} {P : State → Prop} (h : KeptIn p s₀ P) {l : List CoreId} (hl : ∀ c ∈ l, s₀.corePart c = some p)
    {s : State} (hs : P s) : P (l.foldl (fun s c => Machine.beginCoreReset c s) s) := by
  induction l generalizing s with
  | nil => exact hs
  | cons c l ih =>
    rw [List.forall_mem_cons] at hl
    exact ih hl.2 (h.beginCoreReset hl.1 hs)

/-- What work inside a partition keeps, its hold keeps from the moment its cores have begun their resets. -/
theorem KeptIn.holdPart {p : Nat} {s : State} {P : State → Prop} (h : KeptIn p s P)
    (hs : P ((s.coresOf p).foldl (fun s c => Machine.beginCoreReset c s) (s.modPart p fun q => { q with held := true }))) : P (holdPart p s) := by
  refine h.endDrain (h.abortRecords (h.unmoved _ _ (.foldl (fun t u => .clearPress u t) _ _) ?_))
  exact hs

/-- A partition that its hold marks, with nothing but it and its cores changed. -/
structure HeldAfter (p : Nat) (s t : State) : Prop where
  fabric : t.fabric = s.fabric
  rtp : t.rtp = s.rtp
  held : (t.part p).held = true

theorem HeldAfter.kept (p : Nat) (s : State) : KeptIn p s (HeldAfter p s) where
  rtp _ hs := hs.rtp
  unmoved _ _ ht hs := ⟨ht.fabric.trans hs.fabric, ht.rtp.trans hs.rtp, by rw [State.part_congr ht.parts]; exact hs.held⟩
  core _ _ _ _ _ hs := ⟨hs.fabric, hs.rtp, hs.held⟩
  part t f hf hs := ⟨hs.fabric, hs.rtp, by rw [State.part_modPart, hf]; exact hs.held⟩

theorem holdPart_held (p : Nat) (s : State) : HeldAfter p s (holdPart p s) :=
  (HeldAfter.kept p s).holdPart <| (HeldAfter.kept p s).resetsBegun (fun _ hc => State.corePart_of_mem_coresOf hc)
    ⟨rfl, rfl, by rw [State.part_modPart]⟩

theorem holdPart_partSame (s : State) {p q : Nat} (h : q ≠ p) : PartSame p s (holdPart q s) :=
  (PartSame.kept s h).holdPart <| (PartSame.kept s h).resetsBegun (fun _ hc => State.corePart_of_mem_coresOf hc) (.modPart s _ h)

/-- A core of the partition that is idle, with the unit map as it was. -/
def IdleAfter (c : CoreId) (s t : State) : Prop := t.rtp = s.rtp ∧ (t.core c).Idle

theorem IdleAfter.kept (p : Nat) (s : State) (c : CoreId) : KeptIn p s (IdleAfter c s) where
  rtp _ hs := hs.1
  unmoved _ _ ht hs := ⟨ht.rtp.trans hs.1, by rw [State.core_congr ht.cores]; exact hs.2⟩
  core t d f _ hf hs := by
    refine ⟨hs.1, ?_⟩
    by_cases hd : c = d
    · subst hd
      rw [State.core_modCore]
      exact hf _ hs.2
    · rw [State.core_modCore_other _ _ hd]
      exact hs.2
  part _ _ _ hs := ⟨hs.1, hs.2⟩

/-- What a state has of the unit map, kept. -/
theorem rtp_kept (p : Nat) (s : State) : KeptIn p s fun t => t.rtp = s.rtp :=
  ⟨fun _ hs => hs, fun _ _ ht hs => ht.rtp.trans hs, fun _ _ _ _ _ hs => hs, fun _ _ _ hs => hs⟩

theorem idle_of_resetsBegun {p : Nat} {s₀ : State} {c : CoreId} {l : List CoreId} (hl : ∀ d ∈ l, s₀.corePart d = some p) (hc : c ∈ l) {s : State}
    (hs : s.rtp = s₀.rtp) : IdleAfter c s₀ (l.foldl (fun s d => Machine.beginCoreReset d s) s) := by
  have hkept := IdleAfter.kept p s₀ c
  induction l generalizing s with
  | nil => cases hc
  | cons d l ih =>
    rw [List.forall_mem_cons] at hl
    by_cases hd : c = d
    · subst hd
      refine hkept.resetsBegun hl.2 (hkept.resetBegun hl.1 ⟨hs, ?_⟩)
      rw [State.core_modCore]
      exact Core.idle_of_stopped rfl
    · exact ih hl.2 ((List.mem_cons.1 hc).resolve_left hd) ((rtp_kept p s₀).beginCoreReset hl.1 hs)

theorem holdPart_idle {p : Nat} {s : State} {c : CoreId} (h : c ∈ s.coresOf p) : ((holdPart p s).core c).Idle :=
  ((IdleAfter.kept p s c).holdPart (idle_of_resetsBegun (fun _ hd => State.corePart_of_mem_coresOf hd) h rfl)).2

/-! ## Fence and hold (R272 steps 1, 2) -/

theorem State.groupParts_nodup (s : State) : s.groupParts.Nodup := List.nodup_range.filter _

/-- The takeover's fence, before the group's partitions are held. -/
def fence (failed : Nat) (s : State) : State :=
  { s with fabric := { s.fabric with takeover :=
    { s.fabric.takeover with phase := 3, failed := failed, spare := none, reason := 0, dropped := insertNum s.fabric.takeover.dropped failed } } }

theorem fenceAndHold_eq (failed : Nat) (s : State) :
    fenceAndHold failed s = dropPeerSessions failed (s.groupParts.foldl (fun s p => holdPart p s) (fence failed s)) := rfl

section
variable (failed : Nat) (s : State)

theorem fenceAndHold_fabric : (fenceAndHold failed s).fabric
    = { (fence failed s).fabric with sessions := (fence failed s).fabric.sessions.filter fun x => x.peer != failed } := by
  have hhold : (s.groupParts.foldl (fun s p => holdPart p s) (fence failed s)).fabric = (fence failed s).fabric :=
    foldl_keeps (·.fabric) _ (fun t p => (holdPart_held p t).fabric) _ _
  rw [fenceAndHold_eq, dropPeerSessions, hhold]

theorem fenceAndHold_held {p : Nat} (hp : p ∈ s.groupParts) :
    ((fenceAndHold failed s).part p).held = true ∧ ∀ c ∈ s.coresOf p, ((fenceAndHold failed s).core c).Idle := by
  obtain ⟨v, hbefore, hafter⟩ := foldl_own_step (f := fun s p => holdPart p s) (fun t q p h => holdPart_partSame t h) s.groupParts_nodup hp (fence failed s)
  have hv : v.rtp = s.rtp := hbefore.rtp
  refine ⟨(congrArg Part.held hafter.part).trans (holdPart_held p v).held, fun c hc => ?_⟩
  have hown : (holdPart p v).corePart c = some p :=
    (State.corePart_congr ((holdPart_held p v).rtp.trans hv) c).trans (State.corePart_of_mem_coresOf hc)
  have hcore : (fenceAndHold failed s).core c = (holdPart p v).core c := hafter.cores c hown
  rw [hcore]
  exact holdPart_idle (by rwa [State.coresOf_congr hv])
end

end Sys2Proof.Machine
end

section
/-! # How a takeover begins (R270–R273) -/

namespace Sys2Proof.Machine

/-! ## The identity of a replaced device (R272 step 4, R273, R325) -/

/-- The state of the takeover and this device's ID are as they were. -/
def SameTakeover (s t : State) : Prop := t.fabric.takeover = s.fabric.takeover ∧ t.fabric.assignedId = s.fabric.assignedId

theorem formGroup_sameTakeover (s : State) : SameTakeover s s.formGroup := by
  unfold State.formGroup
  dsimp only
  split
  · exact ⟨rfl, rfl⟩
  · split
    · exact ⟨rfl, rfl⟩
    · split <;> exact ⟨rfl, rfl⟩

theorem setRoutes_sameTakeover (table : Tbl (BitVec 32)) (s : State) : SameTakeover s (setRoutes table s) := by
  have hpinned : ∀ (u : State) (k : Nat × Core), SameTakeover s u → SameTakeover s
      (if (u.corePart (BitVec.ofNat 10 k.1)).any (fun p => (u.part p).job.isSome) ∧
          u.fabricProduced (BitVec.ofNat 10 k.1) ≠ (u.core (BitVec.ofNat 10 k.1)).flight.fabric.consumed then
        u.modCore (BitVec.ofNat 10 k.1) fun c => { c with flight := { c.flight with fabric := { c.flight.fabric with
          pinned := c.flight.fabric.pinned ++ [(u.fabricProduced (BitVec.ofNat 10 k.1), s.fabric.routes)] } } } else u) := by
    intro u k hu
    split
    · exact hu
    · exact hu
  exact foldl_keeps_inv (SameTakeover s) _ hpinned s.cores ⟨rfl, rfl⟩

theorem distributeRoutes_sameTakeover (s : State) : SameTakeover s (distributeRoutes s) := by
  refine foldl_keeps_inv (SameTakeover s) _ (fun u m hu => ?_) _ (setRoutes_sameTakeover _ _)
  split
  · exact hu
  · exact hu

/-- The group forms again, and its head gives out the routes. -/
theorem formedRoutes_sameTakeover (s : State) : SameTakeover s (if s.formGroup.isHead then distributeRoutes s.formGroup else s.formGroup) := by
  have hformed := formGroup_sameTakeover s
  split
  · obtain ⟨htake, hid⟩ := distributeRoutes_sameTakeover s.formGroup
    exact ⟨htake.trans hformed.1, hid.trans hformed.2⟩
  · exact hformed

section
variable (failed spare group : Nat) (s : State)

theorem takeIdentity_takeover : (takeIdentity failed spare group s).fabric.takeover
    = { s.fabric.takeover with spare := some spare, dropped := s.fabric.takeover.dropped.filter (· != failed) } :=
  (formedRoutes_sameTakeover _).1

theorem takeIdentity_assignedId (h : s.fabricId = spare) : (takeIdentity failed spare group s).fabric.assignedId = BitVec.ofNat 16 failed := by
  have hrenamed : (takeIdentity failed spare group s).fabric.assignedId
      = if s.fabricId == spare then BitVec.ofNat 16 failed else s.fabric.assignedId := (formedRoutes_sameTakeover _).2
  rw [hrenamed, h, beq_self_eq_true, if_pos rfl]
end

/-! ## What TAKEOVER does outside a takeover (R270, R272) -/

section
variable {failed : FailedDevice} {spares : List SpareInfo} {group : GroupView} {s : State} (hphase : s.fabric.takeover.phase = 0)
include hphase

theorem exec_takeover_refused (hhead : s.fabric.groupState = 2) (h : s.mayReplace failed = false) :
    exec (.takeover failed spares group) s = .next s := by
  change execTakeover failed spares group s = _
  simp [execTakeover, hphase, hhead, State.isHead, h]

theorem exec_takeover_keepsWorking (hhead : s.fabric.groupState = 2) (h : s.mayReplace failed = true) (hkeep : s.keepsWorking failed spares = true) :
    exec (.takeover failed spares group) s = .next (s.healthEvent 1 failed.id) := by
  change execTakeover failed spares group s = _
  simp [execTakeover, hphase, hhead, State.isHead, h, hkeep]

theorem exec_takeover_spare (hout : s.fabric.groupState = 0) (h : group.choice = some s.fabricId) :
    exec (.takeover failed spares group) s = .next (spareIdentity failed s) := by
  change execTakeover failed spares group s = _
  simp [execTakeover, hphase, hout, h]

/-- Otherwise the device fences and holds, and goes further once every held core has drained. -/
theorem exec_takeover_holds
    (h : s.fabric.groupState = 1 ∨ (s.fabric.groupState = 2 ∧ s.mayReplace failed = true ∧ s.keepsWorking failed spares = false)) :
    exec (.takeover failed spares group) s =
      if (fenceAndHold failed.id s).groupParts.all fun p => ((fenceAndHold failed.id s).coresOf p).all (coreDrained (fenceAndHold failed.id s)) then
        .next (chooseAndRestore failed spares group (fenceAndHold failed.id s))
      else .next (fenceAndHold failed.id s) := by
  change execTakeover failed spares group s = _
  obtain hmember | ⟨hhead, hmay, hkeep⟩ := h
  · simp [execTakeover, hphase, hmember, State.isHead]
  · simp [execTakeover, hphase, hhead, State.isHead, hmay, hkeep]
end

/-- Every held core has drained where none has a transfer in progress. -/
theorem allDrained {s : State} (h : ∀ p ∈ s.groupParts, ∀ c ∈ s.coresOf p, (s.core c).flight.fabric.current = none) :
    (s.groupParts.all fun p => (s.coresOf p).all (coreDrained s)) = true := by
  simp only [List.all_eq_true, coreDrained, Option.isNone_iff_eq_none]
  exact h

theorem not_allDrained {s : State} (h : ∃ p ∈ s.groupParts, ∃ c ∈ s.coresOf p, (s.core c).flight.fabric.current.isSome = true) :
    (s.groupParts.all fun p => (s.coresOf p).all (coreDrained s)) = false := by
  obtain ⟨p, hp, c, hc, hbusy⟩ := h
  simp only [List.all_eq_false]
  refine ⟨p, hp, ?_⟩
  simp only [Bool.not_eq_true, List.all_eq_false]
  exact ⟨c, hc, by simpa [coreDrained] using hbusy⟩

theorem chooseSpare_none {s : State} {failed : FailedDevice} {spares : List SpareInfo} (h : ∀ x ∈ spares, spareOk failed x = false) :
    s.chooseSpare failed spares = none := by
  refine List.findSome?_eq_none_iff.2 fun i _ => List.find?_eq_none.2 fun x hx => ?_
  simp [h x hx]

theorem takeoverBegins_claim : Claim.TakeoverBegins := by
  intro failed spares group s hphase
  refine ⟨exec_takeover_refused hphase, exec_takeover_keepsWorking hphase,
    fun hout hchoice => ⟨_, exec_takeover_spare hphase hout hchoice, takeIdentity_assignedId _ _ _ _ rfl, rfl, spareIdentity_mem ..⟩, fun h => ?_⟩
  intro d
  have hexec := exec_takeover_holds (group := group) hphase h
  have hfabric : d.fabric = _ := fenceAndHold_fabric failed.id s
  refine ⟨?dropped, fun x hx => ?sessions, by rw [hfabric]; rfl, fun p hp => fenceAndHold_held failed.id s hp, fun hbusy => ?waits,
    fun hdrained hhead hnone => ?stops⟩
  case dropped =>
    rw [hfabric]
    exact mem_insertNum.2 (.inl rfl)
  case sessions =>
    rw [hfabric] at hx
    simpa using (List.mem_filter.1 hx).2
  case waits =>
    rw [not_allDrained hbusy, if_neg Bool.false_ne_true] at hexec
    exact ⟨d, hexec, rfl, by rw [hfabric]; rfl⟩
  case stops =>
    have hstop : chooseAndRestore failed spares group d = stopTakeover 1 d := by
      have hishead : d.isHead = true := by rw [State.isHead, hfabric]; exact beq_iff_eq.2 hhead
      rw [chooseAndRestore, hishead, if_pos rfl, chooseSpare_none hnone]
      rfl
    rw [allDrained hdrained, if_pos rfl, hstop] at hexec
    exact ⟨_, hexec, rfl, rfl, rfl, rfl⟩

end Sys2Proof.Machine
end

section
/-! # The commit of a checkpoint (R265–R267) -/

namespace Sys2Proof.Machine

/-! ## The drain of a generation (R266) -/

theorem Job.settleBuffer_frame (j : Job) (g : BitVec 32) : { j.settleBuffer g with bufs := j.bufs } = j := by
  unfold Job.settleBuffer
  split
  · split <;> rfl
  · rfl

/-- A job whose drain has sent all but its commit record: the slot holds no generation. -/
def Job.drainSending (record : List Byte) (slot : Nat) (j : Job) : Job :=
  { j with drainSent := some record, slots := j.slots.setIfInBounds slot none }

/-- A job whose drain has ended without a commit. -/
def Job.drainFailed (g : BitVec 32) (j : Job) : Job :=
  { j.settleBuffer g with draining := none, drainImage := none, drainSent := none }

/-- A job whose drain has committed, with the feeds of this device and of the partner. -/
def Job.drainCommitted (g : BitVec 32) (feed partnerFeed : Nat) (j : Job) : Job :=
  { j.drainFailed g with slots := j.slots.setIfInBounds j.drainSlot (some g), newest := j.drainSlot
                         independence := if feedsApart feed partnerFeed then 1 else 2 }

section
variable (g : BitVec 32) (j : Job)

theorem Job.drainFailed_queued : (j.drainFailed g).queued = j.queued := (congrArg Job.queued (j.settleBuffer_frame g) :)

theorem Job.drainFailed_gen : (j.drainFailed g).gen = j.gen := (congrArg Job.gen (j.settleBuffer_frame g) :)

theorem Job.drainFailed_slots : (j.drainFailed g).slots = j.slots := (congrArg Job.slots (j.settleBuffer_frame g) :)

theorem Job.drainFailed_newest : (j.drainFailed g).newest = j.newest := (congrArg Job.newest (j.settleBuffer_frame g) :)
end

/-- What a drain sends leaves all but the fabric and the tags. -/
theorem sendDrain_frame (p : Nat) (j : Job) (m : SchedImage) (writes : List (Nat × List MByte)) (s : State) :
    { sendDrain p j m writes s with free := s.free, fabric := s.fabric } = s := by
  unfold sendDrain
  dsimp only
  split <;> rfl

theorem sendDrain_parts (p : Nat) (j : Job) (m : SchedImage) (writes : List (Nat × List MByte)) (s : State) :
    (sendDrain p j m writes s).parts = s.parts := (congrArg State.parts (sendDrain_frame ..) :)

theorem sendDrain_cores (p : Nat) (j : Job) (m : SchedImage) (writes : List (Nat × List MByte)) (s : State) :
    (sendDrain p j m writes s).cores = s.cores := (congrArg State.cores (sendDrain_frame ..) :)

theorem sendDrain_sent (p : Nat) {j : Job} (m : SchedImage) (writes : List (Nat × List MByte)) {s : State} {port : Nat}
    (h : s.portToward j.partner.toNat = some port) : ∃ tag, (sendDrain p j m writes s).fabric.sent = s.fabric.sent
      ++ (drainPackets j.partner.toNat (j.slotBase m) (s.confidential (some p)) tag writes).map fun k => { k with src := s.fabricId } := by
  unfold sendDrain
  dsimp only
  rw [h]
  exact ⟨_, rfl⟩

theorem nextDrain_job {p : Nat} {s : State} {j : Job} (hj : (s.part p).job = some j) (hq : j.queued = []) :
    ((nextDrain p s).part p).job = some j := by
  rw [nextDrain, State.job_modJob, hj, Option.map_some, hq]
  split
  next h => cases h
  next => rfl

theorem sendDrains_idle {p : Nat} {s : State} {j : Job} (hj : (s.part p).job = some j) (hd : j.draining = none) : sendDrains p s = s := by
  unfold sendDrains
  simp only [hj, hd]

/-- A drain that ends with no other waiting leaves the partition without one. -/
theorem noDrainBegins {p : Nat} {s : State} {j : Job} (hj : (s.part p).job = some j) (hd : j.draining = none) (hq : j.queued = []) :
    sendDrains p (nextDrain p s) = nextDrain p s ∧ ((nextDrain p s).part p).job = some j :=
  have hnext := nextDrain_job hj hq
  ⟨sendDrains_idle hnext hd, hnext⟩

/-! ## CHECKPOINT_COMMIT (R266, R267) -/

section
variable {p : Nat} {partner : PartnerInfo} {s : State} {j : Job} {g : BitVec 32} {m : SchedImage} (hj : (s.part p).job = some j)
  (hd : j.draining = some g) (hi : j.drainImage = some m)
include hj hd hi

theorem exec_checkpointCommit_fails :
    exec (.checkpointCommit p false partner) s = .next (sendDrains p (nextDrain p (failDrain p s))) := by
  change execCheckpointCommit p false partner s = _
  simp [execCheckpointCommit, hj, hd, hi]

theorem exec_checkpointCommit_sends (hroute : s.routeTo j.partner.toNat ≠ []) (hsent : j.drainSent = none) :
    exec (.checkpointCommit p true partner) s = .next (sendDrains p s) := by
  change execCheckpointCommit p true partner s = _
  simp [execCheckpointCommit, hj, hd, hi, hroute, hsent]

theorem exec_checkpointCommit_commits (hroute : s.routeTo j.partner.toNat ≠ []) (hready : s.sessionReady p j.partner.toNat = true)
    {record : List Byte} (hsent : j.drainSent = some record) :
    exec (.checkpointCommit p true partner) s = .next (commitDrain p j g m record partner s) := by
  change execCheckpointCommit p true partner s = _
  simp [execCheckpointCommit, hj, hd, hi, hroute, hsent, hready]

theorem sendDrains_sends (hroute : s.routeTo j.partner.toNat ≠ []) (hready : s.sessionReady p j.partner.toNat = true) (hsent : j.drainSent = none) :
    let tensors := j.manifest.map fun e => s.memBytes (mfAddr e g.toNat) (mfBytes e)
    sendDrains p s = (wakeFor (j.manifest.flatMap fun e => inboundDomains (mfAddr e g.toNat)) (sendDrain p j m (slotWrites j m tensors) s)).modJob p
      (Job.drainSending (drainRecord j m (tensors.map plainBytes)) j.drainSlot) := by
  simp [sendDrains, hj, hd, hi, hroute, hready, hsent]
  rfl
end

theorem failDrain_eq {p : Nat} {s : State} {j : Job} {g : BitVec 32} (hj : (s.part p).job = some j) (hd : j.draining = some g) :
    failDrain p s = (s.modPart p fun q => { q with job := some (j.drainFailed g) }).logError
      { source := 0x13, part := some p, unit := 0x20, core := 0x3FF, address := 0, detail := 0 } := by
  simp only [failDrain, hj, hd, Job.drainFailed]

/-- A commit with no other drain waiting. -/
theorem commitDrain_last {p : Nat} {s : State} {j : Job} (g : BitVec 32) (m : SchedImage) (record : List Byte) (partner : PartnerInfo)
    (hj : (s.part p).job = some j) (hq : j.queued = []) :
    let v := (sendDrain p j m [(0, unmarked record)] s).modJob p (Job.drainCommitted g s.powerFeed partner.feed)
    commitDrain p j g m record partner s = nextDrain p v ∧ ((nextDrain p v).part p).job = some (j.drainCommitted g s.powerFeed partner.feed) := by
  have hfeed : (sendDrain p j m [(0, unmarked record)] s).powerFeed = s.powerFeed := (congrArg State.powerFeed (sendDrain_frame p j m [(0, unmarked record)] s) :)
  have hjob : (((sendDrain p j m [(0, unmarked record)] s).modJob p (Job.drainCommitted g s.powerFeed partner.feed)).part p).job
      = some (j.drainCommitted g s.powerFeed partner.feed) := by
    rw [State.job_modJob, State.part_congr (sendDrain_parts ..), hj, Option.map_some]
  obtain ⟨hidle, hlast⟩ := noDrainBegins hjob rfl ((j.drainFailed_queued g).trans hq)
  refine ⟨?_, hlast⟩
  rw [← hidle, ← hfeed]
  rfl

theorem checkpointCommit_claim : Claim.CheckpointCommit := by
  refine ⟨fun p partner s j g m port hj hd hi hq => ⟨fun hroute hport hready => ⟨fun record hsent => ?commits, fun hsent => ?sends⟩, ?fails⟩, fun _ _ _ => rfl⟩
  case commits =>
    have hexec := exec_checkpointCommit_commits (partner := partner) hj hd hi hroute hready hsent
    obtain ⟨hcommit, hjob⟩ := commitDrain_last g m record partner hj hq
    rw [hcommit] at hexec
    exact ⟨_, hexec, sendDrain_sent p m _ hport, (sendDrain_mem .. :), sendDrain_cores .., _, hjob, rfl, rfl, rfl, rfl, j.drainFailed_gen g, rfl, rfl⟩
  case sends =>
    have hexec := exec_checkpointCommit_sends (partner := partner) hj hd hi hroute hsent
    rw [sendDrains_sends hj hd hi hroute hready hsent] at hexec
    have hwake (l : List Nat) (v : State) : Unmoved v (wakeFor l v) := (Unmoved.refl v).wakeFor l
    refine ⟨_, hexec, ?sent, ?mem, ?cores, j.drainSending _ _, ?job, hd, rfl, rfl, rfl⟩
    case sent =>
      obtain ⟨tag, hout⟩ := sendDrain_sent p m (slotWrites j m (j.manifest.map fun e => s.memBytes (mfAddr e g.toNat) (mfBytes e))) hport
      exact ⟨tag, (congrArg Fabric.sent (hwake ..).fabric :).trans hout⟩
    case mem => exact (wakeFor_mem ..).trans (sendDrain_mem ..)
    case cores => exact (hwake ..).cores.trans (sendDrain_cores ..)
    case job => rw [State.job_modJob, State.part_congr (hwake ..).parts, State.part_congr (sendDrain_parts ..), hj, Option.map_some]
  case fails =>
    have hexec := exec_checkpointCommit_fails (partner := partner) hj hd hi
    have hjob : ((failDrain p s).part p).job = some (j.drainFailed g) := by
      rw [failDrain_eq hj hd, State.part_congr (State.logError_parts ..), State.part_modPart]
    obtain ⟨hidle, hlast⟩ := noDrainBegins hjob rfl ((j.drainFailed_queued g).trans hq)
    rw [hidle] at hexec
    refine ⟨_, hexec, ?noneSent, ?noneWritten, ?counted, _, hlast, rfl, j.drainFailed_slots g, j.drainFailed_newest g⟩
    case noneSent =>
      have hfabric : (failDrain p s).fabric = s.fabric := by rw [failDrain_eq hj hd, State.logError_fabric]; rfl
      exact (congrArg Fabric.sent hfabric :)
    case noneWritten => exact (failDrain_mem p s :)
    case counted =>
      have hcounts : (failDrain p s).errors.counts[0] = s.errors.counts[0] + 1 := by
        rw [failDrain_eq hj hd]
        exact State.logError_counts (n := 0) _ _ rfl (by decide)
      exact hcounts

end Sys2Proof.Machine
end

section
/-! # A takeover ends (R272 step 7) -/

namespace Sys2Proof.Machine

/-! ## One core after another -/

section
variable (f : State → CoreId → Core → Core) {c : CoreId}

theorem foldl_modCore_other {l : List CoreId} (hc : c ∉ l) (s : State) : (l.foldl (fun s d => s.modCore d (f s d)) s).core c = s.core c := by
  induction l generalizing s with
  | nil => rfl
  | cons d l ih =>
    rw [List.mem_cons, not_or] at hc
    exact (ih hc.2 _).trans (s.core_modCore_other _ hc.1)

/-- What a core has once it has been changed, and had before, it has at the end. -/
theorem foldl_modCore_core {before after : Core → Prop} (hf : ∀ s k, before k → after (f s c k)) (hagain : ∀ k, after k → before k)
    {l : List CoreId} (hc : c ∈ l) {s : State} (hs : before (s.core c)) : after ((l.foldl (fun s d => s.modCore d (f s d)) s).core c) := by
  induction l generalizing s with
  | nil => cases hc
  | cons d l ih =>
    by_cases hd : c = d
    · subst hd
      refine foldl_keeps_inv (fun s : State => after (s.core c)) _ (fun u d hu => ?_) l (by rw [State.core_modCore]; exact hf _ _ hs)
      by_cases hd : c = d
      · subst hd
        rw [State.core_modCore]
        exact hf _ _ (hagain _ hu)
      · rwa [State.core_modCore_other _ _ hd]
    · refine ih ((List.mem_cons.1 hc).resolve_left hd) ?_
      rwa [State.core_modCore_other _ _ hd]

theorem foldl_modCore_partSame {p q : Nat} (h : q ≠ p) {l : List CoreId} {s : State} (hl : ∀ d ∈ l, s.corePart d = some q) :
    PartSame p s (l.foldl (fun s d => s.modCore d (f s d)) s) := by
  induction l generalizing s with
  | nil => exact .refl p s
  | cons d l ih =>
    rw [List.forall_mem_cons] at hl
    exact (PartSame.modCore s _ h hl.1).trans (ih hl.2)

/-- Changes of cores leave all else. -/
theorem foldl_modCore_frame (l : List CoreId) (s : State) : { l.foldl (fun s d => s.modCore d (f s d)) s with cores := s.cores } = s :=
  foldl_keeps_inv (fun u : State => { u with cores := s.cores } = s) (fun u d => u.modCore d (f u d)) (fun _ _ hu => hu) l rfl
end

/-! ## TAKEOVER_RESUME -/

/-- A core that issues again at its PC. -/
def Core.resumed (audit : Nat) (k : Core) : Core :=
  { k with ctl := { k.ctl with state := .running, hold := .none, heldAt := BitVec.ofNat 14 k.ctl.pc, audit := audit } }

/-- The logical IDs that have a record in the last image of a partition's job. -/
def State.recorded (s : State) (p : Nat) : List Nat :=
  match (s.part p).job with
  | some j => j.image.toList.flatMap fun m => m.cores.map (·.1)
  | none => []

/-- The cores of a partition that resume. -/
def State.resuming (s : State) (p : Nat) : List CoreId := (s.coresOf p).filter fun c => (s.recorded p).contains c.toNat

/-- The release of one partition of the group. -/
def resumePart (s : State) (p : Nat) : State :=
  pumpRings p ((s.resuming p).foldl (fun s c => resumeCore c s) (s.modPart p fun q => { q with held := false }))

theorem exec_takeoverResume {s : State} (h : s.fabric.takeover.phase = 1) :
    exec .takeoverResume s = .next ((s.groupParts.filter fun p => (s.part p).held).foldl resumePart
      { s with fabric := { s.fabric with takeover := { s.fabric.takeover with phase := 0 } } }) := by
  change execTakeoverResume s = _
  rw [execTakeoverResume, if_neg (not_not_intro h)]
  rfl

section
variable (s : State) {p q : Nat}

theorem State.corePart_of_mem_resuming {c : CoreId} (h : c ∈ s.resuming p) : s.corePart c = some p :=
  State.corePart_of_mem_coresOf (List.mem_filter.1 h).1

theorem resumePart_partSame (h : q ≠ p) : PartSame p s (resumePart s q) :=
  ((PartSame.modPart s _ h).trans (foldl_modCore_partSame _ h fun _ hc => s.corePart_of_mem_resuming hc)).trans
    ((Unmoved.pumpRings q _).partSame p)

theorem resumePart_fabric : (resumePart s q).fabric = s.fabric :=
  (Unmoved.pumpRings q _).fabric.trans (congrArg State.fabric (foldl_modCore_frame _ (s.resuming q) _) :)

theorem resumePart_rtp : (resumePart s q).rtp = s.rtp :=
  (Unmoved.pumpRings q _).rtp.trans (congrArg State.rtp (foldl_modCore_frame _ (s.resuming q) _) :)

theorem resumePart_held : ((resumePart s p).part p).held = false := by
  have hparts : (resumePart s p).parts = (s.modPart p fun q => { q with held := false }).parts :=
    (Unmoved.pumpRings p _).parts.trans (congrArg State.parts (foldl_modCore_frame _ (s.resuming p) _) :)
  rw [State.part_congr hparts, State.part_modPart]

theorem resumePart_core (c : CoreId) : (resumePart s p).core c
    = ((s.resuming p).foldl (fun s c => resumeCore c s) (s.modPart p fun q => { q with held := false })).core c :=
  State.core_congr (Unmoved.pumpRings p _).cores c

theorem resumePart_core_resuming {c : CoreId} (h : c ∈ s.resuming p) : ∃ audit, (resumePart s p).core c = (s.core c).resumed audit := by
  rw [resumePart_core]
  refine foldl_modCore_core (fun s c => Core.resumed (s.auditMode c))
    (before := fun k => ∀ audit, k.resumed audit = (s.core c).resumed audit) (after := fun k => ∃ audit, k = (s.core c).resumed audit)
    (fun u k hk => ⟨_, hk _⟩) ?_ h (fun _ => rfl)
  rintro k ⟨_, rfl⟩ _
  rfl

theorem resumePart_core_other {c : CoreId} (h : c ∉ s.resuming p) : (resumePart s p).core c = s.core c :=
  (resumePart_core s c).trans (foldl_modCore_other _ h _)
end

theorem takeoverResume_claim : Claim.TakeoverResume := by
  intro s hphase
  refine ⟨_, exec_takeoverResume hphase, ?phase, fun p hp hrun hheld => ?parts⟩
  case phase => rw [foldl_keeps (·.fabric) resumePart (fun u q => resumePart_fabric u) _ _]
  case parts =>
    have hmem : p ∈ s.groupParts.filter fun p => (s.part p).held := List.mem_filter.2 ⟨List.mem_filter.2 ⟨List.mem_range.2 hp, hrun⟩, hheld⟩
    obtain ⟨v, hbefore, hafter⟩ := foldl_own_step (fun u q p h => resumePart_partSame u h) (s.groupParts_nodup.filter _) hmem
      { s with fabric := { s.fabric with takeover := { s.fabric.takeover with phase := 0 } } }
    have hrtp : v.rtp = s.rtp := hbefore.rtp
    refine ⟨(congrArg Part.held hafter.part).trans (resumePart_held v), fun c hc j m hj hm => ?_⟩
    have hown : s.corePart c = some p := State.corePart_of_mem_coresOf hc
    have hbase : v.core c = s.core c := hbefore.cores c hown
    have hlast := hafter.cores c ((State.corePart_congr ((resumePart_rtp v).trans hrtp) c).trans hown)
    have hpart : v.part p = s.part p := hbefore.part
    have hresuming : c ∈ v.resuming p ↔ c.toNat ∈ m.cores.map (·.1) := by
      simp [State.resuming, State.recorded, State.coresOf_congr hrtp, hpart, hj, hm, hc]
    split
    next hrecorded =>
      obtain ⟨audit, hcore⟩ := resumePart_core_resuming v (hresuming.2 hrecorded)
      rw [hlast, hcore, hbase]
      exact ⟨rfl, rfl, rfl, rfl⟩
    next hnone => rw [hlast, resumePart_core_other v (mt hresuming.1 hnone), hbase]

end Sys2Proof.Machine
end

section
/-! # A takeover restores a ring group (R271, R272 step 6) -/

namespace Sys2Proof.Machine

/-! ## What surrounds the cores and the job of a restored partition -/

theorem Unmoved.saveWheel {s t : State} (h : Unmoved s t) (w : Nat) : Unmoved s (t.saveWheel w) := h.put ..

theorem Unmoved.freeWheels (p : Nat) (s : State) : Unmoved s (freeWheels p s) := .foldl (fun s w => (Unmoved.refl s).freeWheelEntry w) _ s

theorem Unmoved.restoreWheels (p : Nat) (m : SchedImage) (s : State) : Unmoved s (restoreWheels p m s) :=
  (Unmoved.freeWheels p s).trans (.foldl (fun s _ => ((Unmoved.refl s).setWheel _ _).saveWheel _) _ _)

theorem Unmoved.restoreRings (p : Nat) (m : SchedImage) (s : State) : Unmoved s (restoreRings p m s) := by
  refine .foldl (fun s r => ?_) _ s
  split
  · exact (Unmoved.refl s).modRing ..
  · exact .refl s

theorem Unmoved.regenerate (p g : Nat) (l : List WorkingCopy) (s : State) : Unmoved s (regenerate p g l s) := by
  unfold Machine.regenerate
  split
  · exact .refl s
  · refine .foldl (fun s w => ?_) _ s
    split
    · exact .ite _ ((Unmoved.refl s).put ..) (.refl s)
    · exact .refl s

/-- The tensors of a restored partition that come from a slot. -/
def restoreTensors (g : Nat) (j : Job) (tensors : Option (List (List Byte))) (s : State) : State :=
  match tensors with
  | some l => (j.manifest.zip l).foldl (fun s e => s.put (mfAddr e.1 g) (e.2.take (mfBytes e.1)) false) s
  | none => s

/-- The indices of a partition's press units from the image. -/
def restorePresses (p : Nat) (m : SchedImage) (s : State) : State :=
  (pressOf (s.unitsOf p)).foldl (fun s u => match Tbl.get? m.press u with
    | some x => s.modPress u fun q => { q with readIndex := x.1, lastGen := x.2 }
    | none => s) s

theorem Unmoved.restoreTensors (g : Nat) (j : Job) (tensors : Option (List (List Byte))) (s : State) : Unmoved s (restoreTensors g j tensors s) := by
  unfold Machine.restoreTensors
  split
  · exact .foldl (fun s _ => (Unmoved.refl s).put ..) _ s
  · exact .refl s

theorem Unmoved.restorePresses (p : Nat) (m : SchedImage) (s : State) : Unmoved s (restorePresses p m s) := by
  refine .foldl (fun s u => ?_) _ s
  split
  · exact (Unmoved.refl s).modPress ..
  · exact .refl s

/-- A partition with its barriers open at the epochs of an image. -/
def Part.atEpochs (m : SchedImage) (q : Part) : Part :=
  { q with barriers := q.barriers.map fun b =>
    (b.1, match Tbl.get? m.epochs b.1 with
      | some e => Barrier.fresh b.2.entry b.2.members e
      | none => b.2) }

/-- A partition's tensors and rings restored, its domains awake. -/
def restoreBefore (p g : Nat) (m : SchedImage) (tensors : Option (List (List Byte))) (j : Job) (s : State) : State :=
  let s := restoreTensors g j tensors s
  restoreRings p m (wakeFor ((s.unitsOf p).flatMap unitDomains) s)

theorem Unmoved.restoreBefore (p g : Nat) (m : SchedImage) (tensors : Option (List (List Byte))) (j : Job) (s : State) :
    Unmoved s (restoreBefore p g m tensors j s) :=
  ((Unmoved.restoreTensors g j tensors s).wakeFor _).trans (.restoreRings p m _)

/-- A partition's wheels and press units restored. -/
def restoreAfter (p : Nat) (m : SchedImage) (s : State) : State := restorePresses p m (restoreWheels p m s)

theorem Unmoved.restoreAfter (p : Nat) (m : SchedImage) (s : State) : Unmoved s (restoreAfter p m s) :=
  (Unmoved.restoreWheels p m s).trans (.restorePresses p m _)

/-- A partition restored but for its cores and its job. -/
def restoreAround (p g : Nat) (m : SchedImage) (tensors : Option (List (List Byte))) (j : Job) (s : State) : State :=
  restoreAfter p m ((restoreBefore p g m tensors j s).modPart p (Part.atEpochs m))

/-! ## A restored partition -/

/-- A core set to its record in an image, or to its core-reset values. -/
def Core.restoredTo (m : SchedImage) (c : CoreId) (produced : BitVec 32) (k : Core) : Core :=
  match Tbl.get? m.cores c.toNat with
  | some i => k.restore produced i
  | none => k.afterReset produced

/-- A job at the generation of an image. -/
def Job.restoredTo (g : Nat) (m : SchedImage) (failed : Nat) (j : Job) : Job :=
  { j with
    gen := BitVec.ofNat 32 g, bufs := j.bufs.setIfInBounds (g % 2) { gen := BitVec.ofNat 32 g, state := .stable }
    slots := if j.partner.toNat = failed then Vector.replicate 2 none else j.slots
    stepNo := m.step, stepRing := none, arrived := [], unstable := [], arrivalImages := [], image := some m, draining := none, drainImage := none
    drainSent := none, queued := [] }

/-- The cores of a partition restored. -/
def restoreCores (p : Nat) (m : SchedImage) (s : State) : State :=
  (s.coresOf p).foldl (fun s c => s.modCore c (Core.restoredTo m c (s.fabricProduced c))) s

section
variable {p g : Nat} {m : SchedImage} {tensors : Option (List (List Byte))} {s : State}

theorem restorePart_none (hj : (s.part p).job = none) : restorePart p g m tensors s = s := by simp only [restorePart, hj]

theorem restorePart_some {j : Job} (hj : (s.part p).job = some j) :
    let v := restoreCores p m (restoreAround p g m tensors j s)
    restorePart p g m tensors s = v.modJob p (Job.restoredTo g m v.fabric.takeover.failed) := by
  simp only [restorePart, hj]
  rfl

theorem restoreAround_partSame {q : Nat} (h : q ≠ p) (j : Job) : PartSame p s (restoreAround q g m tensors j s) :=
  (((Unmoved.restoreBefore q g m tensors j s).partSame p).trans (.modPart _ _ h)).trans ((Unmoved.restoreAfter ..).partSame p)

theorem restoreAround_fabric (j : Job) : (restoreAround p g m tensors j s).fabric = s.fabric :=
  (Unmoved.restoreAfter p m _).fabric.trans (Unmoved.restoreBefore p g m tensors j s).fabric

theorem restoreAround_rtp (j : Job) : (restoreAround p g m tensors j s).rtp = s.rtp :=
  (Unmoved.restoreAfter p m _).rtp.trans (Unmoved.restoreBefore p g m tensors j s).rtp

theorem restoreAround_job (j : Job) : ((restoreAround p g m tensors j s).part p).job = (s.part p).job := by
  rw [restoreAround, State.part_congr (Unmoved.restoreAfter ..).parts, State.part_modPart, Part.atEpochs,
    State.part_congr (Unmoved.restoreBefore ..).parts]

theorem restoreCores_frame (p : Nat) (m : SchedImage) (s : State) : { restoreCores p m s with cores := s.cores } = s :=
  foldl_modCore_frame (fun s c => Core.restoredTo m c (s.fabricProduced c)) _ s

theorem restoreCores_core {c : CoreId} (hc : c ∈ s.coresOf p) {i : CoreImage} (hi : Tbl.get? m.cores c.toNat = some i) :
    ∃ (k : Core) (produced : BitVec 32), (restoreCores p m s).core c = k.restore produced i := by
  refine foldl_modCore_core (fun s c => Core.restoredTo m c (s.fabricProduced c)) (before := fun _ => True)
    (after := fun k' => ∃ (k : Core) (produced : BitVec 32), k' = k.restore produced i) (fun u k _ => ⟨k, u.fabricProduced c, ?_⟩)
    (fun _ _ => trivial) hc trivial
  rw [Core.restoredTo, hi]

theorem restorePart_partSame {q : Nat} (h : q ≠ p) : PartSame p s (restorePart q g m tensors s) := by
  cases hj : (s.part q).job with
  | none => rw [restorePart_none hj]; exact .refl p s
  | some j =>
    rw [restorePart_some hj]
    exact ((restoreAround_partSame h j).trans
      (foldl_modCore_partSame (fun s c => Core.restoredTo m c (s.fabricProduced c)) h fun _ hc => State.corePart_of_mem_coresOf hc)).trans (.modPart _ _ h)

section
variable {j : Job} (hj : (s.part p).job = some j)
include hj

theorem restorePart_fabric : (restorePart p g m tensors s).fabric = s.fabric := by
  rw [restorePart_some hj]
  exact (congrArg State.fabric (restoreCores_frame p m _) :).trans (restoreAround_fabric j)

theorem restorePart_rtp : (restorePart p g m tensors s).rtp = s.rtp := by
  rw [restorePart_some hj]
  exact (congrArg State.rtp (restoreCores_frame p m _) :).trans (restoreAround_rtp j)

theorem restorePart_job : ∃ failed, ((restorePart p g m tensors s).part p).job = some (j.restoredTo g m failed) := by
  have hparts : (restoreCores p m (restoreAround p g m tensors j s)).parts = (restoreAround p g m tensors j s).parts :=
    (congrArg State.parts (restoreCores_frame p m _) :)
  refine ⟨(restoreCores p m (restoreAround p g m tensors j s)).fabric.takeover.failed, ?_⟩
  rw [restorePart_some hj, State.job_modJob, State.part_congr hparts, restoreAround_job, hj, Option.map_some]

theorem restorePart_core {c : CoreId} (hc : c ∈ s.coresOf p) {i : CoreImage} (hi : Tbl.get? m.cores c.toNat = some i) :
    ∃ (k : Core) (produced : BitVec 32), (restorePart p g m tensors s).core c = k.restore produced i := by
  obtain ⟨k, produced, hk⟩ := restoreCores_core (s := restoreAround p g m tensors j s) (by rwa [State.coresOf_congr (restoreAround_rtp j)]) hi
  exact ⟨k, produced, by rw [restorePart_some hj, State.core_congr (State.modJob_cores ..), hk]⟩
end
end

/-! ## The restore of every held partition -/

/-- A partition restored, and its working copies. -/
def restoreOne (src : Nat → RestoreSource) (group : GroupView) (g : Nat) (s : State) (p : Nat) : State :=
  regenerate p g group.copies (restorePart p g (src p).image (src p).tensors s)

section
variable {src : Nat → RestoreSource} {group : GroupView} {g : Nat} {s : State}

theorem restoreOne_partSame {p q : Nat} (h : q ≠ p) : PartSame p s (restoreOne src group g s q) :=
  (restorePart_partSame h).trans ((Unmoved.regenerate ..).partSame p)

theorem restoreOne_job {p : Nat} {j : Job} (hj : (s.part p).job = some j) :
    ∃ failed, ((restoreOne src group g s p).part p).job = some (j.restoredTo g (src p).image failed) := by
  rw [restoreOne, State.part_congr (Unmoved.regenerate ..).parts]
  exact restorePart_job hj

theorem restoreOne_core {p : Nat} {j : Job} (hj : (s.part p).job = some j) {c : CoreId} (hc : c ∈ s.coresOf p) {i : CoreImage}
    (hi : Tbl.get? (src p).image.cores c.toNat = some i) :
    ∃ (k : Core) (produced : BitVec 32), (restoreOne src group g s p).core c = k.restore produced i := by
  rw [restoreOne, State.core_congr (Unmoved.regenerate ..).cores]
  exact restorePart_core hj hc hi

theorem restoreOne_rtp {p : Nat} {j : Job} (hj : (s.part p).job = some j) : (restoreOne src group g s p).rtp = s.rtp :=
  (Unmoved.regenerate ..).rtp.trans (restorePart_rtp hj)

theorem restoreOne_fabric (p : Nat) : (restoreOne src group g s p).fabric = s.fabric := by
  refine (Unmoved.regenerate p g group.copies _).fabric.trans ?_
  cases hj : (s.part p).job with
  | none => rw [restorePart_none hj]
  | some j => exact restorePart_fabric hj

theorem restoreGroup_eq (hphase : s.fabric.takeover.phase ≠ 4)
    (hgen : groupGen (s.groupParts.map fun p => ((s.part p).job.bind Job.committedGen)) group.gens = some g)
    (sound : ∀ p ∈ s.groupParts, ∃ j, (s.part p).job = some j ∧
    restoreSource j g (s.restoredWheels p) (group.slots.filter fun c => c.part == p) = .ok (src p)) :
    let t := s.groupParts.foldl (restoreOne src group g) s
    restoreGroup group s = { t with fabric := { t.fabric with takeover := { t.fabric.takeover with phase := 1 } } } := by
  have hsources (f : Nat → Nat × Except Nat RestoreSource) (hf : ∀ p ∈ s.groupParts, f p = (p, .ok (src p))) :
      s.groupParts.map f = s.groupParts.map fun p => (p, .ok (src p)) := List.map_congr_left hf
  have hstops (l : List Nat) : restoreStops (l.map fun p => (p, (.ok (src p) : Except Nat RestoreSource))) = [] := by
    simp [restoreStops, List.filterMap_map]
  unfold restoreGroup
  simp only [if_neg hphase, hgen]
  rw [hsources _ fun p hp => ?source, hstops, List.foldl_map]
  · rfl
  case source =>
    obtain ⟨j, hj, hsrc⟩ := sound p hp
    simp only [hj, hsrc]

/-- A restored partition: its job is at the generation of the image, each recorded core at its record. -/
theorem foldl_restoreOne {p : Nat} {l : List Nat} (hl : l.Nodup) (hp : p ∈ l) {j : Job} (hj : (s.part p).job = some j) :
    (∃ failed, ((l.foldl (restoreOne src group g) s).part p).job = some (j.restoredTo g (src p).image failed))
      ∧ ∀ c ∈ s.coresOf p, ∀ i, Tbl.get? (src p).image.cores c.toNat = some i →
          ∃ (k : Core) (produced : BitVec 32), (l.foldl (restoreOne src group g) s).core c = k.restore produced i := by
  obtain ⟨v, hbefore, hafter⟩ := foldl_own_step (f := restoreOne src group g) (fun u q p h => restoreOne_partSame h) hl hp s
  have hjob : (v.part p).job = some j := by rw [hbefore.part, hj]
  refine ⟨by rw [hafter.part]; exact restoreOne_job hjob, fun c hc i hi => ?_⟩
  have hown : (restoreOne src group g v p).corePart c = some p :=
    (State.corePart_congr ((restoreOne_rtp hjob).trans hbefore.rtp) c).trans (State.corePart_of_mem_coresOf hc)
  rw [hafter.cores c hown]
  exact restoreOne_core hjob (by rwa [State.coresOf_congr hbefore.rtp]) hi
end

/-- A core at its record (R262, R272 step 6). -/
theorem Core.restore_record (k : Core) (produced : BitVec 32) (i : CoreImage) :
    (k.restore produced i).ctl.state = .stopped ∧ (k.restore produced i).ctl.pc = i.pc.toNat ∧ (k.restore produced i).ctl.half = i.half
      ∧ (k.restore produced i).regs.loops = i.loops ∧ (k.restore produced i).regs.sems = i.sems
      ∧ (k.restore produced i).sys.issueCount = i.issueCount ∧ ∀ r, (k.restore produced i).regs.readX r = 0 := by
  refine ⟨rfl, rfl, rfl, rfl, rfl, rfl, fun r => ?_⟩
  have hx : (k.restore produced i).regs.x = Vector.replicate 32 0 := rfl
  rw [CoreRegs.readX, hx]
  split
  · rfl
  · rw [Vector.getElem?_replicate]
    split <;> rfl

/-! ## The choice of the head (R272 steps 3–5) -/

theorem chooseAndRestore_restores {failed : FailedDevice} {spares : List SpareInfo} {group : GroupView} {s : State} {x : SpareInfo}
    (hhead : s.isHead = true) (hspare : s.chooseSpare failed spares = some x)
    (hplain : ∀ p ∈ (takeIdentity failed.id x.id failed.group s).groupParts, (takeIdentity failed.id x.id failed.group s).confidential (some p) = false) :
    chooseAndRestore failed spares group s = restoreGroup group (takeIdentity failed.id x.id failed.group s) := by
  have hnone : ((takeIdentity failed.id x.id failed.group s).groupParts.filter
      fun p => (takeIdentity failed.id x.id failed.group s).confidential (some p)) = [] :=
    List.filter_eq_nil_iff.2 fun p hp => by rw [hplain p hp]; exact Bool.false_ne_true
  simp only [chooseAndRestore, hhead, if_true, hspare, Option.map_some, hnone, List.all_nil]

theorem takeoverRestores_claim : Claim.TakeoverRestores := by
  intro failed spares group s x g hphase hhead hmay hkeep
  have hexec := exec_takeover_holds (group := group) (spares := spares) hphase (.inr ⟨hhead, hmay, hkeep⟩)
  have hfabric := fenceAndHold_fabric failed.id s
  have htakeover := takeIdentity_takeover failed.id x.id failed.group (fenceAndHold failed.id s)
  have hishead : (fenceAndHold failed.id s).isHead = true := by rw [State.isHead, hfabric]; exact beq_iff_eq.2 hhead
  intro d u hdrained hspare hplain hgen src hsrc
  have hphase3 : u.fabric.takeover.phase = 3 := by rw [htakeover, hfabric]; rfl
  have hspare' : u.fabric.takeover.spare = some x.id := by rw [htakeover]
  rw [allDrained hdrained, if_pos rfl, chooseAndRestore_restores hishead hspare hplain,
    restoreGroup_eq (by rw [hphase3]; decide) hgen hsrc] at hexec
  have hkept := foldl_keeps (·.fabric) (restoreOne src group g) (fun v q => restoreOne_fabric q) u.groupParts u
  have hrestored (p : Nat) (hp : p ∈ u.groupParts) (j : Job) (hj : (u.part p).job = some j) :=
    foldl_restoreOne (group := group) (g := g) (src := src) u.groupParts_nodup hp hj
  generalize u.groupParts.foldl (restoreOne src group g) u = t at hexec hkept hrestored
  refine ⟨_, hexec, rfl, ?spare, fun p hp => ?parts⟩
  case spare => exact (congrArg (fun f : Fabric => f.takeover.spare) hkept).trans hspare'
  case parts =>
    obtain ⟨j, hj, -⟩ := hsrc p hp
    obtain ⟨⟨failed, hjob⟩, hcores⟩ := hrestored p hp j hj
    refine ⟨⟨_, hjob, rfl, rfl, rfl, rfl⟩, fun c hc i hi => ?_⟩
    obtain ⟨k, produced, hk⟩ := hcores c hc i hi
    have hrecord := k.restore_record produced i
    rw [← hk] at hrecord
    exact hrecord

/-- Settles O43: the commit of a drain, the beginning of a takeover, its restore and its resume are each their own claim; what a takeover
does in one partition of the ring group stands to the end, since its steps in the others leave that partition and its cores alone. -/
theorem checkpointsAndTakeovers : Obligations.CheckpointsAndTakeovers :=
  ⟨checkpointCommit_claim, takeoverBegins_claim, takeoverRestores_claim, takeoverResume_claim⟩

end Sys2Proof.Machine
end

section
/-! # Semaphores, issue that resumes, and the sync unit's own instructions (R276–R280, R290, R412) -/

namespace Sys2Proof.Machine

/-! ## Semaphores that rise, and a WAIT's count taken (R276–R279) -/

/-- A semaphore after one of the 32 is set. -/
theorem CoreRegs.readS_set (g : CoreRegs) {r : Nat} (q : Nat) (v : BitVec 16) (hr : r < 32) :
    ({ g with sems := g.sems.setIfInBounds r v } : CoreRegs).readS q = if q = r then v else g.readS q := by
  split
  next hq => rw [hq, CoreRegs.readS, Vector.getElem?_setIfInBounds_self_of_lt hr, Option.getD_some]
  next hq => rw [CoreRegs.readS, Vector.getElem?_setIfInBounds_ne (Ne.symm hq), CoreRegs.readS]

section
variable (s : State) (c : CoreId) (r n : Nat) (sender : Option CoreId) (p : Place)

/-- Of the registers, an increase changes the one semaphore (R278). -/
theorem State.regs_incSem : ((s.incSem c r n sender p).core c).regs = { (s.core c).regs with
    sems := (s.core c).regs.sems.setIfInBounds r (BitVec.ofNat 16 (min 65535 (((s.core c).regs.readS r).toNat + n))) } := by
  unfold State.incSem
  dsimp only
  split
  · rw [State.core_touched, State.core_modCore]
  · rw [(State.logFault_spec _ c _).2.regs, State.core_touched, State.core_modCore]

/-- A semaphore rises by the count, up to 65,535 (R278). -/
theorem State.readS_incSem_count (hr : r < 32) :
    (((s.incSem c r n sender p).core c).regs.readS r).toNat = min 65535 (((s.core c).regs.readS r).toNat + n) := by
  rw [State.regs_incSem]
  exact CoreRegs.readS_setIfInBounds _ hr (Nat.min_le_left ..)

theorem State.readS_incSem_other {q : Nat} (hr : r < 32) (hq : q ≠ r) :
    ((s.incSem c r n sender p).core c).regs.readS q = (s.core c).regs.readS q := by
  rw [State.regs_incSem, CoreRegs.readS_set _ _ _ hr, if_neg hq]

/-- Past 65,535 the core's last fault is SEM_OVERFLOW (R278). -/
theorem State.lastFault_incSem (h : 65535 < ((s.core c).regs.readS r).toNat + n) :
    ((s.incSem c r n sender p).core c).ctl.lastFault = 0x12 := by
  unfold State.incSem
  rw [if_neg (by omega)]
  exact State.lastFault_logFault ..

@[simp] theorem State.incSem_signals : (s.incSem c r n sender p).signals = s.signals :=
  (congrArg State.signals (s.incSem_frame c r n sender p) :)

@[simp] theorem State.incSem_power : (s.incSem c r n sender p).power = s.power :=
  (congrArg State.power (s.incSem_frame c r n sender p) :)

/-- A WAIT's count leaves the one semaphore, and nothing else of its core (R279). -/
theorem State.core_takeSem : (s.takeSem c r n).core c = { s.core c with regs := { (s.core c).regs with
    sems := (s.core c).regs.sems.setIfInBounds r ((s.core c).regs.readS r - BitVec.ofNat 16 n) } } := by
  rw [State.takeSem, State.core_touched, State.modRegs, State.core_modCore]

theorem State.core_takeSem_other {d : CoreId} (h : d ≠ c) : (s.takeSem c r n).core d = s.core d := by
  rw [State.takeSem, State.core_touched, State.core_modRegs_other _ _ h]

theorem State.readS_takeSem (q : Nat) (hr : r < 32) : ((s.takeSem c r n).core c).regs.readS q =
    if q = r then (s.core c).regs.readS r - BitVec.ofNat 16 n else (s.core c).regs.readS q := by
  rw [State.core_takeSem]
  exact CoreRegs.readS_set _ _ _ hr
end

/-! ## Issue that resumes after a hold (R279, R290, R412) -/

/-- A core issues again two cycles after cycle T; its registers, memory and the other cores are as they were. -/
structure Resumed (c : CoreId) (T : Nat) (s t : State) : Prop where
  state : (t.core c).ctl.state = .running
  hold : (t.core c).ctl.hold = .none
  now : (t.core c).flight.now = T + 2
  regs : (t.core c).regs = (s.core c).regs
  mem : t.mem = s.mem
  cores : ∀ d, d ≠ c → t.core d = s.core d

theorem resumed_countHeld (c : CoreId) (elapsed T : Nat) (held s : State) : Resumed c T s (countHeld c elapsed held (resumeIssue c T s)) := by
  obtain ⟨el, same⟩ := (resumeIssue c T s).countPerf_spec c 0x03 (max 1 (clockedCycles c elapsed held) + 1)
  have hcore := s.core_modCore c fun k => { k with ctl := { k.ctl with state := .running, hold := .none }, flight := { k.flight with now := T + 2 } }
  rw [show (resumeIssue c T s).core c = _ from hcore] at same
  exact ⟨same.state, same.hold, congrArg CoreFlight.now same.flight, same.regs, State.countPerf_mem ..,
    fun d hd => (el.cores d hd).trans (s.core_modCore_other _ hd)⟩

/-- With a descriptor in a queue, or one that has been there since the hold began, every cycle counts (R412). -/
theorem clockedCycles_of_fed {c : CoreId} {s : State} (elapsed : Nat)
    (h : (s.core c).flight.queuesEmpty = false ∨ (s.core c).flight.fed = true) : clockedCycles c elapsed s = elapsed := by
  have hclocked : ((s.core c).flight.queuesEmpty && !(s.core c).flight.fed) = false := by
    obtain h | h := h <;> simp [h]
  simp [clockedCycles, hclocked]

/-! ## What an issue finds and leaves of the semaphores -/

/-- The ends of iterations change no semaphore (R74). -/
theorem loopEnds_sems (index n : Nat) (g : CoreRegs) : (loopEnds index n g).1.sems = g.sems := by
  induction n generalizing g with
  | zero => rfl
  | succ j ih =>
    unfold loopEnds
    dsimp only
    split
    · split
      · rfl
      · exact ih _
    · exact ih g

theorem advancePc_sems (g : CoreRegs) (index words : Nat) : (advancePc g index words).1.sems = g.sems := loopEnds_sems index 4 g

theorem Continues.sems {c : CoreId} {s u t : State} {n : Nat} (h : Continues c s u t n) : (t.core c).regs.sems = (u.core c).regs.sems := by
  rw [h.regs, advancePc_sems]

theorem State.nextIssue_sems (s : State) (c : CoreId) : (s.nextIssue c).k.regs.sems = (s.coreAtIssue c).regs.sems := by
  unfold State.nextIssue Issue.cleared State.coreAtIssue
  dsimp only
  split <;> rw [State.core_modCore] <;> rfl

/-- The semaphores that an instruction finds at the start of its cycle (R277). -/
theorem State.nextIssue_semsBefore (s : State) (c : CoreId) :
    (s.nextIssue c).semsBefore = ((runTo c ((s.core c).flight.now - 1) s).core c).regs.sems := by
  unfold State.nextIssue Issue.cleared
  split <;> rfl

/-- An instruction whose immediate effect leaves the core's control block as it is, and which holds issue. -/
theorem issue_holds_of_ctl {r : CoreRow} {c : CoreId} {s : State} (h : Issues r c s) {body : Issue → Except FaultReq Effect} {e : Effect}
    {w : Hold} {u : State} (hb : body (s.nextIssue c) = .ok e) (hu : e.st = u) (hctl : (u.core c).ctl = ((s.nextIssue c).st.core c).ctl)
    (hf : e.fault = none) (hfl : e.flow = .wait w) (ha : e.acts = []) : Holds c s u (issue r c body s) w :=
  issue_holds h hb hu (hctl ▸ h.running) (hctl ▸ h.unstopped) hf hfl ha

/-! ## SIGNAL, SEMSET and SEMRD (R277, R280) -/

/-- A SIGNAL that no fence mark holds is one increase a cycle on (R277, R285). -/
theorem signalSem_free {x : Issue} (h : x.k.flight.holdsEffects = false) :
    signalSem x = .ok { x.plain with acts := [(x.now + 1, phaseResult, .semInc (wDst x.w) (wImm x.w % 65536) none)] } := by
  simp only [signalSem, h, Bool.false_eq_true, if_false]
  rfl

theorem semaphoreInstructions_claim : Claim.SemaphoreInstructions := by
  intro c s
  refine ⟨fun h hfree => ?signal, fun h hmark => ?semset, fun h => ?semrd⟩
  case signal => exact ⟨_, rfl, issue_next h (signalSem_free hfree) rfl rfl rfl rfl rfl rfl⟩
  case semset => exact ⟨_, rfl, issue_next h (checked_poisonX (List.forall_mem_singleton.2 hmark)) rfl rfl rfl rfl rfl rfl⟩
  case semrd =>
    refine ⟨_, rfl, issue_next (body := readSem) h rfl rfl rfl rfl rfl rfl ?_⟩
    dsimp only
    rw [xResult, State.nextIssue_semsBefore]
    rfl

/-! ## WAIT and WAIT_RELEASE (R279, R280, R412) -/

theorem waitSem_taken {x : Issue} {c : CoreId} (hc : x.core = c) (h : wImm x.w % 65536 ≤ (x.k.regs.readS (wDst x.w)).toNat) :
    waitSem x = .ok { x.plain with st := x.st.takeSem c (wDst x.w) (wImm x.w % 65536) } := by
  subst hc
  exact if_pos h

theorem waitSem_held {x : Issue} (h : ¬ wImm x.w % 65536 ≤ (x.k.regs.readS (wDst x.w)).toNat) :
    waitSem x = .ok { x.plain with flow := .wait (.wait (BitVec.ofNat 5 (wDst x.w)) (BitVec.ofNat 16 (wImm x.w % 65536))) } := if_neg h

theorem completes_wait {c : CoreId} {s : State} (h : Issues (syncRow 0x02 (fun _ _ => true) legalSemCount) c s) :
    let x := s.nextIssue c
    let n := wImm x.w % 65536
    Completes (.wait c) s fun t =>
      if n ≤ (x.k.regs.readS (wDst x.w)).toNat then Continues c s (x.st.takeSem c (wDst x.w) n) t 1
      else Holds c s x.st t (.wait (BitVec.ofNat 5 (wDst x.w)) (BitVec.ofNat 16 n)) := by
  intro x n
  refine ⟨_, rfl, ?_⟩
  split
  next hn => exact issue_continues_of_ctl h (waitSem_taken (s.nextIssue_core c) hn) rfl (by rw [State.core_takeSem]) rfl rfl rfl
  next hn => exact issue_holds_of_ctl h (waitSem_held hn) rfl rfl rfl rfl rfl

theorem takeSem_spec (c : CoreId) (s : State) {r : Nat} (n : Nat) (hr : r < 32) :
    let t := s.takeSem c r n
    (t.core c).regs.readS r = (s.core c).regs.readS r - BitVec.ofNat 16 n
      ∧ (∀ q, q ≠ r → (t.core c).regs.readS q = (s.core c).regs.readS q) ∧ (t.core c).regs.x = (s.core c).regs.x
      ∧ t.mem = s.mem ∧ ∀ d, d ≠ c → t.core d = s.core d :=
  ⟨by rw [State.readS_takeSem _ _ _ _ _ hr, if_pos rfl], fun q hq => by rw [State.readS_takeSem _ _ _ _ _ hr, if_neg hq],
    by rw [State.core_takeSem], State.takeSem_mem .., fun _ hd => State.core_takeSem_other _ _ _ _ hd⟩

theorem exec_waitRelease {c : CoreId} {elapsed : Nat} {s : State} {r : BitVec 5} {n : BitVec 16}
    (hh : (s.core c).ctl.hold = .wait r n) (hs : (s.core c).ctl.state = .waiting)
    (hd : ((runTo c (heldCycle c elapsed s) s).core c).ctl.state = .waiting)
    (hn : n.toNat ≤ (((runTo c (heldCycle c elapsed s) s).core c).regs.readS r.toNat).toNat) :
    exec (.waitRelease c elapsed) s = .next (countHeld c elapsed s (resumeIssue c (heldCycle c elapsed s)
      ((runTo c (heldCycle c elapsed s) s).takeSem c r.toNat n.toNat))) := by
  change execWaitRelease c elapsed s = _
  simp only [execWaitRelease, hh, hs, hd, hn, ne_eq, not_true, if_true, if_false]

theorem waitAndRelease_claim : Claim.WaitAndRelease := by
  refine ⟨fun c s h => completes_wait h, fun c s r n hr => takeSem_spec c s n hr, fun c elapsed s r n hh hs => ?_⟩
  intro T d
  refine ⟨fun hfed => ?clock, fun hd hn => ⟨_, exec_waitRelease hh hs hd hn, ?release⟩⟩
  case clock => exact congrArg (fun n => (s.core c).flight.now - 1 + max 1 n) (clockedCycles_of_fed elapsed hfed)
  case release =>
    obtain ⟨hstate, hhold, hnow, hregs, hmem, hcores⟩ := resumed_countHeld c elapsed T s (d.takeSem c r.toNat n.toNat)
    obtain ⟨htaken, -, -, htmem, htcores⟩ := takeSem_spec c d n.toNat r.isLt
    rw [BitVec.ofNat_toNat, BitVec.setWidth_eq] at htaken
    exact ⟨by rw [hregs, htaken], hstate, hhold, hnow, hmem.trans htmem, fun e he => (hcores e he).trans (htcores e he)⟩

/-- Settles O18: each instruction is one scheduled act or one immediate effect, and the release is that effect once issue resumes. -/
theorem semaphoresAndWaits : Obligations.SemaphoresAndWaits := ⟨semaphoreInstructions_claim, waitAndRelease_claim⟩

end Sys2Proof.Machine
end

section
/-! # Remote signals, fences and the effects they hold (R209, R253, R276, R278, R281–R285, R414) -/

namespace Sys2Proof.Machine

/-! ## A press entry made available (R253, R261) -/

@[simp] theorem State.pressTouched_cores (s : State) (p gen : Nat) : (s.pressTouched p gen).cores = s.cores := by
  unfold State.pressTouched
  split
  · rfl
  · split <;> rfl

@[simp] theorem State.pressTouched_press (s : State) (p gen : Nat) : (s.pressTouched p gen).press = s.press := by
  unfold State.pressTouched
  split
  · rfl
  · split <;> rfl

@[simp] theorem pressSignal_cores (c : CoreId) (u : Nat) (s : State) : (pressSignal c u s).cores = s.cores := by
  unfold pressSignal
  dsimp only
  split
  · rfl
  · split
    · rfl
    · split
      · rfl
      · rw [State.pressTouched_cores, State.modPress_cores]

/-- A signal that the ring has room for makes one more entry available. -/
theorem pressSignal_press {c : CoreId} {u : Nat} {s : State} (h : (s.pressUnit u).available < s.pressEntries (s.corePart c)) :
    (pressSignal c u s).press = (s.modPress u fun q => { q with available := q.available + 1 }).press := by
  unfold pressSignal
  dsimp only
  rw [if_neg (Nat.not_le.2 h)]
  split
  · rfl
  · split
    · rfl
    · exact State.pressTouched_press ..

/-! ## An effect that takes place (R277, R281, R288) -/

@[simp] theorem State.noteArrival_cores (s : State) (c : CoreId) (bid : BitVec 10) (epoch : BitVec 16) : (s.noteArrival c bid epoch).cores = s.cores := by
  unfold State.noteArrival
  split
  · rfl
  · split
    · rfl
    · dsimp only
      split <;> rfl

/-- A signal sent on its way to the core that a target word names (R281). -/
def State.sendSignal (s : State) (c : CoreId) (v : Word) : State :=
  { s with signals := s.signals ++ [{ sender := c, target := targetCore v, sem := targetSem v, count := targetCount v }] }

@[simp] theorem State.sendSignal_cores (s : State) (c : CoreId) (v : Word) : (s.sendSignal c v).cores = s.cores := rfl

theorem performEffect_core {c : CoreId} {h : HeldEffect} {v : Word} (s : State) (he : h.effect = .rsignal v) (hv : targetPress? v = false) :
    performEffect c h s = s.sendSignal c v := by
  simp only [performEffect, he, hv, Bool.false_eq_true, if_false, State.sendSignal]

/-- A signal to the press unit that a target word names: its ring, and the domains on the way (R253, R414). -/
def State.signalPress (s : State) (c : CoreId) (v : Word) : State :=
  wakeFor (pathDomains (dieUnit c) (targetUnit v / 8) ++ stackDomains (targetUnit v / 2)) (pressSignal c (targetUnit v) s)

@[simp] theorem State.signalPress_cores (s : State) (c : CoreId) (v : Word) : (s.signalPress c v).cores = s.cores :=
  (wakeFor_cores ..).trans (pressSignal_cores ..)

@[simp] theorem State.signalPress_mem (s : State) (c : CoreId) (v : Word) : (s.signalPress c v).mem = s.mem :=
  (wakeFor_mem ..).trans (pressSignal_mem ..)

theorem State.signalPress_pressUnit {s : State} {c : CoreId} {v : Word} (h : (s.pressUnit (targetUnit v)).available < s.pressEntries (s.corePart c))
    (q : Nat) : (s.signalPress c v).pressUnit q = (s.modPress (targetUnit v) fun q => { q with available := q.available + 1 }).pressUnit q :=
  State.pressUnit_congr ((wakeFor_press ..).trans (pressSignal_press h)) q

theorem performEffect_press {c : CoreId} {h : HeldEffect} {v : Word} (s : State) (he : h.effect = .rsignal v) (hv : targetPress? v = true) :
    performEffect c h s = s.signalPress c v := by
  simp only [performEffect, he, hv, if_true, State.signalPress]

theorem performEffect_signal {c : CoreId} {h : HeldEffect} {r : BitVec 5} {n : BitVec 16} (s : State) (he : h.effect = .signal r n) :
    performEffect c h s = s.incSem c r.toNat n.toNat none { index := h.index, half := h.half, count := h.count } := by
  simp only [performEffect, he]

/-- An effect changes nothing that its core has in flight. -/
theorem performEffect_flight (c : CoreId) (h : HeldEffect) (s : State) : ((performEffect c h s).core c).flight = (s.core c).flight := by
  cases he : h.effect with
  | signal r n => rw [performEffect_signal s he, State.flight_incSem]
  | rsignal v =>
    cases hv : targetPress? v with
    | true => rw [performEffect_press s he hv, State.core_congr (s.signalPress_cores c v)]
    | false => rw [performEffect_core s he hv, State.core_congr (s.sendSignal_cores c v)]
  | arrive bid epoch waits sem image =>
    simp only [performEffect, he]
    exact congrArg Core.flight (State.core_congr (s.noteArrival_cores c bid epoch) c)

theorem sendEffect_free {x : Issue} {c : CoreId} (e : SyncEffect) (hc : x.core = c) (h : x.k.flight.holdsEffects = false) :
    sendEffect x e = performEffect c (x.held e) x.st := by
  subst hc
  exact if_neg (by simp [h])

theorem sendEffect_held {x : Issue} {c : CoreId} (e : SyncEffect) (hc : x.core = c) (h : x.k.flight.holdsEffects = true) :
    sendEffect x e = x.st.modCore c fun k => { k with flight := { k.flight with held := k.flight.held ++ [x.held e] } } := by
  subst hc
  exact if_pos h

/-! ## RSIGNAL (R281, R282) -/

theorem Continues.press {c : CoreId} {s u t : State} {n : Nat} (h : Continues c s u t n) : t.press = u.press := by
  rw [← h.elsewhere.device]

/-- An RSIGNAL that is not refused and that no fence mark holds is its effect. -/
theorem remoteSignal_sent {x : Issue} {c : CoreId} {u : State} (hc : x.core = c) (hm : x.k.regs.markX (wSrc1 x.w) = false)
    (hr : targetRefused x.st c (x.k.regs.readX (wSrc1 x.w)) = false) (hfree : x.k.flight.holdsEffects = false)
    (hu : performEffect c (x.held (.rsignal (x.k.regs.readX (wSrc1 x.w)))) x.st = u) :
    remoteSignal x = .ok { x.plain with reads := [auditX (wSrc1 x.w)], st := u } := by
  rw [← hu, ← sendEffect_free _ hc hfree]
  subst hc
  simp only [remoteSignal, Issue.x, hr, Bool.false_eq_true, if_false]
  exact checked_poisonX (List.forall_mem_singleton.2 hm)

theorem remoteSignal_refused {x : Issue} {c : CoreId} (hc : x.core = c) (hm : x.k.regs.markX (wSrc1 x.w) = false)
    (hr : targetRefused x.st c (x.k.regs.readX (wSrc1 x.w)) = true) :
    ∃ p, remoteSignal x = .ok { x.plain with
      reads := [auditX (wSrc1 x.w)], st := x.st.logFault c (faultEntry (badCore (x.k.regs.readX (wSrc1 x.w))) p) } := by
  subst hc
  simp only [remoteSignal, Issue.x, hr, if_true]
  exact ⟨_, checked_poisonX (List.forall_mem_singleton.2 hm)⟩

/-- An instruction whose immediate effect is an entry in its core's log. -/
theorem issue_continues_of_logFault {r : CoreRow} {c : CoreId} {s : State} (h : Issues r c s) {body : Issue → Except FaultReq Effect}
    {e : Effect} {f : FaultEntry} (hb : body (s.nextIssue c) = .ok e) (hu : e.st = (s.nextIssue c).st.logFault c f) (hf : e.fault = none)
    (hfl : e.flow = .next 1) (ha : e.acts = []) :
    let u := (s.nextIssue c).st.logFault c f
    Continues c s u (issue r c body s) 1 ∧ SameElsewhere c (s.atIssue c) u ∧ (u.core c).ctl.lastFault = f.code
      ∧ (u.core c).regs = (s.nextIssue c).k.regs := by
  obtain ⟨el, same⟩ := (s.nextIssue c).st.logFault_spec c f
  exact ⟨issue_continues h hb hu (same.state.trans h.running) (by rw [same.audit]; exact h.unstopped) hf hfl ha, (s.nextIssue_st c).trans el,
    State.lastFault_logFault .., same.regs.trans (congrArg Core.regs (s.nextIssue_st_core c))⟩

theorem remoteSignal_claim : Claim.RemoteSignal := by
  intro c s x v hm
  have hc : x.core = c := s.nextIssue_core c
  refine ⟨fun h hfree hcore => ⟨fun hr => ?sent, fun hr => ?refused⟩, fun h hfree hpress hr hroom => ?press⟩
  case sent =>
    have hb := remoteSignal_sent hc hm hr hfree (performEffect_core x.st rfl hcore)
    have hctl := congrArg Core.ctl (State.core_congr (x.st.sendSignal_cores c v) c)
    exact ⟨_, rfl, issue_continues_of_ctl h hb rfl hctl rfl rfl rfl⟩
  case refused =>
    obtain ⟨p, hb⟩ := remoteSignal_refused hc hm hr
    exact ⟨_, rfl, _, issue_continues_of_logFault h hb rfl rfl rfl rfl⟩
  case press =>
    have hb := remoteSignal_sent hc hm hr hfree (performEffect_press x.st rfl hpress)
    have hctl := congrArg Core.ctl (State.core_congr (x.st.signalPress_cores c v) c)
    obtain ⟨t, ht, hcont⟩ : Completes (.rsignalPress c) s fun t => Continues c s (x.st.signalPress c v) t 1 :=
      ⟨_, rfl, issue_continues_of_ctl h hb rfl hctl rfl rfl rfl⟩
    have hunit (q : Nat) := (State.pressUnit_congr hcont.press q).trans (State.signalPress_pressUnit hroom q)
    refine ⟨t, ht, ?_, fun q hq => ?_, hcont.mem.trans (State.signalPress_mem ..),
      fun d hd => (hcont.elsewhere.cores d hd).trans (State.core_congr (x.st.signalPress_cores c v) d)⟩
    · exact (congrArg Press.available (hunit _)).trans (congrArg Press.available (State.pressUnit_modPress ..))
    · exact (hunit q).trans (State.pressUnit_modPress_other _ _ hq)

/-! ## Fences and held effects (R209, R285) -/

/-- The core after a fence of a class is issued: its mark stands last, and marks whose writes are complete have gone (R209). -/
def Core.marked (cls : FenceClass) (produced : BitVec 32) (k : Core) : Core :=
  { k with flight := { k.flight with
      marks := (k.flight.marks.filter fun m => !k.flight.markDone m) ++ [{ cls := cls, seq := k.flight.seq, produced := produced }] } }

section
variable (cls : FenceClass) (produced : BitVec 32) (k : Core)

@[simp] theorem Core.marked_ctl : (k.marked cls produced).ctl = k.ctl := rfl
@[simp] theorem Core.marked_regs : (k.marked cls produced).regs = k.regs := rfl
@[simp] theorem Core.marked_sched : (k.marked cls produced).flight.sched = k.flight.sched := rfl
theorem Core.marked_marks : (k.marked cls produced).flight.marks =
    (k.flight.marks.filter fun m => !k.flight.markDone m) ++ [{ cls := cls, seq := k.flight.seq, produced := produced }] := rfl
end

theorem placeMark_eq (cls : FenceClass) {x : Issue} {c : CoreId} (hc : x.core = c) :
    placeMark cls x = .ok { x.plain with st := x.st.modCore c (Core.marked cls (x.st.fabricProduced c)) } := by
  subst hc
  rfl

/-- A fence's row completes with its mark placed. -/
theorem completes_fence {i : Instr} {opc : Nat} (cls : FenceClass) {c : CoreId} {s : State}
    (hi : exec i s = issueOut (syncRow opc (fun _ _ => true) fun _ => true) c (placeMark cls) s)
    (h : Issues (syncRow opc (fun _ _ => true) fun _ => true) c s) :
    let x := s.nextIssue c
    Completes i s fun t => ∃ u, Continues c s u t 1 ∧ SameElsewhere c (s.atIssue c) u ∧ (u.core c).regs = x.k.regs
      ∧ (u.core c).flight.sched = x.k.flight.sched
      ∧ (u.core c).flight.marks = (x.k.flight.marks.filter fun m => !x.k.flight.markDone m)
        ++ [{ cls := cls, seq := x.k.flight.seq, produced := x.st.fabricProduced c }] := by
  have hcore := (s.nextIssue c).st.core_modCore c (Core.marked cls ((s.nextIssue c).st.fabricProduced c))
  have hcont := issue_continues_of_ctl h (placeMark_eq cls (s.nextIssue_core c)) rfl (by rw [hcore, Core.marked_ctl]) rfl rfl rfl
  rw [State.nextIssue_st_core] at hcore
  exact ⟨_, hi, _, hcont, (s.nextIssue_st c).trans (.modCore ..), by rw [hcore, Core.marked_regs], by rw [hcore, Core.marked_sched],
    by rw [hcore, Core.marked_marks]⟩

/-- A SIGNAL behind fence marks that are not complete is held (R285). -/
theorem signalSem_held {x : Issue} (h : x.k.flight.holdsEffects = true) :
    signalSem x = .ok { x.plain with st := sendEffect x (.signal (BitVec.ofNat 5 (wDst x.w)) (BitVec.ofNat 16 (semCount x.w))) } := if_pos h

theorem completes_signal_held {c : CoreId} {s : State} (h : Issues (syncRow 0x01 (fun _ _ => true) legalSemCount) c s)
    (hheld : (s.nextIssue c).k.flight.holdsEffects = true) :
    Completes (.signal c) s fun t => (t.core c).flight.held.length = (s.coreAtIssue c).flight.held.length + 1
      ∧ (t.core c).flight.sched = (s.coreAtIssue c).flight.sched ∧ (t.core c).regs.sems = (s.coreAtIssue c).regs.sems := by
  have hcont := issue_continues_of_ctl h (signalSem_held hheld) (sendEffect_held _ (s.nextIssue_core c) hheld) (by rw [State.core_modCore]) rfl rfl rfl
  refine ⟨_, rfl, ?_, ?_, ?_⟩
  · rw [hcont.held, State.core_modCore, State.nextIssue_st_core, State.nextIssue_flight, List.length_append, List.length_singleton]
  · rw [hcont.sched, State.core_modCore, State.nextIssue_st_core, State.nextIssue_flight]
  · rw [hcont.sems, State.core_modCore, State.nextIssue_st_core, State.nextIssue_sems]

theorem exec_fenceHeldRelease {c : CoreId} {s : State} {h : HeldEffect} {rest : List HeldEffect}
    (hheld : ((runPending c s).core c).flight.held = h :: rest)
    (hdone : ∀ m ∈ ((runPending c s).core c).flight.marks, h.seq ≤ m.seq ∨ ((runPending c s).core c).flight.markDone m = true) :
    exec (.fenceHeldRelease c) s
      = .next (performEffect c h ((runPending c s).modCore c fun k => { k with flight := { k.flight with held := rest } })) := by
  have hall : (((runPending c s).core c).flight.marks.all fun m => decide (h.seq ≤ m.seq) || ((runPending c s).core c).flight.markDone m) = true := by
    simpa using hdone
  change execFenceHeldRelease c s = _
  simp only [execFenceHeldRelease, hheld, hall, if_true]

theorem fences_claim : Claim.Fences := by
  refine ⟨?fence, fun c s h hheld => completes_signal_held h hheld, fun c s h rest => ?release⟩
  case fence =>
    simp only [List.forall_mem_cons, List.not_mem_nil, false_implies, implies_true, and_true]
    exact ⟨fun _ _ => completes_fence .l rfl, fun _ _ => completes_fence .m rfl, fun _ _ => completes_fence .f rfl⟩
  case release =>
    intro d hheld hdone
    refine ⟨_, exec_fenceHeldRelease hheld hdone, ?_⟩
    have hcore := d.core_modCore c fun k => { k with flight := { k.flight with held := rest } }
    refine ⟨?_, performEffect_mem .., fun r n he => ?_, fun v he hv => ?_⟩
    · rw [performEffect_flight, hcore]
    · rw [performEffect_signal _ he, State.readS_incSem_count _ _ _ _ _ _ r.isLt, hcore]
    · rw [performEffect_core _ he hv]
      rfl

/-! ## A signal arrives (R276, R278, R283, R414) -/

/-- The first element that satisfies a test is taken from between those before and after it. -/
theorem takeFirst_append {α : Type} {test : α → Bool} {before : List α} {f : α} (after : List α) (hb : ∀ x ∈ before, test x = false)
    (hf : test f = true) : takeFirst test (before ++ f :: after) = some (f, before ++ after) := by
  induction before with
  | nil => simp only [List.nil_append, takeFirst, hf, if_true]
  | cons x t ih =>
    obtain ⟨hx, ht⟩ := List.forall_mem_cons.1 hb
    simp only [List.cons_append, takeFirst, hx, Bool.false_eq_true, if_false, ih ht, Option.map_some]

/-- The state in which a signal arrives: it has left the way, and the domains that it crossed are awake. -/
def signalArrives (sender target : CoreId) (rest : List Flying) (s : State) : State :=
  wakeFor (pathDomains (dieUnit sender) (dieUnit target) ++ [rowDomain target]) { s with signals := rest }

/-- Of what the arrival of a signal rests on, whatever free values it draws, the way and the domains alone have changed. -/
theorem signalArrives_spec (sender target : CoreId) (rest : List Flying) (s : State) (free : Nat) :
    let u : State := { signalArrives sender target rest s with free := free }
    (∀ d, u.core d = s.core d) ∧ u.mem = s.mem ∧ u.signals = rest
      ∧ ∀ d, u.domain d = if d ∈ pathDomains (dieUnit sender) (dieUnit target) ++ [rowDomain target] ∧ s.domain d = .doze then .on else s.domain d :=
  ⟨fun _ => wakeFor_core .., wakeFor_mem .., (congrArg State.signals (wakeFor_frame _ { s with signals := rest }) :),
    fun d => wakeFor_domain _ d { s with signals := rest }⟩

/-- The oldest signal from a core to another is an increase of its semaphore, which takes free values for its place. -/
theorem exec_semaphoreIncrement {s : State} {before after : List Flying} {f : Flying} (hs : s.signals = before ++ f :: after)
    (hb : ∀ g ∈ before, ¬ (g.sender = f.sender ∧ g.target = f.target)) (hr : (s.core f.target).flight.resetting = false) :
    ∃ (free : Nat) (p : Place), exec (.semaphoreIncrement f.sender f.target f.sem) s =
      .next (({ signalArrives f.sender f.target (before ++ after) s with free := free } : State).incSem f.target f.sem.toNat f.count.toNat
        (some f.sender) p) := by
  have htake : takeFirst (fun g : Flying => g.sender == f.sender && g.target == f.target) s.signals = some (f, before ++ after) := by
    rw [hs]
    exact takeFirst_append after (fun g hg => by simpa using hb g hg) (by simp)
  have hreset : ((signalArrives f.sender f.target (before ++ after) s).core f.target).flight.resetting = false := by
    rw [signalArrives, wakeFor_core]
    exact hr
  change ∃ free p, execSemaphoreIncrement f.sender f.target f.sem s = _
  unfold execSemaphoreIncrement
  rw [htake]
  dsimp only
  rw [if_neg (not_not.2 rfl), ← signalArrives, hreset, if_neg Bool.false_ne_true]
  split
  · exact ⟨_, _, rfl⟩
  · exact ⟨_, _, rfl⟩

theorem signalArrives_claim : Claim.SignalArrives := by
  intro sender target sem s before after n hs hb hr
  obtain ⟨free, p, hexec⟩ := exec_semaphoreIncrement hs hb hr
  refine ⟨_, hexec, ?_⟩
  obtain ⟨hcore, hmem, hsignals, hdomain⟩ := signalArrives_spec sender target (before ++ after) s free
  generalize ({ signalArrives sender target (before ++ after) s with free := free } : State) = u at *
  refine ⟨(u.incSem_signals ..).trans hsignals, ?_, fun r h => ?_, ?_, (u.incSem_mem ..).trans hmem, fun d hd => ?_, fun hover => ?_, fun d => ?_⟩
  · rw [u.readS_incSem_count _ _ _ _ _ sem.isLt, hcore]
  · rw [u.readS_incSem_other _ _ _ _ _ sem.isLt h, hcore]
  · rw [u.regs_incSem, hcore]
  · rw [u.core_incSem_other _ _ _ _ hd, hcore]
  · exact u.lastFault_incSem _ _ _ _ _ (by rw [hcore]; exact hover)
  · rw [State.domain, State.incSem_power, ← State.domain, hdomain]

/-- Settles O19: a signal, a mark and a held effect are each one immediate effect; an arrival is one increase of a semaphore. -/
theorem remoteSignalsAndFences : Obligations.RemoteSignalsAndFences := ⟨remoteSignal_claim, signalArrives_claim, fences_claim⟩

end Sys2Proof.Machine
end

section
/-! # BAR and its arrival at the die node (R283, R288–R292, R414) -/

namespace Sys2Proof.Machine

/-! ## BAR (R288, R290) -/

/-- An arrival sent on its way to its die node, noted where it is for the step barrier (R261, R288). -/
def State.sendArrival (s : State) (a : FlyingArrival) : State :=
  { s.noteArrival a.core a.bid a.epoch with arrivals := s.arrivals ++ [a] }

@[simp] theorem State.noteArrival_arrivals (s : State) (c : CoreId) (bid : BitVec 10) (epoch : BitVec 16) :
    (s.noteArrival c bid epoch).arrivals = s.arrivals := by
  unfold State.noteArrival
  split
  · rfl
  · split
    · rfl
    · dsimp only
      split <;> rfl

@[simp] theorem State.sendArrival_cores (s : State) (a : FlyingArrival) : (s.sendArrival a).cores = s.cores := s.noteArrival_cores ..
@[simp] theorem State.sendArrival_mem (s : State) (a : FlyingArrival) : (s.sendArrival a).mem = s.mem := s.noteArrival_mem ..
@[simp] theorem State.sendArrival_arrivals (s : State) (a : FlyingArrival) : (s.sendArrival a).arrivals = s.arrivals ++ [a] := rfl

/-- What an arrival on its way says of itself: its core, barrier and epoch, and whether the core waits. -/
def FlyingArrival.key (a : FlyingArrival) : CoreId × BitVec 10 × BitVec 16 × Bool := (a.core, a.bid, a.epoch, a.waits)

theorem performEffect_arrive {c : CoreId} {h : HeldEffect} {bid : BitVec 10} {epoch : BitVec 16} {waits : Bool} {sem : BitVec 5}
    {image : CoreImage} (s : State) (he : h.effect = .arrive bid epoch waits sem image) :
    ∃ a : FlyingArrival, a.key = (c, bid, epoch, waits) ∧ performEffect c h s = s.sendArrival a := by
  simp only [performEffect, he, State.noteArrival_arrivals]
  exact ⟨{ core := c, bid := bid, epoch := epoch, waits := waits, sem := sem, .. }, rfl, rfl⟩

/-- A BAR on unmarked registers that no fence mark holds sends its arrival, and in wait mode holds issue (R290). -/
theorem barArrive_sent (waits : Bool) {x : Issue} {c : CoreId} (hc : x.core = c) (h1 : x.k.regs.markX (wSrc1 x.w) = false)
    (h2 : x.k.regs.markX (wSrc2 x.w) = false) (hfree : x.k.flight.holdsEffects = false) :
    let bid : BitVec 10 := (x.k.regs.readX (wSrc1 x.w)).truncate 10
    let epoch : BitVec 16 := (x.k.regs.readX (wSrc2 x.w)).truncate 16
    ∃ a : FlyingArrival, a.key = (c, bid, epoch, waits) ∧ barArrive waits x = .ok { x.plain with
      st := x.st.sendArrival a, reads := [auditX (wSrc1 x.w), auditX (wSrc2 x.w)]
      flow := if waits then .wait (.bar bid epoch (BitVec.ofNat 6 (wDst x.w))) else .next 1 } := by
  intro bid epoch
  obtain ⟨a, hkey, hsent⟩ := performEffect_arrive (c := c) (h := x.held (.arrive bid epoch waits (BitVec.ofNat 5 (bits (wImm x.w) 1 5))
    (coreImageAt x.k (advancePc x.k.regs x.k.ctl.pc 1)))) x.st rfl
  refine ⟨a, hkey, ?_⟩
  rw [← hsent, ← sendEffect_free _ hc hfree]
  exact checked_poisonX (List.forall_mem_cons.2 ⟨h1, List.forall_mem_singleton.2 h2⟩)

/-- After an instruction whose immediate effect was to send an arrival: the way, memory and the other cores. -/
theorem sent_of_sameElsewhere {c : CoreId} {u t : State} {a : FlyingArrival} (h : SameElsewhere c (u.sendArrival a) t) :
    t.arrivals.map FlyingArrival.key = u.arrivals.map FlyingArrival.key ++ [a.key] ∧ t.mem = u.mem ∧ ∀ d, d ≠ c → t.core d = u.core d := by
  obtain ⟨hdevice, hcores⟩ := h
  refine ⟨?_, ?_, fun d hd => (hcores d hd).trans (State.core_congr (u.sendArrival_cores a) d)⟩
  · rw [show t.arrivals = (u.sendArrival a).arrivals by rw [← hdevice], State.sendArrival_arrivals, List.map_append, List.map_singleton]
  · rw [show t.mem = (u.sendArrival a).mem by rw [← hdevice], State.sendArrival_mem]

theorem barIssue_claim : Claim.BarIssue := by
  intro c s x bid epoch sent h1 h2 hfree
  have hctl (a : FlyingArrival) := congrArg Core.ctl (State.core_congr (x.st.sendArrival_cores a) c)
  refine ⟨fun h => ?wait, fun h => ?signal⟩
  case wait =>
    obtain ⟨a, hkey, hb⟩ := barArrive_sent true (s.nextIssue_core c) h1 h2 hfree
    obtain ⟨t, ht, hholds⟩ : Completes (.barWaitMode c) s fun t =>
        Holds c s (x.st.sendArrival a) t (.bar bid epoch (BitVec.ofNat 6 (wDst x.w))) :=
      ⟨_, rfl, issue_holds_of_ctl h hb rfl (hctl a) rfl rfl rfl⟩
    have hsent := sent_of_sameElsewhere hholds.elsewhere
    rw [hkey] at hsent
    exact ⟨t, ht, hsent, hholds.state, hholds.hold⟩
  case signal =>
    obtain ⟨a, hkey, hb⟩ := barArrive_sent false (s.nextIssue_core c) h1 h2 hfree
    obtain ⟨t, ht, hcont⟩ : Completes (.barSignalMode c) s fun t => Continues c s (x.st.sendArrival a) t 1 :=
      ⟨_, rfl, issue_continues_of_ctl h hb rfl (hctl a) rfl rfl rfl⟩
    have hsent := sent_of_sameElsewhere hcont.elsewhere
    have hcore := (State.core_congr (x.st.sendArrival_cores a) c).trans (s.nextIssue_st_core c)
    rw [hkey] at hsent
    exact ⟨t, ht, hsent, hcont.state.trans ((congrArg CoreCtl.state (hctl a)).trans h.running), by rw [hcont.now, hcore]⟩

/-! ## The verdict of a node (R289, R291, R292) -/

section
variable {b : Barrier} {c : CoreId} {e : BitVec 16}

theorem barVerdict_invalid (hv : barValid b.entry = false) : barVerdict b c e = .refused .invalid := by
  simp [barVerdict, hv]

theorem barVerdict_stranger (hv : barValid b.entry = true) (hm : c ∉ b.members) : barVerdict b c e = .refused .member := by
  simp [barVerdict, hv, hm]

/-! On a member's arrival at a valid entry the class of its epoch decides. -/

variable (hv : barValid b.entry = true) (hm : c ∈ b.members)
include hv hm

theorem barVerdict_current (h : epochClass e (b.node (dieOf c)).openEpoch = .current) :
    barVerdict b c e = if (b.node (dieOf c)).counted.any (fun a => a.core == c) then .refused .overrun else .counted := by
  simp [barVerdict, hv, hm, h]

theorem barVerdict_early (h : epochClass e (b.node (dieOf c)).openEpoch = .early) :
    barVerdict b c e = if (b.node (dieOf c)).early.any (fun a => a.core == c) then .refused .overrun else .early := by
  simp [barVerdict, hv, hm, h]

theorem barVerdict_overrun (h : epochClass e (b.node (dieOf c)).openEpoch = .overrun) : barVerdict b c e = .refused .overrun := by
  simp [barVerdict, hv, hm, h]

theorem barVerdict_stale (h : epochClass e (b.node (dieOf c)).openEpoch = .stale) : barVerdict b c e = .refused .stale := by
  simp [barVerdict, hv, hm, h]
end

section
variable {e n : BitVec 16}

theorem epochClass_current (h : (e - n).toNat = 0) : epochClass e n = .current := by simp [epochClass, h]
theorem epochClass_early (h : (e - n).toNat = 1) : epochClass e n = .early := by simp [epochClass, h]

theorem epochClass_overrun (h2 : 2 ≤ (e - n).toNat) (h : (e - n).toNat ≤ 32767) : epochClass e n = .overrun := by
  rw [epochClass, if_neg (by omega), if_neg (by omega), if_pos h]

theorem epochClass_stale (h : 32768 ≤ (e - n).toNat) : epochClass e n = .stale := by
  rw [epochClass, if_neg (by omega), if_neg (by omega), if_neg (by omega)]
end

theorem barVerdict_claim (b : Barrier) (c : CoreId) (e : BitVec 16) :
    let n := b.node (dieOf c)
    let d := (e - n.openEpoch).toNat
    (barValid b.entry = false → barVerdict b c e = .refused .invalid)
    ∧ (barValid b.entry = true → c ∉ b.members → barVerdict b c e = .refused .member)
    ∧ (barValid b.entry = true → c ∈ b.members →
        (d = 0 → (∀ a ∈ n.counted, a.core ≠ c) → barVerdict b c e = .counted)
        ∧ (d = 0 → (∃ a ∈ n.counted, a.core = c) → barVerdict b c e = .refused .overrun)
        ∧ (d = 1 → (∀ a ∈ n.early, a.core ≠ c) → barVerdict b c e = .early)
        ∧ (d = 1 → (∃ a ∈ n.early, a.core = c) → barVerdict b c e = .refused .overrun)
        ∧ (2 ≤ d → d ≤ 32767 → barVerdict b c e = .refused .overrun) ∧ (32768 ≤ d → barVerdict b c e = .refused .stale)) := by
  intro n d
  refine ⟨barVerdict_invalid, barVerdict_stranger, fun hv hm => ⟨fun hd h => ?counted, fun hd h => ?twice, fun hd h => ?early,
    fun hd h => ?twiceEarly, fun h2 hd => barVerdict_overrun hv hm (epochClass_overrun h2 hd), fun hd => barVerdict_stale hv hm (epochClass_stale hd)⟩⟩
  case counted => exact (barVerdict_current hv hm (epochClass_current hd)).trans (if_neg (by simpa using h))
  case twice => exact (barVerdict_current hv hm (epochClass_current hd)).trans (if_pos (by simpa using h))
  case early => exact (barVerdict_early hv hm (epochClass_early hd)).trans (if_neg (by simpa using h))
  case twiceEarly => exact (barVerdict_early hv hm (epochClass_early hd)).trans (if_pos (by simpa using h))

/-! ## Barriers and their nodes changed -/

theorem dieOf_lt (c : CoreId) : dieOf c < 4 := bits_lt ..

theorem Barrier.node_modNode (b : Barrier) {die : Nat} (f : BarNode → BarNode) (h : die < 4) : (b.modNode die f).node die = f (b.node die) := by
  rw [Barrier.modNode, Barrier.node, Vector.getElem?_setIfInBounds_self_of_lt h, Option.getD_some]

theorem State.barrier_congr {s t : State} (h : t.parts = s.parts) (p bid : Nat) : t.barrier p bid = s.barrier p bid := by
  rw [State.barrier, State.part_congr h, State.barrier]

@[simp] theorem State.barrier_modBarrier (s : State) (p bid : Nat) (f : Barrier → Barrier) :
    (s.modBarrier p bid f).barrier p bid = f (s.barrier p bid) := by
  rw [State.barrier, State.modBarrier, State.part_modPart, Tbl.getD_put_self]

/-- A change of a partition that leaves its barrier table leaves each barrier. -/
theorem State.barrier_modPart (s : State) (p bid : Nat) {f : Part → Part} (h : (f (s.part p)).barriers = (s.part p).barriers) :
    (s.modPart p f).barrier p bid = s.barrier p bid := by
  rw [State.barrier, State.part_modPart, h, State.barrier]

/-! ## What an arrival leaves (R261, R264, R292) -/

section
variable (s : State) (p : Nat) (a : FlyingArrival) (taken : Bool)

/-- A core record kept or forgotten changes the partition's job alone. -/
theorem State.keepImage_keeps {β : Type} (g : State → β)
    (h : ∀ f : Part → Part, (∀ q, (f q).barriers = q.barriers) → g (s.modPart p f) = g s) : g (s.keepImage p a taken) = g s := by
  unfold State.keepImage
  split
  · rfl
  · split
    · rfl
    · exact h _ fun _ => rfl

@[simp] theorem State.keepImage_cores : (s.keepImage p a taken).cores = s.cores := s.keepImage_keeps p a taken (·.cores) fun _ _ => rfl

@[simp] theorem State.keepImage_arrivals : (s.keepImage p a taken).arrivals = s.arrivals :=
  s.keepImage_keeps p a taken (·.arrivals) fun _ _ => rfl

@[simp] theorem State.barrier_keepImage (bid : Nat) : (s.keepImage p a taken).barrier p bid = s.barrier p bid :=
  s.keepImage_keeps p a taken (·.barrier p bid) fun _ hf => s.barrier_modPart p bid (hf _)
end

section
variable (a : FlyingArrival) (r : BarRefusal) (s : State)

@[simp] theorem refuseArrival_parts : (refuseArrival a r s).parts = s.parts := by
  unfold refuseArrival
  dsimp only
  split <;> rfl

@[simp] theorem refuseArrival_arrivals : (refuseArrival a r s).arrivals = s.arrivals := by
  unfold refuseArrival
  dsimp only
  split <;> rfl

theorem refuseArrival_lastFault : ((refuseArrival a r s).core a.core).ctl.lastFault = BitVec.ofNat 8 r.code := by
  unfold refuseArrival
  dsimp only
  split
  · rw [State.core_modCore]
    exact State.lastFault_logFault ..
  · exact State.lastFault_logFault ..

/-- A core that waits in the BAR of a refused arrival gets its answer (R292). -/
theorem refuseArrival_answer (hw : a.waits = true) (hh : ∃ dst, (s.core a.core).ctl.hold = .bar a.bid a.epoch dst) :
    ((refuseArrival a r s).core a.core).flight.answer = some r.status := by
  obtain ⟨dst, hh⟩ := hh
  unfold refuseArrival
  dsimp only
  generalize hu : s.logFault a.core _ = u
  have hhold : (u.core a.core).ctl.hold = .bar a.bid a.epoch dst := by rw [← hu, (s.logFault_spec a.core _).2.hold, hh]
  have hwaits : u.waitsFor a = true := by simp [State.waitsFor, hhold]
  rw [hw, hwaits, Bool.and_self, if_pos rfl, State.core_modCore]
end

/-! ## BARRIER_ARRIVAL (R283, R291, R292, R414) -/

section
variable {a : FlyingArrival} {s : State} {p : Nat}

theorem arriveAtNode_counted (hp : s.corePart a.core = some p) (hv : barVerdict (s.barrier p a.bid.toNat) a.core a.epoch = .counted) :
    arriveAtNode a s = (s.modBarrier p a.bid.toNat fun b => b.modNode (dieOf a.core) fun n =>
      { n with counted := n.counted ++ [{ core := a.core, waits := a.waits, sem := a.sem }] }).keepImage p a true := by
  simp only [arriveAtNode, hp, hv]

theorem arriveAtNode_early (hp : s.corePart a.core = some p) (hv : barVerdict (s.barrier p a.bid.toNat) a.core a.epoch = .early) :
    arriveAtNode a s = (s.modBarrier p a.bid.toNat fun b => b.modNode (dieOf a.core) fun n =>
      { n with early := n.early ++ [{ core := a.core, waits := a.waits, sem := a.sem }] }).keepImage p a true := by
  simp only [arriveAtNode, hp, hv]

theorem arriveAtNode_refused {r : BarRefusal} (hp : s.corePart a.core = some p)
    (hv : barVerdict (s.barrier p a.bid.toNat) a.core a.epoch = .refused r) : arriveAtNode a s = (refuseArrival a r s).keepImage p a false := by
  simp only [arriveAtNode, hp, hv]

/-- An arrival leaves the ways as they are. -/
theorem arriveAtNode_arrivals : (arriveAtNode a s).arrivals = s.arrivals := by
  unfold arriveAtNode
  split
  · exact refuseArrival_arrivals ..
  · dsimp only
    split <;> simp
end

/-- The state in which an arrival reaches its node: it has left the way, and its die's mesh and services are awake. -/
def arrivalReaches (c : CoreId) (rest : List FlyingArrival) (s : State) : State :=
  wakeFor [16 * dieUnit c + 12, 16 * dieUnit c + 14] { s with arrivals := rest }

theorem exec_barrierArrival {s : State} {a : FlyingArrival} {rest : List FlyingArrival} (hs : s.arrivals = a :: rest) :
    exec (.barrierArrival a.core) s = .next (arriveAtNode a (arrivalReaches a.core rest s)) := by
  change execBarrierArrival a.core s = _
  simp only [execBarrierArrival, hs, takeFirst, beq_self_eq_true, if_true, arrivalReaches]

/-- An arrival that reaches its node has left the way, and nothing else but domains has changed. -/
theorem arrivalReaches_spec (c : CoreId) (rest : List FlyingArrival) (s : State) :
    let u := arrivalReaches c rest s
    u.arrivals = rest ∧ u.mem = s.mem ∧ u.parts = s.parts ∧ u.rtp = s.rtp ∧ ∀ d, u.core d = s.core d :=
  ⟨(congrArg State.arrivals (wakeFor_frame _ { s with arrivals := rest }) :), wakeFor_mem .., wakeFor_parts ..,
    (congrArg State.rtp (wakeFor_frame _ { s with arrivals := rest }) :), fun _ => wakeFor_core ..⟩

theorem barrierArrivals_claim : Claim.BarrierArrivals := by
  refine ⟨barVerdict_claim, ?_⟩
  rintro _ s a rest p hs rfl hp b
  obtain ⟨harrivals, hmem, hparts, hrtp, hcore⟩ := arrivalReaches_spec a.core rest s
  refine ⟨_, exec_barrierArrival hs, arriveAtNode_arrivals.trans harrivals, (arriveAtNode_mem ..).trans hmem, ?_⟩
  generalize arrivalReaches a.core rest s = u at hparts hrtp hcore ⊢
  have hu : u.corePart a.core = some p := (State.corePart_congr hrtp _).trans hp
  have hbarrier : u.barrier p a.bid.toNat = b := State.barrier_congr hparts _ _
  cases hv : barVerdict b a.core a.epoch with
  | counted =>
    rw [arriveAtNode_counted hu (by rw [hbarrier, hv]), State.barrier_keepImage, State.barrier_modBarrier, Barrier.node_modNode _ _ (dieOf_lt _),
      hbarrier]
    exact ⟨rfl, (State.core_congr (State.keepImage_cores ..) _).trans (hcore _)⟩
  | early =>
    rw [arriveAtNode_early hu (by rw [hbarrier, hv]), State.barrier_keepImage, State.barrier_modBarrier, Barrier.node_modNode _ _ (dieOf_lt _),
      hbarrier]
    exact ⟨rfl, (State.core_congr (State.keepImage_cores ..) _).trans (hcore _)⟩
  | refused r =>
    rw [arriveAtNode_refused hu (by rw [hbarrier, hv]), State.barrier_keepImage, State.core_congr (State.keepImage_cores ..), ← hcore]
    exact ⟨(State.barrier_congr (refuseArrival_parts ..) _ _).trans hbarrier, refuseArrival_lastFault .., refuseArrival_answer a r u⟩

/-- Settles O20: BAR's effect is an arrival on its way; at the node its epoch's class decides, and each verdict has its one effect. -/
theorem barrierArrivals : Obligations.BarrierArrivals := ⟨barIssue_claim, barrierArrivals_claim⟩

end Sys2Proof.Machine
end

section
/-! # Barrier reports, completion and release, and the iron's visits (R272, R288, R290, R292, R293, R296, R301) -/

namespace Sys2Proof.Machine

/-! ## A die node reports to the root (R288) -/

/-- A barrier of which a die node has reported its epoch to the root. -/
def Barrier.nodeReported (die : Nat) (b : Barrier) : Barrier :=
  { (b.modNode die fun n => { n with reported := true }) with rootReports := insertNum b.rootReports die }

theorem Barrier.node_nodeReported (b : Barrier) {die : Nat} (h : die < 4) : (b.nodeReported die).node die = { b.node die with reported := true } :=
  b.node_modNode (fun n => { n with reported := true }) h

theorem exec_barrierNodeReport {part bid die : Nat} {s : State} (hv : barValid (s.barrier part bid).entry = true) (hd : die < 4)
    (hroot : die ≠ s.rootDie part) (hm : (s.barrier part bid).dieMembers die ≠ []) (hall : (s.barrier part bid).dieComplete die = true)
    (hrep : ((s.barrier part bid).node die).reported = false) (hrel : ((s.barrier part bid).node die).releasing = [])
    (hopen : ((s.barrier part bid).node die).openEpoch = (s.barrier part bid).rootEpoch) (hgoing : (s.barrier part bid).completing = false) :
    exec (.barrierNodeReport part bid die) s = .next (s.modBarrier part bid (Barrier.nodeReported die)) := by
  have hdue : (barValid (s.barrier part bid).entry && decide (die < 4) && die != s.rootDie part && !((s.barrier part bid).dieMembers die).isEmpty
      && (s.barrier part bid).dieComplete die && !((s.barrier part bid).node die).reported && ((s.barrier part bid).node die).releasing.isEmpty
      && ((s.barrier part bid).node die).openEpoch == (s.barrier part bid).collecting) = true := by
    simp [hv, hd, hroot, hm, hall, hrep, hrel, hopen, hgoing, Barrier.collecting]
  exact if_pos hdue

/-! ## A device reports to the head (R272, R288, R292) -/

theorem epochClass_self (n : BitVec 16) : epochClass n n = .current := epochClass_current (by simp)

theorem epochClass_succ (n : BitVec 16) : epochClass (n + 1) n = .early := epochClass_early (by bv_omega)

/-- Any epoch but the open one and the next is too far ahead or behind (R289). -/
theorem epochClass_far {e n : BitVec 16} (h0 : e ≠ n) (h1 : e ≠ n + 1) : epochClass e n = .overrun ∨ epochClass e n = .stale := by
  obtain h | h := Nat.lt_or_ge 32767 (e - n).toNat
  · exact .inr (epochClass_stale h)
  · exact .inl (epochClass_overrun (by bv_omega) h)

section
variable {part bid device time : Nat} {epoch : BitVec 16} {s : State}

theorem exec_deviceReport_fenced (h : s.fabric.takeover.dropped.contains device = true) :
    exec (.deviceReport part bid device epoch time) s = .next s := by
  change execDeviceReport part bid device epoch time s = _
  simp only [execDeviceReport, h, Bool.or_true, if_true]

variable (hv : barValid (s.barrier part bid).entry = true) (hs : barScope (s.barrier part bid).entry = true) (hh : s.isHead = true)
  (hd : device ≠ s.fabricId) (hk : s.fabric.takeover.dropped.contains device = false)
include hv hs hh hd hk

theorem exec_deviceReport_current (he : epoch = (s.barrier part bid).rootEpoch) (hc : (s.barrier part bid).completing = false)
    (hn : ∀ d ∈ (s.barrier part bid).devices, d.1 ≠ device) :
    exec (.deviceReport part bid device epoch time) s =
      .next (s.modBarrier part bid fun b => { b with devices := b.devices ++ [(device, time)] }) := by
  have hclass : epochClass epoch (s.barrier part bid).rootEpoch = .current := he ▸ epochClass_self _
  have hfirst : (s.barrier part bid).devices.any (fun d => d.1 == device) = false := by simpa using hn
  change execDeviceReport part bid device epoch time s = _
  simp only [execDeviceReport, hv, hs, hh, hd, hk, hclass, hc, hfirst, Bool.not_true, Bool.not_false, Bool.or_self, Bool.and_self, Bool.false_eq_true,
    false_and, if_false, if_true]

theorem exec_deviceReport_early (he : epoch = (s.barrier part bid).rootEpoch + 1)
    (hn : ∀ d ∈ (s.barrier part bid).earlyDevices, d.1 ≠ device) :
    exec (.deviceReport part bid device epoch time) s =
      .next (s.modBarrier part bid fun b => { b with earlyDevices := b.earlyDevices ++ [(device, time)] }) := by
  have hclass : epochClass epoch (s.barrier part bid).rootEpoch = .early := he ▸ epochClass_succ _
  have hfirst : (s.barrier part bid).earlyDevices.any (fun d => d.1 == device) = false := by simpa using hn
  change execDeviceReport part bid device epoch time s = _
  simp only [execDeviceReport, hv, hs, hh, hd, hk, hclass, hfirst, Bool.not_true, Bool.not_false, Bool.or_self, Bool.false_eq_true, false_and,
    if_false, if_true]

theorem exec_deviceReport_logged (h0 : epoch ≠ (s.barrier part bid).rootEpoch) (h1 : epoch ≠ (s.barrier part bid).rootEpoch + 1) :
    exec (.deviceReport part bid device epoch time) s = .next (s.healthEvent 2 device) := by
  change execDeviceReport part bid device epoch time s = _
  obtain hfar | hfar := epochClass_far h0 h1
  all_goals simp only [execDeviceReport, hv, hs, hh, hd, hk, hfar, Bool.not_true, Bool.or_self, Bool.false_eq_true, false_and, if_false]
end

theorem barrierReports_claim : Claim.BarrierReports := by
  refine ⟨fun part bid die s => ?node, fun part bid device epoch time s => ⟨exec_deviceReport_fenced, fun hv hs hh hd hk => ?head⟩⟩
  case node =>
    intro b hv hd hroot hm hall hrep hrel hopen hgoing
    refine ⟨_, exec_barrierNodeReport hv hd hroot hm hall hrep hrel hopen hgoing, ?_⟩
    beta_reduce
    rw [State.barrier_modBarrier, Barrier.node_nodeReported _ hd]
    exact ⟨rfl, rfl, rfl, rfl, rfl⟩
  case head =>
    refine ⟨fun he hc hn => ⟨_, exec_deviceReport_current hv hs hh hd hk he hc hn, ?_, rfl, rfl⟩,
      fun he hn => ⟨_, exec_deviceReport_early hv hs hh hd hk he hn, ?_, ?_, rfl, rfl⟩,
      fun h0 h1 => ⟨_, exec_deviceReport_logged hv hs hh hd hk h0 h1, State.barrier_congr (State.healthEvent_parts ..) _ _, rfl⟩⟩
    all_goals rw [State.barrier_modBarrier]

/-! ## The root completes an epoch (R288, R293) -/

/-- A die node with members begins its release to those that have arrived. -/
theorem Barrier.releasing_complete (b : Barrier) (root : Nat) {die : Nat} (hd : die < 4) (hm : b.dieMembers die ≠ []) :
    ((b.complete root).node die).releasing = (b.node die).counted := by
  simp [Barrier.complete, Barrier.node, hd, hm]

/-- A barrier of which the root has sent the release, the given one in the order of its partition's. -/
def Barrier.released (root number time : Nat) (b : Barrier) : Barrier :=
  { b.complete root with releaseNo := number, lastRelease := some time, prevRelease := b.lastRelease, straggles := b.straggles }

theorem exec_barrierCompletion {part bid : Nat} (time : Nat) {s : State} (hdue : completionDue s part (s.barrier part bid) = true)
    (hstep : ∀ j, (s.part part).job = some j → j.stepBarrier ≠ bid) :
    exec (.barrierCompletion part bid time) s = .next ((s.modBarrier part bid (Barrier.released (s.rootDie part) (s.part part).releases time)).modPart part
      fun q => { q with releases := q.releases + 1 }) := by
  have hplain : ((s.part part).job.any fun j => j.stepBarrier == bid) = false := by
    cases hj : (s.part part).job with
    | none => rfl
    | some j => simpa using hstep j hj
  change execBarrierCompletion part bid time s = _
  simp only [execBarrierCompletion, hdue, hplain, Bool.not_true, Bool.false_and, Bool.false_eq_true, if_false]
  rfl

theorem completes_barrierCompletion {part bid : Nat} (time : Nat) {s : State} (hdue : completionDue s part (s.barrier part bid) = true)
    (hstep : ∀ j, (s.part part).job = some j → j.stepBarrier ≠ bid) :
    let b := s.barrier part bid
    Completes (.barrierCompletion part bid time) s fun t =>
      (∀ die, die < 4 → b.dieMembers die ≠ [] → ((t.barrier part bid).node die).releasing = (b.node die).counted)
        ∧ (t.barrier part bid).rootReports = [] ∧ (t.barrier part bid).lastRelease = some time ∧ t.cores = s.cores ∧ t.mem = s.mem := by
  refine ⟨_, exec_barrierCompletion time hdue hstep, ?_⟩
  beta_reduce
  rw [State.barrier_modPart _ _ _ rfl, State.barrier_modBarrier]
  exact ⟨fun die hd hm => Barrier.releasing_complete _ (s.rootDie part) hd hm, rfl, rfl, rfl, rfl⟩

/-! ## A release reaches a member (R290, R292, R293, R301) -/

/-- A register to which zero is written reads zero, and so does one that there is not. -/
theorem CoreRegs.readX_writeX_null (g : CoreRegs) (r : Nat) (m : Bool) : (g.writeX r 0 m).readX r = 0 := by
  obtain rfl | h0 := Nat.eq_zero_or_pos r
  · exact CoreRegs.readX_zero _
  · obtain h | h := Nat.lt_or_ge r 32
    · exact CoreRegs.readX_writeX g 0 m (by omega) h
    · simp [CoreRegs.readX, CoreRegs.writeX, h]

/-- The answer to a core that waits in a BAR: issue resumes with the status in X[DST]. -/
theorem answerBar_resumes {c : CoreId} {elapsed : Nat} (dst : BitVec 6) (status : BitVec 3) {s : State}
    (h : ((runTo c (heldCycle c elapsed s) s).core c).ctl.state = .waiting) :
    ∃ v : State, (v.core c).regs = ((runTo c (heldCycle c elapsed s) s).core c).regs.writeX dst.toNat (status.setWidth 64) false
      ∧ Resumed c (heldCycle c elapsed s) v (answerBar c elapsed dst status s) := by
  unfold answerBar
  dsimp only
  rw [State.core_modCore, if_pos h]
  exact ⟨_, by rw [State.core_modCore, State.core_modCore], resumed_countHeld ..⟩

/-- The state in which a release has reached a core: it has left its node, and the domains that it crossed are awake. -/
def releaseReaches (p bid : Nat) (core : CoreId) (s : State) : State :=
  wakeFor (pathDomains (s.rootDie p) (dieUnit core) ++ [rowDomain core])
    (s.modBarrier p bid fun b => b.delivered (s.rootDie p) (dieOf core) core)

@[simp] theorem releaseReaches_core (p bid : Nat) (core d : CoreId) (s : State) : (releaseReaches p bid core s).core d = s.core d :=
  (wakeFor_core ..).trans (State.core_congr (State.modBarrier_cores ..) d)

@[simp] theorem releaseReaches_mem (p bid : Nat) (core : CoreId) (s : State) : (releaseReaches p bid core s).mem = s.mem :=
  (wakeFor_mem ..).trans (State.modBarrier_mem ..)

section
variable {core : CoreId} {bid elapsed p : Nat} {s : State}
variable (hans : (s.core core).flight.answer = none) (hp : s.corePart core = some p)
include hans hp

/-- A release that an earlier one to the same core precedes on the path is not delivered yet. -/
theorem exec_barrierReleaseDelivery_behind (hbehind : s.releaseBehind p bid core = true) :
    exec (.barrierReleaseDelivery core bid elapsed) s = .next s := by
  change execBarrierReleaseDelivery core bid elapsed s = _
  unfold execBarrierReleaseDelivery
  simp only [hans, hp, hbehind, if_true]
  split
  · contradiction
  · split <;> rfl

variable {a : Arrival} (hreset : (s.core core).flight.resetting = false) (hahead : s.releaseBehind p bid core = false)
  (hfind : ((s.barrier p bid).node (dieOf core)).releasing.find? (fun a => a.core == core) = some a)
include hreset hahead hfind

/-- A release answers a member that waits in the BAR of its epoch. -/
theorem exec_barrierReleaseDelivery_answers {b : BitVec 10} {e : BitVec 16} {dst : BitVec 6} (hw : a.waits = true)
    (hh : (s.core core).ctl.hold = .bar b e dst) (hb : b.toNat = bid) (he : e = ((s.barrier p bid).node (dieOf core)).openEpoch) :
    exec (.barrierReleaseDelivery core bid elapsed) s = .next ((answerBar core elapsed dst 0 s).modBarrier p bid fun b =>
      b.delivered (s.rootDie p) (dieOf core) core) := by
  change execBarrierReleaseDelivery core bid elapsed s = _
  simp only [execBarrierReleaseDelivery, hh, hans, hp, hfind, hahead, hreset, hw, hb, he, Bool.false_eq_true, if_false, if_true, and_self]

/-- A release raises the semaphore of a signal-mode member; the increase takes free values for its place. -/
theorem exec_barrierReleaseDelivery_signals (hw : a.waits = false) : ∃ (free : Nat) (q : Place),
    exec (.barrierReleaseDelivery core bid elapsed) s =
      .next (({ releaseReaches p bid core s with free := free } : State).incSem core a.sem.toNat 1 none q) := by
  change ∃ free q, execBarrierReleaseDelivery core bid elapsed s = _
  unfold execBarrierReleaseDelivery
  simp only [hans, hp, hfind, hahead, hreset, hw, Bool.false_eq_true, if_false]
  split
  · contradiction
  · split
    · exact ⟨_, _, rfl⟩
    · exact ⟨_, _, rfl⟩
end

theorem barrierRelease_claim : Claim.BarrierRelease := by
  refine ⟨fun part bid time s hdue hstep => completes_barrierCompletion time hdue hstep, ?delivery,
    fun core bid elapsed s p hans hp hbehind => exec_barrierReleaseDelivery_behind hans hp hbehind⟩
  case delivery =>
    intro core bid elapsed s p a hans hreset hp hahead hfind
    refine ⟨fun hw b e dst hh hb he hwait => ?waits, fun hw => ?signals⟩
    case waits =>
      obtain ⟨v, hv, hres⟩ := answerBar_resumes dst 0 hwait
      refine ⟨_, exec_barrierReleaseDelivery_answers hans hp hreset hahead hfind hw hh hb he, ?_⟩
      beta_reduce
      rw [State.core_congr (State.modBarrier_cores ..)]
      exact ⟨hres.state, hres.hold, hres.now, by rw [hres.regs, hv]; exact CoreRegs.readX_writeX_null ..⟩
    case signals =>
      obtain ⟨free, q, hexec⟩ := exec_barrierReleaseDelivery_signals (elapsed := elapsed) hans hp hreset hahead hfind hw
      have hcore (d : CoreId) : ({ releaseReaches p bid core s with free := free } : State).core d = s.core d := releaseReaches_core ..
      refine ⟨_, hexec, ?_, (State.incSem_mem ..).trans (releaseReaches_mem ..), fun d hd => (State.core_incSem_other _ _ _ _ _ hd).trans (hcore d)⟩
      rw [State.readS_incSem_count _ _ _ _ _ _ a.sem.isLt, hcore]

/-! ## The iron visits a core (R296) -/

/-- Does a core count as blocked at the iron's visit: it waits, and has issued nothing since the visit before? -/
def ironBlocked (s : State) (part : Nat) (c : CoreId) : Bool :=
  ironWaits s part (s.core c) && Tbl.get? (s.part part).iron.visits c.toNat == some (s.core c).sys.issueCount

/-- The sweep after the visit of a core. -/
def Iron.visit (s : State) (part : Nat) (c : CoreId) (i : Iron) : Iron :=
  { i with
    visits := Tbl.put i.visits c.toNat (s.core c).sys.issueCount
    records := if ironBlocked s part c then Tbl.put i.records (recordIndex c) (ironRecord (s.core c) (s.confidential (some part)))
      else Tbl.del i.records (recordIndex c)
    next := i.next + 1
    blocked := if ironBlocked s part c then i.blocked + 1 else i.blocked
    allBlocked := i.allBlocked && (ironStopped (s.core c) || ironBlocked s part c) }

theorem exec_ironVisit {part : Nat} {s : State} {c : CoreId} (hreset : (s.part part).resetting = false) (hfatal : (s.part part).fatal = false)
    (hgoes : ∃ d ∈ s.coresOf part, ironStopped (s.core d) = false) (hc : (s.coresOf part)[(s.part part).iron.next]? = some c)
    (hmore : (s.part part).iron.next + 1 < (s.coresOf part).length) :
    exec (.ironVisit part) s = .next (s.modPart part fun q => { q with iron := q.iron.visit s part c }) := by
  have hall : ((s.coresOf part).all fun c => ironStopped (s.core c)) = false := by simpa using hgoes
  change execIronVisit part s = _
  simp only [execIronVisit, hreset, hfatal, hall, hc, Nat.ne_of_lt hmore, Bool.or_self, Bool.false_eq_true, if_false]
  rfl

theorem ironVisit_claim : Claim.IronVisit := by
  intro part s c q hreset hfatal hgoes hc hmore
  refine ⟨_, exec_ironVisit hreset hfatal hgoes hc hmore, ?_⟩
  dsimp only
  rw [State.part_modPart]
  exact ⟨rfl, Tbl.get?_put_self .., rfl, rfl, rfl, rfl⟩

/-- Settles O21: each command is one change of the barrier or of the sweep; a release is an answer or an increase besides. -/
theorem barrierCompletionAndIron : Obligations.BarrierCompletionAndIron := ⟨barrierReports_claim, barrierRelease_claim, ironVisit_claim⟩

end Sys2Proof.Machine
end

section
/-! # Packets handed to the links, and the bytes that a write leaves (R197, R306–R308, R316, R450) -/

namespace Sys2Proof.Machine

/-! ## Packets sent -/

theorem State.confidential_congr {s t : State} (h : t.parts = s.parts) (p : Option Nat) : t.confidential p = s.confidential p := by
  cases p with
  | none => rfl
  | some n => exact congrArg (·.layout.conf) (State.part_congr h n)

/-- Packets have been handed to the links as this device's, and neither its ID nor a partition has changed. -/
structure Sends (l : List OutPacket) (s t : State) : Prop where
  sent : t.fabric.sent = s.fabric.sent ++ l.map fun k => { k with src := s.fabricId }
  id : t.fabricId = s.fabricId
  parts : t.parts = s.parts

namespace Sends

theorem refl (s : State) : Sends [] s s := ⟨(List.append_nil _).symm, rfl, rfl⟩

section
variable {l : List OutPacket} {s t : State} (h : Sends l s t)
include h

theorem trans {m : List OutPacket} {u : State} (h' : Sends m t u) : Sends (l ++ m) s u :=
  ⟨by rw [h'.sent, h.sent, h.id, List.map_append, List.append_assoc], h'.id.trans h.id, h'.parts.trans h.parts⟩

theorem of_fabric {u : State} (hf : u.fabric = t.fabric) (hp : u.parts = t.parts) : Sends l s u :=
  ⟨(congrArg Fabric.sent hf).trans h.sent, (congrArg (fun f : Fabric => f.assignedId.toNat) hf).trans h.id, hp.trans h.parts⟩

theorem unmoved {u : State} (h' : Unmoved t u) : Sends l s u := h.of_fabric h'.fabric h'.parts

theorem sendOn (p : Nat) (owner : FrameOwner) (m : List OutPacket) : Sends (l ++ m) s (t.sendOn p owner m) := h.trans ⟨rfl, rfl, rfl⟩

theorem fresh : Sends l s t.fresh.2 := ⟨h.sent, h.id, h.parts⟩

theorem sendPackets (m : List OutPacket) : Sends (l ++ m) s (t.sendPackets m) := h.trans ⟨rfl, rfl, rfl⟩

theorem replyPackets (peer : Nat) (m : List OutPacket) : Sends (l ++ m) s (t.replyPackets peer m) := by
  unfold State.replyPackets
  split
  · exact h.sendOn ..
  · exact h.sendPackets m

theorem countPackets (p peer : Nat) (outbound : Bool) (n : Nat) : Sends l s (t.countPackets p peer outbound n) := ⟨h.sent, h.id, h.parts⟩

theorem countPerf (c : CoreId) (code n : Nat) : Sends l s (t.countPerf c code n) := by
  unfold State.countPerf
  split
  · exact ⟨h.sent, h.id, h.parts⟩
  · exact h

theorem beginFabric (c : CoreId) (r : BitVec 512) (dst : BitVec 256) (ports : List Nat) (o : Option DescOutcome) :
    Sends l s (Machine.beginFabric c r dst ports o t) := ⟨h.sent, h.id, h.parts⟩

theorem keepResult (c : CoreId) (result : List Byte) : Sends l s (Machine.keepResult c result t) := ⟨h.sent, h.id, h.parts⟩
end

/-- The first packets sent. -/
theorem sendFirst {s t : State} (h : Sends [] s t) (p : Nat) (owner : FrameOwner) (m : List OutPacket) : Sends m s (t.sendOn p owner m) :=
  h.sendOn p owner m

/-- The first packets that answer a peer. -/
theorem replyFirst {s t : State} (h : Sends [] s t) (peer : Nat) (m : List OutPacket) : Sends m s (t.replyPackets peer m) :=
  h.replyPackets peer m

/-- Packets sent to one peer after another. -/
theorem foldl {α : Type} {f : State → α → State} {g : State → α → List OutPacket} (hf : ∀ s a, Sends (g s a) s (f s a))
    (hg : ∀ s t, t.parts = s.parts → g t = g s) (l : List α) (s : State) : Sends (l.flatMap (g s)) s (l.foldl f s) := by
  induction l generalizing s with
  | nil => exact refl s
  | cons a l ih =>
    have h := (hf s a).trans (ih (f s a))
    rw [hg s (f s a) (hf s a).parts] at h
    exact h
end Sends

/-! ## The bytes that a write leaves -/

/-- Two states have what the bytes of memory after a write depend on in common (R197). -/
structure SameBytes (s t : State) : Prop where
  mem : t.mem = s.mem
  seals : t.sealed = s.sealed
  rtp : t.rtp = s.rtp
  parts : t.parts = s.parts
  intake : t.intake = s.intake

namespace SameBytes

theorem refl (s : State) : SameBytes s s := ⟨rfl, rfl, rfl, rfl, rfl⟩

section
variable {s t : State} (h : SameBytes s t)

theorem trans {s t u : State} (h : SameBytes s t) (h' : SameBytes t u) : SameBytes s u :=
  ⟨h'.mem.trans h.mem, h'.seals.trans h.seals, h'.rtp.trans h.rtp, h'.parts.trans h.parts, h'.intake.trans h.intake⟩

include h

theorem symm : SameBytes t s := ⟨h.mem.symm, h.seals.symm, h.rtp.symm, h.parts.symm, h.intake.symm⟩

theorem sectorUnder (r n : Nat) : t.sectorUnder r n = s.sectorUnder r n := by
  unfold State.sectorUnder State.sealOf
  rw [h.mem, h.seals]

/-- The function as a whole is unfolded: applied to a sector, the kernel would evaluate the sector's address. -/
theorem sectorKey : t.sectorKey = s.sectorKey := by
  have hunit : t.unitPart = s.unitPart := by unfold State.unitPart; rw [h.rtp]
  have hpart : t.part = s.part := funext (State.part_congr h.parts)
  have hwheel : t.holdsWheel = s.holdsWheel := by unfold State.holdsWheel; rw [h.intake]
  have hunder : t.sectorUnder = s.sectorUnder := funext fun r => funext (h.sectorUnder r)
  have hcovers : t.encCovers = s.encCovers := by unfold State.encCovers State.packedEntry; rw [hunder]
  delta State.sectorKey
  rw [hunit, hpart, hwheel, hcovers]

theorem sectorBytes (n : Nat) : t.sectorBytes n = s.sectorBytes n := by
  rw [State.sectorBytes, h.sectorKey, h.sectorUnder, State.sectorBytes]

theorem reseal (n : Nat) : SameBytes (s.reseal n) (t.reseal n) := by
  unfold State.reseal State.sealOf
  simp only [h.sectorKey, h.sectorBytes, h.mem, h.seals]
  split
  · exact h
  · exact ⟨rfl, rfl, h.rtp, h.parts, h.intake⟩

theorem foldl {α : Type} {f g : State → α → State} (hf : ∀ {s t} (_ : SameBytes s t) a, SameBytes (f s a) (g t a)) (l : List α) :
    SameBytes (l.foldl f s) (l.foldl g t) := by
  induction l generalizing s t with
  | nil => exact h
  | cons a l ih => exact ih (hf h a)

theorem put (a : Nat) (data : List Byte) (m : Bool) : SameBytes (s.put a data m) (t.put a data m) := by
  have hstore {u v : State} (hu : SameBytes u v) : SameBytes (u.store a data (m && carriesMarks a)) (v.store a data (m && carriesMarks a)) :=
    ⟨congrArg (Memory.writeBytes · a data) hu.mem, hu.seals, hu.rtp, hu.parts, hu.intake⟩
  unfold State.put
  dsimp only
  split
  · exact hstore (h.foldl (fun hu n => hu.reseal n) _)
  · exact hstore h

omit h in
/-- Marked bytes are written as bytes; their marks lie elsewhere. -/
theorem put_putMarked (s : State) (a : Nat) (data : List MByte) : SameBytes (s.put a (plainBytes data) false) (s.putMarked a data) := by
  unfold State.putMarked
  dsimp only
  split
  · exact ⟨rfl, rfl, rfl, rfl, rfl⟩
  · exact refl _

theorem putMarked (a : Nat) (data : List MByte) : SameBytes (s.putMarked a data) (t.putMarked a data) :=
  (put_putMarked s a data).symm.trans ((h.put ..).trans (put_putMarked t a data))

theorem wakeFor (l : List Nat) : SameBytes s (wakeFor l t) := by
  have hw := wakeFor_frame l t
  exact h.trans ⟨wakeFor_mem l t, (congrArg State.sealed hw :), (congrArg State.rtp hw :), wakeFor_parts l t, wakeFor_intake l t⟩

theorem countPerf (c : CoreId) (code n : Nat) : SameBytes s (t.countPerf c code n) := by
  unfold State.countPerf
  split
  · exact ⟨h.mem, h.seals, h.rtp, h.parts, h.intake⟩
  · exact h

theorem countTimes (c : CoreId) : SameBytes s (t.countTimes c) := by
  have hfree : SameBytes s t.fresh.2.fresh.2 := ⟨h.mem, h.seals, h.rtp, h.parts, h.intake⟩
  exact (hfree.countPerf c 0x05 _).countPerf c 0x08 _
end
end SameBytes

end Sys2Proof.Machine
end

section
/-! # Fabric transfers that the engine accepts (R316–R319, R323, R324) -/

namespace Sys2Proof.Machine

/-! ## The engine takes its next entry -/

/-- What the engine does with an entry that no check refuses (R319). -/
def FabricRun.perform (x : FabricRun) (members : List Nat) (env : TransferEnv) (posted : List PeerVector) (s : State) : State :=
  match fdOp x.raw with
  | 1 => runPut x env s
  | 2 => runGet x s
  | 3 => runPutSet x env s
  | 4 => runPutGroup x (members.filter (· != s.fabricId)) env s
  | _ => runAllreduce x members env posted s

section
variable {op : Nat} {c : CoreId} {s : State} {p : Nat} {j : Job} {r : BitVec 512} (h : FabricAccepted op c s p j r)
include h

theorem runFabric_accepted (env : TransferEnv) (posted : List PeerVector) : runFabric c p j r env posted (s.fabricBegins c)
    = ((s.fabricBegins c).fabricRun c p j r).perform (((s.fabricBegins c).mcastMembers p (fdGroup r)).getD []) env posted (s.fabricBegins c) := by
  have hsound := h.sound
  have haccess := h.access
  have hgroup : ¬ ((fdOp r = 4 ∨ fdOp r = 5) ∧ ((s.fabricBegins c).mcastMembers p (fdGroup r)).isNone = true) := by
    rintro ⟨hop, hnone⟩
    have hsome := h.group (h.isOp ▸ hop)
    rw [Option.isNone_iff_eq_none.1 hnone] at hsome
    exact Bool.false_ne_true hsome
  unfold State.fabricDst at hsound haccess
  unfold runFabric
  dsimp only
  rw [hsound, if_neg Bool.false_ne_true, if_neg hgroup, haccess]
  rfl

theorem takeFabric_accepted (env : TransferEnv) (posted : List PeerVector) : takeFabric op c env posted s
    = ((s.fabricBegins c).fabricRun c p j r).perform (((s.fabricBegins c).mcastMembers p (fdGroup r)).getD []) env posted (s.fabricBegins c) := by
  rw [← runFabric_accepted h]
  simp only [takeFabric, h.next, h.isOp, h.normal, beq_self_eq_true, Bool.true_or, Bool.not_true, Bool.false_and, Bool.false_eq_true, if_false]
  rfl
end

/-! ## A transfer in progress -/

section
variable (c : CoreId) (r : BitVec 512) (dst : BitVec 256) (ports : List Nat) (o : Option DescOutcome) (s : State)

theorem beginFabric_current : ((beginFabric c r dst ports o s).core c).flight.fabric.current
    = some { raw := r, dstSeg := dst, ports := ports, lost := false, reduced := none, outcome := o } := by
  rw [beginFabric, State.modFabricRing, State.core_modCore]

theorem keepResult_current (result : List Byte) : ((keepResult c result (beginFabric c r dst ports o s)).core c).flight.fabric.current
    = some { raw := r, dstSeg := dst, ports := ports, lost := false, reduced := some result, outcome := o } := by
  rw [keepResult, State.modFabricRing, State.core_modCore, beginFabric_current, Option.map_some]
end

theorem lostAt_of_value {env : TransferEnv} (h : env.noValue = none) (n : Nat) : lostAt env n = (n, none) := by rw [lostAt, h]

theorem Unmoved.waxErrors (s : State) (p : Option Nat) (d : BitVec 256) (tiles : List Nat) : Unmoved s (s.waxErrors p d tiles) :=
  .foldl (fun s _ => (Unmoved.refl s).logError _) tiles s

/-- The read of a source without ECC events sends nothing. -/
theorem FabricRun.source_sends {env : TransferEnv} (h : env.ecc = []) (x : FabricRun) (n : Nat) (s : State) : Sends [] s (x.source env n s).2 := by
  unfold FabricRun.source
  dsimp only
  rw [h]
  refine Sends.unmoved ?_ (.wakeFor (.refl _) _)
  unfold State.countMarkedAt
  split
  · exact (Sends.refl s).unmoved (.waxErrors s ..)
  · exact ((Sends.refl s).unmoved (.waxErrors s ..)).countPerf ..

/-! ## PUT and GET -/

section
variable {x : FabricRun} {env : TransferEnv} {s : State} {id port : Nat}

theorem runPut_takes (hvalue : env.noValue = none) (hecc : env.ecc = [])
    (hid : peerDevice (segAddr x.dstSeg (offsetOf (fdDst x.raw))) = id) (hport : x.port s id true = .take port) (hready : s.sessionReady x.part id = true) :
    (∃ tag, Sends (dataPackets 1 id (peerOffset (segAddr x.dstSeg (offsetOf (fdDst x.raw)))) tag (fdBytes x.raw) (s.confidential (some x.part))
        (x.source env (fdBytes x.raw) s).1) s (runPut x env s))
      ∧ ((runPut x env s).core x.core).flight.fabric.current
        = some { raw := x.raw, dstSeg := x.dstSeg, ports := [port], lost := false, reduced := none, outcome := none } := by
  have hsource := x.source_sends hecc (fdBytes x.raw) s
  unfold runPut
  simp only [hid, hport, hready, lostAt_of_value hvalue, Bool.not_true, Bool.false_eq_true, if_false]
  generalize x.source env (fdBytes x.raw) s = d at hsource
  exact ⟨⟨_, (((hsource.fresh.sendFirst port (.core x.core) _).countPackets ..).countPerf ..).beginFabric ..⟩, beginFabric_current ..⟩

theorem runGet_takes (hid : peerDevice (segAddr x.srcSeg (offsetOf (fdSrc x.raw))) = id) (hport : x.port s id false = .take port)
    (hready : s.sessionReady x.part id = true) :
    (∃ tag, Sends [{ kind := 2, src := 0, dst := id, target := peerOffset (segAddr x.srcSeg (offsetOf (fdSrc x.raw))), tag := tag
                     total := fdBytes x.raw, first := true, last := true, enc := s.confidential (some x.part), data := [], flits := [], answer := 0
                     control := .none }] s (runGet x s))
      ∧ ((runGet x s).core x.core).flight.fabric.current
        = some { raw := x.raw, dstSeg := x.dstSeg, ports := [port], lost := false, reduced := none, outcome := none } := by
  unfold runGet
  simp only [hid, hport, hready, Bool.not_true, Bool.false_eq_true, if_false]
  exact ⟨⟨_, (((Sends.refl s).fresh.sendFirst port (.core x.core) _).countPackets ..).beginFabric ..⟩, beginFabric_current ..⟩

theorem runPut_unreachable (h : x.port s (peerDevice (segAddr x.dstSeg (offsetOf (fdDst x.raw)))) true = .unreachable) :
    runPut x env s = x.fail causeUnreachable s := by
  unfold runPut
  simp only [h]
end

/-! ## PUT_GROUP: one port for each of the other members -/

theorem PortChoices.cons_take {q : PortChoice} {l : PortChoices} {ports : List Nat} (h : PortChoices.cons q l = .take ports) :
    ∃ port rest, q = .take port ∧ l = .take rest ∧ ports = port :: rest := by
  cases l with
  | take rest =>
    cases q with
    | take port => exact ⟨port, rest, rfl, rfl, (PortChoices.take.inj h).symm⟩
    | _ => cases h
  | _ => cases q <;> cases h

theorem FabricRun.length_ports {x : FabricRun} {s : State} {put : Bool} {ids ports : List Nat} (h : x.ports s put ids = .take ports) :
    ports.length = ids.length := by
  induction ids generalizing ports with
  | nil => rw [← PortChoices.take.inj h]
  | cons id ids ih =>
    obtain ⟨port, rest, -, hrest, rfl⟩ := PortChoices.cons_take h
    rw [List.length_cons, List.length_cons, ih hrest]

theorem flatMap_zip_fst {α β γ : Type} (f : α → List γ) {l : List α} {m : List β} (h : m.length = l.length) :
    ((l.zip m).flatMap fun q => f q.1) = l.flatMap f := by
  rw [← List.flatMap_map Prod.fst f, List.map_fst_zip (Nat.le_of_eq h.symm)]

/-- The packets of a PUT_GROUP or of an all-reduce to one of the other members. -/
def FabricRun.memberPackets (x : FabricRun) (kind target tag : Nat) (data : List MByte) (s : State) (id : Nat) : List OutPacket :=
  dataPackets kind id target tag (fdBytes x.raw) (s.confidential (some x.part)) data

section
variable {x : FabricRun} {env : TransferEnv} {s : State} {ids ports : List Nat} (tag : Nat) (data : List MByte)

theorem FabricRun.memberPackets_congr {s t : State} (h : t.parts = s.parts) (kind target : Nat) :
    x.memberPackets kind target tag data t = x.memberPackets kind target tag data s :=
  funext fun id => by rw [memberPackets, memberPackets, State.confidential_congr h]

theorem foldl_putToMember_sends (hlen : ports.length = ids.length) :
    Sends (ids.flatMap (x.memberPackets 1 (bits (fdDst x.raw).toNat 0 40) tag data s)) s ((ids.zip ports).foldl (putToMember x tag data) s) := by
  rw [← flatMap_zip_fst _ hlen]
  exact Sends.foldl (f := putToMember x tag data) (g := fun s q => x.memberPackets 1 (bits (fdDst x.raw).toNat 0 40) tag data s q.1)
    (fun s q => ((Sends.refl s).sendFirst q.2 (.core x.core) _).countPackets ..)
    (fun s t h => funext fun q => congrFun (x.memberPackets_congr tag data h ..) q.1) _ s

theorem foldl_reduceToMember_sends (hlen : ports.length = ids.length) :
    Sends (ids.flatMap (x.memberPackets 4 0 tag data s)) s ((ids.zip ports).foldl (reduceToMember x tag data) s) := by
  rw [← flatMap_zip_fst _ hlen]
  exact Sends.foldl (f := reduceToMember x tag data) (g := fun s q => x.memberPackets 4 0 tag data s q.1)
    (fun s q => ((Sends.refl s).sendFirst q.2 (.core x.core) _).countPackets ..)
    (fun s t h => funext fun q => congrFun (x.memberPackets_congr tag data h ..) q.1) _ s
end

theorem runPutGroup_takes {x : FabricRun} {env : TransferEnv} {s : State} {peers ports : List Nat} (hvalue : env.noValue = none)
    (hecc : env.ecc = []) (hsome : peers ≠ []) (hports : x.ports s true peers = .take ports) (hready : ∀ m ∈ peers, s.sessionReady x.part m = true) :
    (∃ tag, Sends (peers.flatMap (x.memberPackets 1 (bits (fdDst x.raw).toNat 0 40) tag (x.source env (fdBytes x.raw) s).1 s)) s
        (runPutGroup x peers env s))
      ∧ ((runPutGroup x peers env s).core x.core).flight.fabric.current
        = some { raw := x.raw, dstSeg := x.dstSeg, ports := ports, lost := false, reduced := none, outcome := none } := by
  have hsource := (x.source_sends hecc (fdBytes x.raw) s).fresh
  have hall : peers.all (s.sessionReady x.part) = true := List.all_eq_true.2 hready
  have hnonempty : peers.isEmpty = false := List.isEmpty_eq_false_iff.2 hsome
  unfold runPutGroup
  simp only [hports, hall, lostAt_of_value hvalue, hnonempty, Bool.not_true, Bool.false_eq_true, if_false]
  generalize x.source env (fdBytes x.raw) s = d at hsource ⊢
  have hsent := hsource.trans (foldl_putToMember_sends (x := x) (d.2.fresh.1.toNat % 2 ^ 32) d.1 (FabricRun.length_ports hports))
  rw [x.memberPackets_congr _ _ hsource.parts] at hsent
  exact ⟨⟨_, (hsent.countPerf ..).beginFabric ..⟩, beginFabric_current ..⟩

/-! ## PUT_SET -/

theorem runPutSet_takes {x : FabricRun} {env : TransferEnv} {s : State} (hvalue : env.noValue = none) :
    (runPutSet x env s).mem = ((s.setMembers x.raw).foldl (fun t k => t.putMarked (lsBase k + bits (fdDst x.raw).toNat 0 23)
        (x.source env (fdBytes x.raw) s).1) (x.source env (fdBytes x.raw) s).2).mem
      ∧ ((runPutSet x env s).core x.core).flight.fabric.current.map (·.outcome)
        = some (some { status := 0, cause := 0, done := fdBytes x.raw, faultIndex := 0 }) := by
  unfold runPutSet
  simp only [lostAt_of_value hvalue, Option.getD_none]
  refine ⟨?_, by rw [beginFabric_current]; rfl⟩
  rw [beginFabric_mem, State.countPerf_mem]
  exact (SameBytes.foldl (.refl (x.source env (fdBytes x.raw) s).2)
    (f := fun t k => t.putMarked (lsBase k + bits (fdDst x.raw).toNat 0 23) (x.source env (fdBytes x.raw) s).1)
    (fun h k => (h.putMarked ..).wakeFor _) (s.setMembers x.raw)).mem

/-! ## ALLREDUCE -/

/-- A member has posted a vector of n bytes of a format, without poison (R324). -/
def Posts (posted : List PeerVector) (n rfmt m : Nat) : Prop :=
  ∃ v, posted.find? (fun v => v.id == m) = some v ∧ v.bytes = n ∧ v.rfmt = rfmt ∧ v.poisoned = false

/-- The postings of some members, in the members' order. -/
def postings (posted : List PeerVector) (members : List Nat) : List PeerVector := members.filterMap fun m => posted.find? fun v => v.id == m

/-- The vectors of the members in the order of their IDs, this device's own from its source (R324). -/
def memberVectors (posted : List PeerVector) (own : Nat) (data : List MByte) (ids : List Nat) : List (List Byte) :=
  ids.map fun i => if i = own then plainBytes data else ((posted.find? fun v => v.id == i).map (·.data)).getD []

section
variable {posted : List PeerVector} {n rfmt : Nat}

theorem postings_cons {v : PeerVector} {m : Nat} (hv : posted.find? (fun v => v.id == m) = some v) (l : List Nat) :
    postings posted (m :: l) = v :: postings posted l := by
  rw [postings, List.filterMap_cons, hv]
  rfl

theorem length_postings {l : List Nat} (hposted : ∀ m ∈ l, Posts posted n rfmt m) : (postings posted l).length = l.length := by
  induction l with
  | nil => rfl
  | cons m l ih =>
    obtain ⟨⟨v, hv, -⟩, hrest⟩ := List.forall_mem_cons.1 hposted
    rw [postings_cons hv, List.length_cons, List.length_cons, ih hrest]

theorem find?_postings {l : List Nat} (hposted : ∀ m ∈ l, Posts posted n rfmt m) {i : Nat} (hi : i ∈ l) :
    (postings posted l).find? (fun v => v.id == i) = posted.find? fun v => v.id == i := by
  induction l with
  | nil => cases hi
  | cons m l ih =>
    obtain ⟨⟨v, hv, -⟩, hrest⟩ := List.forall_mem_cons.1 hposted
    have hid : v.id = m := by simpa using List.find?_some hv
    rw [postings_cons hv]
    by_cases h : m = i
    · rw [List.find?_cons_of_pos (by simpa [hid] using h), ← h, hv]
    · rw [List.find?_cons_of_neg (by simpa [hid] using h)]
      exact ih hrest ((List.mem_cons.1 hi).resolve_left (Ne.symm h))

/-- No posting that stands in the way of the sum (R324). -/
theorem postings_agree {l : List Nat} (hposted : ∀ m ∈ l, Posts posted n rfmt m) :
    ((postings posted l).any fun v => v.bytes != n || v.rfmt != rfmt) = false ∧ (postings posted l).any (·.poisoned) = false := by
  have hposting (v : PeerVector) (hv : v ∈ postings posted l) : v.bytes = n ∧ v.rfmt = rfmt ∧ v.poisoned = false := by
    obtain ⟨m, hm, hv⟩ := List.mem_filterMap.1 hv
    obtain ⟨w, hw, hagrees⟩ := hposted m hm
    obtain rfl : w = v := Option.some.inj (hw.symm.trans hv)
    exact hagrees
  rw [List.any_eq_false, List.any_eq_false]
  refine ⟨fun v hv => ?_, fun v hv => ?_⟩
  · obtain ⟨hbytes, hrfmt, -⟩ := hposting v hv
    simp [hbytes, hrfmt]
  · obtain ⟨-, -, hpoisoned⟩ := hposting v hv
    simp [hpoisoned]

theorem memberVectors_postings {own : Nat} (data : List MByte) {ids : List Nat}
    (hposted : ∀ m ∈ ids.filter (· != own), Posts posted n rfmt m) :
    memberVectors (postings posted (ids.filter (· != own))) own data ids = memberVectors posted own data ids := by
  refine List.map_congr_left fun i hi => ?_
  split
  · rfl
  · rename_i h
    rw [find?_postings hposted (List.mem_filter.2 ⟨hi, bne_iff_ne.2 h⟩)]
end

theorem runAllreduce_takes {x : FabricRun} {env : TransferEnv} {s : State} {ids ports : List Nat} {posted : List PeerVector}
    (hvalue : env.noValue = none) (hecc : env.ecc = []) (hports : x.ports s false (ids.filter (· != s.fabricId)) = .take ports)
    (hready : ∀ m ∈ ids.filter (· != s.fabricId), s.sessionReady x.part m = true)
    (hposted : ∀ m ∈ ids.filter (· != s.fabricId), Posts posted (fdBytes x.raw) (fdRfmt x.raw) m)
    (hclean : anyMarked (x.source env (fdBytes x.raw) s).1 = false) :
    (∃ tag, Sends ((ids.filter (· != s.fabricId)).flatMap (x.memberPackets 4 0 tag (x.source env (fdBytes x.raw) s).1 s)) s
        (runAllreduce x ids env posted s))
      ∧ ((runAllreduce x ids env posted s).core x.core).flight.fabric.current
        = some { raw := x.raw, dstSeg := x.dstSeg, ports := ports, lost := false, outcome := none
                 reduced := some (reduceVectors (fdRfmt x.raw) (memberVectors posted s.fabricId (x.source env (fdBytes x.raw) s).1 ids)) } := by
  have hsource := (x.source_sends hecc (fdBytes x.raw) s).fresh
  have hall : (ids.filter (· != s.fabricId)).all (s.sessionReady x.part) = true := List.all_eq_true.2 hready
  have hlength := length_postings hposted
  obtain ⟨hequal, hunmarked⟩ := postings_agree hposted
  rw [← memberVectors_postings _ hposted]
  unfold postings at hlength hequal hunmarked ⊢
  unfold runAllreduce
  simp only [hports, hall, hlength, hequal, hunmarked, hvalue, hclean, bne_self_eq_false, Bool.not_true, Bool.or_self, Bool.false_eq_true,
    Option.isSome_none, if_false]
  generalize x.source env (fdBytes x.raw) s = d at hsource ⊢
  have hsent := (hsource.trans (foldl_reduceToMember_sends (x := x) (d.2.fresh.1.toNat % 2 ^ 32) d.1 (FabricRun.length_ports hports))).countPerf
    x.core 0x0A (fdBytes x.raw)
  rw [x.memberPackets_congr _ _ hsource.parts] at hsent
  refine ⟨⟨_, (hsent.beginFabric ..).keepResult ..⟩, ?_⟩
  rw [keepResult_current, hsent.id]
  rfl

/-! ## The statements -/

section
variable {op : Nat} {c : CoreId} {s : State} {p : Nat} {j : Job} {r : BitVec 512} {i : Instr} {env : TransferEnv} {posted : List PeerVector}
  (h : FabricAccepted op c s p j r) (hi : exec i s = .next (takeFabric op c env posted s))
include h hi

/-- A row whose entry the engine accepts does what the entry's operation does. -/
theorem completes_fabric {P : State → Prop}
    (hP : P (((s.fabricBegins c).fabricRun c p j r).perform (((s.fabricBegins c).mcastMembers p (fdGroup r)).getD []) env posted (s.fabricBegins c))) :
    Completes i s P := ⟨_, hi, by rwa [takeFabric_accepted h]⟩
end

theorem fabricSends_claim : Claim.FabricSends := by
  intro c s p j r d x env mine
  refine ⟨fun h port hport hready => ?put, fun h port hport hready => ?get, fun h ids ports hids hsome hports hready => ?group,
    fun h hport => ?unreachable⟩
  case put =>
    obtain ⟨⟨tag, hsent⟩, hcurrent⟩ := runPut_takes (x := x) (env := env) rfl rfl rfl hport hready
    refine completes_fabric h rfl ?_
    rw [FabricRun.perform, show fdOp x.raw = 1 from h.isOp]
    exact ⟨tag, hsent.sent, hcurrent, runPut_mem ..⟩
  case get =>
    obtain ⟨⟨tag, hsent⟩, hcurrent⟩ := runGet_takes (x := x) rfl hport hready
    refine completes_fabric h rfl ?_
    rw [FabricRun.perform, show fdOp x.raw = 2 from h.isOp]
    exact ⟨tag, hsent.sent, hcurrent, runGet_mem ..⟩
  case group =>
    obtain ⟨⟨tag, hsent⟩, hcurrent⟩ := runPutGroup_takes (x := x) (env := env) rfl rfl hsome hports hready
    refine completes_fabric h rfl ?_
    rw [FabricRun.perform, show fdOp x.raw = 4 from h.isOp, hids]
    refine ⟨tag, ?_, ?_, runPutGroup_mem ..⟩
    · rw [← List.map_flatMap]
      exact hsent.sent
    · exact (congrArg _ hcurrent).trans rfl
  case unreachable =>
    refine completes_fabric h rfl ?_
    rw [FabricRun.perform, show fdOp x.raw = 1 from h.isOp]
    change (runPut x env d).fabric.sent = _ ∧ (runPut x env d).mem = _ ∧ ((runPut x env d).core c).flight.fabric.current.map _ = _
    rw [runPut_unreachable hport]
    exact ⟨rfl, rfl, (congrArg _ (beginFabric_current ..)).trans rfl⟩

theorem fabricSetAndReduce_claim : Claim.FabricSetAndReduce := by
  intro c s p j r d x env data
  refine ⟨fun h => ?set, fun h ids ports posted hids hports hready hposted hclean => ?reduce⟩
  case set =>
    refine completes_fabric h rfl ?_
    rw [FabricRun.perform, show fdOp x.raw = 3 from h.isOp]
    exact runPutSet_takes rfl
  case reduce =>
    obtain ⟨⟨tag, hsent⟩, hcurrent⟩ := runAllreduce_takes (x := x) (env := env) rfl rfl hports hready hposted hclean
    refine completes_fabric h rfl ?_
    rw [FabricRun.perform, show fdOp x.raw = 5 from h.isOp, hids]
    refine ⟨⟨tag, ?_⟩, hcurrent, runAllreduce_mem ..⟩
    rw [← List.map_flatMap]
    exact hsent.sent

/-- Settles O28: an entry that no check refuses does its operation, whose packets are those sent since and whose outcome the ring keeps. -/
theorem fabricTransfers : Obligations.FabricTransfers := ⟨fabricSends_claim, fabricSetAndReduce_claim⟩

end Sys2Proof.Machine
end

section
/-! # A fabric transfer completes, and the order of an all-reduce (R278, R309, R319–R324, R373) -/

namespace Sys2Proof.Machine

/-! ## The order of an all-reduce (R324) -/

theorem powerBelow_lt {n : Nat} (h : 2 ≤ n) : powerBelow n < n := by
  have hlog := Nat.log2_self_le (n := n - 1) (by omega)
  unfold powerBelow
  omega

theorem powerBelow_pos (n : Nat) : 0 < powerBelow n := Nat.two_pow_pos _

theorem reduceMembers_split (n a b : Nat) (l : List Nat) : reduceMembers (n + 1) (a :: b :: l)
    = addF32 (reduceMembers n ((a :: b :: l).take (powerBelow (a :: b :: l).length)))
        (reduceMembers n ((a :: b :: l).drop (powerBelow (a :: b :: l).length))) := rfl

/-- Any two depths that have room for the values give one sum. -/
theorem reduceMembers_depth {n m : Nat} {l : List Nat} (hn : l.length ≤ n) (hm : l.length ≤ m) : reduceMembers n l = reduceMembers m l := by
  induction n generalizing m l with
  | zero =>
    obtain rfl := List.length_eq_zero_iff.1 (Nat.le_zero.1 hn)
    cases m <;> rfl
  | succ n ih =>
    match m, l with
    | 0, [] | _ + 1, [] | _ + 1, [_] => rfl
    | m + 1, a :: b :: l =>
      have hlt := powerBelow_lt (n := (a :: b :: l).length) (by simp)
      have hpos := powerBelow_pos (a :: b :: l).length
      rw [reduceMembers_split, reduceMembers_split]
      generalize powerBelow (a :: b :: l).length = k at hlt hpos
      congr 1
      · exact ih (by rw [List.length_take]; omega) (by rw [List.length_take]; omega)
      · exact ih (by rw [List.length_drop]; omega) (by rw [List.length_drop]; omega)

theorem reduceOrder_claim : Claim.ReduceOrder := by
  intro l v a b
  have hthree : powerBelow [a, b, v].length = 2 := show powerBelow 3 = 2 by decide
  refine ⟨rfl, rfl, by rw [reduceMembers_split, hthree]; rfl, fun h2 _ => ?_⟩
  match l with
  | a :: b :: l =>
    have hlt := powerBelow_lt h2
    have hpos := powerBelow_pos (a :: b :: l).length
    rw [show reduceMembers (a :: b :: l).length (a :: b :: l) = _ from reduceMembers_split (l.length + 1) a b l]
    generalize powerBelow (a :: b :: l).length = k at hlt hpos
    simp only [List.length_cons] at hlt
    congr 1
    · exact reduceMembers_depth (by rw [List.length_take, List.length_cons, List.length_cons]; omega) (by rw [List.length_take]; omega)
    · exact reduceMembers_depth (by rw [List.length_drop, List.length_cons, List.length_cons]; omega) (by rw [List.length_drop])

/-! ## The outcome of a transfer (R309, R320, R322, R371) -/

theorem fabricVerdicts_claim : Claim.FabricVerdicts := by
  intro j a
  refine ⟨fun o h => ?own, fun h hlost => ?lost, fun h hlost => ?answered⟩
  case own => rw [fabricOutcome, h]
  case lost => simp [fabricOutcome, h, hlost, nothingMoved, causeLink]
  case answered =>
    refine ⟨fun hv => ?_, fun hv => ?_, fun hv => ?_, fun hv => ?_, fun hv => ?_⟩ <;>
      simp [fabricOutcome, h, hlost, hv, nothingMoved, causeRemote, causeLink, causeData]

/-! ## What a transfer in progress writes at its destination (R319, R324) -/

theorem Unmoved.putMarked {s t : State} (h : Unmoved s t) (a : Nat) (data : List MByte) : Unmoved s (t.putMarked a data) := by
  have hput := h.put a (plainBytes data) false
  unfold State.putMarked
  dsimp only
  split
  · exact hput.trans ⟨rfl, rfl, rfl, rfl⟩
  · exact hput

/-- A segment that is neither wax nor a window of the cores is written in place. -/
theorem State.writeSeg_plain {d : BitVec 256} {data : List MByte} (hwax : segWax d = false) (htier : segTier d ≠ 1) (hdata : data ≠ []) (s : State)
    (p : Option Nat) (ofs : Nat) : s.writeSeg p d ofs data = s.putMarked (segAddr d ofs) data := by
  rw [State.writeSeg, List.isEmpty_eq_false_iff.2 hdata, hwax, if_neg Bool.false_ne_true, if_neg Bool.false_ne_true, if_neg htier]

theorem plainBytes_unmarked (l : List Byte) : plainBytes (l.map fun b => (b, false)) = l := by
  rw [plainBytes, List.map_map]
  exact List.map_id l

section
variable {p : Nat} {j : FabricJob} {o : DescOutcome} {s : State}

theorem landGet_of_own {a : PeerAnswer} (h : fdOp j.raw ≠ 2 ∨ j.outcome.isSome = true) : landGet p j a s = s := by
  refine if_neg fun ⟨hop, hnone, _⟩ => ?_
  obtain h | h := h
  · exact h hop
  · rw [Option.isNone_iff_eq_none.1 hnone] at h
    exact Bool.false_ne_true h

/-- The sum of an all-reduce that ends OK, written at its destination. -/
def FabricJob.sumWritten (j : FabricJob) (o : DescOutcome) (s : State) : State :=
  match j.reduced with
  | some l => if o.status = 0 then s.put (segAddr j.dstSeg (offsetOf (fdDst j.raw))) l false else s
  | none => s

theorem landReduced_spec (h : ∀ l, j.reduced = some l → l ≠ [] ∧ segWax j.dstSeg = false ∧ segTier j.dstSeg ≠ 1 ∧ (s.part p).resetting = false) :
    SameBytes (j.sumWritten o s) (landReduced p j o s) ∧ (landReduced p j o s).cores = s.cores := by
  unfold FabricJob.sumWritten landReduced
  cases hl : j.reduced with
  | none => exact ⟨.refl s, rfl⟩
  | some l =>
    obtain ⟨hsome, hwax, htier, hreset⟩ := h l hl
    dsimp only
    by_cases ho : o.status = 0
    · rw [if_pos ho, if_pos ⟨ho, by rw [hreset]; rfl⟩, State.writeSeg_plain hwax htier (by simpa using hsome)]
      have hput := SameBytes.put_putMarked s (segAddr j.dstSeg (offsetOf (fdDst j.raw))) (l.map fun b => (b, false))
      rw [plainBytes_unmarked] at hput
      exact ⟨hput, ((Unmoved.refl s).putMarked ..).cores⟩
    · rw [if_neg ho, if_neg fun h => ho h.1]
      exact ⟨.refl s, rfl⟩
end

/-! ## Scrubs that wait for a core leave the cores (R373) -/

@[simp] theorem State.replyPackets_cores (s : State) (peer : Nat) (l : List OutPacket) : (s.replyPackets peer l).cores = s.cores := by
  unfold State.replyPackets
  split <;> rfl

@[simp] theorem dropSessions_cores (part : Nat) (s : State) : (dropSessions part s).cores = s.cores :=
  foldl_keeps (·.cores) _ (fun s _ => s.replyPackets_cores ..) _ _

@[simp] theorem advanceScrub_cores (p : Nat) (s : State) : (advanceScrub p s).cores = s.cores := by
  unfold advanceScrub
  dsimp only
  split
  · rfl
  · exact dropSessions_cores p s

/-! ## The completion (R278, R321, R322) -/

/-- The ring's entry, CONSUMED and the engine's view of the ring after a completion. -/
def fabricRecorded (c : CoreId) (job : Job) (o : DescOutcome) (s : State) : State :=
  let n := (s.core c).flight.fabric.consumed
  let s := s.put (fabricEntryAddr job c n.toNat + 32) (o.status :: o.cause :: leBytes 6 o.done) false
  let s := s.put (lsBase c + job.fabricOfs + 4) (leBytes 4 (n + 1).toNat) false
  s.modFabricRing c fun x => { x with
    consumed := n + 1, current := none, pinned := x.pinned.filter (fun y => !serialGe 32 (n + 1).toNat y.1.toNat), skipping := x.skipping || !(o.status == 0 || o.status == 3) }

theorem fabricRecorded_ring (c : CoreId) (job : Job) (o : DescOutcome) (s : State) :
    let x := (s.core c).flight.fabric
    let u := (fabricRecorded c job o s).core c
    u.regs = (s.core c).regs ∧ u.flight.resetting = (s.core c).flight.resetting ∧ u.flight.fabric.consumed = x.consumed + 1
      ∧ u.flight.fabric.current = none ∧ u.flight.fabric.skipping = (x.skipping || !(o.status == 0 || o.status == 3)) := by
  dsimp only
  unfold fabricRecorded State.modFabricRing
  dsimp only
  rw [State.core_modCore, State.core_congr ((State.put_cores ..).trans (State.put_cores ..))]
  exact ⟨rfl, rfl, rfl, rfl, rfl⟩

theorem fabricRecorded_mem {c : CoreId} {job : Job} {o : DescOutcome} {s t : State} (h : SameBytes s t) : (fabricRecorded c job o t).mem
    = ((s.put (fabricEntryAddr job c (t.core c).flight.fabric.consumed.toNat + 32) (o.status :: o.cause :: leBytes 6 o.done) false).put
        (lsBase c + job.fabricOfs + 4) (leBytes 4 ((t.core c).flight.fabric.consumed + 1).toNat) false).mem :=
  ((h.put ..).put ..).mem

theorem State.flight_signalDone (s : State) (c : CoreId) (r : Nat) : ((s.signalDone c r).core c).flight = (s.core c).flight := by
  cases h : (s.core c).flight.resetting with
  | true => rw [State.signalDone, if_pos h]
  | false =>
    obtain ⟨u, p, -, hcore, hsignal⟩ := State.signalDone_eq r h
    rw [hsignal, State.flight_incSem, hcore]

section
variable {c : CoreId} {a : PeerAnswer} {s : State} {p : Nat} {job : Job} {j : FabricJob}

theorem exec_fabricCompletion (hp : s.corePart c = some p) (hjob : (s.part p).job = some job) (hj : (s.core c).flight.fabric.current = some j) :
    exec (.fabricCompletion c a) s = .next (advanceScrub p (completeFabric c p job j a (runPending c s))) := by
  change execFabricCompletion c a s = _
  simp only [execFabricCompletion, hp, hjob, hj]

theorem completeFabric_eq (h : fdOp j.raw ≠ 2 ∨ j.outcome.isSome = true) : completeFabric c p job j a s
    = ((fabricRecorded c job (fabricOutcome j a) (wakeFor (rowDomain c :: segDomains c j.dstSeg)
        ((landReduced p j (fabricOutcome j a) s).countTimes c))).signalDone c (fdSem j.raw)).disturb (some p) := by
  rw [completeFabric, landGet_of_own h]
  rfl
end

theorem fabricCompletion_claim : Claim.FabricCompletion := by
  intro c a s p job j hp hjob hj d o n e hown hsum
  refine ⟨_, exec_fabricCompletion hp hjob hj, ?_⟩
  obtain ⟨hbytes, hcores⟩ := landReduced_spec (o := o) hsum
  rw [completeFabric_eq hown]
  generalize hv : wakeFor (rowDomain c :: segDomains c j.dstSeg) ((landReduced p j o d).countTimes c) = v
  have hsame : SameIssue (d.core c) (v.core c) := by
    rw [← hv, wakeFor_core, ← State.core_congr hcores c]
    exact State.countTimes_same ..
  have hmem : SameBytes e v := hv ▸ (hbytes.countTimes c).wakeFor _
  obtain ⟨hregs, hreset, hconsumed, hcurrent, hskipping⟩ := fabricRecorded_ring c job o v
  rw [hsame.flight] at hreset hconsumed hskipping
  have hflight : ((advanceScrub p (((fabricRecorded c job o v).signalDone c (fdSem j.raw)).disturb (some p))).core c).flight
      = ((fabricRecorded c job o v).core c).flight := by
    rw [State.core_congr ((advanceScrub_cores ..).trans (State.disturb_cores ..)), State.flight_signalDone]
  refine ⟨?_, by rw [hflight, hconsumed], by rw [hflight, hcurrent], by rw [hflight, hskipping], fun h => ?_⟩
  · rw [advanceScrub_mem, State.disturb_mem, State.signalDone_mem, fabricRecorded_mem hmem, hsame.flight]
  · rw [State.core_congr ((advanceScrub_cores ..).trans (State.disturb_cores ..)), State.readS_signalDone (field_lt ..) (hreset.trans h), hregs, hsame.regs]

/-- Settles O29: a completion's writes are those of its outcome, which the far side's verdict gives, and a sum's order is that of its halves. -/
theorem fabricResults : Obligations.FabricResults := ⟨fabricCompletion_claim, fabricVerdicts_claim, reduceOrder_claim⟩

end Sys2Proof.Machine
end

section
/-! # Peers' packets against their grants, and the keys of link sessions (R272, R304, R313, R320, R359, R371) -/

namespace Sys2Proof.Machine

/-! ## Answers to a peer (R308, R320) -/

/-- A transfer answer to a peer (R308). -/
def transferAnswer (sender tag code : Nat) : OutPacket :=
  { kind := 5, src := 0, dst := sender, target := 0, tag := tag, total := 0, first := true, last := true, enc := false, data := [], flits := []
    answer := code, control := .none }

theorem Sends.answerPeer {s t : State} (h : Sends [] s t) (sender tag code : Nat) :
    Sends [transferAnswer sender tag code] s (t.answerPeer sender tag code) := h.replyFirst sender _

theorem State.replyPackets_frame (s : State) (peer : Nat) (l : List OutPacket) : { s.replyPackets peer l with fabric := s.fabric } = s := by
  unfold State.replyPackets
  split <;> rfl

section
variable (s : State) (sender tag code : Nat)

@[simp] theorem State.answerPeer_cores : (s.answerPeer sender tag code).cores = s.cores := s.replyPackets_cores ..

@[simp] theorem State.answerPeer_errors : (s.answerPeer sender tag code).errors = s.errors := (congrArg State.errors (s.replyPackets_frame ..) :)
end

/-! ## One packet of a peer's PUT (R304, R308, R320) -/

section
variable {sender tag target total : Nat} {data : List Byte} {flits : List Bool} {tagOk : Bool} {s : State}

theorem exec_peerPut_deaf (h : s.deafTo sender = true) : exec (.peerPutReceive sender tag target total true true data flits tagOk) s = .next s := by
  change execPeerPutReceive sender tag target total true true data flits tagOk s = _
  simp only [execPeerPutReceive, h, if_true]

/-- A transfer of one packet is begun, landed, answered if it was taken, and over. -/
theorem exec_peerPut_single (h : s.deafTo sender = false) : exec (.peerPutReceive sender tag target total true true data flits tagOk) s
    = .next ((let r := landPacket (beginIncoming sender tag target total s).1 (flitBytes data flits) tagOk (beginIncoming sender tag target total s).2
      if r.1.accepted then r.2.answerPeer sender tag 0 else r.2).putIncoming sender tag none) := by
  change execPeerPutReceive sender tag target total true true data flits tagOk s = _
  simp only [execPeerPutReceive, h, if_true, Bool.false_eq_true, if_false]

theorem plainBytes_flitBytes (data : List Byte) (flits : List Bool) : plainBytes (flitBytes data flits) = data := by
  rw [plainBytes, flitBytes, List.map_map]
  exact List.zipIdx_map_fst 0 data

theorem length_flitBytes (data : List Byte) (flits : List Bool) : (flitBytes data flits).length = data.length := by
  rw [flitBytes, List.length_map, List.length_zipIdx]

/-- The bytes of a peer's packet written at a device address, and counted against its session. -/
def packetLanded (p sender a : Nat) (data : List MByte) (s : State) : State :=
  wakeFor (inboundDomains a) ((s.countPackets p sender false 1).putMarked a data)

section
variable (p sender a : Nat) (data : List MByte) (s : State)

theorem packetLanded_sends : Sends [] s (packetLanded p sender a data s) :=
  ((Sends.refl s).countPackets ..).unmoved (.wakeFor (.putMarked (.refl _) _ _) _)

theorem packetLanded_cores : (packetLanded p sender a data s).cores = s.cores :=
  (Unmoved.wakeFor (.putMarked (.refl (s.countPackets p sender false 1)) a data) _).cores

theorem packetLanded_mem : (packetLanded p sender a data s).mem = (s.put a (plainBytes data) false).mem := by
  have hcounted : SameBytes s (s.countPackets p sender false 1) := ⟨rfl, rfl, rfl, rfl, rfl⟩
  exact ((SameBytes.put_putMarked s a data).trans ((hcounted.putMarked a data).wakeFor _)).mem
end

theorem exec_peerPut_granted {p : Nat} (h : s.deafTo sender = false) (hgrant : s.grantFor sender (hbmOffset target) (max 1 total) = some p)
    (hreset : (s.part p).resetting = false) (hopen : s.confidential (some p) = false) (hlen : data.length = total) :
    exec (.peerPutReceive sender tag target total true true data flits tagOk) s
      = .next (((packetLanded p sender (hbmOffset target) (flitBytes data flits) s).answerPeer sender tag 0).putIncoming sender tag none) := by
  have htake : (flitBytes data flits).take (total - 0) = flitBytes data flits :=
    List.take_of_length_le (by rw [length_flitBytes, hlen, Nat.sub_zero])
  rw [exec_peerPut_single h]
  simp only [beginIncoming, hgrant, hreset, Bool.false_eq_true, if_false, landPacket, hopen, false_and, Bool.not_true, if_true, htake, Nat.add_zero]
  rfl

theorem exec_peerPut_refused (h : s.deafTo sender = false) (hgrant : s.grantFor sender (hbmOffset target) (max 1 total) = none) :
    exec (.peerPutReceive sender tag target total true true data flits tagOk) s
      = .next ((s.answerPeer sender tag 0x050C).putIncoming sender tag none) := by
  rw [exec_peerPut_single h]
  simp only [beginIncoming, hgrant, landPacket, Bool.not_false, if_true, Bool.false_eq_true, if_false]
end

/-! ## A peer's GET (R319, R320, R371) -/

theorem State.confidential_countPackets (s : State) (p q : Nat) (b : Bool) (n : Nat) (r : Option Nat) :
    (s.countPackets p q b n).confidential r = s.confidential r := State.confidential_congr rfl r

/-- Counting packets leaves what a read finds. -/
theorem State.memBytes_countPackets (s : State) (p q : Nat) (b : Bool) (m a n : Nat) : (s.countPackets p q b m).memBytes a n = s.memBytes a n := by
  have hsame : SameBytes s (s.countPackets p q b m) := ⟨rfl, rfl, rfl, rfl, rfl⟩
  have hright : (s.countPackets p q b m).sealedRight = s.sealedRight := by
    unfold State.sealedRight
    rw [hsame.sectorKey]
    rfl
  have hbytes : (s.countPackets p q b m).sectorBytes = s.sectorBytes := funext hsame.sectorBytes
  have hpeek : (s.countPackets p q b m).peek = s.peek := by
    delta State.peek
    rw [hright, hbytes]
    rfl
  unfold State.memBytes
  rw [hpeek]
  rfl

section
variable {sender tag target total p : Nat} {tagOk : Bool} {s : State}

theorem exec_getRequest_deaf (h : s.deafTo sender = true) : exec (.getRequestReceive sender tag target total tagOk) s = .next s := by
  change execGetRequestReceive sender tag target total tagOk s = _
  simp only [execGetRequestReceive, h, if_true]

theorem exec_getRequest_refused (h : s.deafTo sender = false) (hgrant : s.grantFor sender (hbmOffset target) (max 1 total) = none) :
    exec (.getRequestReceive sender tag target total tagOk) s = .next (s.answerPeer sender tag 0x050C) := by
  change execGetRequestReceive sender tag target total tagOk s = _
  simp only [execGetRequestReceive, h, hgrant, Bool.false_eq_true, if_false]

theorem exec_getRequest_granted (h : s.deafTo sender = false) (hgrant : s.grantFor sender (hbmOffset target) (max 1 total) = some p)
    (hreset : (s.part p).resetting = false) (hopen : s.confidential (some p) = false) :
    exec (.getRequestReceive sender tag target total tagOk) s
      = .next (answerGet p sender tag (hbmOffset target) total (s.countPackets p sender false 1)) := by
  have hready : (s.countPackets p sender false 1).sessionReady p sender = true := by
    rw [State.sessionReady, State.confidential_countPackets, hopen]
    rfl
  change execGetRequestReceive sender tag target total tagOk s = _
  simp only [execGetRequestReceive, h, hgrant, hreset, hopen, hready, Bool.false_eq_true, false_and, if_false, if_true]

theorem exec_getRequest_badTag (h : s.deafTo sender = false) (hgrant : s.grantFor sender (hbmOffset target) (max 1 total) = some p)
    (hreset : (s.part p).resetting = false) (hconf : s.confidential (some p) = true) :
    exec (.getRequestReceive sender tag target total false) s
      = .next ((securityEvent p (hbmOffset target) s).answerPeer sender tag 0x0607) := by
  change execGetRequestReceive sender tag target total false s = _
  simp only [execGetRequestReceive, h, hgrant, hreset, hconf, Bool.false_eq_true, Bool.not_false, Bool.true_or, and_self, if_false, if_true]
end

section
variable (p sender tag a total : Nat) (s : State)

theorem answerGet_sends : Sends (dataPackets 3 sender 0 tag total (s.confidential (some p)) (s.memBytes a total)) s (answerGet p sender tag a total s) := by
  unfold answerGet
  dsimp only
  exact (((Sends.refl s).replyFirst sender _).countPackets ..).unmoved (.wakeFor (.refl _) _)

@[simp] theorem answerGet_cores : (answerGet p sender tag a total s).cores = s.cores :=
  (wakeFor_cores ..).trans (s.replyPackets_cores ..)
end

/-- A packet with an invalid tag counts as one security event (R371). -/
theorem securityEvent_security (p a : Nat) (s : State) : (securityEvent p a s).errors.security = s.errors.security + 1 := by
  rw [securityEvent, State.logError, State.sendErrorMsix_errors]

theorem securityEvent_sends (p a : Nat) (s : State) : Sends [] s (securityEvent p a s) :=
  (Sends.of_fabric (.refl s) (u := { s with errors := { s.errors with security := s.errors.security + 1 } }) rfl rfl).unmoved (.logError (.refl _) _)

theorem peerTraffic_claim : Claim.PeerTraffic := by
  intro sender tag target total data flits s a code
  have hrefused := (Sends.refl s).answerPeer sender tag 0x050C
  refine ⟨fun h => ⟨exec_peerPut_deaf h, exec_getRequest_deaf h⟩, fun h => ⟨fun p hgrant hreset hopen => ⟨fun hlen => ?put, ?get⟩,
    fun hgrant => ⟨?putRefused, ?getRefused⟩, fun p hgrant hreset hconf => ?badTag⟩⟩
  case put =>
    have hsent := (packetLanded_sends p sender a (flitBytes data flits) s).answerPeer sender tag 0
    refine ⟨_, exec_peerPut_granted h hgrant hreset hopen hlen, ?_, hsent.sent, ?_⟩
    · rw [State.putIncoming_mem, State.answerPeer_mem, packetLanded_mem, plainBytes_flitBytes]
      rfl
    · rw [State.putIncoming_cores, State.answerPeer_cores, packetLanded_cores]
  case get =>
    have hsent := answerGet_sends p sender tag a total (s.countPackets p sender false 1)
    rw [State.confidential_countPackets, hopen, State.memBytes_countPackets] at hsent
    exact ⟨_, exec_getRequest_granted h hgrant hreset hopen, hsent.sent, answerGet_mem .., answerGet_cores ..⟩
  case putRefused =>
    exact ⟨_, exec_peerPut_refused h hgrant, State.answerPeer_mem s sender tag 0x050C, hrefused.sent⟩
  case getRefused =>
    exact ⟨_, exec_getRequest_refused h hgrant, State.answerPeer_mem s sender tag 0x050C, hrefused.sent⟩
  case badTag =>
    have hsent := (securityEvent_sends p a s).answerPeer sender tag 0x0607
    refine ⟨_, exec_getRequest_badTag h hgrant hreset hconf, (State.answerPeer_mem ..).trans (securityEvent_mem ..), hsent.sent, ?_⟩
    rw [State.answerPeer_errors, securityEvent_security]

/-! ## The keys of a link session (R355, R359, R371) -/

/-- A session that takes two fresh keys, one for each direction. -/
def sessionEstablished (part peer : Nat) (s : State) : State :=
  let a := s.newKey
  let b := a.2.newKey
  { b.2 with fabric := { b.2.fabric with
    sessions := b.2.fabric.sessions ++ [{ part := part, peer := peer, keyOut := a.1, keyIn := b.1, countOut := 0, countIn := 0 }] } }

theorem exec_linkSessionEstablish_unproved (part peer : Nat) (failed : Option Nat) (s : State) :
    exec (.linkSessionEstablish part peer false failed) s = .next s := by
  change execLinkSessionEstablish part peer false failed s = _
  simp only [execLinkSessionEstablish, Bool.not_false, Bool.true_or, if_true]

section
variable {part peer : Nat} {s : State}

theorem exec_linkSessionEstablish_proved (hconf : s.confidential (some part) = true) (hnone : s.session part peer = none) (hrtp : s.rtp.error = false)
    (failed : Option Nat) : exec (.linkSessionEstablish part peer true failed) s
      = .next (if failed.isSome then rtpFails (failed.getD 0) s else sessionEstablished part peer s) := by
  change execLinkSessionEstablish part peer true failed s = _
  simp only [execLinkSessionEstablish, hconf, hnone, hrtp, Option.isSome_none, Bool.not_true, Bool.or_self, Bool.false_eq_true, if_false]
  split <;> rfl

theorem sessionEstablished_session (hnone : s.session part peer = none) : (sessionEstablished part peer s).session part peer
    = some { part := part, peer := peer, keyOut := s.rtp.drbgCount, keyIn := s.rtp.drbgCount + 1, countOut := 0, countIn := 0 } := by
  change (s.fabric.sessions ++ _).find? (fun x => x.part == part && x.peer == peer) = _
  rw [List.find?_append, show s.fabric.sessions.find? _ = none from hnone, Option.none_or]
  exact List.find?_cons_of_pos (by simp)

theorem session_modSession {f : LinkSession → LinkSession} (hf : ∀ x, (f x).part = x.part ∧ (f x).peer = x.peer) {x : LinkSession}
    (h : s.session part peer = some x) : (s.modSession part peer f).session part peer = some (f x) := by
  have hkept (y : LinkSession) : (if y.part = part ∧ y.peer = peer then f y else y).part = y.part
      ∧ (if y.part = part ∧ y.peer = peer then f y else y).peer = y.peer := by
    split
    · exact hf y
    · exact ⟨rfl, rfl⟩
  have hx : x.part = part ∧ x.peer = peer := by simpa using List.find?_some h
  change (s.fabric.sessions.map _).find? (fun y : LinkSession => y.part == part && y.peer == peer) = _
  rw [List.find?_map]
  have hsame : ((fun y : LinkSession => y.part == part && y.peer == peer) ∘
      fun y : LinkSession => if y.part = part ∧ y.peer = peer then f y else y)
      = fun y => y.part == part && y.peer == peer := funext fun y => by
    obtain ⟨hpart, hpeer⟩ := hkept y
    rw [Function.comp_apply, hpart, hpeer]
  rw [hsame, show s.fabric.sessions.find? _ = some x from h, Option.map_some, if_pos hx]

/-- A rekey for which no GET has waited answers none. -/
theorem answerWaiting_idle (h : ∀ g ∈ s.fabric.getsWaiting, ¬ (g.1 = part ∧ g.2.1 = peer)) : answerWaiting part peer s = s := by
  have hnone (g : Nat × Nat × Nat × Nat × Nat) (hg : g ∈ s.fabric.getsWaiting) : (g.1 == part && g.2.1 == peer) = false := by
    simpa using h g hg
  have hmine : s.fabric.getsWaiting.filter (fun g => g.1 == part && g.2.1 == peer) = [] :=
    List.filter_eq_nil_iff.2 fun g hg => by rw [hnone g hg]; exact Bool.false_ne_true
  have hrest : s.fabric.getsWaiting.filter (fun g => !(g.1 == part && g.2.1 == peer)) = s.fabric.getsWaiting :=
    List.filter_eq_self.2 fun g hg => by rw [hnone g hg]; rfl
  simp only [answerWaiting, hmine, hrest, List.foldl_nil]

section
variable {x : LinkSession} (hx : s.session part peer = some x) (hrtp : s.rtp.error = false)
include hx hrtp

theorem exec_linkRekey_outbound (h : 2 ^ 48 ≤ x.countOut) : exec (.linkRekey part peer true none) s
    = .next (answerWaiting part peer (s.newKey.2.modSession part peer fun x => { x with keyOut := s.newKey.1, countOut := 0 })) := by
  change execLinkRekey part peer true none s = _
  simp only [execLinkRekey, hx, hrtp, if_true, Nat.not_lt.2 h, decide_false, Bool.or_self, Bool.false_eq_true, Option.isSome_none, if_false]

theorem exec_linkRekey_inbound (h : 2 ^ 48 ≤ x.countIn) : exec (.linkRekey part peer false none) s
    = .next (s.newKey.2.modSession part peer fun x => { x with keyIn := s.newKey.1, countIn := 0 }) := by
  change execLinkRekey part peer false none s = _
  simp only [execLinkRekey, hx, hrtp, Nat.not_lt.2 h, decide_false, Bool.or_self, Bool.false_eq_true, Option.isSome_none, if_false]
end
end

theorem linkSessions_claim : Claim.LinkSessions := by
  refine ⟨fun part peer s hconf hnone hrtp => ⟨fun n => ?fails, ?established⟩, exec_linkSessionEstablish_unproved,
    fun part peer s x hx hrtp => ⟨fun h hwaiting => ?outbound, fun h => ?inbound⟩⟩
  case fails => exact ⟨_, exec_linkSessionEstablish_proved hconf hnone hrtp _, hnone, rfl, rfl, rfl⟩
  case established =>
    exact ⟨_, exec_linkSessionEstablish_proved hconf hnone hrtp _, sessionEstablished_session hnone, rfl, rfl, rfl⟩
  case outbound =>
    refine ⟨_, exec_linkRekey_outbound hx hrtp h, ?_⟩
    rw [answerWaiting_idle (s := s.newKey.2.modSession part peer fun x => { x with keyOut := s.newKey.1, countOut := 0 }) hwaiting]
    exact ⟨session_modSession (s := s.newKey.2) (f := fun x => { x with keyOut := s.newKey.1, countOut := 0 }) (fun _ => ⟨rfl, rfl⟩) hx, rfl⟩
  case inbound =>
    exact ⟨_, exec_linkRekey_inbound hx hrtp h, session_modSession (s := s.newKey.2)
      (f := fun x => { x with keyIn := s.newKey.1, countIn := 0 }) (fun _ => ⟨rfl, rfl⟩) hx, rfl⟩

/-- Settles O30: a grant decides what becomes of a peer's packet, and every key of a session is the DRBG's next. -/
theorem peersAndSessions : Obligations.PeersAndSessions := ⟨peerTraffic_claim, linkSessions_claim⟩

end Sys2Proof.Machine
end

section
/-! # The port that goes down, and a port table that lists a port twice -/

namespace Sys2Proof.Machine

theorem exec_portDown {port : Nat} {s : State} (hwidth : (s.port port).width ≠ 0) (hdown : (s.port port).isDown = false) :
    exec (.portDown port) s = .next (portGoesDown port s) :=
  congrArg Host.Outcome.next (if_neg (by simp [hwidth, hdown]))

/-- A member of a ring group, so that its head draws its routes, whose port table lists port 0 twice: `modPort` changes the first
entry only, and the second, which still carries, is among the ports that a flood goes to. -/
def portListedTwice : State :=
  { State.reset with fabric := { Fabric.reset with groupState := 1, ports := [(0, { Port.reset with width := 4 }), (0, { Port.reset with width := 4 })] } }

/-- Port 0 floods its going down to itself, which is a frame that nobody has acknowledged. -/
theorem portListedTwice_floods_itself : ((portGoesDown 0 portListedTwice).port 0).unacked.length = 1 := by decide +kernel

/-- Refutes O31: PORT_DOWN leaves a frame unacknowledged on the port where the port table lists that port twice. -/
theorem not_linkFramesAndPorts : ¬ Obligations.LinkFramesAndPorts := by
  rintro ⟨-, hlife, -⟩
  obtain ⟨t, ht, -, hunacked, -⟩ := hlife 0 portListedTwice (by decide) (by decide)
  rw [exec_portDown (by decide) (by decide)] at ht
  obtain rfl : portGoesDown 0 portListedTwice = t := Host.Outcome.next.inj ht
  exact absurd portListedTwice_floods_itself (by rw [hunacked]; decide)

end Sys2Proof.Machine
end

section
/-! # Routes, joining a domain, and a head's failover (R313, R315, R316, R325) -/

namespace Sys2Proof.Machine

/-! ## What a change of the routes keeps -/

theorem SameButRoutes.of_cores {s t : State} (h : t.cores = s.cores) : SameButRoutes s t := fun c => by
  rw [show t.core c = s.core c from congrArg (fun k : Tbl Core => Tbl.getD k c.toNat .reset) h]

theorem SameButRoutes.trans {s t u : State} (h : SameButRoutes s t) (h' : SameButRoutes t u) : SameButRoutes s u := fun c =>
  (congrArg (fun k : Core => { k with flight := { k.flight with fabric := { k.flight.fabric with
    pinned := (s.core c).flight.fabric.pinned } } }) (h' c)).trans (h c)

/-- Of the fabric only the ports, the packets sent and the routes with their epoch differ, and of the cores only the routes that
transfers under way go on with. -/
structure Rerouted (s t : State) : Prop where
  fabric : { t.fabric with ports := s.fabric.ports, sent := s.fabric.sent, routes := s.fabric.routes, routeEpoch := s.fabric.routeEpoch } = s.fabric
  cores : SameButRoutes s t

namespace Rerouted
variable {s t u : State}

theorem refl (s : State) : Rerouted s s := ⟨rfl, .of_cores rfl⟩

theorem trans (h : Rerouted s t) (h' : Rerouted t u) : Rerouted s u :=
  ⟨(congrArg (fun f : Fabric => { f with ports := s.fabric.ports, sent := s.fabric.sent, routes := s.fabric.routes, routeEpoch := s.fabric.routeEpoch })
    h'.fabric).trans h.fabric, h.cores.trans h'.cores⟩

/-- A list of changes each of which reroutes. -/
theorem foldl {α : Type} {f : State → α → State} (hf : ∀ u x, Rerouted u (f u x)) (l : List α) : Rerouted s (l.foldl f s) :=
  foldl_keeps_inv (Rerouted s) f (fun u x hu => hu.trans (hf u x)) l (refl s)

theorem sendOn (s : State) (p : Nat) (owner : FrameOwner) (l : List OutPacket) : Rerouted s (s.sendOn p owner l) := ⟨rfl, .of_cores rfl⟩

theorem floodStates (device : Nat) (links : List FloodLink) (s : State) : Rerouted s (floodStates device links s) :=
  foldl (fun u (q : Nat × Port) => sendOn u q.1 .control _) _

theorem groupState (h : Rerouted s t) : t.fabric.groupState = s.fabric.groupState := (congrArg Fabric.groupState h.fabric :)
theorem headId (h : Rerouted s t) : t.fabric.headId = s.fabric.headId := (congrArg Fabric.headId h.fabric :)
theorem members (h : Rerouted s t) : t.fabric.members = s.fabric.members := (congrArg Fabric.members h.fabric :)
theorem joinStatus (h : Rerouted s t) : t.fabric.joinStatus = s.fabric.joinStatus := (congrArg Fabric.joinStatus h.fabric :)
theorem assignedId (h : Rerouted s t) : t.fabric.assignedId = s.fabric.assignedId := (congrArg Fabric.assignedId h.fabric :)
theorem topology (h : Rerouted s t) : t.fabric.topology = s.fabric.topology := (congrArg Fabric.topology h.fabric :)
end Rerouted

/-! ## The operations that redraw the routes -/

/-- A core whose transfers keep the routes they started under is as it was but for them. -/
theorem modCore_pinned_sameButRoutes (s : State) (c : CoreId) (f : List (BitVec 32 × Tbl (BitVec 32)) → List (BitVec 32 × Tbl (BitVec 32))) :
    SameButRoutes s (s.modCore c fun k => { k with flight := { k.flight with fabric := { k.flight.fabric with pinned := f k.flight.fabric.pinned } } }) := by
  intro d
  by_cases h : d = c
  · subst h
    rw [State.core_modCore]
  · rw [State.core_modCore_other _ _ h]

section
variable (table : Tbl (BitVec 32)) (s : State)

theorem setRoutes_fabric : (setRoutes table s).fabric = { s.fabric with routes := table } :=
  congrArg (fun f : Fabric => { f with routes := table }) (foldl_keeps (·.fabric) _ (fun u k => by dsimp only; split <;> rfl) s.cores s)

theorem setRoutes_cores : SameButRoutes s (setRoutes table s) :=
  foldl_keeps_inv (SameButRoutes s) _ (fun u k hu => by
    dsimp only
    split
    · exact hu.trans (modCore_pinned_sameButRoutes u (BitVec.ofNat 10 k.1) (· ++ [(u.fabricProduced (BitVec.ofNat 10 k.1), s.fabric.routes)]))
    · exact hu) s.cores (.of_cores rfl)

theorem Rerouted.setRoutes : Rerouted s (setRoutes table s) := ⟨by rw [setRoutes_fabric], setRoutes_cores table s⟩
end

theorem failDrain_fabric (p : Nat) (s : State) : (failDrain p s).fabric = s.fabric := by
  unfold failDrain
  split
  · rfl
  · split <;> simp

theorem failDrain_cores (p : Nat) (s : State) : (failDrain p s).cores = s.cores := by
  unfold failDrain
  split
  · rfl
  · split <;> simp

theorem endLostDrains_fabric (s : State) : (endLostDrains s).fabric = s.fabric :=
  foldl_keeps (·.fabric) _ (fun u p => by
    split
    · split
      · exact failDrain_fabric p u
      · rfl
    · rfl) _ s

theorem endLostDrains_cores (s : State) : (endLostDrains s).cores = s.cores :=
  foldl_keeps (·.cores) _ (fun u p => by
    split
    · split
      · exact failDrain_cores p u
      · rfl
    · rfl) _ s

namespace Rerouted
variable (s : State)

theorem atEpoch (epoch : BitVec 32) : Rerouted s { s with fabric := { s.fabric with routeEpoch := epoch } } := ⟨rfl, .of_cores rfl⟩

theorem endLostDrains : Rerouted s (endLostDrains s) := ⟨by rw [endLostDrains_fabric], .of_cores (endLostDrains_cores s)⟩

theorem distributeRoutes : Rerouted s (distributeRoutes s) :=
  ((atEpoch s _).trans (.setRoutes _ _)).trans
    (foldl (fun u m => by
      split
      · exact sendOn ..
      · exact refl u) _)

theorem redrawRoutes : Rerouted s (redrawRoutes s) := by
  unfold Machine.redrawRoutes
  split
  · exact refl s
  · split
    · exact (distributeRoutes s).trans (endLostDrains _)
    · exact (setRoutes _ s).trans (endLostDrains _)

theorem portsChanged : Rerouted s (portsChanged s) := (floodStates ..).trans (redrawRoutes _)
end Rerouted

/-- A device in no group takes the routes that it computes. -/
theorem redrawRoutes_fabric {s : State} (h : s.fabric.groupState = 0 ∨ s.fabric.groupState = 3) :
    (redrawRoutes s).fabric = { s.fabric with routes := s.computeRoutes } := by
  have hmember : s.fabric.groupState ≠ 1 := by omega
  have hhead : s.fabric.groupState ≠ 2 := by omega
  rw [redrawRoutes, if_neg hmember, if_neg hhead, endLostDrains_fabric, setRoutes_fabric]

/-! ## Routing -/

/-- The state whose table of flooded port states has a device's new ones. -/
def State.learnLinks (device : Nat) (links : List FloodLink) (s : State) : State :=
  { s with fabric := { s.fabric with topology := Tbl.put s.fabric.topology device links } }

theorem exec_portStateFlood {device : Nat} {links : List FloodLink} {s : State} (hnew : Tbl.get? s.fabric.topology device ≠ some links)
    (hfenced : device ∉ s.fabric.takeover.dropped) :
    exec (.portStateFlood device links) s = .next (redrawRoutes (floodStates device links (s.learnLinks device links))) :=
  if_neg (not_or.2 ⟨hnew, hfenced⟩)

theorem exec_routeEpochAdopt {s : State} (h : s.fabric.groupState = 1) (epoch : BitVec 32) (table : List (Nat × BitVec 32)) :
    exec (.routeEpochAdopt epoch table) s = .next (endLostDrains (setRoutes (table.foldl (fun t e => Tbl.put t e.1 e.2) [])
      { s with fabric := { s.fabric with routeEpoch := epoch } })) :=
  if_pos h

/-- A transfer of a core for which no old routes are kept goes by the present ones. -/
theorem State.routesAt_present {s : State} {c : CoreId} (h : (s.core c).flight.fabric.pinned = []) (entry : BitVec 32) :
    s.routesAt c entry = (s.fabric.routes, true) := by
  rw [State.routesAt, h, List.find?_nil]

theorem State.choosePort_picks {s : State} {c : CoreId} {id : Nat} (entry : BitVec 32) (slot : Nat) (put : Bool)
    (hpinned : (s.core c).flight.fabric.pinned = []) (hfenced : s.fabric.takeover.dropped.contains id = false) (hjoined : s.fabric.joinStatus = 0)
    (hcarry : ∀ a ∈ s.routeTo id, (s.port a.1).carries = true) (hweight : 0 < ((s.routeTo id).map (·.2)).foldl (· + ·) 0)
    (hpick : (s.port (pickPort ((c.toNat + slot) % ((s.routeTo id).map (·.2)).foldl (· + ·) 0) 0 (s.routeTo id))).carries = true) :
    s.choosePort c entry slot id put = .take (pickPort ((c.toNat + slot) % ((s.routeTo id).map (·.2)).foldl (· + ·) 0) 0 (s.routeTo id)) := by
  have halts : (routeAlts (Tbl.getD s.fabric.routes id routeNone)).filter (fun a => !true || (s.port a.1).carries) = s.routeTo id :=
    List.filter_eq_self.2 hcarry
  simp only [State.choosePort, State.routesAt_present hpinned, halts, hfenced, hjoined, bne_self_eq_false, Bool.or_self, Bool.false_eq_true, if_false,
    if_pos hweight, if_pos hpick]

theorem routing_claim : Claim.Routing := by
  refine ⟨fun device links s hgroup hnew hfenced => ⟨_, exec_portStateFlood hnew hfenced, ?flood⟩,
    fun epoch table s hmember => ⟨_, exec_routeEpochAdopt hmember epoch table, ?adopt⟩,
    fun c entry slot id put s hpinned hfenced hjoined hcarry hweight hpick =>
      State.choosePort_picks entry slot put hpinned hfenced hjoined hcarry hweight hpick, fun _ _ _ _ _ => rfl⟩
  case flood =>
    have hflood : Rerouted (s.learnLinks device links) (floodStates device links (s.learnLinks device links)) := .floodStates ..
    have hdrawn := redrawRoutes_fabric (s := floodStates device links (s.learnLinks device links)) (by rw [hflood.groupState]; exact hgroup)
    refine ⟨?_, (congrArg Fabric.sent hdrawn :), (congrArg Fabric.routes hdrawn :), ?_, (hflood.trans (.redrawRoutes _)).cores⟩
    · rw [hdrawn]
      exact (congrArg (Tbl.get? · device) hflood.topology).trans (Tbl.get?_put_self ..)
    · rw [redrawRoutes_mem, floodStates_mem]
      rfl
  case adopt =>
    refine ⟨?_, ?_, ?_, (((Rerouted.atEpoch s epoch).trans (.setRoutes _ _)).trans (.endLostDrains _)).cores⟩
    · rw [endLostDrains_fabric, setRoutes_fabric]
    · rintro id e rfl
      rw [State.routeTo, endLostDrains_fabric, setRoutes_fabric]
      simp [Tbl.getD, Tbl.get?, Tbl.put]
    · rw [endLostDrains_mem, setRoutes_mem]

/-! ## Joining and the head of a group -/

section
variable (s : State)

theorem State.formGroup_fabric : { s.formGroup.fabric with groupState := s.fabric.groupState, headId := s.fabric.headId } = s.fabric := by
  unfold State.formGroup
  dsimp only
  split
  · rfl
  · split
    · rfl
    · split <;> rfl

theorem State.formGroup_cores : s.formGroup.cores = s.cores := by
  unfold State.formGroup
  dsimp only
  split
  · rfl
  · split
    · rfl
    · split <;> rfl
end

/-- In a group that has this device among its members and whose head can be reached, that head's ID is known. -/
theorem State.formGroup_head {s : State} {h : DomainMember} (hgroup : s.self.group ≠ 0xFFFF) (hid : s.fabric.assignedId ≠ 0xFFFF)
    (hme : ∃ m ∈ groupMembers s.fabric.replaced (s.self :: s.fabric.members) s.self.group, m.id = s.self.id)
    (hhead : headOf ((groupMembers s.fabric.replaced (s.self :: s.fabric.members) s.self.group).filter (·.reachable)) = some h) :
    s.formGroup.fabric.headId = BitVec.ofNat 16 h.id ∧ s.formGroup.fabric.groupState = if h.id = s.self.id then 2 else 1 := by
  have hmember : (groupMembers s.fabric.replaced (s.self :: s.fabric.members) s.self.group).any (fun m => m.id == s.self.id) = true := by
    simpa using hme
  simp only [State.formGroup, hgroup, hid, or_self, if_false, hmember, Bool.not_true, Bool.false_eq_true, hhead, and_self]

/-- The state that a join leaves before its group forms. -/
def State.joined (members : List DomainMember) (s : State) : State :=
  { s with fabric := { s.fabric with
    joinStatus := (joinResult s members).1, members := members, assignedId := match (joinResult s members).2 with | some n => BitVec.ofNat 16 n | none => 0xFFFF } }

section
variable {s : State} {members : List DomainMember}

theorem joinResult_free (h : s.wantedId < 4096) (hfree : ∀ m ∈ members, m.id ≠ s.wantedId) : joinResult s members = (0, some s.wantedId) := by
  have hnone : (members.any fun m => m.id == s.wantedId) = false := by simpa using hfree
  simp [joinResult, h, hnone]

theorem joinResult_held (h : s.wantedId < 4096) (hheld : ∃ m ∈ members, m.id = s.wantedId) : joinResult s members = (2, none) := by
  have hsome : (members.any fun m => m.id == s.wantedId) = true := by simpa using hheld
  simp [joinResult, h, hsome]

theorem joinResult_given (h : 4096 ≤ s.wantedId) (hreg : ∃ m ∈ members, m.registrar = true) {n : Nat} (hn : freeId members = some n) :
    joinResult s members = (0, some n) := by
  have hsome : members.any (·.registrar) = true := by simpa using hreg
  simp [joinResult, Nat.not_lt.2 h, hsome, hn]

theorem joinResult_noRegistrar (h : 4096 ≤ s.wantedId) (hreg : ∀ m ∈ members, m.registrar = false) (hself : s.dictNat 0x2500 3 0 = 0) :
    joinResult s members = (3, none) := by
  have hnone : members.any (·.registrar) = false := by simpa using hreg
  simp [joinResult, Nat.not_lt.2 h, hnone, hself]
end

theorem fabricJoin_claim (members : List DomainMember) (s : State) : Completes (.fabricJoin members) s fun t =>
    t.fabric.members = members ∧ t.mem = s.mem ∧ SameButRoutes s t ∧ t.fabric.joinStatus = (joinResult s members).1
      ∧ t.fabric.assignedId = (s.joined members).fabric.assignedId := by
  have hchanged : Rerouted (s.joined members).formGroup (portsChanged (s.joined members).formGroup) := .portsChanged _
  have hformed := (s.joined members).formGroup_fabric
  refine ⟨_, rfl, ?_, ?_, ?_, ?_, ?_⟩
  · exact hchanged.members.trans (congrArg Fabric.members hformed :)
  · rw [portsChanged_mem, State.formGroup_mem]
  · exact (SameButRoutes.of_cores (State.formGroup_cores (s.joined members))).trans hchanged.cores
  · exact hchanged.joinStatus.trans (congrArg Fabric.joinStatus hformed :)
  · exact hchanged.assignedId.trans (congrArg Fabric.assignedId hformed :)

theorem joiningAndHead_claim : Claim.JoiningAndHead := by
  refine ⟨fun members s => ?join, fun members s => ⟨_, rfl, ?failover⟩⟩
  case join =>
    obtain ⟨t, ht, hmembers, hmem, hcores, hstatus, hid⟩ := fabricJoin_claim members s
    have hresult {r : Nat × Option Nat} (h : joinResult s members = r) :
        t.fabric.joinStatus = r.1 ∧ t.fabric.assignedId = match r.2 with | some n => BitVec.ofNat 16 n | none => 0xFFFF := by
      subst h
      exact ⟨hstatus, hid⟩
    exact ⟨t, ht, hmembers, hmem, hcores, fun hw hfree => hresult (joinResult_free hw hfree), fun hw hheld => hresult (joinResult_held hw hheld),
      fun hw hreg n hn => hresult (joinResult_given hw hreg hn), fun hw hreg hself => (hresult (joinResult_noRegistrar hw hreg hself)).1⟩
  case failover =>
    let u : State := { s with fabric := { s.fabric with members := members } }
    have hredrawn : Rerouted u.formGroup (redrawRoutes u.formGroup) := .redrawRoutes _
    refine ⟨?_, ?_, ?_, fun hgroup hid hme h hhead => ?_⟩
    · exact hredrawn.members.trans (congrArg Fabric.members u.formGroup_fabric)
    · rw [redrawRoutes_mem, State.formGroup_mem]
    · exact (SameButRoutes.of_cores (State.formGroup_cores u)).trans hredrawn.cores
    · obtain ⟨hheadId, hstate⟩ := State.formGroup_head (s := u) hgroup hid hme hhead
      exact ⟨hredrawn.headId.trans hheadId, hredrawn.groupState.trans hstate⟩

/-- Settles O32: redrawing the routes leaves of a join and of a failover what they decided. -/
theorem routesAndJoining : Obligations.RoutesAndJoining := ⟨routing_claim, joiningAndHead_claim⟩

end Sys2Proof.Machine
end

section
/-! # Completion records, and a record that a ring takes (R332–R338) -/

namespace Sys2Proof.Machine

/-! ## Bytes put into host memory (R171) -/

theorem isHbm_hostAddr (x : Nat) : isHbm (hostAddr x) = false := by
  rw [isHbm, hostAddr, Bool.and_eq_false_iff, decide_eq_false_iff_not, decide_eq_false_iff_not]
  omega

theorem State.put_start (s : State) (a : Nat) (data : List Byte) (m : Bool) : (s.put a data m).start = s.start :=
  State.put_keeps (·.start) (fun s n => (congrArg State.start (s.reseal_frame n) :)) (fun _ _ _ _ => rfl) s a data m

theorem State.put_hostAddr (s : State) (x : Nat) (data : List Byte) : s.put (hostAddr x) data false = s.store (hostAddr x) data false := by
  rw [State.put, isHbm_hostAddr, if_neg Bool.false_ne_true, Bool.false_and]

theorem State.put_hostAddr_mem (s : State) (x : Nat) (data : List Byte) :
    (s.put (hostAddr x) data false).mem = Memory.writeBytes s.mem (hostAddr x) data := by
  rw [State.put_hostAddr, State.store]

/-! ## The bytes of a completion record (R337) -/

/-- The fields of a completion record from its lowest byte up; the rest lies above its 64th bit. -/
theorem completionBytes_eq (q : Ring) (rcd : BitVec 2048) (c : Completion) : ∃ rest, completionBytes q rcd c
    = leBytes 32 ((recSeq rcd).toNat + 2 ^ 32 * (c.status + 2 ^ 8 * (recKind rcd + 2 ^ 8 * (c.detail % 65536 + 2 ^ 16 * rest)))) := by
  refine ⟨c.gen % 2 ^ 32 + (if c.stable then 2 ^ 32 else 0) + c.result % 2 ^ 64 * 2 ^ 64 + (q.cplNext.toNat / q.slots + 1) % 2 * 2 ^ 191, ?_⟩
  unfold completionBytes
  dsimp only
  congr 1
  split <;> ring

theorem length_completionBytes (q : Ring) (rcd : BitVec 2048) (c : Completion) : (completionBytes q rcd c).length = 32 := length_leBytes ..

/-- SEQ, STATUS, KIND and DETAIL as the record's first eight bytes hold them. -/
theorem getElem?_completionBytes (q : Ring) (rcd : BitVec 2048) {c : Completion} (hstatus : c.status < 256) :
    (∀ i, i < 4 → (completionBytes q rcd c)[i]? = some (BitVec.ofNat 8 ((recSeq rcd).toNat / 256 ^ i)))
      ∧ (completionBytes q rcd c)[4]? = some (BitVec.ofNat 8 c.status) ∧ (completionBytes q rcd c)[5]? = some (BitVec.ofNat 8 (recKind rcd))
      ∧ ∀ i, i < 2 → (completionBytes q rcd c)[6 + i]? = some (BitVec.ofNat 8 (c.detail / 256 ^ i)) := by
  have hseq := (recSeq rcd).isLt
  have hkind : recKind rcd < 2 ^ 8 := field_lt ..
  obtain ⟨rest, hbytes⟩ := completionBytes_eq q rcd c
  have hbyte {i n : Nat} (hi : i < 32) (h : ((recSeq rcd).toNat
      + 2 ^ 32 * (c.status + 2 ^ 8 * (recKind rcd + 2 ^ 8 * (c.detail % 65536 + 2 ^ 16 * rest)))) / 256 ^ i % 256 = n % 256) :
      (completionBytes q rcd c)[i]? = some (BitVec.ofNat 8 n) := by
    rw [hbytes, getElem?_leBytes _ hi]
    exact congrArg some (BitVec.eq_of_toNat_eq (by simpa using h))
  refine ⟨fun i hi => hbyte (by omega) ?_, hbyte (by decide) (by omega), hbyte (by decide) (by omega), fun i hi => hbyte (by omega) ?_⟩
  · interval_cases i <;> omega
  · interval_cases i <;> omega

/-! ## A completion written (R332, R337, R338) -/

/-- A ring once its record is done. -/
def Ring.completed (q : Ring) (rcd : BitVec 2048) : Ring :=
  { q with cplNext := q.cplNext + 1, lastDone := recSeq rcd, current := none, enable := q.enable && !q.disabling, disabling := false }

/-- The address of a ring's next completion slot. -/
def Ring.cplSlot (q : Ring) : Nat := hostAddr (q.cplBase.toNat + 32 * (q.cplNext.toNat % q.slots))

/-- A message changes no ring (R338). -/
@[simp] theorem State.sendMsix_ring (s : State) (port vector r : Nat) : (s.sendMsix port vector).ring r = s.ring r := by
  unfold State.sendMsix
  split <;> rfl

theorem State.sendMsix_unmasked {s : State} {port vector : Nat} (h : s.msixMasked port vector = false) :
    (s.sendMsix port vector).host.msix = (port, vector) :: s.host.msix := by
  rw [State.sendMsix, h, if_neg Bool.false_ne_true]

section
variable (r : Nat) (rcd : BitVec 2048) (c : Completion) (s : State)

/-- The slot written and the ring's entry changed, before the message. -/
def slotCompleted : State := (s.put (s.ring r).cplSlot (completionBytes (s.ring r) rcd c) false).modRing r fun q => q.completed rcd

theorem slotCompleted_mem : (slotCompleted r rcd c s).mem = Memory.writeBytes s.mem (s.ring r).cplSlot (completionBytes (s.ring r) rcd c) := by
  rw [slotCompleted, State.modRing_mem, Ring.cplSlot, State.put_hostAddr_mem]

theorem slotCompleted_ring : (slotCompleted r rcd c s).ring r = (s.ring r).completed rcd := by
  rw [slotCompleted, State.ring_modRing, State.ring_congr (State.put_host ..)]

theorem slotCompleted_ring_other {o : Nat} (h : o ≠ r) : (slotCompleted r rcd c s).ring o = s.ring o := by
  rw [slotCompleted, State.ring_modRing_other _ _ h, State.ring_congr (State.put_host ..)]

@[simp] theorem slotCompleted_msix : (slotCompleted r rcd c s).host.msix = s.host.msix :=
  (congrArg HostIf.msix (State.put_host s (s.ring r).cplSlot (completionBytes (s.ring r) rcd c) false) :)

theorem slotCompleted_msixTable : (slotCompleted r rcd c s).host.msixTable = s.host.msixTable :=
  (congrArg HostIf.msixTable (State.put_host s (s.ring r).cplSlot (completionBytes (s.ring r) rcd c) false) :)

@[simp] theorem slotCompleted_msixMasked (port vector : Nat) : (slotCompleted r rcd c s).msixMasked port vector = s.msixMasked port vector := by
  simp only [State.msixMasked, State.msixWord, slotCompleted_msixTable]

@[simp] theorem slotCompleted_ringPort : (slotCompleted r rcd c s).ringPort r = s.ringPort r := by
  unfold State.ringPort slotCompleted
  rw [State.modRing_start, State.put_start]

/-- A ring with MSIX sends its vector after the record. -/
theorem writeCompletion_eq : writeCompletion r rcd c s
    = if (s.ring r).msix then (slotCompleted r rcd c s).sendMsix (s.ringPort r) (s.ring r).vector.toNat else slotCompleted r rcd c s := by
  rw [← slotCompleted_ringPort r rcd c s]
  rfl

theorem writeCompletion_mem : (writeCompletion r rcd c s).mem = Memory.writeBytes s.mem (s.ring r).cplSlot (completionBytes (s.ring r) rcd c) := by
  rw [writeCompletion_eq, ← slotCompleted_mem]
  split
  · exact State.sendMsix_mem ..
  · rfl

theorem writeCompletion_ring : (writeCompletion r rcd c s).ring r = (s.ring r).completed rcd := by
  rw [writeCompletion_eq, ← slotCompleted_ring]
  split
  · exact State.sendMsix_ring ..
  · rfl

theorem writeCompletion_ring_other {o : Nat} (h : o ≠ r) : (writeCompletion r rcd c s).ring o = s.ring o := by
  rw [writeCompletion_eq, ← slotCompleted_ring_other r rcd c s h]
  split
  · exact State.sendMsix_ring ..
  · rfl
end

theorem completionRecord_claim : Claim.CompletionRecord := by
  intro r rcd c s hwf hstatus q a t
  obtain ⟨hseq, hst, hkind, hdetail⟩ := getElem?_completionBytes q rcd hstatus
  have hread {i : Nat} {b : Byte} (h : (completionBytes q rcd c)[i]? = some b) : Memory.read t.mem (a + i) = b := by
    obtain ⟨hi, hb⟩ := List.getElem?_eq_some_iff.1 h
    rw [show t.mem = _ from writeCompletion_mem r rcd c s]
    exact (Memory.read_writeBytes_at a _ hwf i hi).trans hb
  have hring := writeCompletion_ring r rcd c s
  have hmoved := (Unmoved.refl s).writeCompletion r rcd c
  refine ⟨fun i hi => hread (hseq i hi), hread hst, hread hkind, fun i hi => by rw [Nat.add_assoc]; exact hread (hdetail i hi), fun x hx => ?other,
    congrArg Ring.cplNext hring, congrArg Ring.lastDone hring, congrArg Ring.current hring, fun o ho => writeCompletion_ring_other r rcd c s ho,
    hmoved.cores, hmoved.parts, fun hm => ?silent, fun hm hmask => ?message⟩
  case other =>
    rw [show t.mem = _ from writeCompletion_mem r rcd c s]
    exact Memory.read_writeBytes_other a _ hwf x (by rwa [length_completionBytes])
  case silent =>
    rw [show t = _ from writeCompletion_eq r rcd c s, if_neg (by rw [show (s.ring r).msix = false from hm]; decide)]
    exact slotCompleted_msix ..
  case message =>
    rw [show t = _ from writeCompletion_eq r rcd c s, if_pos (show (s.ring r).msix = true from hm)]
    rw [State.sendMsix_unmasked (by rwa [slotCompleted_msixMasked]), slotCompleted_msix]

/-! ## The next record of a ring taken (R334–R336) -/

/-- The record that a ring takes next. -/
def State.nextRecord (s : State) (r : Nat) : BitVec 2048 :=
  BitVec.ofNat 2048 (s.peekNat (hostAddr ((s.ring r).ringBase.toNat + 256 * ((s.ring r).consumed.toNat % (s.ring r).entries))) 256)

/-- CONSUMED has advanced past the record. -/
def recordPassed (r : Nat) (s : State) : State := s.modRing r fun q => { q with consumed := q.consumed + 1 }

/-- A record in its order has been noted. -/
def recordNoted (r : Nat) (s : State) : State := (recordPassed r s).modRing r fun q => { q with lastSeq := some (recSeq (s.nextRecord r)) }

section
variable {r : Nat} {s : State}

theorem takeOne_outOfOrder (h : (s.ring r).lastSeq.any (fun l => recSeq (s.nextRecord r) != l + 1) = true) :
    takeOne r s = ((writeCompletion r (s.nextRecord r) (cplStatus 0x02 0) (recordPassed r s)).modRing r fun q => { q with stopped := true }, false) :=
  if_pos h

theorem takeOne_taken (hseq : (s.ring r).lastSeq.any (fun l => recSeq (s.nextRecord r) != l + 1) = false) (hheader : badHeader (s.nextRecord r) = false)
    (hcmd : ¬ (recKind (s.nextRecord r) = 3 ∧ (recCmd (s.nextRecord r) = 0 ∨ 4 < recCmd (s.nextRecord r)))) :
    takeOne r s = ((recordNoted r s).modRing r fun q => { q with current := some (s.nextRecord r) }, false) :=
  (if_neg (ne_true_of_eq_false hseq)).trans <| (if_neg (ne_true_of_eq_false hheader)).trans (if_neg hcmd)

/-- A completion advances no CONSUMED. -/
theorem writeCompletion_consumed (rcd : BitVec 2048) (c : Completion) : ((writeCompletion r rcd c s).ring r).consumed = (s.ring r).consumed :=
  (congrArg Ring.consumed (writeCompletion_ring r rcd c s) :)

/-- Whatever becomes of the record, CONSUMED advances by one. -/
theorem takeOne_consumed (r : Nat) (s : State) : ((takeOne r s).1.ring r).consumed = (s.ring r).consumed + 1 := by
  have hpassed : ((recordPassed r s).ring r).consumed = (s.ring r).consumed + 1 := by rw [recordPassed, State.ring_modRing]
  have hnoted : ((recordNoted r s).ring r).consumed = (s.ring r).consumed + 1 := by rw [recordNoted, State.ring_modRing, hpassed]
  have hopen (status : Nat) : (((recordNoted r s).openStatus status).1.ring r).consumed = (s.ring r).consumed + 1 := hnoted
  unfold takeOne
  dsimp only
  split
  · rw [State.ring_modRing]
    exact (writeCompletion_consumed ..).trans hpassed
  · split
    · exact (writeCompletion_consumed ..).trans (hopen 0x01)
    · split
      · split
        · exact (writeCompletion_consumed ..).trans (hopen 0x03)
        · exact (writeCompletion_consumed ..).trans hnoted
      · rw [State.ring_modRing]
        exact hnoted
end

theorem recordTaken_claim : Claim.RecordTaken := by
  intro r s q rcd t
  refine ⟨takeOne_consumed r s, fun l hlast hseq => ?refused, fun hseq hheader hcmd => ?taken⟩
  case refused =>
    have hbad : (s.ring r).lastSeq.any (fun l => recSeq (s.nextRecord r) != l + 1) = true := by
      rw [show (s.ring r).lastSeq = some l from hlast]
      exact bne_iff_ne.2 hseq
    rw [show t = _ from congrArg Prod.fst (takeOne_outOfOrder hbad)]
    refine ⟨by rw [State.ring_modRing], recordPassed r s, ?_, rfl, rfl⟩
    rw [recordPassed, State.ring_modRing]
  case taken =>
    have hgood : (s.ring r).lastSeq.any (fun l => recSeq (s.nextRecord r) != l + 1) = false := by
      cases h : (s.ring r).lastSeq with
      | none => rfl
      | some l => exact bne_eq_false_iff_eq.2 (hseq l h)
    have hintake : ¬ (recKind rcd = 3 ∧ (recCmd rcd = 0 ∨ 4 < recCmd rcd)) := fun ⟨hkind, hc⟩ => by
      have := hcmd hkind
      omega
    rw [show t = _ from congrArg Prod.fst (takeOne_taken hgood hheader hintake)]
    refine ⟨by rw [State.ring_modRing]; rfl, ?_, rfl, rfl⟩
    rw [State.ring_modRing, recordNoted, State.ring_modRing]
    rfl

/-- Settles O33: a completion's bytes are the digits of its fields, and taking a record is one change of its ring. -/
theorem completionRecords : Obligations.CompletionRecords := ⟨completionRecord_claim, recordTaken_claim⟩

end Sys2Proof.Machine
end

section
/-! # Rings enabled and disabled, multicast groups and peer grants (R191, R320, R323, R332, R333, R344) -/

namespace Sys2Proof.Machine

/-! ## A ring enabled (R332, R333, R335) -/

/-- A ring with PRODUCED read. -/
def Ring.withProduced (q : Ring) (v : BitVec 32) : Ring := { q with produced := v }

/-- PRODUCED of a ring as its producer line has it now. -/
def producedRead (r : Nat) (s : State) : State :=
  s.modRing r fun q => q.withProduced (BitVec.ofNat 32 (s.peekNat (hostAddr q.prodLine.toNat) 4))

theorem refetch_reached {r : Nat} {s : State} (h : s.reachable (s.ringPort r) = true) : refetch r s = pumpRing r (producedRead r s) := by
  rw [refetch, h]
  rfl

theorem refetch_unreached {r : Nat} {s : State} (h : s.reachable (s.ringPort r) = false) : refetch r s = s := by
  rw [refetch, h]
  rfl

/-- The number that bytes of the host's memory hold depends on memory alone. -/
theorem State.peekNat_hostAddr {s t : State} (h : t.mem = s.mem) (x n : Nat) : t.peekNat (hostAddr x) n = s.peekNat (hostAddr x) n := by
  rw [State.peekNat, State.peek_hostAddr, h, ← State.peek_hostAddr, State.peekNat]

/-- A ring as the write of ENABLE leaves it. -/
def Ring.enabled (q : Ring) (msix : Bool) (vector : BitVec 11) : Ring :=
  { q with enable := true, msix := msix, vector := vector, stopped := false, consumed := 0, cplNext := 0, lastSeq := none, current := none, disabling := false }

section
variable {r : Nat} {msix : Bool} {vector : BitVec 11} {s : State}

theorem enableRing_enabled (h : (s.ring r).enable = true) : enableRing r msix vector s = s := if_pos h

theorem enableRing_reserved (h : (s.ring r).enable = false) (hsize : 12 ≤ (s.ring r).ringLog2.toNat ∨ 12 ≤ (s.ring r).cplLog2.toNat) :
    enableRing r msix vector s = s.countRefused := (if_neg (ne_true_of_eq_false h)).trans (if_pos hsize)

theorem enableRing_enables (h : (s.ring r).enable = false) (hup : s.ringsUp = true) (hpart : (s.ringPart r).isSome = true)
    (hring : (s.ring r).ringLog2.toNat < 12) (hcpl : (s.ring r).cplLog2.toNat < 12) :
    enableRing r msix vector s = refetch r (s.modRing r fun q => q.enabled msix vector) := by
  have hsize : ¬ (12 ≤ (s.ring r).ringLog2.toNat ∨ 12 ≤ (s.ring r).cplLog2.toNat) := by omega
  have hready : ¬ (!s.ringsUp || (s.ringPart r).isNone) = true := by
    rw [hup, ← Option.not_isSome, hpart]
    decide
  exact (if_neg (ne_true_of_eq_false h)).trans ((if_neg hsize).trans (if_neg hready))

/-- The ring that is enabled: its producer line is read where it lay before. -/
theorem enabledRead_ring : (producedRead r (s.modRing r fun q => q.enabled msix vector)).ring r
    = ((s.ring r).enabled msix vector).withProduced (BitVec.ofNat 32 (s.peekNat (hostAddr (s.ring r).prodLine.toNat) 4)) := by
  have hline : ((s.ring r).enabled msix vector).prodLine = (s.ring r).prodLine := rfl
  rw [producedRead, State.ring_modRing, State.ring_modRing, State.peekNat_hostAddr (State.modRing_mem ..), hline]

theorem enabledRead_ring_other {o : Nat} (h : o ≠ r) : (producedRead r (s.modRing r fun q => q.enabled msix vector)).ring o = s.ring o := by
  rw [producedRead, State.ring_modRing_other _ _ h, State.ring_modRing_other _ _ h]

theorem exec_ringEnable (h : s.reachable (s.ringPort r) = true) : exec (.ringEnable r msix vector) s = .next (enableRing r msix vector s) := by
  change Host.Outcome.next (if s.reachable (s.ringPort r) then enableRing r msix vector s else s) = _
  rw [if_pos h]

theorem exec_ringEnable_enabled (h : (s.ring r).enable = true) : exec (.ringEnable r msix vector) s = .next s := by
  change Host.Outcome.next (if s.reachable (s.ringPort r) then enableRing r msix vector s else s) = _
  rw [enableRing_enabled h, ite_self]

theorem exec_ringDisable (h : s.reachable (s.ringPort r) = true) : exec (.ringDisable r) s = .next (disableRing r s) := by
  change Host.Outcome.next (if s.reachable (s.ringPort r) then disableRing r s else s) = _
  rw [if_pos h]
end

/-! ## The host's stores to its own memory (R333, R348) -/

theorem hostStores_spec {stores : List Host.Cell} (h : ∀ c ∈ stores, regionOf c.1 = .host) (s : State) :
    (hostStores stores s).mem = stores.foldl (fun m c => Memory.write m c.1 c.2) s.mem ∧ (hostStores stores s).cores = s.cores
      ∧ (hostStores stores s).parts = s.parts ∧ (hostStores stores s).host = s.host ∧ (hostStores stores s).start = s.start := by
  unfold hostStores
  induction stores generalizing s with
  | nil => exact ⟨rfl, rfl, rfl, rfl, rfl⟩
  | cons c l ih =>
    rw [List.forall_mem_cons] at h
    rw [List.foldl_cons, List.foldl_cons, if_pos h.1]
    exact ih h.2 (s.store c.1 [c.2] false)

theorem rings_claim : Claim.Rings := by
  refine ⟨fun r msix vector s p hlink henable hup hpart hring hcpl => ?enables, fun r msix vector s h => exec_ringEnable_enabled h,
    fun r msix vector s hlink henable hsize => ⟨_, (exec_ringEnable hlink).trans (congrArg _ (enableRing_reserved henable hsize)), rfl⟩,
    fun r s hlink henable => ⟨_, exec_ringDisable hlink, ?disables⟩, fun r stores s hhost => ?line⟩
  case enables =>
    have hexec := exec_ringEnable (msix := msix) (vector := vector) hlink
    rw [enableRing_enables henable hup (by rw [hpart]; rfl) hring hcpl, refetch_reached (by exact hlink)] at hexec
    refine ⟨_, hexec, _, rfl, ?_, rfl, rfl, rfl, fun o ho => enabledRead_ring_other ho⟩
    rw [enabledRead_ring]
    exact ⟨rfl, rfl, rfl, rfl, rfl, rfl, rfl, rfl, rfl⟩
  case disables =>
    refine ⟨?_, fun o ho => State.ring_modRing_other _ _ ho, rfl, rfl, rfl⟩
    rw [disableRing, State.ring_modRing, if_neg (by rw [henable]; decide)]
  case line =>
    obtain ⟨hmem, hcores, hparts, hside, hstart⟩ := hostStores_spec hhost s
    have hring : (hostStores stores s).ring r = s.ring r := State.ring_congr hside r
    have hreach : (hostStores stores s).reachable ((hostStores stores s).ringPort r) = s.reachable (s.ringPort r) := by
      simp only [State.reachable, State.hasPort, State.linked, State.ringPort, hside, hstart]
    refine ⟨_, rfl, hostStores stores s, hmem, hcores, hparts, ?_⟩
    rw [hring]
    cases henable : (s.ring r).enable with
    | false => rfl
    | true =>
      cases hlink : s.reachable (s.ringPort r) with
      | false => exact refetch_unreached (hreach.trans hlink)
      | true => exact refetch_reached (hreach.trans hlink)

/-! ## Multicast groups (R323) -/

section
variable {r p : Nat} {rcd : BitVec 2048} {s : State}

theorem allocateMcast_allocates {g : Nat} (hgrant : s.hostGranted p (recImage rcd) 64 = true) (hg : g < 1024)
    (hfree : Tbl.get? s.fabric.mcast g = none) (hlow : ∀ k, k < g → (Tbl.get? s.fabric.mcast k).isSome = true)
    (hok : mcastOk (BitVec.ofNat 512 (s.peekNat (hostAddr (recImage rcd)) 64)) = true) :
    allocateMcast r p rcd s = completeRecord r { cplOk with result := g } { s with fabric := { s.fabric with
      mcast := s.fabric.mcast.put g (p, BitVec.ofNat 512 (s.peekNat (hostAddr (recImage rcd)) 64)) } } := by
  have hfind : (List.range 1024).find? (fun g => (Tbl.get? s.fabric.mcast g).isNone) = some g := by
    rw [List.find?_range_eq_some]
    refine ⟨by rw [hfree]; rfl, List.mem_range.2 hg, fun k hk => ?_⟩
    rw [← Option.not_isSome, hlow k hk]
    rfl
  simp [allocateMcast, hgrant, hfind, hok]

theorem freeMcast_frees {e : BitVec 512} (h : Tbl.get? s.fabric.mcast (field rcd 256 10) = some (p, e)) :
    freeMcast r p rcd s = completeRecord r cplOk { s with fabric := { s.fabric with mcast := s.fabric.mcast.del (field rcd 256 10) } } := by
  simp [freeMcast, h]
end

theorem multicastGroups_claim : Claim.MulticastGroups := by
  intro r s p rcd
  refine ⟨fun hrec hres hgrant => ?allocates, fun hrec hres => ?frees⟩
  case allocates =>
    intro e g hg hfree hlow hok
    have hentry : BitVec.ofNat 512 ((s.disturb (some p)).peekNat (hostAddr (recImage rcd)) 64) = e :=
      congrArg _ (State.peekNat_hostAddr (State.disturb_mem ..) ..)
    have hbody := allocateMcast_allocates (r := r) (p := p) (rcd := rcd) (s := s.disturb (some p)) (g := g) (by rwa [State.disturb_hostGranted]) hg
      (by rwa [State.disturb_fabric]) (by rwa [State.disturb_fabric]) (by rwa [hentry])
    rw [hentry] at hbody
    refine completes_controlRecord rfl hrec hres hbody rfl ⟨?_, fun k hk => ?_, State.disturb_mem .., State.disturb_cores ..⟩
    · exact Tbl.get?_put_self ..
    · rw [← State.disturb_fabric s (some p)]
      exact Tbl.get?_put_other _ _ hk
  case frees =>
    intro g e he
    have hbody := freeMcast_frees (r := r) (s := s.disturb (some p)) (by rwa [State.disturb_fabric])
    refine completes_controlRecord rfl hrec hres hbody rfl ⟨?_, fun x hx hne => ?_, State.disturb_mem .., State.disturb_cores ..⟩
    · exact Tbl.get?_del_self ..
    · exact List.mem_filter.2 ⟨by rwa [State.disturb_fabric], bne_iff_ne.2 hne⟩

/-! ## The lowest free place on a stack (R191) -/

/-- A fold that keeps the lesser of two numbers finds the least. -/
theorem foldl_eq_min? {f : Option Nat → Nat → Option Nat} (hnone : ∀ a, f none a = some a) (hsome : ∀ x a, f (some x) a = some (min x a))
    (l : List Nat) : l.foldl f none = l.min? := by
  have hstart (l : List Nat) (x : Nat) : l.foldl f (some x) = some (l.foldl min x) := by
    induction l generalizing x with
    | nil => rfl
    | cons a l ih => rw [List.foldl_cons, hsome, ih, List.foldl_cons]
  cases l with
  | nil => rfl
  | cons a l => rw [List.foldl_cons, hnone, hstart, List.min?_cons']

/-- Lists with the same elements have the same least element. -/
theorem min?_congr {l k : List Nat} (h : ∀ x, x ∈ l ↔ x ∈ k) : l.min? = k.min? := by
  ext a
  rw [List.min?_eq_some_iff, List.min?_eq_some_iff]
  simp only [h]

theorem Tbl.mem_of_get? {α : Type} {t : Tbl α} {n : Nat} {v : α} (h : t.get? n = some v) : (n, v) ∈ t := by
  induction t with
  | nil => cases h
  | cons e t ih =>
    obtain ⟨k, w⟩ := e
    unfold Tbl.get? at h
    split at h
    next hk =>
      subst hk
      cases h
      exact List.mem_cons_self
    next => exact List.mem_cons_of_mem _ (ih h)

/-- What the entries of a table list, the default listing nothing, is the same after an entry is put that lists what stood at its key. -/
theorem Tbl.mem_flatMap_put {α β : Type} {t : Tbl α} {n : Nat} {v d : α} {g : α → List β} (hd : g d = []) (hv : g v = g (t.getD n d)) (x : β) :
    x ∈ (t.put n v).flatMap (fun e => g e.2) ↔ x ∈ t.flatMap (fun e => g e.2) := by
  induction t with
  | nil =>
    have hnone : g v = [] := hv.trans hd
    simp [Tbl.put, hnone]
  | cons e t ih =>
    obtain ⟨k, w⟩ := e
    have hother (h : k ≠ n) : g v = g (Tbl.getD t n d) := by rw [hv, Tbl.getD, Tbl.get?, if_neg h, Tbl.getD]
    unfold Tbl.put
    split
    next hlow =>
      have hlisted : x ∈ g v → x ∈ t.flatMap fun e => g e.2 := fun hx => by
        rw [hother (by omega), Tbl.getD] at hx
        cases hget : Tbl.get? t n with
        | none => rw [hget, Option.getD_none, hd] at hx; cases hx
        | some w =>
          rw [hget, Option.getD_some] at hx
          exact List.mem_flatMap.2 ⟨_, Tbl.mem_of_get? hget, hx⟩
      simp only [List.flatMap_cons, List.mem_append]
      exact ⟨fun h => h.elim (fun hx => .inr (hlisted hx)) id, .inr⟩
    next =>
      split
      next hk =>
        rw [Tbl.getD, Tbl.get?, if_pos hk, Option.getD_some] at hv
        simp [hv]
      next hk =>
        simp only [List.flatMap_cons, List.mem_append]
        rw [ih (hother hk)]

/-- A range is clear of reserved ones whatever their order and number. -/
theorem rangeFree_congr {l k : List (Nat × Nat)} (h : ∀ x, x ∈ l ↔ x ∈ k) (a n : Nat) : rangeFree l a n = rangeFree k a n := by
  rw [Bool.eq_iff_iff, rangeFree, rangeFree, List.all_eq_true, List.all_eq_true]
  simp only [h]

/-- The places among which the lowest is taken: the stack's start and the ends of reserved ranges at which the bytes fit. -/
def State.freePlaces (s : State) (u n : Nat) : List Nat :=
  (hbmBase u :: (s.reservedRanges u).map fun t => hbmBase u + pageUp (t.1 + t.2 - hbmBase u)).filter fun a =>
    decide (a + n ≤ hbmBase u + s.grantable u) && rangeFree (s.reservedRanges u) a n

theorem State.placeRange_eq (s : State) (u n : Nat) : s.placeRange u n = (s.freePlaces u n).min? := foldl_eq_min? (fun _ => rfl) (fun _ _ => rfl) _

/-- The place on a stack depends on which ranges are reserved, not on how they are listed. -/
theorem State.placeRange_congr {s t : State} (hstart : t.start = s.start) {u : Nat} (h : ∀ x, x ∈ t.reservedRanges u ↔ x ∈ s.reservedRanges u) (n : Nat) :
    t.placeRange u n = s.placeRange u n := by
  have hgrantable : t.grantable u = s.grantable u := by rw [State.grantable, hstart, State.grantable]
  rw [State.placeRange_eq, State.placeRange_eq]
  refine min?_congr fun a => ?_
  simp only [State.freePlaces, List.mem_filter, List.mem_cons, List.mem_map, h, rangeFree_congr h, hgrantable]

theorem State.modPart_reservedRanges (s : State) {p u : Nat} {f : Part → Part} (hf : ∀ q, (f q).hbmOf u = q.hbmOf u) (x : Nat × Nat) :
    x ∈ (s.modPart p f).reservedRanges u ↔ x ∈ s.reservedRanges u :=
  Tbl.mem_flatMap_put (t := s.parts) (n := p) (d := Part.reset) (g := fun q => q.hbmOf u) rfl (hf (s.part p)) x

/-- A disturbed sweep takes no place on a stack. -/
theorem State.disturb_placeRange (s : State) (p u n : Nat) : (s.disturb (some p)).placeRange u n = s.placeRange u n :=
  State.placeRange_congr (s.disturb_start (some p)) (s.modPart_reservedRanges fun _ => rfl) n

/-! ## Peer grants (R320, R344) -/

/-- The grant that a CONTROL record asks for, at a place. -/
def recGrant (rcd : BitVec 2048) (a : Nat) : PeerGrant :=
  { sender := field rcd 256 12, unit := field rcd 268 8, tag := BitVec.ofNat 32 (field rcd 288 32), bytes := field rcd 320 64, base := a }

section
variable {r p : Nat} {rcd : BitVec 2048} {s : State}

theorem grantPeer_grants {a : Nat} (hunit : field rcd 268 8 ∈ s.presentUnits p) (hplace : s.placeRange (field rcd 268 8) (field rcd 320 64) = some a) :
    grantPeer r p rcd s = completeRecord r { cplOk with result := a } (s.modPart p fun q => { q with grants := q.grants ++ [recGrant rcd a] }) := by
  simp only [grantPeer, List.contains_iff_mem.2 hunit, if_true, hplace]
  rfl

theorem revokePeer_revokes {g : PeerGrant} (hfind : (s.part p).grants.find? (fun g => g.tag == BitVec.ofNat 32 (field rcd 288 32)) = some g)
    (huse : s.grantInUse g = false) :
    revokePeer r p rcd s = completeRecord r cplOk (s.modPart p fun q => { q with grants := q.grants.filter fun x => x != g }) := by
  simp [revokePeer, hfind, huse]
end

@[simp] theorem State.disturb_grants (s : State) (q : Option Nat) (p : Nat) : ((s.disturb q).part p).grants = (s.part p).grants := by
  rw [← s.part_disturb q p]

theorem peerGrants_claim : Claim.PeerGrants := by
  intro r s p rcd
  refine ⟨fun hrec hres => ?grants, fun hrec hres g hfind huse => ?revokes⟩
  case grants =>
    intro u n hunit a hplace
    have hpresent : (s.disturb (some p)).presentUnits p = s.presentUnits p := rfl
    have hbody := grantPeer_grants (r := r) (s := s.disturb (some p)) (by rwa [hpresent]) ((State.disturb_placeRange ..).trans hplace)
    refine completes_controlRecord rfl hrec hres hbody rfl ⟨?_, ?_, State.disturb_mem .., State.disturb_cores ..⟩
    · rw [State.part_modPart, State.disturb_grants]
      rfl
    · rw [State.part_modPart]
      exact State.disturb_job ..
  case revokes =>
    have hinUse : (s.disturb (some p)).grantInUse g = s.grantInUse g := rfl
    have hbody := revokePeer_revokes (r := r) (s := s.disturb (some p)) (by rwa [State.disturb_grants]) (hinUse.trans huse)
    refine completes_controlRecord rfl hrec hres hbody rfl ⟨?_, ?_, State.disturb_mem .., State.disturb_cores ..⟩
    · rw [State.part_modPart, State.disturb_grants]
    · rw [State.part_modPart]
      simp

/-- Settles O34: enabling and disabling are one change of the ring before it takes records, and a CONTROL record's body ends in one change of
its table. -/
theorem ringsAndGrants : Obligations.RingsAndGrants := ⟨rings_claim, multicastGroups_claim, peerGrants_claim⟩

end Sys2Proof.Machine
end

section
/-! # A ring's records and the other rings (R332–R337) -/

namespace Sys2Proof.Machine

section
variable {r o : Nat} (h : o ≠ r)
include h

theorem takeOne_ring_other (s : State) : (takeOne r s).1.ring o = s.ring o := by
  have hpassed : (recordPassed r s).ring o = s.ring o := State.ring_modRing_other _ _ h
  have hnoted : (recordNoted r s).ring o = s.ring o := (State.ring_modRing_other _ _ h).trans hpassed
  have hopen (status : Nat) : ((recordNoted r s).openStatus status).1.ring o = s.ring o := hnoted
  unfold takeOne
  dsimp only
  split
  · exact (State.ring_modRing_other _ _ h).trans ((writeCompletion_ring_other _ _ _ _ h).trans hpassed)
  · split
    · exact (writeCompletion_ring_other _ _ _ _ h).trans (hopen 0x01)
    · split
      · split
        · exact (writeCompletion_ring_other _ _ _ _ h).trans (hopen 0x03)
        · exact (writeCompletion_ring_other _ _ _ _ h).trans hnoted
      · exact (State.ring_modRing_other _ _ h).trans hnoted

theorem takeRecords_ring_other (n : Nat) (s : State) : (takeRecords r n s).ring o = s.ring o := by
  induction n generalizing s with
  | zero => rfl
  | succ n ih =>
    unfold takeRecords
    dsimp only
    split
    · split
      · exact (ih _).trans (takeOne_ring_other h s)
      · exact takeOne_ring_other h s
    · rfl

/-- A record that completes changes no other ring. -/
theorem completeRecord_ring_other (c : Completion) (s : State) : (completeRecord r c s).ring o = s.ring o := by
  unfold completeRecord
  split
  · rfl
  · exact (takeRecords_ring_other h _ _).trans (writeCompletion_ring_other _ _ _ _ h)
end

/-- A record that completes changes no core, partition or link. -/
theorem Unmoved.completeRecord (r : Nat) (c : Completion) (s : State) : Unmoved s (completeRecord r c s) := by
  unfold Machine.completeRecord
  split
  · exact .refl s
  · exact ((Unmoved.refl s).writeCompletion ..).trans (.takeRecords ..)

/-- A record in progress that completes with a status whose DETAIL is open. -/
theorem answers_completeOpen {s : State} {r : Nat} {rcd : BitVec 2048} (h : (s.ring r).current = some rcd) (status : Nat) :
    ∃ d, Answers r (cplStatus status d) s.fresh.2 (completeOpen r status s) :=
  ⟨_, answers_completeRecord (u := s.fresh.2) h _⟩

end Sys2Proof.Machine
end

section
/-! # What semaphores and a core's cycles keep of the jobs and of the cores' states (R78, R95, R261, R278) -/

namespace Sys2Proof.Machine

/-! ## A job but for its unstable boundaries -/

/-- A job without the boundaries that semaphores have made unstable. -/
def Job.declared (j : Job) : Job := { j with unstable := [] }

/-- The job of a partition as far as the cycles of its cores do not change it. -/
def State.declaredJob (s : State) (p : Nat) : Option Job := (s.part p).job.map Job.declared

theorem State.declaredJob_congr {s t : State} (h : t.parts = s.parts) (p : Nat) : t.declaredJob p = s.declaredJob p := by
  rw [State.declaredJob, State.part_congr h, State.declaredJob]

theorem State.tag_declaredJob (s : State) (p : Nat) : (s.part p).job.map (·.tag) = (s.declaredJob p).map (·.tag) := by
  rw [State.declaredJob, Option.map_map]
  rfl

/-- A job that is the same as another but for its unstable boundaries. -/
theorem State.job_of_declaredJob {s : State} {p : Nat} {j : Job} (h : s.declaredJob p = some j.declared) :
    ∃ k, (s.part p).job = some k ∧ k.declared = j.declared := Option.map_eq_some_iff.1 h

@[simp] theorem State.declaredJob_ite (c : Prop) [Decidable c] (s t : State) (p : Nat) :
    (if c then s else t).declaredJob p = if c then s.declaredJob p else t.declaredJob p := apply_ite (State.declaredJob · p) c s t

section
variable (s : State) (c : CoreId) (p : Nat)

@[simp] theorem State.declaredJob_modCore (f : Core → Core) : (s.modCore c f).declaredJob p = s.declaredJob p := rfl

@[simp] theorem State.declaredJob_modRegs (f : CoreRegs → CoreRegs) : (s.modRegs c f).declaredJob p = s.declaredJob p := rfl

@[simp] theorem State.declaredJob_schedule (l : List Sched) : (s.schedule c l).declaredJob p = s.declaredJob p := rfl

@[simp] theorem State.declaredJob_store (a : Nat) (data : List Byte) (m : Bool) : (s.store a data m).declaredJob p = s.declaredJob p := rfl

@[simp] theorem State.declaredJob_storeRuns (runs : List (Nat × List Byte)) (m : Bool) : (s.storeRuns c runs m).declaredJob p = s.declaredJob p := rfl

@[simp] theorem State.declaredJob_logFault (e : FaultEntry) : (s.logFault c e).declaredJob p = s.declaredJob p := rfl

@[simp] theorem State.declaredJob_logError (e : ErrorEvent) : (s.logError e).declaredJob p = s.declaredJob p :=
  State.declaredJob_congr (State.logError_parts ..) p

@[simp] theorem State.declaredJob_countPerf (code n : Nat) : (s.countPerf c code n).declaredJob p = s.declaredJob p := by
  simp [State.countPerf]

@[simp] theorem State.declaredJob_countMarked (a n : Nat) : (s.countMarked c a n).declaredJob p = s.declaredJob p := by
  simp [State.countMarked]

@[simp] theorem State.declaredJob_auditRows (e : Sched) (rows : List Nat) : (s.auditRows c e rows).declaredJob p = s.declaredJob p := by
  have hevents (l : List Nat) : (l.foldl (fun s _ => s.auditEvent c 0x20 e.index e.half e.count) s).declaredJob p = s.declaredJob p :=
    foldl_keeps (State.declaredJob · p) (fun s _ => s.auditEvent c 0x20 e.index e.half e.count) (fun _ _ => rfl) l s
  simp [State.auditRows, State.auditStop, hevents]

@[simp] theorem State.declaredJob_poisonHalt (e : Sched) (i : Nat) : (s.poisonHalt c e i).declaredJob p = s.declaredJob p := by
  simp [State.poisonHalt]

/-- A semaphore that changes may make boundaries unstable, and declares nothing. -/
@[simp] theorem State.declaredJob_touched : (s.touched c).declaredJob p = s.declaredJob p := by
  unfold State.touched
  split
  · rfl
  · split
    next => rfl
    next q _ _ j hj =>
      rw [State.declaredJob_ite]
      split
      · rfl
      · unfold State.declaredJob
        by_cases hp : p = q
        · subst hp
          rw [State.part_modPart, hj]
          rfl
        · rw [State.part_modPart_other _ _ hp]

@[simp] theorem State.declaredJob_incSem (r n : Nat) (sender : Option CoreId) (at_ : Place) : (s.incSem c r n sender at_).declaredJob p = s.declaredJob p := by
  simp [State.incSem]

@[simp] theorem declaredJob_applyAct (e : Sched) : (applyAct c e s).declaredJob p = s.declaredJob p := by
  have hmarked (l : List Move) : (l.foldl (fun s m => s.countMarked c m.addr m.len) s).declaredJob p = s.declaredJob p :=
    foldl_keeps (State.declaredJob · p) _ (fun s _ => s.declaredJob_countMarked ..) l s
  have hstored (f : Nat → Nat) (g : Nat → List Byte) (m : Bool) (l : List Nat) :
      (l.foldl (fun s b => s.store (f b) (g b) m) s).declaredJob p = s.declaredJob p :=
    foldl_keeps (State.declaredJob · p) (fun s b => s.store (f b) (g b) m) (fun _ _ => rfl) l s
  cases hact : e.act <;> simp only [applyAct, hact]
  case vRead => simp [hmarked]
  case mmsWrite => simp [hstored]
  all_goals simp

theorem declaredJob_runActs (upto : Option Nat) (fuel : Nat) : (runActs c upto fuel s).declaredJob p = s.declaredJob p := by
  induction fuel generalizing s with
  | zero => rfl
  | succ n ih =>
    unfold runActs
    split
    · rfl
    · split
      · rw [ih, declaredJob_applyAct, State.declaredJob_modCore]
      · rfl

@[simp] theorem declaredJob_stopCore : (stopCore c s).declaredJob p = s.declaredJob p := by
  unfold stopCore
  split
  · rfl
  · exact declaredJob_runActs ..
end

/-! ## Work that changes no core's state and declares no job -/

/-- Every core's state and every partition's job are as they were, but for unstable boundaries. -/
structure SameRun (s t : State) : Prop where
  state : ∀ c, (t.core c).ctl.state = (s.core c).ctl.state
  job : ∀ p, t.declaredJob p = s.declaredJob p

namespace SameRun

theorem refl (s : State) : SameRun s s := ⟨fun _ => rfl, fun _ => rfl⟩

theorem trans {s t u : State} (h : SameRun s t) (h' : SameRun t u) : SameRun s u :=
  ⟨fun c => (h'.state c).trans (h.state c), fun p => (h'.job p).trans (h.job p)⟩

theorem of_unmoved {s t : State} (h : Unmoved s t) : SameRun s t :=
  ⟨fun c => by rw [State.core_congr h.cores], fun p => State.declaredJob_congr h.parts p⟩

theorem foldl {α : Type} {f : State → α → State} (hf : ∀ s x, SameRun s (f s x)) (l : List α) (s : State) : SameRun s (l.foldl f s) :=
  foldl_keeps_inv (SameRun s) f (fun t x ht => ht.trans (hf t x)) l (refl s)

theorem ite (c : Prop) [Decidable c] {s t u : State} (ht : SameRun s t) (hu : SameRun s u) : SameRun s (if c then t else u) := by
  split
  · exact ht
  · exact hu

theorem incSem (s : State) (c : CoreId) (r n : Nat) (sender : Option CoreId) (at_ : Place) : SameRun s (s.incSem c r n sender at_) := by
  refine ⟨fun d => ?_, fun p => s.declaredJob_incSem ..⟩
  by_cases hd : d = c
  · subst hd
    unfold State.incSem
    dsimp only
    split
    · rw [State.core_touched, State.core_modCore]
    · rw [(State.logFault_spec _ d _).2.state, State.core_touched, State.core_modCore]
  · rw [State.core_incSem_other _ _ _ _ _ hd]

theorem signalDone (s : State) (c : CoreId) (r : Nat) : SameRun s (s.signalDone c r) := by
  have hfree : SameRun s s.freePlace.2 := ⟨fun _ => rfl, fun _ => rfl⟩
  unfold State.signalDone
  exact .ite _ (refl s) (.ite _ (incSem ..) (hfree.trans (incSem ..)))

theorem disturb (s : State) (p : Option Nat) : SameRun s (s.disturb p) :=
  ⟨fun c => by rw [State.core_congr (State.disturb_cores ..)], fun q => by rw [State.declaredJob, State.disturb_job, State.declaredJob]⟩

/-! ### Wheels (R226, R240, R241) -/

theorem writeClip (w : Nat) (tag : BitVec 32) (c : ClipReport) (s : State) : SameRun s (writeClip w tag c s) := by
  have hwritten (f : Wheel → Wheel) (a : Nat) (data : List Byte) : SameRun s ((s.put a data false).modWheel w f) :=
    of_unmoved (((Unmoved.refl s).put ..).setWheel w _)
  unfold Machine.writeClip
  exact trans (.ite _ ((hwritten ..).trans (.signalDone ..)) (hwritten ..)) (.disturb ..)

theorem modWheel (s : State) (w : Nat) (f : Wheel → Wheel) : SameRun s (s.modWheel w f) := of_unmoved ((Unmoved.refl s).setWheel w _)

theorem endPending (w status : Nat) (s : State) : SameRun s (endPending w status s) :=
  (modWheel ..).trans (.foldl (fun _ _ => .writeClip ..) _ _)

theorem finishClip (w : Nat) (x : ClipRun) (status : Nat) (s : State) : SameRun s (finishClip w x status s) := by
  have hended {t : State} (ht : SameRun s t) (c : ClipReport) (f : Wheel → Wheel) : SameRun s ((Machine.writeClip w x.clip.tag c t).modWheel w f) :=
    (ht.trans (.writeClip ..)).trans (.modWheel ..)
  have hfree : SameRun s (if isDecode (s.wheel w).codec.toNat then (0, s) else (s.fresh.1.toNat % 2 ^ 32, s.fresh.2)).2 := by
    split
    · exact refl s
    · exact ⟨fun _ => rfl, fun _ => rfl⟩
  exact .ite _ ((hended hfree _ _).trans (.endPending ..)) (hended hfree _ _)

theorem settleWheel (w : Nat) (s : State) : SameRun s (settleWheel w s) := by
  have hclip : SameRun s (settleClip w s) := by
    unfold settleClip
    split
    · split
      · exact .ite _ (.finishClip ..) (refl s)
      · exact refl s
    · exact refl s
  rw [settleWheel_eq]
  refine (hclip.trans (.ite _ (.endPending ..) (refl _))).trans (.ite _ ?_ (.modWheel ..))
  exact of_unmoved ((Unmoved.refl _).freeWheelEntry w)

theorem flushHbm (w : Nat) (s : State) : SameRun s (flushHbm w s) := by
  unfold Machine.flushHbm
  dsimp only
  split
  · exact refl s
  · refine .ite _ (refl s) (trans (of_unmoved (.foldl (fun t c => ?_) _ s)) (.modWheel ..))
    exact ((Unmoved.refl t).put ..).wakeFor _

theorem closeWheel (w : Nat) (abort : Bool) (s : State) : SameRun s (closeWheel w abort s) :=
  (((modWheel ..).trans (modWheel ..)).trans (flushHbm ..)).trans (settleWheel ..)

end SameRun

end Sys2Proof.Machine
end

section
/-! # STEP, RELEASE and a reserved bit of a CONTROL record (R342, R344, R345) -/

namespace Sys2Proof.Machine

/-! ## The cores of the grid in rising order (R15, R19) -/

theorem allCores_sorted : allCores.Pairwise fun c d => c.toNat < d.toNat := by
  have hrow (d r : Nat) (hd : d < 4) (hr : r < 12) :
      ((List.range 16).map fun k => BitVec.ofNat 10 (256 * d + 16 * r + k)).Pairwise fun c e : CoreId => c.toNat < e.toNat := by
    rw [List.pairwise_map]
    refine List.pairwise_lt_range.imp_of_mem fun ha hb hab => ?_
    rw [List.mem_range] at ha hb
    rw [BitVec.toNat_ofNat, BitVec.toNat_ofNat]
    omega
  have hdie (d : Nat) (hd : d < 4) : ((List.range 12).flatMap fun r => (List.range 16).map fun k => BitVec.ofNat 10 (256 * d + 16 * r + k)).Pairwise
      fun c e : CoreId => c.toNat < e.toNat := by
    refine List.pairwise_flatMap.2 ⟨fun r hr => hrow d r hd (List.mem_range.1 hr), List.pairwise_lt_range.imp_of_mem fun ha hb hab c hc e he => ?_⟩
    rw [List.mem_range] at ha hb
    obtain ⟨i, hi, rfl⟩ := List.mem_map.1 hc
    obtain ⟨k, hk, rfl⟩ := List.mem_map.1 he
    rw [List.mem_range] at hi hk
    rw [BitVec.toNat_ofNat, BitVec.toNat_ofNat]
    omega
  refine List.pairwise_flatMap.2 ⟨fun d hd => hdie d (List.mem_range.1 hd), List.pairwise_lt_range.imp_of_mem fun ha hb hab c hc e he => ?_⟩
  rw [List.mem_range] at ha hb
  obtain ⟨x, hx, hc⟩ := List.mem_flatMap.1 hc
  obtain ⟨y, hy, he⟩ := List.mem_flatMap.1 he
  obtain ⟨i, hi, rfl⟩ := List.mem_map.1 hc
  obtain ⟨k, hk, rfl⟩ := List.mem_map.1 he
  rw [List.mem_range] at hx hy hi hk
  rw [BitVec.toNat_ofNat, BitVec.toNat_ofNat]
  omega

theorem State.coresOf_nodup (s : State) (p : Nat) : (s.coresOf p).Nodup :=
  (allCores_sorted.filter _).imp fun h heq => by
    subst heq
    exact Nat.lt_irrefl _ h

/-! ## The semaphores of a STEP (R276, R342) -/

section
variable {c : CoreId} {r : Nat}

theorem core_signalDone_other (s : State) {d : CoreId} (h : d ≠ c) : (s.signalDone c r).core d = s.core d := by
  unfold State.signalDone
  split
  · rfl
  · split
    · exact State.core_incSem_other _ _ _ _ _ h
    · exact State.core_incSem_other s.freePlace.2 _ _ _ _ h

theorem x_signalDone {s : State} (h : (s.core c).flight.resetting = false) : ((s.signalDone c r).core c).regs.x = (s.core c).regs.x := by
  obtain ⟨u, at_, -, hcore, hsignal⟩ := State.signalDone_eq r h
  rw [hsignal, State.regs_incSem, hcore]

/-- The signals of a list of cores. -/
def signalCores (l : List CoreId) (r : Nat) (s : State) : State := l.foldl (fun s c => s.signalDone c r) s

theorem signalCores_cons (d : CoreId) (l : List CoreId) (s : State) : signalCores (d :: l) r s = signalCores l r (s.signalDone d r) := rfl

theorem core_signalCores_other {l : List CoreId} (hc : c ∉ l) (s : State) : (signalCores l r s).core c = s.core c := by
  induction l generalizing s with
  | nil => rfl
  | cons d l ih =>
    rw [List.mem_cons, not_or] at hc
    exact (ih hc.2 _).trans (core_signalDone_other s hc.1)

/-- Each core of the list has one signal. -/
theorem regs_signalCores {l : List CoreId} (hl : l.Nodup) (hc : c ∈ l) (hr : r < 32) {s : State} (h : (s.core c).flight.resetting = false) :
    (((signalCores l r s).core c).regs.readS r).toNat = min 65535 (((s.core c).regs.readS r).toNat + 1)
      ∧ ((signalCores l r s).core c).regs.x = (s.core c).regs.x := by
  induction l generalizing s with
  | nil => cases hc
  | cons d l ih =>
    rw [List.nodup_cons] at hl
    rw [signalCores_cons]
    by_cases hd : c = d
    · subst hd
      rw [core_signalCores_other hl.1]
      exact ⟨State.readS_signalDone hr h, x_signalDone h⟩
    · have hcore : (s.signalDone d r).core c = s.core c := core_signalDone_other s hd
      rw [← hcore] at h ⊢
      exact ih hl.2 ((List.mem_cons.1 hc).resolve_left hd) h
end

theorem signalCores_mem (l : List CoreId) (r : Nat) (s : State) : (signalCores l r s).mem = s.mem :=
  foldl_keeps (·.mem) (fun s c => s.signalDone c r) (fun s c => s.signalDone_mem c r) l s

theorem signalCores_host (l : List CoreId) (r : Nat) (s : State) : (signalCores l r s).host = s.host :=
  foldl_keeps (·.host) (fun s c => s.signalDone c r) (fun s c => s.signalDone_host c r) l s

theorem SameRun.signalCores (l : List CoreId) (r : Nat) (s : State) : SameRun s (signalCores l r s) := .foldl (fun s c => .signalDone s c r) l s

/-! ## STEP (R342) -/

/-- A job with a STEP in progress. -/
def Job.stepped (j : Job) (r : Nat) (rcd : BitVec 2048) : Job := { j with stepRing := some r, stepNo := BitVec.ofNat 64 (field rcd 128 64) }

/-- The mailbox of a core of a job written, whose row wakes. -/
def mailboxWritten (j : Job) (rcd : BitVec 2048) (s : State) (c : CoreId) : State :=
  wakeFor (inboundDomains (lsBase c)) (s.put (lsBase c + j.mailboxOfs) (mailboxBytes rcd) false)

theorem mailboxWritten_unmoved (j : Job) (rcd : BitVec 2048) (s : State) (c : CoreId) : Unmoved s (mailboxWritten j rcd s c) :=
  ((Unmoved.refl s).put ..).wakeFor _

theorem mailboxWritten_host (j : Job) (rcd : BitVec 2048) (s : State) (c : CoreId) : (mailboxWritten j rcd s c).host = s.host :=
  (wakeFor_host ..).trans (State.put_host ..)

/-- A row that wakes changes no byte. -/
theorem mailboxWritten_sameBytes {s t : State} (h : SameBytes s t) (j : Job) (rcd : BitVec 2048) (c : CoreId) :
    SameBytes (s.put (lsBase c + j.mailboxOfs) (mailboxBytes rcd) false) (mailboxWritten j rcd t c) := (h.put ..).wakeFor _

/-- The mailboxes of a job's cores written. -/
def mailboxesWritten (l : List CoreId) (j : Job) (rcd : BitVec 2048) (s : State) : State := l.foldl (mailboxWritten j rcd) s

section
variable (l : List CoreId) (j : Job) (rcd : BitVec 2048) (s : State)

theorem mailboxesWritten_unmoved : Unmoved s (mailboxesWritten l j rcd s) := .foldl (mailboxWritten_unmoved j rcd) l s

theorem mailboxesWritten_host : (mailboxesWritten l j rcd s).host = s.host :=
  foldl_keeps (·.host) (mailboxWritten j rcd) (mailboxWritten_host j rcd) l s

theorem mailboxesWritten_mem :
    (mailboxesWritten l j rcd s).mem = (l.foldl (fun s c => s.put (lsBase c + j.mailboxOfs) (mailboxBytes rcd) false) s).mem :=
  ((SameBytes.refl s).foldl (fun h c => mailboxWritten_sameBytes h j rcd c) l).mem
end

section
variable {r p : Nat} {s : State} {rcd : BitVec 2048} {j : Job} (hrec : currentRecord s r 2 none = some (p, rcd)) (hjob : (s.part p).job = some j)
  (hbad : badJob s r rcd = false)
include hrec hjob hbad

theorem exec_jobStep_begins (h : j.stepRing = none) : exec (.jobStep r) s
    = .next (signalCores (s.coresOf p) j.mailboxSem.toNat (mailboxesWritten (s.coresOf p) j rcd (s.modJob p fun j => j.stepped r rcd))) := by
  change execJobStep r s = _
  simp only [execJobStep, hrec, hjob, hbad, stepJob, h]
  rfl

theorem exec_jobStep_busy {o : Nat} (h : j.stepRing = some o) (ho : o ≠ r) : exec (.jobStep r) s = .next (completeRecord r (cplStatus 0x0F 0) s) := by
  change execJobStep r s = _
  simp only [execJobStep, hrec, hjob, hbad, stepJob, h]
  rw [if_neg Bool.false_ne_true, if_neg (by simpa using ho)]
  rfl
end

theorem jobStep_claim : Claim.JobStep := by
  intro r s p rcd j hrec hjob hbad
  refine ⟨fun hfree => ⟨_, exec_jobStep_begins hrec hjob hbad hfree, ?begins⟩, fun o ho hne =>
    ⟨_, exec_jobStep_busy hrec hjob hbad ho hne, s, answers_completeRecord (currentRecord_ring hrec) _, rfl⟩⟩
  case begins =>
    generalize hv : mailboxesWritten (s.coresOf p) j rcd (s.modJob p fun j => j.stepped r rcd) = v
    have hmoved := mailboxesWritten_unmoved (s.coresOf p) j rcd (s.modJob p fun j => j.stepped r rcd)
    have hhost := mailboxesWritten_host (s.coresOf p) j rcd (s.modJob p fun j => j.stepped r rcd)
    have hmem := mailboxesWritten_mem (s.coresOf p) j rcd (s.modJob p fun j => j.stepped r rcd)
    rw [hv] at hmoved hhost hmem
    have hcore (c : CoreId) : v.core c = s.core c := State.core_congr hmoved.cores c
    refine ⟨(signalCores_mem ..).trans hmem, fun c hc hreset => ?raised, fun c hc => (core_signalCores_other hc v).trans (hcore c),
      State.ring_congr ((signalCores_host ..).trans hhost) r, ?declared⟩
    case raised =>
      rw [← hcore c] at hreset ⊢
      exact regs_signalCores (s.coresOf_nodup p) hc j.mailboxSem.isLt hreset
    case declared =>
      have hdeclared : (signalCores (s.coresOf p) j.mailboxSem.toNat v).declaredJob p = some (j.stepped r rcd).declared := by
        rw [(SameRun.signalCores ..).job, State.declaredJob_congr hmoved.parts, State.declaredJob, State.job_modJob, hjob]
        rfl
      obtain ⟨k, hk, hsame⟩ := State.job_of_declaredJob hdeclared
      exact ⟨k, hk, (congrArg Job.stepRing hsame :), (congrArg Job.stepNo hsame :), (congrArg Job.gen hsame :)⟩

/-! ## RELEASE stops the cores (R95, R345) -/

theorem KeptIn.stopCore {p : Nat} {s₀ : State} {P : State → Prop} (h : KeptIn p s₀ P) {c : CoreId} (hc : s₀.corePart c = some p) {s : State} (hs : P s) :
    P (stopCore c s) := by
  unfold Machine.stopCore
  split
  · exact h.core _ _ _ hc (fun _ hk => hk) hs
  · exact h.drain hc (h.core _ _ _ hc (fun _ _ => Core.idle_of_stopped rfl) hs)

/-- The cores of a list stopped. -/
def coresStopped (l : List CoreId) (s : State) : State := l.foldl (fun s c => stopCore c s) s

theorem coresStopped_job (l : List CoreId) (s : State) (p : Nat) : (coresStopped l s).declaredJob p = s.declaredJob p :=
  foldl_keeps (State.declaredJob · p) (fun s c => stopCore c s) (fun s c => declaredJob_stopCore s c p) l s

section
variable {p : Nat} {s₀ : State} {c : CoreId}

/-- A core that issues, or waits to, is idle once it has been told to stop. -/
theorem idleAfter_stopCore (hc : s₀.corePart c = some p) {s : State} (hrtp : s.rtp = s₀.rtp)
    (h : (s.core c).ctl.state = .running ∨ (s.core c).ctl.state = .waiting) : IdleAfter c s₀ (stopCore c s) := by
  have hissuing : (s.core c).ctl.state ≠ .dumping := by
    obtain h | h := h <;> rw [h] <;> decide
  rw [stopCore_issuing hissuing]
  refine (IdleAfter.kept p s₀ c).drain hc ⟨hrtp, ?_⟩
  rw [State.core_modCore]
  exact Core.idle_of_stopped rfl

theorem idleAfter_coresStopped {l : List CoreId} (hl : ∀ d ∈ l, s₀.corePart d = some p) (hc : c ∈ l) {s : State} (hrtp : s.rtp = s₀.rtp)
    (h : (s.core c).ctl.state = .running ∨ (s.core c).ctl.state = .waiting) : IdleAfter c s₀ (coresStopped l s) := by
  induction l generalizing s with
  | nil => cases hc
  | cons d l ih =>
    rw [List.forall_mem_cons] at hl
    by_cases hd : c = d
    · subst hd
      exact List.foldlRecOn l _ (idleAfter_stopCore hl.1 hrtp h) fun t ht e he => (IdleAfter.kept p s₀ c).stopCore (hl.2 e he) ht
    · refine ih hl.2 ((List.mem_cons.1 hc).resolve_left hd) ((rtp_kept p s₀).stopCore hl.1 hrtp) ?_
      rwa [core_stopCore_other s hd]
end

/-- The wheels of a list closing. -/
theorem SameRun.wheelsClosed (l : List Nat) (s : State) : SameRun s (l.foldl (fun s w => Machine.closeWheel w true s) s) :=
  .foldl (fun _ _ => .closeWheel ..) l s

section
variable {r p : Nat} {s : State} {rcd : BitVec 2048} (hrec : currentRecord s r 5 none = some (p, rcd))
include hrec

theorem exec_jobRelease (hbad : badJob s r rcd = false) (hfree : (s.part p).releasing = none) : exec (.jobRelease r) s = .next (releaseBegin r p s) := by
  change execJobRelease r s = _
  simp only [execJobRelease, hrec, hbad, hfree]
  rfl

/-! ## RELEASE ends (R345) -/

theorem exec_releaseComplete (hring : (s.part p).releasing = some r) (hready : releaseReady s p = true)
    (hconf : (s.part p).layout.conf = false ∨ (s.part p).job = none) : exec (.releaseComplete r) s
      = .next (completeRecord r cplOk ((releaseJob p (endStep r p s)).modPart p fun q => { q with releasing := none })) := by
  have hgo : ¬ ((s.part p).releasing ≠ some r ∨ (!releaseReady s p) = true) := by simp [hring, hready]
  have hplain : ¬ ((s.part p).layout.conf = true ∧ (s.part p).job.isSome = true) := by
    obtain h | h := hconf <;> simp [h]
  change execReleaseComplete r s = _
  unfold execReleaseComplete
  rw [hrec]
  dsimp only
  rw [if_neg hgo, if_neg hplain]
end

theorem endStep_unmoved (r p : Nat) (s : State) : Unmoved s (endStep r p s) := by
  unfold endStep
  split
  · exact .ite _ (.refl s) (.completeRecord ..)
  · exact .refl s

/-- The STEP that a release ends is another ring's record. -/
theorem endStep_ring (r p : Nat) (s : State) : (endStep r p s).ring r = s.ring r := by
  unfold endStep
  split
  · split
    · rfl
    next hq => exact completeRecord_ring_other (Ne.symm hq) _ s
  · rfl

theorem jobRelease_claim : Claim.JobRelease := by
  refine ⟨fun r s p rcd hrec hbad hfree => ⟨_, exec_jobRelease hrec hbad hfree, ?begins⟩,
    fun r s p rcd hrec hring hready hconf => ⟨_, exec_releaseComplete hrec hring hready hconf, _, answers_completeRecord (rcd := rcd) ?current _, ?ends⟩⟩
  case begins =>
    have hclosed := SameRun.wheelsClosed ((coresStopped (s.coresOf p) s).wheelsOf p) (coresStopped (s.coresOf p) s)
    refine ⟨by rw [releaseBegin, State.part_modPart], ?tag, fun c hc hissues => ?idle⟩
    case tag =>
      have hjob : (releaseBegin r p s).declaredJob p = s.declaredJob p := by
        rw [State.declaredJob, releaseBegin, State.part_modPart]
        exact (hclosed.job p).trans (coresStopped_job ..)
      rw [State.tag_declaredJob, hjob, State.tag_declaredJob]
    case idle =>
      have hidle := (idleAfter_coresStopped (fun d hd => State.corePart_of_mem_coresOf hd) hc rfl hissues).2
      have hstate : ((releaseBegin r p s).core c).ctl.state = ((coresStopped (s.coresOf p) s).core c).ctl.state := hclosed.state c
      rw [hstate]
      exact hidle
  case current =>
    exact (congrArg Ring.current (endStep_ring r p s)).trans (currentRecord_ring hrec)
  case ends =>
    rw [State.part_modPart]
    refine ⟨?_, rfl, fun g hg => bne_iff_ne.1 (List.mem_filter.1 hg).2, (endStep_unmoved r p s).cores⟩
    exact congrArg Part.job (Tbl.getD_put_self ..)

/-! ## A reserved bit of a CONTROL record (R344) -/

theorem completes_controlRecord_reserved {i : Instr} {s : State} {r sub p : Nat} {rcd : BitVec 2048} {named : List (Nat × Nat)}
    {body : Nat → BitVec 2048 → State → State} (hexec : exec i s = controlRecord r sub named body s)
    (hrec : currentRecord s r 4 (some sub) = some (p, rcd)) (hres : controlReserved rcd named = true) :
    Completes i s fun t => ∃ u d, Answers r (cplStatus 0x01 d) u t ∧ u.mem = s.mem ∧ u.cores = s.cores ∧ u.fabric = s.fabric
      ∧ ∀ q, (u.part q).segs = (s.part q).segs ∧ (u.part q).barriers = (s.part q).barriers ∧ (u.part q).grants = (s.part q).grants := by
  have hbad : controlRecord r sub named body s = .next (completeOpen r 0x01 (s.disturb (some p))) := by
    unfold controlRecord
    rw [hrec]
    dsimp only
    rw [if_pos hres]
  have hcurrent : ((s.disturb (some p)).ring r).current = some rcd := by
    rw [State.ring_congr (State.disturb_host ..)]
    exact currentRecord_ring hrec
  obtain ⟨d, hanswers⟩ := answers_completeOpen hcurrent 0x01
  refine ⟨_, hexec.trans hbad, _, d, hanswers, State.disturb_mem .., State.disturb_cores .., State.disturb_fabric .., fun q => ?_⟩
  have hpart : (s.disturb (some p)).fresh.2.part q = (s.disturb (some p)).part q := rfl
  rw [hpart, State.disturb_segs, State.disturb_barriers, State.disturb_grants]
  exact ⟨rfl, rfl, rfl⟩

theorem controlReserved_claim : Claim.ControlReserved := by
  intro row hrow r s p rcd hrec hres
  simp only [List.mem_cons, List.not_mem_nil, or_false] at hrow
  obtain rfl | rfl | rfl | rfl | rfl | rfl | rfl := hrow <;> exact completes_controlRecord_reserved rfl hrec hres

/-- Settles O36: a STEP's semaphores and a release's wheels change no core's state and no job's declaration, and a reserved bit ends the record
before its body. -/
theorem stepsAndRelease : Obligations.StepsAndRelease := ⟨jobStep_claim, jobRelease_claim, controlReserved_claim⟩

end Sys2Proof.Machine
end

section
/-! # ADMIT (R191, R268, R339–R341, R347) -/

namespace Sys2Proof.Machine

/-! ## The checks of an ADMIT (R339, R340) -/

/-- The 512 bytes of an ADMIT's admission block. -/
def admissionBlock (rcd : BitVec 2048) (s : State) : List Byte := s.peek (hostAddr (field rcd 128 64)) 512

/-- The manifest that an admission block names. -/
def admissionManifest (rcd : BitVec 2048) (s : State) : List (BitVec 256) :=
  (List.range (blockNat (admissionBlock rcd s) 0x020 2)).map fun i => BitVec.ofNat 256 (s.peekNat (hostAddr (recImage rcd + 32 * i)) 32)

/-- The job that an ADMIT asks for, placed. -/
def admittedJob (r : Nat) (rcd : BitVec 2048) (partner : PartnerInfo) (bases : Tbl Nat) (s : State) : Job :=
  { jobOf (BitVec.ofNat 32 (recJob rcd)) r (admissionBlock rcd s) (admissionManifest rcd s) bases with
    mirrorBytes := partner.mirrorBytes, mirrorOffset := partner.mirrorOffset }

/-- An ADMIT whose block has passed its checks. -/
def placeAdmission (r p : Nat) (rcd : BitVec 2048) (partner : PartnerInfo) (s : State) : State :=
  match placeJob s p (blockNat (admissionBlock rcd s) 0 8) (blockNat (admissionBlock rcd s) 0x0C 4) with
  | .error u => refuse r 0x05 u s
  | .ok bases =>
    match partnerRefusal s p (admittedJob r rcd partner bases s) partner with
    | some status => completeOpen r status s
    | none =>
      match ((admittedJob r rcd partner bases s).hdmSlots (s.part p).layout.port).find? fun h => (Tbl.get? s.host.hdm h).isSome with
      | some h => refuse r 0x09 (h % 1024) s
      | none => grantJob r p (field rcd 128 64) (admittedJob r rcd partner bases s) s

theorem exec_jobAdmit {r p : Nat} {rcd : BitVec 2048} {s : State} (partner : PartnerInfo) (h : currentRecord s r 1 none = some (p, rcd)) :
    exec (.jobAdmit r partner) s = .next (admitJob r p rcd partner s) := by
  change execJobAdmit r partner s = _
  rw [execJobAdmit, h]

section
variable {r p : Nat} {rcd : BitVec 2048} {partner : PartnerInfo} {s : State}

theorem admitJob_busy (h : (s.part p).job.isSome = true ∨ (s.part p).scrubbing = true ∨ s.layoutTouches p = true) :
    admitJob r p rcd partner s = completeOpen r 0x04 s :=
  if_pos (by simpa [or_assoc] using h)

variable (hjob : (s.part p).job = none) (hscrub : (s.part p).scrubbing = false) (hlayout : s.layoutTouches p = false)
  (hgrant : s.hostGranted p (field rcd 128 64) 512 = true)
include hjob hscrub hlayout hgrant

/-- The first field that fails a check is named. -/
theorem admitJob_invalid {f : Nat × Bool} (hfail : (blockChecks s p (admissionBlock rcd s)).find? (·.2) = some f) :
    admitJob r p rcd partner s = refuse r 0x06 f.1 s := by
  unfold admissionBlock at hfail
  simp [admitJob, hjob, hscrub, hlayout, hgrant, hfail]

variable (hsound : ∀ f ∈ blockChecks s p (admissionBlock rcd s), f.2 = false)
  (hmanifest : blockNat (admissionBlock rcd s) 0x020 2 = 0 ∨ s.hostGranted p (recImage rcd) (32 * blockNat (admissionBlock rcd s) 0x020 2) = true)
include hsound hmanifest

theorem admitJob_sound : admitJob r p rcd partner s = placeAdmission r p rcd partner s := by
  have hbusy : ¬ ((s.part p).job.isSome || (s.part p).scrubbing || s.layoutTouches p) = true := by simp [hjob, hscrub, hlayout]
  have hreach : ¬ (!s.hostGranted p (field rcd 128 64) 512) = true := by simp [hgrant]
  have hnone : (blockChecks s p (admissionBlock rcd s)).find? (·.2) = none := by simpa using hsound
  have hread : ¬ (blockNat (admissionBlock rcd s) 0x020 2 ≠ 0 ∧
      (!s.hostGranted p (recImage rcd) (32 * blockNat (admissionBlock rcd s) 0x020 2)) = true) := by
    obtain h | h := hmanifest <;> simp [h]
  exact (if_neg hbusy).trans <| (if_neg hreach).trans <| by
    change (match (blockChecks s p (admissionBlock rcd s)).find? (·.2) with | some f => _ | none => _) = _
    rw [hnone]
    exact if_neg hread
end

section
variable {r p : Nat} {rcd : BitVec 2048} {partner : PartnerInfo} {s : State}

theorem placeAdmission_noRoom {x : Nat} (h : placeJob s p (blockNat (admissionBlock rcd s) 0 8) (blockNat (admissionBlock rcd s) 0x0C 4) = .error x) :
    placeAdmission r p rcd partner s = refuse r 0x05 x s := by
  rw [placeAdmission, h]

theorem placeAdmission_grants {bases : Tbl Nat}
    (hplace : placeJob s p (blockNat (admissionBlock rcd s) 0 8) (blockNat (admissionBlock rcd s) 0x0C 4) = .ok bases)
    (hpartner : partnerRefusal s p (admittedJob r rcd partner bases s) partner = none)
    (hslots : ∀ h ∈ (admittedJob r rcd partner bases s).hdmSlots (s.part p).layout.port, Tbl.get? s.host.hdm h = none) :
    placeAdmission r p rcd partner s = grantJob r p (field rcd 128 64) (admittedJob r rcd partner bases s) s := by
  have hfree : ((admittedJob r rcd partner bases s).hdmSlots (s.part p).layout.port).find? (fun h => (Tbl.get? s.host.hdm h).isSome) = none :=
    List.find?_eq_none.2 fun h hh => by
      rw [hslots h hh]
      decide
  rw [placeAdmission, hplace]
  dsimp only
  rw [hpartner]
  dsimp only
  rw [hfree]
end

theorem admissionRefused_claim : Claim.AdmissionRefused := by
  intro r partner s p rcd hrec at' b refused
  have hcurrent := currentRecord_ring hrec
  have hexec := exec_jobAdmit partner hrec
  have hrefuse (c : Completion) : refused s (completeRecord r c s) c := ⟨answers_completeRecord hcurrent c, rfl, rfl, rfl⟩
  refine ⟨fun hbusy => ?busy, fun hjob hscrub hlayout hgrant => ⟨fun f hfail => ?invalid, fun x hsound hempty hplace => ?noRoom⟩⟩
  case busy =>
    obtain ⟨d, hanswers⟩ := answers_completeOpen hcurrent 0x04
    rw [admitJob_busy hbusy] at hexec
    exact ⟨_, hexec, _, d, hanswers, rfl, rfl, rfl⟩
  case invalid =>
    rw [admitJob_invalid hjob hscrub hlayout hgrant hfail] at hexec
    exact ⟨_, hexec, s, hrefuse _⟩
  case noRoom =>
    rw [admitJob_sound hjob hscrub hlayout hgrant hsound (.inl hempty), placeAdmission_noRoom hplace] at hexec
    exact ⟨_, hexec, s, hrefuse _⟩

/-! ## Local stores and staging slots (R171, R347) -/

theorem leNat_lt (l : List Byte) : leNat l < 256 ^ l.length := by
  induction l with
  | nil => exact Nat.one_pos
  | cons b l ih =>
    have hb := b.isLt
    rw [leNat, List.length_cons, Nat.pow_succ']
    omega

theorem blockNat_lt (b : List Byte) (ofs n : Nat) : blockNat b ofs n < 256 ^ n :=
  (leNat_lt _).trans_le (Nat.pow_le_pow_right (by decide) (List.length_take_le ..))

theorem isHbm_lsBase (c : CoreId) {ofs : Nat} (h : ofs < 256 ^ 4) : isHbm (lsBase c + ofs) = false := by
  have hc := c.isLt
  rw [isHbm, lsBase, Bool.and_eq_false_iff, decide_eq_false_iff_not, decide_eq_false_iff_not]
  omega

theorem State.put_mem_of_not_hbm (s : State) {a : Nat} (h : isHbm a = false) (data : List Byte) :
    (s.put a data false).mem = Memory.writeBytes s.mem a data := by
  rw [State.put, h, if_neg Bool.false_ne_true, State.store]

/-- A table after entries are put at the places of a list holds each of them. -/
theorem Tbl.get?_foldl_put {α : Type} {t : Tbl α} {key : Nat → Nat} (hkey : ∀ i k, key i = key k → i = k) (f : Nat → α) {l : List Nat} {i : Nat}
    (hi : i ∈ l ∨ Tbl.get? t (key i) = some (f i)) : (l.foldl (fun t k => t.put (key k) (f k)) t).get? (key i) = some (f i) := by
  induction l generalizing t with
  | nil => simpa using hi
  | cons k l ih =>
    refine ih ?_
    by_cases hk : i = k
    · subst hk
      exact .inr (Tbl.get?_put_self ..)
    · rw [Tbl.get?_put_other _ _ fun h => hk (hkey i k h)]
      exact hi.imp_left fun h => (List.mem_cons.1 h).resolve_left hk

theorem mapStaging_hdm (p : Nat) (j : Job) (s : State) {i : Nat} (h : i < j.stagingGib) :
    Tbl.get? (mapStaging p j s).host.hdm (1024 * (s.part p).layout.port + j.hdmSlot + i)
      = some (Tbl.getD j.bases j.stagingPu 0 + (j.stagingOfs + i) * 2 ^ 30) := by
  unfold mapStaging Job.hdmSlots
  dsimp only
  rw [zipIdx_map_range, List.foldl_map, Nat.add_mul, ← Nat.add_assoc]
  exact Tbl.get?_foldl_put (key := fun k => 1024 * (s.part p).layout.port + j.hdmSlot + k)
    (f := fun k => Tbl.getD j.bases j.stagingPu 0 + j.stagingOfs * 2 ^ 30 + k * 2 ^ 30)
    (fun _ _ hk => Nat.add_left_cancel hk) (.inl (List.mem_range.2 h))

/-! ## A job granted (R340, R341) -/

section
variable (s : State) (c : CoreId) (f : FabricRing → FabricRing)

theorem modFabricRing_parts : (s.modFabricRing c f).parts = s.parts := rfl
theorem modFabricRing_host : (s.modFabricRing c f).host = s.host := rfl
theorem modFabricRing_mem : (s.modFabricRing c f).mem = s.mem := rfl
end

/-- Memory with the mailbox and the fabric ring of a core zeroed. -/
def jobStoreCleared (j : Job) (m : Memory) (c : CoreId) : Memory :=
  Memory.writeBytes (Memory.writeBytes m (lsBase c + j.mailboxOfs) (List.replicate 256 0))
    (lsBase c + j.fabricOfs) (List.replicate (0x40 + 64 * j.fabricEntries) 0)

section
variable (j : Job) (s : State) (c : CoreId)

/-- A core's mailbox zeroed. -/
def mailboxCleared : State := wakeFor (inboundDomains (lsBase c)) (s.put (lsBase c + j.mailboxOfs) (zeroBytes 256) false)

/-- A fabric ring's header and entries, zeroed. -/
def emptyFabricRing : List Byte := zeroBytes (0x40 + 64 * j.fabricEntries)

theorem clearJobStore_eq : clearJobStore j s c
    = ((mailboxCleared j s c).put (lsBase c + j.fabricOfs) (emptyFabricRing j) false).modFabricRing c fun _ => .reset := rfl

theorem clearJobStore_parts : (clearJobStore j s c).parts = s.parts := by
  rw [clearJobStore_eq, modFabricRing_parts, State.put_parts, mailboxCleared, wakeFor_parts, State.put_parts]

theorem clearJobStore_host : (clearJobStore j s c).host = s.host := by
  rw [clearJobStore_eq, modFabricRing_host, State.put_host, mailboxCleared, wakeFor_host, State.put_host]

theorem clearJobStore_mem {j : Job} (hmailbox : j.mailboxOfs < 256 ^ 4) (hfabric : j.fabricOfs < 256 ^ 4) :
    (clearJobStore j s c).mem = jobStoreCleared j s.mem c := by
  rw [clearJobStore_eq, modFabricRing_mem, State.put_mem_of_not_hbm _ (isHbm_lsBase c hfabric), mailboxCleared, wakeFor_mem,
    State.put_mem_of_not_hbm _ (isHbm_lsBase c hmailbox)]
  rfl
end

section
variable (p block : Nat) (j : Job) (s : State)

/-- A partition with its job. -/
def Part.withJob (j : Job) (q : Part) : Part := { q with job := some j }

/-- The job in its partition, its staging slots mapped. -/
def jobPlaced : State := mapStaging p j (s.modPart p (Part.withJob j))

/-- The job's local stores zeroed. -/
def jobStores : State := ((jobPlaced p j s).coresOf p).foldl (clearJobStore j) (jobPlaced p j s)

/-- A press unit's ring counts at their start. -/
def pressCleared (s : State) (u : Nat) : State := { s with press := Tbl.del s.press u }

/-- The job's press rings at their start. -/
def jobPresses : State := (pressOf ((jobStores p j s).unitsOf p)).foldl pressCleared (jobStores p j s)

/-- What an admission writes back: the bases and the cave window. -/
def admissionBack : List Byte := (List.range 16).flatMap (fun u => leBytes 8 (Tbl.getD j.bases u 0)) ++ leBytes 8 j.caveWindow

/-- A job granted, before its record completes. -/
def jobGranted : State := (jobPresses p j s).put (hostAddr (block + 0x100)) (admissionBack j) false

theorem grantJob_eq (r : Nat) : grantJob r p block j s = completeRecord r cplOk (jobGranted p block j s) := rfl

theorem jobPlaced_part (q : Nat) : (jobPlaced p j s).part q = (s.modPart p (Part.withJob j)).part q := State.part_congr rfl q

theorem jobGranted_parts : (jobGranted p block j s).parts = (jobPlaced p j s).parts := by
  have hpresses : (jobPresses p j s).parts = (jobStores p j s).parts := foldl_keeps State.parts pressCleared (fun _ _ => rfl) _ _
  have hstores : (jobStores p j s).parts = (jobPlaced p j s).parts := foldl_keeps State.parts _ (clearJobStore_parts j) _ _
  rw [jobGranted, State.put_parts, hpresses, hstores]

theorem jobGranted_host : (jobGranted p block j s).host = (jobPlaced p j s).host := by
  have hpresses : (jobPresses p j s).host = (jobStores p j s).host := foldl_keeps State.host pressCleared (fun _ _ => rfl) _ _
  have hstores : (jobStores p j s).host = (jobPlaced p j s).host := foldl_keeps State.host _ (clearJobStore_host j) _ _
  rw [jobGranted, State.put_host, hpresses, hstores]

theorem jobGranted_job : ((jobGranted p block j s).part p).job = some j := by
  rw [State.part_congr (jobGranted_parts ..), jobPlaced_part, State.part_modPart, Part.withJob]

theorem jobGranted_part_other {q : Nat} (h : q ≠ p) : (jobGranted p block j s).part q = s.part q := by
  rw [State.part_congr (jobGranted_parts ..), jobPlaced_part, State.part_modPart_other _ _ h]

theorem jobGranted_ring (r : Nat) : (jobGranted p block j s).ring r = s.ring r := by
  unfold State.ring
  rw [jobGranted_host]
  rfl

theorem jobGranted_hdm {i : Nat} (h : i < j.stagingGib) :
    Tbl.get? (jobGranted p block j s).host.hdm (1024 * (s.part p).layout.port + j.hdmSlot + i)
      = some (Tbl.getD j.bases j.stagingPu 0 + (j.stagingOfs + i) * 2 ^ 30) := by
  have hstaged := mapStaging_hdm p j (s.modPart p (Part.withJob j)) h
  rw [State.part_modPart] at hstaged
  rw [jobGranted_host]
  exact hstaged

theorem jobGranted_mem {j : Job} (hmailbox : j.mailboxOfs < 256 ^ 4) (hfabric : j.fabricOfs < 256 ^ 4) :
    (jobGranted p block j s).mem
      = Memory.writeBytes ((s.coresOf p).foldl (jobStoreCleared j) s.mem) (hostAddr (block + 0x100)) (admissionBack j) := by
  have hpresses : (jobPresses p j s).mem = (jobStores p j s).mem := foldl_keeps State.mem pressCleared (fun _ _ => rfl) _ _
  have hstores : (jobStores p j s).mem = (s.coresOf p).foldl (jobStoreCleared j) s.mem := by
    rw [jobStores, State.coresOf_congr (t := jobPlaced p j s) (s := s) rfl]
    exact (List.foldl_hom State.mem fun u c => (clearJobStore_mem u c hmailbox hfabric).symm).symm
  rw [jobGranted, State.put_hostAddr_mem, hpresses, hstores]
end

theorem jobAdmission_claim : Claim.JobAdmission := by
  intro r partner s p rcd bases hrec hjob hscrub hlayout at' b n hgrant hsound hmanifest hplace j hpartner hslots
  have hexec := exec_jobAdmit partner hrec
  rw [admitJob_sound hjob hscrub hlayout hgrant hsound hmanifest, placeAdmission_grants hplace hpartner hslots, grantJob_eq] at hexec
  have hcurrent : ((jobGranted p at' j s).ring r).current = some rcd := by
    rw [jobGranted_ring]
    exact currentRecord_ring hrec
  exact ⟨_, hexec, jobGranted p at' j s, answers_completeRecord hcurrent _, jobGranted_job .., fun q hq => jobGranted_part_other _ _ _ _ hq,
    rfl, rfl, rfl, rfl, rfl, fun i hi => jobGranted_hdm _ _ _ _ hi, jobGranted_mem _ _ _ (blockNat_lt b 0x024 4) (blockNat_lt b 0x02C 4)⟩

/-- Settles O35: an ADMIT's checks in their order, and what a granted job writes. -/
theorem admission : Obligations.Admission := ⟨jobAdmission_claim, admissionRefused_claim⟩

end Sys2Proof.Machine
end

section
/-! # The HDM window, CAVE_MAP and the CXL links (R328, R329, R347–R351) -/

namespace Sys2Proof.Machine

/-! ## The parts of an access that lie in one slot each (R350) -/

/-- An access inside one slot is one part. -/
theorem hdmParts_one {addr n : Nat} (hn : 0 < n) (hslot : addr / 2 ^ 30 = (addr + n - 1) / 2 ^ 30) : hdmParts addr n = [(addr, n)] := by
  have hcount : (addr + n - 1) / 2 ^ 30 + 1 - addr / 2 ^ 30 = 1 := by omega
  have hlow : max addr (addr / 2 ^ 30 * 2 ^ 30) = addr := by omega
  have hhigh : min (addr + n) ((addr / 2 ^ 30 + 1) * 2 ^ 30) - addr = n := by omega
  rw [hdmParts, if_neg (by omega), hcount, List.range'_one, List.map_singleton]
  dsimp only
  rw [hlow, hhigh]

/-- An access across the end of a slot is one part before it and one after. -/
theorem hdmParts_two {addr n mid : Nat} (hmid : mid = (addr / 2 ^ 30 + 1) * 2 ^ 30) (hn : 0 < n) (hslot : addr / 2 ^ 30 + 1 = (addr + n - 1) / 2 ^ 30) :
    hdmParts addr n = [(addr, mid - addr), (mid, addr + n - mid)] := by
  have hcount : (addr + n - 1) / 2 ^ 30 + 1 - addr / 2 ^ 30 = 2 := by omega
  have hlow : max addr (addr / 2 ^ 30 * 2 ^ 30) = addr := by omega
  have hend : min (addr + n) mid - addr = mid - addr := by omega
  have hhigh : max addr mid = mid := by omega
  have hrest : min (addr + n) ((addr / 2 ^ 30 + 1 + 1) * 2 ^ 30) - mid = addr + n - mid := by omega
  rw [hdmParts, if_neg (by omega), hcount, List.range'_succ, List.range'_one, List.map_cons, List.map_singleton]
  dsimp only
  rw [← hmid, hlow, hend, hhigh, hrest]

/-! ## A write to the window (R304, R350, R449) -/

section
variable {port addr : Nat} {data : List Byte} {s : State}

theorem exec_hdmWrite_unlinked (poisoned : Bool) (h : s.memLinked port = false) : exec (.hdmWrite port addr data poisoned) s = .next s := by
  change Host.Outcome.next (if !s.memLinked port then s else _) = _
  rw [h]
  rfl

theorem exec_hdmWrite_linked (poisoned : Bool) (h : s.memLinked port = true) : exec (.hdmWrite port addr data poisoned) s
    = .next ((hdmParts addr data.length).foldl (fun s x => hdmWritePart port x.1 ((data.drop (x.1 - addr)).take x.2) poisoned s) s) := by
  change Host.Outcome.next (if !s.memLinked port then s else _) = _
  rw [h]
  rfl

theorem exec_hdmWrite_one (poisoned : Bool) (h : s.memLinked port = true) (hn : 0 < data.length)
    (hslot : addr / 2 ^ 30 = (addr + data.length - 1) / 2 ^ 30) :
    exec (.hdmWrite port addr data poisoned) s = .next (hdmWritePart port addr data poisoned s) := by
  rw [exec_hdmWrite_linked poisoned h, hdmParts_one hn hslot, List.foldl_cons, List.foldl_nil, Nat.sub_self, List.drop_zero, List.take_length]

theorem exec_hdmWrite_two (poisoned : Bool) {mid : Nat} (hmid : mid = (addr / 2 ^ 30 + 1) * 2 ^ 30) (h : s.memLinked port = true)
    (hn : 0 < data.length) (hslot : addr / 2 ^ 30 + 1 = (addr + data.length - 1) / 2 ^ 30) : exec (.hdmWrite port addr data poisoned) s
      = .next (hdmWritePart port mid (data.drop (mid - addr)) poisoned (hdmWritePart port addr (data.take (mid - addr)) poisoned s)) := by
  have hrest : (data.drop (mid - addr)).take (addr + data.length - mid) = data.drop (mid - addr) :=
    List.take_of_length_le (by rw [List.length_drop]; omega)
  rw [exec_hdmWrite_linked poisoned h, hdmParts_two hmid hn hslot, List.foldl_cons, List.foldl_cons, List.foldl_nil]
  dsimp only
  rw [Nat.sub_self, List.drop_zero, hrest]

variable (data) in
theorem hdmWritePart_unmapped (poisoned : Bool) (h : s.hdmAddr port addr = none) : hdmWritePart port addr data poisoned s = s.countRefused := by
  rw [hdmWritePart, h]

variable {a : Nat} (h : s.hdmAddr port addr = some a)
include h

theorem hdmWritePart_absorbed (poisoned : Bool) {p : Nat} (hp : s.unitPart (stackOf a) = some p) (hreset : (s.part p).resetting = true) :
    hdmWritePart port addr data poisoned s = s := by
  simp [hdmWritePart, h, hp, hreset]

/-- Outside a reset the bytes are stored, and poisoned ones are logged besides. -/
theorem hdmWritePart_stored (poisoned : Bool) (hlive : ∀ p, s.unitPart (stackOf a) = some p → (s.part p).resetting = false) :
    hdmWritePart port addr data poisoned s =
      let t := wakeFor (inboundDomains a) (s.put a data poisoned)
      if poisoned then t.logError { source := 0x0E, part := s.unitPart (stackOf a), unit := 0x10 + stackOf a, core := 0x3FF, address := a, detail := 0 }
      else t := by
  have hnone : ((s.unitPart (stackOf a)).any fun q => (s.part q).resetting) = false := by
    cases hp : s.unitPart (stackOf a) with
    | none => rfl
    | some p => exact hlive p hp
  simp only [hdmWritePart, h, hnone]
  rfl
end

/-! ## A read of the window (R350, R450) -/

/-- The state of a read before its first part: nothing is read yet. -/
def hdmCleared (s : State) : State := { s with host := { s.host with hdmData := [], hdmMarked := false } }

/-- What a read of one part adds to what the host has. -/
def hdmReadStep (port : Nat) (s : State) (x : Nat × Nat) : State :=
  let r := hdmReadPart port x.1 x.2 s
  { r.2 with host := { r.2.host with hdmData := r.2.host.hdmData ++ r.1.1, hdmMarked := r.2.host.hdmMarked || r.1.2 } }

section
variable {port addr len : Nat} {s : State}

theorem exec_hdmRead_unlinked (h : s.memLinked port = false) : exec (.hdmRead port addr len) s = .next s := by
  change Host.Outcome.next (if !s.memLinked port then s else _) = _
  rw [h]
  rfl

theorem exec_hdmRead_one (h : s.memLinked port = true) (hn : 0 < len) (hslot : addr / 2 ^ 30 = (addr + len - 1) / 2 ^ 30) :
    exec (.hdmRead port addr len) s = .next (hdmReadStep port (hdmCleared s) (addr, len)) := by
  change Host.Outcome.next (if !s.memLinked port then s else (hdmParts addr len).foldl (hdmReadStep port) (hdmCleared s)) = _
  rw [h, hdmParts_one hn hslot]
  rfl

theorem hdmReadPart_unmapped (h : s.hdmAddr port addr = none) : hdmReadPart port addr len s
    = (((List.range len).map fun i => Config.freeByte (s.free + i), true), { s.countRefused with free := s.free + len }) := by
  rw [hdmReadPart, h]

theorem hdmReadPart_mapped {a : Nat} (h : s.hdmAddr port addr = some a) :
    hdmReadPart port addr len s = ((s.peek a len, s.marked a len), wakeFor (inboundDomains a) s) := by
  rw [hdmReadPart, h]

/-- What the host has read before is no part of what a read finds. -/
theorem peek_hdmCleared (a n : Nat) : (hdmCleared s).peek a n = s.peek a n := by
  have hbytes : SameBytes s (hdmCleared s) := ⟨rfl, rfl, rfl, rfl, rfl⟩
  have hkey : (hdmCleared s).sealedRight a n = s.sealedRight a n := by
    unfold State.sealedRight State.sealOf
    rw [hbytes.sectorKey, hbytes.seals]
  have hsectors : (hdmCleared s).sectorBytes = s.sectorBytes := funext hbytes.sectorBytes
  unfold State.peek
  rw [hkey, hsectors]
  rfl
end

theorem hdmWindow_claim : Claim.HdmWindow := by
  intro port addr len data s one
  refine ⟨fun hlink => ⟨fun poisoned => exec_hdmWrite_unlinked poisoned hlink, exec_hdmRead_unlinked hlink⟩, fun a hlink ha => ⟨?stored, ?absorbed, ?read⟩,
    fun hlink ha => ⟨?discarded, ?poison⟩, fun hlink hn hslot poisoned => ⟨_, exec_hdmWrite_two poisoned rfl hlink hn hslot, rfl⟩⟩
  case stored =>
    intro ⟨hn, hslot⟩ hlive
    have hput (poisoned : Bool) := hdmWritePart_stored (data := data) ha poisoned hlive
    refine ⟨⟨_, exec_hdmWrite_one false hlink hn hslot, hput false⟩, _, exec_hdmWrite_one true hlink hn hslot, ?_⟩
    rw [hput true]
    simp
  case absorbed =>
    intro ⟨hn, hslot⟩ p poisoned hp hreset
    rw [exec_hdmWrite_one poisoned hlink hn hslot, hdmWritePart_absorbed ha poisoned hp hreset]
  case read =>
    intro ⟨hn, hslot⟩
    refine ⟨_, exec_hdmRead_one hlink hn hslot, ?_⟩
    rw [hdmReadStep, hdmReadPart_mapped (s := hdmCleared s) ha, peek_hdmCleared]
    simp [hdmCleared, State.marked]
  case discarded =>
    intro ⟨hn, hslot⟩
    exact ⟨_, exec_hdmWrite_one false hlink hn hslot, hdmWritePart_unmapped data false ha⟩
  case poison =>
    intro ⟨hn, hslot⟩
    refine ⟨_, exec_hdmRead_one hlink hn hslot, ?_⟩
    rw [hdmReadStep, hdmReadPart_unmapped (s := hdmCleared s) ha]
    simp [hdmCleared, State.countRefused]

/-! ## CAVE_MAP (R351) -/

theorem caveMapWrite_claim (port : Fin 2) (e : Fin 8) (v : BitVec 256) (s : State) : let k := 8 * port.val + e.val
    (s.reachable port = true → (∀ p ∈ s.parts, p.2.job = none) → Completes (.caveMapWrite port e v) s fun t =>
      t.host.caveMap[k]? = some v ∧ (∀ f, f ≠ k → t.host.caveMap[f]? = s.host.caveMap[f]?) ∧ t.mem = s.mem ∧ t.cores = s.cores)
    ∧ (s.reachable port = false ∨ (∃ p ∈ s.parts, p.2.job.isSome = true) → exec (.caveMapWrite port e v) s = .next s) := by
  intro k
  have hentry : decide (8 ≤ e.val) = false := decide_eq_false (by omega)
  have hexec : exec (.caveMapWrite port e v) s = .next (writeCaveMap port e v s) := rfl
  refine ⟨fun hlink hfree => ⟨_, hexec, ?_⟩, fun hkept => ?_⟩
  · have hjobs : (s.parts.any fun p => p.2.job.isSome) = false := List.any_eq_false.2 fun p hp => by simp [hfree p hp]
    have hset : writeCaveMap port e v s = { s with host := { s.host with caveMap := s.host.caveMap.setIfInBounds k v } } := by
      simp [writeCaveMap, hlink, hentry, hjobs, k]
    rw [hset]
    exact ⟨Vector.getElem?_setIfInBounds_self_of_lt (by omega), fun f hf => Vector.getElem?_setIfInBounds_ne (Ne.symm hf), rfl, rfl⟩
  · have hrefused : (!s.reachable port || decide (8 ≤ e.val) || s.parts.any fun p => p.2.job.isSome) = true := by
      obtain hlink | hjob := hkept
      · simp [hlink]
      · simp only [Bool.or_eq_true, List.any_eq_true]
        exact .inr hjob
    rw [hexec, writeCaveMap, if_pos hrefused]

/-! ## The training of a link (R328, R329, R435) -/

/-- A port's link at a width and a rate. -/
def State.linkedAt (s : State) (port width rate : Nat) : State :=
  { s with host := { s.host with linkWidth := s.host.linkWidth.setIfInBounds port width, linkRate := s.host.linkRate.setIfInBounds port rate } }

/-- A link that is slower or narrower than it can be is reported. -/
def State.reportLink (s : State) (port rate width : Nat) : State :=
  if rate < 4 ∨ width < s.portWidth then
    (s.linkedAt port width rate).logError { source := 0x0C, part := none, unit := 0x20, core := 0x3FF, address := 0, detail := port }
  else s.linkedAt port width rate

section
variable {port rate width : Nat} {flit : Bool} {s : State} (hport : s.hasPort port = true)
include hport

theorem exec_cxlLinkTrain_fails (h : flit = false ∨ width < 4) : exec (.cxlLinkTrain port rate width flit) s = .next (s.linkedAt port 0 0) := by
  have hfail : (!flit || decide (width < 4)) = true := by simpa using h
  change execCxlLinkTrain port rate width flit s = _
  simp [execCxlLinkTrain, hport, hfail, State.linkedAt]

theorem exec_cxlLinkTrain_links (hflit : flit = true) (hlow : 1 ≤ rate) (hhigh : rate ≤ 4) (hwidth : width ∈ [4, 8, 16])
    (hlanes : width ≤ s.laneWidth port) : exec (.cxlLinkTrain port rate width flit) s = .next (s.reportLink port rate width) := by
  have hwide : width = 4 ∨ width = 8 ∨ width = 16 := by simpa using hwidth
  have hlinks : (!flit || decide (width < 4)) = false := by
    rw [hflit, decide_eq_false (by omega)]
    rfl
  have hmay : s.mayLink port rate width = true := by simp [State.mayLink, hport, hlow, hhigh, hlanes, hwide, or_assoc]
  change execCxlLinkTrain port rate width flit s = _
  simp [execCxlLinkTrain, hport, hlinks, hmay, State.reportLink, State.linkedAt]
end

/-- An error that is logged may send a message, and changes no link. -/
theorem State.logError_links (s : State) (e : ErrorEvent) :
    (s.logError e).host.linkWidth = s.host.linkWidth ∧ (s.logError e).host.linkRate = s.host.linkRate := by
  have hmsix (s : State) (port vector : Nat) : (s.sendMsix port vector).host.linkWidth = s.host.linkWidth
      ∧ (s.sendMsix port vector).host.linkRate = s.host.linkRate := by
    unfold State.sendMsix
    split <;> exact ⟨rfl, rfl⟩
  exact ⟨State.sendErrorMsix_keeps (·.host.linkWidth) (fun s p v => (hmsix s p v).1) _ _ _,
    State.sendErrorMsix_keeps (·.host.linkRate) (fun s p v => (hmsix s p v).2) _ _ _⟩

theorem reportLink_spec (s : State) (port : Fin 2) (rate width : Nat) : let t := s.reportLink port rate width
    t.host.linkWidth[port] = width ∧ t.host.linkRate[port] = rate ∧ t.mem = s.mem ∧ t.cores = s.cores
      ∧ t.errors.counts[0] = if rate < 4 ∨ width < s.portWidth then s.errors.counts[0] + 1 else s.errors.counts[0] := by
  have hlinked : (s.linkedAt port width rate).host.linkWidth[port] = width ∧ (s.linkedAt port width rate).host.linkRate[port] = rate := by
    simp [State.linkedAt]
  intro t
  unfold t State.reportLink
  split
  · obtain ⟨hwidth, hrate⟩ := (s.linkedAt port width rate).logError_links
      { source := 0x0C, part := none, unit := 0x20, core := 0x3FF, address := 0, detail := port }
    exact ⟨(congrArg (fun v : Vector Nat 2 => v[port]) hwidth).trans hlinked.1, (congrArg (fun v : Vector Nat 2 => v[port]) hrate).trans hlinked.2,
      State.logError_mem .., State.logError_cores .., State.logError_counts (n := 0) _ _ rfl (by decide)⟩
  · exact ⟨hlinked.1, hlinked.2, rfl, rfl, rfl⟩

theorem caveMapAndLinks_claim : Claim.CaveMapAndLinks := by
  refine ⟨caveMapWrite_claim, fun port rate width flit s hport => ⟨fun h => ?fails, fun hflit hlow hhigh hwidth hlanes => ?links⟩⟩
  case fails =>
    refine ⟨_, exec_cxlLinkTrain_fails hport h, ?_⟩
    simp [State.linkedAt]
  case links => exact ⟨_, exec_cxlLinkTrain_links hport hflit hlow hhigh hwidth hlanes, reportLink_spec s port rate width⟩

/-- Settles O38: an access to the window is its parts slot by slot; CAVE_MAP and a trained link are each one change of the host's side. -/
theorem hostWindow_settled : Obligations.HostWindow := ⟨hdmWindow_claim, caveMapAndLinks_claim⟩

end Sys2Proof.Machine
end
